-- ==== Sys2Proof/Word.lean ====
section
/-!
DEFINITION. The word types of the device: bytes, 32-bit instruction words, 64-bit scalars and 128-bit registers (spec 00 R5, 02 R35, 08 R150).
-/
namespace Sys2Proof

/-- One byte. -/
abbrev Byte := BitVec 8

/-- A 32-bit instruction word (R150). -/
abbrev W32 := BitVec 32

/-- A scalar, an address or a control register: 64 bits. -/
abbrev W64 := BitVec 64

/-- A register w0 to w23, or a ring entry: 128 bits (R35). -/
abbrev W128 := BitVec 128

/-- Bits 63:0 of a register (R35). -/
abbrev lo64 (x : W128) : W64 := x.setWidth 64

/-- Bits 127:64 of a register. -/
abbrev hi64 (x : W128) : W64 := x.extractLsb' 64 64

/-- A scalar result: bits 127:64 are cleared (R35). -/
abbrev zext128 (x : W64) : W128 := x.setWidth 128

/-- A register from its two halves, the high one first. -/
abbrev mk128 (hi lo : W64) : W128 := hi ++ lo

end Sys2Proof
end

