-- ==== Sys2Proof/Syntax.lean ====
section
/-!
DEFINITION. The syntax of Morfin and of the device's steps: one constructor of Instr per row of the opcode table.
The first part are the instruction words (spec 08, Tables 8-3 to 8-6), with their fields already read;
the second part are the device's own steps (spec 95), whose arguments say which unit, strand (by its internal number), job or queue takes the step.
-/
namespace Sys2Proof

/-- A compute core (`sp = false`) or a spindle (`sp = true`) of a bay: die 0 to 3, bay index 0 to 2,047 (R2, R12). -/
structure UnitId where
  die : Nat
  bay : Nat
  sp  : Bool
deriving DecidableEq, Repr

/-- A source field (Table 2-3): a register, the zero register, or a pop of the input ring. -/
inductive Src where
  | w (i : Fin 24)
  | wz
  | qi
deriving DecidableEq, Repr

/-- A destination field (Table 2-3): a register, the discarding register, or a push to the output ring. -/
inductive Dst where
  | w (i : Fin 24)
  | wz
  | qo
deriving DecidableEq, Repr

/-- A field that names a register or wz only: destinations that are also read, atomics' operand, engine and matrix operands (R158, R207, R271, R306). -/
inductive RegZ where
  | w (i : Fin 24)
  | wz
deriving DecidableEq, Repr

/-- A base field: w0 to w23 only (R37). -/
abbrev Base := Fin 24

/-- A predicate p0 to p31 (R155). -/
abbrev PReg := Fin 32

/-- The guard (R153): the instruction executes when p[p] XOR neg = 1. -/
structure Guard where
  neg : Bool
  p   : Fin 16
deriving DecidableEq, Repr

/-- Condition codes of CMP and CMPI (Table 8-4). -/
inductive Cond where
  | eq | ne | lt | le | gt | ge | ltu | leu | gtu | geu
deriving DecidableEq, Repr

/-- Combine codes of CMP (R180). -/
inductive Combine where
  | set | and | or
deriving DecidableEq, Repr

/-- Lane formats of majors 0x18 and 0x1C (Table 8-4). -/
inductive FFmt where
  | f32 | f64 | f16 | bf16
deriving DecidableEq, Repr

/-- Lane widths of majors 0x19 and 0x1B (Table 8-4). -/
inductive IWidth where
  | i8 | i16 | i32 | i64
deriving DecidableEq, Repr

/-- The from and to codes of CVT (Table 8-4); `int` takes its type from FMT. -/
inductive CvtTy where
  | f64 | f32 | f16 | bf16 | e4m3 | e5m2 | e2m1 | int
deriving DecidableEq, Repr

/-- Kinds of LD and ST (Table 8-4). -/
inductive MKind where
  | ub | uh | uw | d | sb | sh | sw | q
deriving DecidableEq, Repr

/-- Scopes (Table 3-2). -/
inductive Scope where
  | str | bay | clu | die | dev | dom
deriving DecidableEq, Repr

/-- Orders of atomics (Table 8-4). -/
inductive AOrd where
  | rlx | acq | rel | ar
deriving DecidableEq, Repr

/-- Sizes of atomics (Table 8-5): 4, 8 or 16 bytes. -/
inductive ASize where
  | w | d | q
deriving DecidableEq, Repr

/-- The operations of major 0x24 (Table 12-3). -/
inductive AtOp where
  | add | and | or | xor | min | max | minu | maxu | swp | cas | fadd | ldo | sto
deriving DecidableEq, Repr

/-- Which part of a control register a write covers: all 8 bytes, or 4 bytes of either half (R32). -/
inductive WPart where
  | full | low | high
deriving DecidableEq, Repr

/-- Where a write buffer of a die drains to: another die of the package, or another device (R68). -/
inductive Target where
  | die (d : Nat)
  | dev (n : Nat)
deriving DecidableEq, Repr

/-- Who (a strand by its internal number, or an engine job) waits for a device-scope or domain-scope release (R74, R89, R298). -/
inductive Releaser where
  | strand (x : Nat)
  | card (id : Nat)
  | fill (id : Nat)
  | drain (id : Nat)
  | launch (id : Nat)
deriving DecidableEq, Repr

/-- What another device of the domain asks of this one (R320). -/
inductive ForeignKind where
  | load
  | store (v : W128)
  | atomic (op : AtOp) (v : W128)
deriving DecidableEq, Repr

/-- A request that arrives over a scale-up link, with the link's sequence number (R320). -/
structure ForeignReq where
  dev  : Nat
  seq  : Nat
  gpa  : W64
  size : Nat
  kind : ForeignKind
deriving DecidableEq, Repr

/-- The instructions and steps: one constructor per row of the opcode table. -/
inductive Instr where
  /-- ADD (R175): Writes wa plus wb, modulo 2^64, to wd. -/
  | add (d : Dst) (a b : Src) (g : Guard)
  /-- SUB (R175): Writes wa minus wb to wd. -/
  | sub (d : Dst) (a b : Src) (g : Guard)
  /-- AND (R175): Writes the bitwise AND of wa and wb to wd. -/
  | and (d : Dst) (a b : Src) (g : Guard)
  /-- OR (R175): Writes the bitwise OR of wa and wb to wd. -/
  | or (d : Dst) (a b : Src) (g : Guard)
  /-- XOR (R175): Writes the bitwise XOR of wa and wb to wd. -/
  | xor (d : Dst) (a b : Src) (g : Guard)
  /-- ANDN (R175): Writes wa AND NOT wb to wd. -/
  | andn (d : Dst) (a b : Src) (g : Guard)
  /-- SHL (R175): Shifts wa left by wb bits 5:0. -/
  | shl (d : Dst) (a b : Src) (g : Guard)
  /-- SHR (R175): Shifts wa right by wb bits 5:0 with zero fill. -/
  | shr (d : Dst) (a b : Src) (g : Guard)
  /-- SAR (R175): Shifts wa right arithmetically by wb bits 5:0. -/
  | sar (d : Dst) (a b : Src) (g : Guard)
  /-- MUL (R175): Writes the low 64 bits of wa times wb. -/
  | mul (d : Dst) (a b : Src) (g : Guard)
  /-- MULH (R175): Writes the high 64 bits of the signed product. -/
  | mulh (d : Dst) (a b : Src) (g : Guard)
  /-- MULHU (R175): Writes the high 64 bits of the unsigned product. -/
  | mulhu (d : Dst) (a b : Src) (g : Guard)
  /-- MIN (R175): Writes the signed minimum of wa and wb. -/
  | min (d : Dst) (a b : Src) (g : Guard)
  /-- MAX (R175): Writes the signed maximum of wa and wb. -/
  | max (d : Dst) (a b : Src) (g : Guard)
  /-- MINU (R175): Writes the unsigned minimum of wa and wb. -/
  | minu (d : Dst) (a b : Src) (g : Guard)
  /-- MAXU (R175): Writes the unsigned maximum of wa and wb. -/
  | maxu (d : Dst) (a b : Src) (g : Guard)
  /-- CLZ (R175): Writes the count of leading zero bits of wa. -/
  | clz (d : Dst) (a : Src) (g : Guard)
  /-- CTZ (R175): Writes the count of trailing zero bits of wa. -/
  | ctz (d : Dst) (a : Src) (g : Guard)
  /-- POPC (R175): Writes the count of one bits of wa. -/
  | popc (d : Dst) (a : Src) (g : Guard)
  /-- ADDI (R176): Adds a sign-extended immediate to wa. -/
  | addi (d : Dst) (a : Src) (imm : BitVec 11) (g : Guard)
  /-- ANDI (R176): ANDs wa with a zero-extended immediate. -/
  | andi (d : Dst) (a : Src) (imm : BitVec 11) (g : Guard)
  /-- ORI (R176): ORs wa with a zero-extended immediate. -/
  | ori (d : Dst) (a : Src) (imm : BitVec 11) (g : Guard)
  /-- XORI (R176): XORs wa with a zero-extended immediate. -/
  | xori (d : Dst) (a : Src) (imm : BitVec 11) (g : Guard)
  /-- SHLI (R177): Shifts wa left by an immediate count. -/
  | shli (d : Dst) (a : Src) (n : BitVec 6) (g : Guard)
  /-- SHRI (R177): Shifts wa right logically by an immediate count. -/
  | shri (d : Dst) (a : Src) (n : BitVec 6) (g : Guard)
  /-- SARI (R177): Shifts wa right arithmetically by an immediate count. -/
  | sari (d : Dst) (a : Src) (n : BitVec 6) (g : Guard)
  /-- CMP (R180): Compares wa with wb and sets, ANDs or ORs the result into pd. -/
  | cmp (pd : PReg) (a b : Src) (comb : Combine) (cc : Cond) (g : Guard)
  /-- CMPI (R181): Compares wa with an immediate and sets pd. -/
  | cmpi (pd : PReg) (a : Src) (cc : Cond) (imm : BitVec 7) (g : Guard)
  /-- PAND (R182): Sets pd to pa AND pb. -/
  | pand (pd pa pb : PReg) (g : Guard)
  /-- POR (R182): Sets pd to pa OR pb. -/
  | por (pd pa pb : PReg) (g : Guard)
  /-- PXOR (R182): Sets pd to pa XOR pb. -/
  | pxor (pd pa pb : PReg) (g : Guard)
  /-- PANDN (R182): Sets pd to pa AND NOT pb. -/
  | pandn (pd pa pb : PReg) (g : Guard)
  /-- PNOT (R182): Sets pd to NOT pa. -/
  | pnot (pd pa : PReg) (g : Guard)
  /-- PANY (R182): Sets pd to the OR of p16 to p(15+n). -/
  | pany (pd : PReg) (n : BitVec 5) (g : Guard)
  /-- PALL (R182): Sets pd to the AND of p16 to p(15+n). -/
  | pall (pd : PReg) (n : BitVec 5) (g : Guard)
  /-- PRD (R182): Writes the predicate word to wd. -/
  | prd (d : Dst) (g : Guard)
  /-- PWR (R182): Writes p1 to p31 from bits 31:1 of wa. -/
  | pwr (a : Src) (g : Guard)
  /-- MOVI (R178): Writes a sign-extended immediate, widened by a pending IMM, to wd. -/
  | movi (d : Dst) (imm : BitVec 16) (g : Guard)
  /-- DIV (R179): Signed division through the SFU queue, trapping on a zero divisor. -/
  | div (d : Dst) (a b : Src) (g : Guard)
  /-- DIVU (R179): Unsigned division through the SFU queue. -/
  | divu (d : Dst) (a b : Src) (g : Guard)
  /-- REM (R179): Signed remainder through the SFU queue. -/
  | rem (d : Dst) (a b : Src) (g : Guard)
  /-- REMU (R179): Unsigned remainder through the SFU queue. -/
  | remu (d : Dst) (a b : Src) (g : Guard)
  /-- B (R183): Branches to the PC-relative target. -/
  | b (disp : BitVec 21) (g : Guard)
  /-- BL (R183): Branches to the PC-relative target and writes the return address to w22. -/
  | bl (disp : BitVec 21) (g : Guard)
  /-- BR (R184): Branches to the address in wa. -/
  | br (a : Src) (g : Guard)
  /-- BLR (R184): Branches to wa and writes the return address to wd. -/
  | blr (d : Dst) (a : Src) (g : Guard)
  /-- TRAP (R191): Raises a software trap, cause 0x32, with value n. -/
  | trap (n : BitVec 15) (g : Guard)
  /-- SVC (R193): Appends a request to the bay's SVC queue and waits for SVCDONE. -/
  | svc (n : BitVec 15) (g : Guard)
  /-- RFT (R190): Returns from a handler, restoring STS and PC from w20. -/
  | rft (g : Guard)
  /-- HALT (R192): Halts the strand when DBGC.HEN allows it, otherwise raises a breakpoint. -/
  | halt (g : Guard)
  /-- YIELD (R194): Ends the slot's creel quantum at once when the creel holds a strand. -/
  | yield (g : Guard)
  /-- NOP (R194): Does nothing. -/
  | nop (g : Guard)
  /-- CSRR (R186): Reads a control and status register into wd. -/
  | csrr (d : Dst) (csr : BitVec 10) (g : Guard)
  /-- CSRW (R186): Writes ws to a control and status register. -/
  | csrw (csr : BitVec 10) (a : Src) (g : Guard)
  /-- TLBI (R196): Invalidates translations of the partition and waits for completion. -/
  | tlbi (a b : Src) (g : Guard)
  /-- VADD (R208): Adds floating-point lanes. -/
  | vadd (d : Dst) (a b : Src) (f : FFmt) (g : Guard)
  /-- VSUB (R208): Subtracts floating-point lanes. -/
  | vsub (d : Dst) (a b : Src) (f : FFmt) (g : Guard)
  /-- VMUL (R208): Multiplies floating-point lanes. -/
  | vmul (d : Dst) (a b : Src) (f : FFmt) (g : Guard)
  /-- VFMA (R208): Fused multiply-add of lanes into wd. -/
  | vfma (d : RegZ) (a b : Src) (f : FFmt) (g : Guard)
  /-- VFMS (R208): Fused multiply-subtract, z minus x times y, into wd. -/
  | vfms (d : RegZ) (a b : Src) (f : FFmt) (g : Guard)
  /-- VMIN (R209): Writes the lesser of each lane pair. -/
  | vmin (d : Dst) (a b : Src) (f : FFmt) (g : Guard)
  /-- VMAX (R209): Writes the greater of each lane pair. -/
  | vmax (d : Dst) (a b : Src) (f : FFmt) (g : Guard)
  /-- VABS (R208): Clears the sign bit of each lane. -/
  | vabs (d : Dst) (a : Src) (f : FFmt) (g : Guard)
  /-- VNEG (R208): Inverts the sign bit of each lane. -/
  | vneg (d : Dst) (a : Src) (f : FFmt) (g : Guard)
  /-- VCMPEQ (R210): Sets lane predicates where the lanes are equal. -/
  | vcmpeq (a b : Src) (f : FFmt) (g : Guard)
  /-- VCMPLT (R210): Sets lane predicates where wa is less than wb. -/
  | vcmplt (a b : Src) (f : FFmt) (g : Guard)
  /-- VCMPLE (R210): Sets lane predicates where wa is at most wb. -/
  | vcmple (a b : Src) (f : FFmt) (g : Guard)
  /-- VCMPUN (R210): Sets lane predicates where either operand is a NaN. -/
  | vcmpun (a b : Src) (f : FFmt) (g : Guard)
  /-- VRSUM (R211): Sums all lanes of wa in a fixed tree into lane 0. -/
  | vrsum (d : Dst) (a : Src) (f : FFmt) (g : Guard)
  /-- VIADD (R212): Adds integer lanes, optionally saturating. -/
  | viadd (d : Dst) (a b : Src) (w : IWidth) (g : Guard)
  /-- VISUB (R212): Subtracts integer lanes, optionally saturating. -/
  | visub (d : Dst) (a b : Src) (w : IWidth) (g : Guard)
  /-- VIMUL (R212): Multiplies integer lanes, keeping the low bits. -/
  | vimul (d : Dst) (a b : Src) (w : IWidth) (g : Guard)
  /-- VIMIN (R212): Signed minimum of integer lanes. -/
  | vimin (d : Dst) (a b : Src) (w : IWidth) (g : Guard)
  /-- VIMAX (R212): Signed maximum of integer lanes. -/
  | vimax (d : Dst) (a b : Src) (w : IWidth) (g : Guard)
  /-- VIMINU (R212): Unsigned minimum of integer lanes. -/
  | viminu (d : Dst) (a b : Src) (w : IWidth) (g : Guard)
  /-- VIMAXU (R212): Unsigned maximum of integer lanes. -/
  | vimaxu (d : Dst) (a b : Src) (w : IWidth) (g : Guard)
  /-- VAND (R212): Bitwise AND of lanes. -/
  | vand (d : Dst) (a b : Src) (w : IWidth) (g : Guard)
  /-- VOR (R212): Bitwise OR of lanes. -/
  | vor (d : Dst) (a b : Src) (w : IWidth) (g : Guard)
  /-- VXOR (R212): Bitwise XOR of lanes. -/
  | vxor (d : Dst) (a b : Src) (w : IWidth) (g : Guard)
  /-- VSHL (R212): Shifts each lane left. -/
  | vshl (d : Dst) (a b : Src) (w : IWidth) (g : Guard)
  /-- VSHR (R212): Shifts each lane right with zero fill. -/
  | vshr (d : Dst) (a b : Src) (w : IWidth) (g : Guard)
  /-- VSAR (R212): Shifts each lane right arithmetically. -/
  | vsar (d : Dst) (a b : Src) (w : IWidth) (g : Guard)
  /-- VICMPEQ (R212): Sets lane predicates where integer lanes are equal. -/
  | vicmpeq (a b : Src) (w : IWidth) (g : Guard)
  /-- VICMPLT (R212): Sets lane predicates where lanes compare signed less. -/
  | vicmplt (a b : Src) (w : IWidth) (g : Guard)
  /-- VICMPLTU (R212): Sets lane predicates where lanes compare unsigned less. -/
  | vicmpltu (a b : Src) (w : IWidth) (g : Guard)
  /-- CVT (R213): Converts lanes between floating-point and integer formats. -/
  | cvt (d : Dst) (a : Src) (fr dest : CvtTy) (g : Guard)
  /-- VSHUF (R217): Selects lanes of wa by indices in wb. -/
  | vshuf (d : Dst) (a b : Src) (w : IWidth) (g : Guard)
  /-- VSPLAT (R217): Copies lane 0 of wa to every lane. -/
  | vsplat (d : Dst) (a : Src) (w : IWidth) (g : Guard)
  /-- VSEL (R217): Selects each lane from wa or wb by its lane predicate. -/
  | vsel (d : Dst) (a b : Src) (w : IWidth) (g : Guard)
  /-- VEXT (R217): Extracts lane n of wa into lane 0. -/
  | vext (d : Dst) (a : Src) (n : BitVec 5) (w : IWidth) (g : Guard)
  /-- VINS (R217): Inserts lane 0 of wa into lane n of wd. -/
  | vins (d : RegZ) (a : Src) (n : BitVec 5) (w : IWidth) (g : Guard)
  /-- VROT (R217): Rotates the lanes of wa by n. -/
  | vrot (d : Dst) (a : Src) (n : BitVec 5) (w : IWidth) (g : Guard)
  /-- VZIPL (R217): Interleaves the low halves of wa and wb. -/
  | vzipl (d : Dst) (a b : Src) (w : IWidth) (g : Guard)
  /-- VZIPH (R217): Interleaves the high halves of wa and wb. -/
  | vziph (d : Dst) (a b : Src) (w : IWidth) (g : Guard)
  /-- FRCP (R218): Reciprocal of each lane through the SFU. -/
  | frcp (d : Dst) (a : Src) (f : FFmt) (g : Guard)
  /-- FRSQ (R218): Reciprocal square root of each lane through the SFU. -/
  | frsq (d : Dst) (a : Src) (f : FFmt) (g : Guard)
  /-- FSQRT (R218): Square root of each lane through the SFU. -/
  | fsqrt (d : Dst) (a : Src) (f : FFmt) (g : Guard)
  /-- FEXP2 (R218): Two to the power of each lane through the SFU. -/
  | fexp2 (d : Dst) (a : Src) (f : FFmt) (g : Guard)
  /-- FLOG2 (R218): Base-two logarithm of each lane through the SFU. -/
  | flog2 (d : Dst) (a : Src) (f : FFmt) (g : Guard)
  /-- FSIN (R218): sin(pi x) of each lane through the SFU. -/
  | fsin (d : Dst) (a : Src) (f : FFmt) (g : Guard)
  /-- FCOS (R218): cos(pi x) of each lane through the SFU. -/
  | fcos (d : Dst) (a : Src) (f : FFmt) (g : Guard)
  /-- FTANH (R218): Hyperbolic tangent of each lane through the SFU. -/
  | ftanh (d : Dst) (a : Src) (f : FFmt) (g : Guard)
  /-- FSIGM (R218): Logistic sigmoid of each lane through the SFU. -/
  | fsigm (d : Dst) (a : Src) (f : FFmt) (g : Guard)
  /-- FDIV (R218): Divides the lanes of wa by those of wb through the SFU. -/
  | fdiv (d : Dst) (a b : Src) (f : FFmt) (g : Guard)
  /-- LD (R222): Plain load of 1 to 16 bytes into wd. -/
  | ld (d : Dst) (base : Base) (off : BitVec 8) (k : MKind) (g : Guard)
  /-- ST (R222): Plain store of 1 to 16 bytes from ws. -/
  | st (a : Src) (base : Base) (off : BitVec 8) (k : MKind) (g : Guard)
  /-- LDX (R225): Synchronising load that waits for a full word and leaves it empty. -/
  | ldx (d : Dst) (base : Base) (off : BitVec 8) (sc : Scope) (g : Guard)
  /-- STX (R225): Synchronising store that waits for an empty word and leaves it full. -/
  | stx (a : Src) (base : Base) (off : BitVec 8) (sc : Scope) (g : Guard)
  /-- AADD (R226): Atomic add at the home. -/
  | aadd (base : Base) (b : RegZ) (o : AOrd) (sc : Scope) (z : ASize) (g : Guard)
  /-- AAND (R226): Atomic AND at the home. -/
  | aand (base : Base) (b : RegZ) (o : AOrd) (sc : Scope) (z : ASize) (g : Guard)
  /-- AOR (R226): Atomic OR at the home. -/
  | aor (base : Base) (b : RegZ) (o : AOrd) (sc : Scope) (z : ASize) (g : Guard)
  /-- AXOR (R226): Atomic XOR at the home. -/
  | axor (base : Base) (b : RegZ) (o : AOrd) (sc : Scope) (z : ASize) (g : Guard)
  /-- AMIN (R226): Atomic signed minimum at the home. -/
  | amin (base : Base) (b : RegZ) (o : AOrd) (sc : Scope) (z : ASize) (g : Guard)
  /-- AMAX (R226): Atomic signed maximum at the home. -/
  | amax (base : Base) (b : RegZ) (o : AOrd) (sc : Scope) (z : ASize) (g : Guard)
  /-- AMINU (R226): Atomic unsigned minimum at the home. -/
  | aminu (base : Base) (b : RegZ) (o : AOrd) (sc : Scope) (z : ASize) (g : Guard)
  /-- AMAXU (R226): Atomic unsigned maximum at the home. -/
  | amaxu (base : Base) (b : RegZ) (o : AOrd) (sc : Scope) (z : ASize) (g : Guard)
  /-- ASWP (R226): Atomic swap at the home. -/
  | aswp (base : Base) (b : RegZ) (o : AOrd) (sc : Scope) (z : ASize) (g : Guard)
  /-- ACAS (R226): Atomic compare-and-swap at the home. -/
  | acas (base : Base) (b : RegZ) (o : AOrd) (sc : Scope) (z : ASize) (g : Guard)
  /-- AFADD (R226): Atomic floating-point add at the home. -/
  | afadd (base : Base) (b : RegZ) (o : AOrd) (sc : Scope) (z : ASize) (g : Guard)
  /-- LDO (R226): Ordered load performed at the home. -/
  | ldo (base : Base) (b : RegZ) (o : AOrd) (sc : Scope) (z : ASize) (g : Guard)
  /-- STO (R226): Ordered store performed at the home. -/
  | sto (base : Base) (b : RegZ) (o : AOrd) (sc : Scope) (z : ASize) (g : Guard)
  /-- FENCE_ACQ (R77): Acquire fence that applies and clears pa at device or domain scope. -/
  | fenceAcq (sc : Scope) (g : Guard)
  /-- FENCE_REL (R74): Release fence at the named scope. -/
  | fenceRel (sc : Scope) (g : Guard)
  /-- FENCE_AR (R77): Release then acquire fence at the named scope. -/
  | fenceAr (sc : Scope) (g : Guard)
  /-- FENCE_SC (R80): SC fence that enters the SC-fence log and applies earlier stamps. -/
  | fenceSc (sc : Scope) (g : Guard)
  /-- TDEF (R230): Sets BASE and LEN of an empty tile. -/
  | tdef (a : Src) (t : BitVec 6) (g : Guard)
  /-- TRD (R231): Starts a unicast fill of a tile from memory. -/
  | trd (a : Src) (t : BitVec 6) (g : Guard)
  /-- TRD_MC (R232): Shuttle sends start messages for a masked multicast fill of tile t in several bays. -/
  | trdMc (a b : Src) (t : BitVec 6) (g : Guard)
  /-- TWR (R234): Starts a drain of a ready tile to memory. -/
  | twr (a : Src) (t : BitVec 6) (g : Guard)
  /-- TREL (R234): Moves a ready tile to empty and applies its completion stamp. -/
  | trel (t : BitVec 6) (g : Guard)
  /-- TSTAT (R234): Writes the tile-table entry word to wa. -/
  | tstat (d : Dst) (t : BitVec 6) (g : Guard)
  /-- SBIND_IN (R235): Binds qi to ring k of the issuing unit and opens the ring. -/
  | sbindIn (a : Src) (r : BitVec 3) (g : Guard)
  /-- SBIND_OUT (R235): Binds qo to ring k of a consumer with a producer index. -/
  | sbindOut (a : Src) (r : BitVec 3) (g : Guard)
  /-- QWAIT (R237): Waits with its own limit for ring k to be non-empty or ended. -/
  | qwait (d : Dst) (r : BitVec 3) (lim : BitVec 5) (g : Guard)
  /-- SEOS (R238): Posts end-of-stream for the producer and clears the qo binding. -/
  | seos (g : Guard)
  /-- SCLOSE (R238): Returns ring k to free and discards its entries. -/
  | sclose (r : BitVec 3) (g : Guard)
  /-- DLV (R239): Posts a 128-bit value to register n of a named strand. -/
  | dlv (a b : Src) (n : Base) (g : Guard)
  /-- MDLV (R240): Delivers a value to register n of the masked slots of a unit and waits for every reply. -/
  | mdlv (a b : Src) (n : Base) (g : Guard)
  /-- WAITP (R241): Waits for the presence bit of register a to be set. -/
  | waitp (a : Base) (lim : BitVec 5) (g : Guard)
  /-- CLRP (R241): Clears the presence bit of register a. -/
  | clrp (a : Base) (g : Guard)
  /-- MBX (R242): Waits while mailbox m is full, then writes wa into it. -/
  | mbx (a : Src) (m : BitVec 2) (g : Guard)
  /-- MBR (R242): Waits while mailbox m is empty, then takes its contents. -/
  | mbr (d : Dst) (m : BitVec 2) (g : Guard)
  /-- MWAIT (R243): Waits until landed-packet counter n reaches the expected count, then subtracts it. -/
  | mwait (a : Src) (c : BitVec 4) (l : BitVec 4) (g : Guard)
  /-- CNTI (R245): Sends a token into a counter instance and receives an index and value. -/
  | cnti (d : Dst) (a : Src) (g : Guard)
  /-- CNTD (R245): Sends an antitoken that reclaims one held index. -/
  | cntd (d : Dst) (a : Src) (g : Guard)
  /-- CBAR (R245): Makes a barrier arrival, with a release, and receives its index and phase. -/
  | cbar (d : Dst) (a : Src) (g : Guard)
  /-- CWAIT (R245): Waits for a barrier phase to be released. -/
  | cwait (a b : Src) (g : Guard)
  /-- CQRY (R119): Sweeps an instance's exits and returns the query word. -/
  | cqry (d : Dst) (a : Src) (g : Guard)
  /-- SPAWN_BOUND (R246): Head spawns a bound strand in a free slot or the creel. -/
  | spawnBound (d : Dst) (a b : Src) (g : Guard)
  /-- SPAWN_FOLLOW (R246): Head spawns a data-following strand. -/
  | spawnFollow (d : Dst) (a b : Src) (g : Guard)
  /-- SPAWN_POS (R246): Head spawns a position-bound strand of the bay's field. -/
  | spawnPos (d : Dst) (a b : Src) (g : Guard)
  /-- SPAWN_SHUTTLE (R246): Head places a bound shuttle strand in slot 15, waiting until it is free. -/
  | spawnShuttle (d : Dst) (a b : Src) (g : Guard)
  /-- REAP (R247): Head waits for a slot's strand to stop, takes its exit word and frees the slot. -/
  | reap (d : Dst) (a : Src) (g : Guard)
  /-- STOP (R247): Stops the strand with an exit word after its outstanding operations retire. -/
  | stop (a : Src) (g : Guard)
  /-- MIGR (R248): Moves a data-following strand to a named unit. -/
  | migr (a : Src) (g : Guard)
  /-- WIDF (R249): Extracts field k of a work identifier. -/
  | widf (d : Dst) (a : Src) (k : BitVec 3) (g : Guard)
  /-- SLOTID (R249): Writes the strand's own name. -/
  | slotid (d : Dst) (g : Guard)
  /-- POSR (R250): Writes the strand's settled field entry. -/
  | posr (d : Dst) (g : Guard)
  /-- NBR_FIRST (R251): Starts a neighbour enumeration of radius r and returns the first neighbour. -/
  | nbrFirst (d : Dst) (a : Src) (g : Guard)
  /-- NBR_NEXT (R251): Returns the next neighbour of the cursor. -/
  | nbrNext (d : Dst) (g : Guard)
  /-- SETTLE (R146): Publishes the strand's position, arrives on the settle barrier and waits for the phase. -/
  | settle (g : Guard)
  /-- FMAP (R250): Writes the name of the bay whose box holds a point. -/
  | fmap (d : Dst) (a : Src) (g : Guard)
  /-- FORK_SEQ (R268): Beater starts a matrix-sequencer job on a step list, binding handle h. -/
  | forkSeq (a b : RegZ) (h : BitVec 5) (g : Guard)
  /-- FORK_LOAD (R308): Posts a load-program card and binds handle h. -/
  | forkLoad (a b : RegZ) (h : BitVec 5) (g : Guard)
  /-- FORK_STORE (R308): Posts a store-program card and binds handle h. -/
  | forkStore (a b : RegZ) (h : BitVec 5) (g : Guard)
  /-- FORK_COPY (R308): Posts a copy card, binds handle h and returns the transfer word. -/
  | forkCopy (a b : RegZ) (h : BitVec 5) (g : Guard)
  /-- RDV (R310): Waits for the job bound to handle h, applies its stamp and frees h. -/
  | rdv (h : BitVec 5) (g : Guard)
  /-- JOB (R309): Posts a copy card without a handle and returns the transfer word. -/
  | job (a : RegZ) (g : Guard)
  /-- XID (R311): Reads a copy channel's watermark, NEXT and last error. -/
  | xid (a b : RegZ) (g : Guard)
  /-- XWAIT (R312): Waits until a transfer ID of a channel has completed and applies the stamps. -/
  | xwait (a b : RegZ) (g : Guard)
  /-- MXCFG (R272): Joins or leaves a loom from a scratchpad descriptor. -/
  | mxcfg (a : RegZ) (g : Guard)
  /-- MXZ (R273): Resets chunk counts and queues a zeroing of the accumulator. -/
  | mxz (g : Guard)
  /-- MXRUN (R274): Queues the product of chunk RUNK into its partial bank. -/
  | mxrun (a b : RegZ) (g : Guard)
  /-- MXPROM (R275): Queues the promotion of chunk PROMK into the accumulator. -/
  | mxprom (a : RegZ) (g : Guard)
  /-- MXST (R276): Queues a converted store of the accumulator to the scratchpad. -/
  | mxst (a b : RegZ) (g : Guard)
  /-- MXPERM (R277): Copies a 64 by 64 block through a row map, optionally transposed. -/
  | mxperm (d a b : RegZ) (g : Guard)
  /-- SEMW (R267): Takes one count of semaphore s or parks on it. -/
  | semw (sem : BitVec 3) (g : Guard)
  /-- SEMS (R267): Adds one to semaphore s, releasing the oldest parked SEMW. -/
  | sems (sem : BitVec 3) (g : Guard)
  /-- ASN (R280): Posts an Assignment Engine job from a descriptor and binds handle h. -/
  | asn (a b : RegZ) (h : BitVec 5) (g : Guard)
  /-- IMM (R161): Sets PPX and holds 22 high immediate bits for the next instruction. -/
  | imm (v : BitVec 22)
  /-- FMT (R162): Sets PPX and holds format, rounding, mask and saturation fields for the next instruction. -/
  | fmt (sat mask : Bool) (rnd : BitVec 3) (ty : BitVec 4)
  /-- HINT_BRANCH_TARGET (R163): Names a likely branch target for fetch. -/
  | hintBranchTarget (o : BitVec 16)
  /-- HINT_NO_BORROW (R163): Asks that the strand borrow no turn for its next 16 turns. -/
  | hintNoBorrow (o : BitVec 16)
  /-- HINT (R163): Hint word with any other code, which has no effect. -/
  | hint (o : BitVec 16) (code : BitVec 8)
  /-- ILLEGAL_INSTRUCTION (R159): A word with an unassigned or 0x00 major, or a hint word of class 0b11, traps as illegal when it would issue. -/
  | illegalInstruction (w : W32)
  /-- LAUNCH (R298): Command-list entry that checks a header and sends launch packets. -/
  | launch (tag q : Nat)
  /-- WAITFC (R295): Command-list entry that waits until a fence counter reaches V. -/
  | waitfc (tag q : Nat)
  /-- SIGFC (R293): Command-list entry that adds A to a fence counter. -/
  | sigfc (tag q : Nat)
  /-- SKIPIF (R294): Command-list entry that skips the next entry when a masked word meets a condition. -/
  | skipif (tag q : Nat)
  /-- JUMP (R293): Command-list entry that sets PC to a target. -/
  | jump (tag q : Nat)
  /-- CALL (R293): Command-list entry that pushes a return address and jumps. -/
  | call (tag q : Nat)
  /-- RET (R293): Command-list entry that pops PC from the return stack. -/
  | ret (tag q : Nat)
  /-- PATCH (R294): Command-list entry that performs a masked read-modify-write at the home. -/
  | patch (tag q : Nat)
  /-- LIST_JOB (R299): Command-list entry that posts a job card. -/
  | listJob (tag q : Nat)
  /-- DEFERRED_TRAP (R187): A trap raised after issue is taken at the strand's next turn. -/
  | deferredTrap (x : Nat)
  /-- TRAP_RECORD_WRITE (R314): A trap record held in the bay is written once the trap queue has room. -/
  | trapRecordWrite (x : Nat)
  /-- XTR_RESUME (R316): Write of XTR with resume returns a held strand to rotation. -/
  | xtrResume (tag seq : Nat)
  /-- XTR_STOP (R316): Write of XTR with stop stops a held strand with exit word 0x8000_0000_0000_0000 plus cause. -/
  | xtrStop (tag seq : Nat)
  /-- DBGC_RESUME (R192): Host write of 1 to a DBGC.RES bit resumes a halted slot. -/
  | dbgcResume (u : UnitId) (slots : BitVec 16)
  /-- SVCQ (R193): Read of SVCQ by the head returns and removes the oldest SVC queue entry. -/
  | svcq (u : UnitId) (tag : Nat) (d : Dst)
  /-- SVCDONE (R193): Write of SVCDONE by the head resumes the named caller after SVC. -/
  | svcdone (u : UnitId) (tag : Nat) (v : W64)
  /-- FEFILL (R195): Write of FEFILL marks a range of scratchpad words full and retests their park tables. -/
  | fefill (die bay : Nat) (v : W64)
  /-- FEEMPTY (R195): Write of FEEMPTY marks a range of scratchpad words empty and retests their park tables. -/
  | feempty (die bay : Nat) (v : W64)
  /-- REGISTER_WRITE (R32): Write to a control-space or CSR register with no row of its own, under its access rules. -/
  | registerWrite (writer die off : Nat) (v : W64) (part : WPart)
  /-- COUNTER_DESCRIPTOR_WRITE (R105): Accepted write of a counter-instance descriptor drains and clears the instance. -/
  | counterDescriptorWrite (writer die inst word : Nat) (v : W64) (part : WPart)
  /-- XFR_REPLAY (R31): Write of XFR with replay reissues every parked access of the FID. -/
  | xfrReplay (tag fid : Nat)
  /-- XFR_FAIL (R31): Write of XFR with fail traps each parked strand and stops each parked engine channel. -/
  | xfrFail (tag fid : Nat)
  /-- MISS_QUEUE_ENTRY (R26): A held cluster-TLB miss enters the walker's miss queue and merges or queues a walk. -/
  | missQueueEntry (die i : Nat)
  /-- WALK_TABLE_READ (R27): One table read of a walk at the entry's home slice as a device-scope acquire. -/
  | walkTableRead (die i : Nat)
  /-- WALK_END (R28): A walk ends, installs its result and refuses or completes each merged requester. -/
  | walkEnd (die i : Nat)
  /-- FAULT_RECORD_DEFERRED_WRITE (R30): A fault record held in a walk slot is written when queue space appears. -/
  | faultRecordDeferredWrite (tag : Nat)
  /-- TLBI_COMPLETE (R27): A TLBI completes once no covered translation remains and covered accesses are performed. -/
  | tlbiComplete (x : Nat)
  /-- WRITE_BUFFER_DRAIN (R68): The oldest entry of a remote or link write-buffer FIFO is performed at its home. -/
  | writeBufferDrain (die : Nat) (dest : Target)
  /-- LINK_WRITE_ACK (R68): The acknowledgement of a link drain returns and the entry leaves the link FIFO. -/
  | linkWriteAck (die dev : Nat)
  /-- RDC_EXPIRY (R71): An RDC copy leaves the cache by replacement or at its lease end. -/
  | rdcExpiry (die i : Nat)
  /-- HOME_ACCESS (R69): A remote or foreign load, atomic or synchronising access is performed at its home once enabled. -/
  | homeAccess (x : Nat)
  /-- DEVICE_RELEASE (R74): A device- or domain-scope release completes once the die's buffers have drained. -/
  | deviceRelease (r : Releaser)
  /-- STREAM_MODE_END (R49): A stream detector leaves stream mode after 64 idle spindle cycles. -/
  | streamModeEnd (u : UnitId) (k : Nat)
  /-- PARK_TABLE_TIMEOUT (R42): A parked synchronising access that waited FEWAIT cycles leaves the table with a retry reply. -/
  | parkTableTimeout (die bay i : Nat)
  /-- RETRY_REISSUE (R42): A requester reissues a synchronising access after a retry reply, trapping after FERETRY reissues. -/
  | retryReissue (x : Nat)
  /-- FILL_READ (R233): A fill read reaches an L2 slice and joins or takes a fill-merge entry, or waits. -/
  | fillRead (id line : Nat)
  /-- FILL_READ_STEP (R233): The slice performs one read step for a fill-merge entry and sends one reply packet. -/
  | fillReadStep (die bay i : Nat)
  /-- TILE_LANDING (R92): A fill packet lands in a tile and decrements PEND. -/
  | tileLanding (id i : Nat)
  /-- MULTICAST_START_ACCEPT (R232): A receiving bay accepts a multicast start once its tile is empty or ready. -/
  | multicastStartAccept (id i : Nat)
  /-- TILE_DRAIN_STORE (R93): One 128-byte unit of a drain is read from the tile and stored to its destination. -/
  | tileDrainStore (id line : Nat)
  /-- TILE_DRAIN_READY (R93): When every drain store is performed, the drain completes and the tile becomes ready. -/
  | tileDrainReady (id : Nat)
  /-- STREAM_PUSH (R94): A push is performed at the consumer's ring once it is open and has room. -/
  | streamPush (x : Nat)
  /-- STREAM_PUSH_TIMEOUT (R56): A push to a full ring traps after 2^LIMEXP core cycles. -/
  | streamPushTimeout (x : Nat)
  /-- STREAM_TIMEOUT (R57): A pop or QWAIT on an empty open ring traps after its limit. -/
  | streamTimeout (x : Nat)
  /-- HEDDLE_STEP (R112): A token or antitoken passes one heddle, in a die network or the package tree. -/
  | heddleStep (die inst i : Nat)
  /-- EXIT_STEP (R112): A token or antitoken reaches an exit station, takes or reclaims an index, or parks. -/
  | exitStep (die inst i : Nat)
  /-- BARRIER_TIMEOUT (R116): A parked barrier or settle wait traps when its bounded wait expires. -/
  | barrierTimeout (x : Nat)
  /-- MIGRATION_DEPART (R133): A migrating strand leaves its slot at its turn as a 512-byte packet. -/
  | migrationDepart (x : Nat)
  /-- MIGRATION_LANDING (R81): A migration packet lands in a free slot or the creel and takes the arrival order step. -/
  | migrationLanding (id : Nat)
  /-- CREEL_QUANTUM_END (R131): A worker slot's quantum ends and its strand swaps with the creel head. -/
  | creelQuantumEnd (x : Nat)
  /-- MESSAGE_DELIVERY (R135): A message naming a strand is delivered or dropped with ORPH incremented. -/
  | messageDelivery (id : Nat)
  /-- MDLV_SLOT_DELIVERY (R240): An MDLV delivery to one slot is made once its presence bit is clear. -/
  | mdlvSlotDelivery (x : Nat) (slot : Nat)
  /-- PRESENCE_WAIT_TIMEOUT (R221): A WAITP or MDLV wait traps with cause 0x27 when its limit expires. -/
  | presenceWaitTimeout (x : Nat)
  /-- MAILBOX_COUNT_TIMEOUT (R243): An MWAIT expectation expires, is withdrawn and traps with cause 0x2D. -/
  | mailboxCountTimeout (x : Nat)
  /-- SFU_QUEUE_HEAD (R137): An SFU request reaches the head of the queue, is checked and served or withdrawn. -/
  | sfuQueueHead (u : UnitId)
  /-- OPERATION_REPLY (R126): A reply or result returns and the waiting strand rejoins rotation. -/
  | operationReply (x : Nat)
  /-- WATCHDOG_EXPIRY (R329): A slot's hang count reaches 2^LIM and the strand is held with a watchdog record. -/
  | watchdogExpiry (x : Nat)
  /-- JOB_START (R88): A card's start step once all predecessors have completed. -/
  | jobStart (id : Nat)
  /-- JOB_ELEMENT (R88): One read or write element of a job card is performed. -/
  | jobElement (id i : Nat)
  /-- JOB_COMPLETION (R89): A card completes with a device-scope release and a completion stamp. -/
  | jobCompletion (id : Nat)
  /-- PACKET_LANDING (R90): A copy packet lands at a receiving bay and increments its landed-packet counter. -/
  | packetLanding (id i : Nat)
  /-- PROGRAM_STRAND_START (R302): A program card starts a bound strand on its spindle once a slot is free. -/
  | programStrandStart (id : Nat)
  /-- SEQUENCER_STEP (R268): The matrix sequencer performs the next step of its list. -/
  | sequencerStep (die bay tag : Nat)
  /-- MXU_OP_START (R263): An operation of the MXU queue starts in queue order. -/
  | mxuOpStart (die bay tag : Nat)
  /-- MXU_OP_COMPLETE (R264): An MXU operation completes and signals its semaphore. -/
  | mxuOpComplete (die bay tag : Nat)
  /-- OPERAND_MESSAGE (R255): An A or B operand fragment is accepted from a loom neighbour and forwarded. -/
  | operandMessage (id : Nat)
  /-- SCALE_REQUEST (R260): The scale server reads requested scales and multicasts them to a loom row or column pair. -/
  | scaleRequest (id : Nat)
  /-- OPERAND_TIMEOUT (R270): An MXRUN waiting beyond 2^OPLIM for operands sets deferred loom error 3. -/
  | operandTimeout (die bay tag : Nat)
  /-- SCALE_TIMEOUT (R270): An MXPROM waiting beyond 2^OPLIM for scales sets deferred loom error 4. -/
  | scaleTimeout (die bay tag : Nat)
  /-- ASN_START (R282): The Assignment Engine starts a job, checks its values and reads its inputs. -/
  | asnStart (die cluster : Nat)
  /-- ASN_ROUND (R285): One Jacobi auction round of bids and awards, ending phases and the job when due. -/
  | asnRound (die cluster : Nat)
  /-- TRANSFER_WAIT_TIMEOUT (R312): An XWAIT traps with cause 0x4D when its limit expires. -/
  | transferWaitTimeout (x : Nat)
  /-- LAUNCH_PACKET (R298): A launch packet starts the head strand once the tenant's slot 0 is free. -/
  | launchPacket (id : Nat)
  /-- SLICE_EXPIRY (R304): A tenant's time slice elapses and the island serving rule is applied again. -/
  | sliceExpiry (island : Nat)
  /-- HAND_OVER (R323): The scheduler's hand-over message changes each slot's tenant at its turn. -/
  | handOver (island tag : Nat)
  /-- RANGE_LOADED (R324): An incoming tenant's scratchpad range has been loaded and its strands may issue. -/
  | rangeLoaded (die bay tag : Nat)
  /-- PARTITION_RESET (R327): An FLR or firmware write resets one partition by drain, purge, counters, scrub and return. -/
  | partitionReset (tag : Nat)
  /-- PF0_RESET (R330): A reset of physical function 0 resets every partition and then firmware state. -/
  | pf0Reset
  /-- POWER_GOOD (R332): Power-good begins stage 0 of the staged start. The device number and the numbers of the other devices of the
  domain are the configuration's (R331, log 6). -/
  | powerGood (dev : BitVec 14) (domain : List Nat)
  /-- ISLAND_START (R332): An island starts in stage 1, trains its vaults and runs its self-test. -/
  | islandStart (island : Nat) (pass : Bool)
  /-- LINK_RETRAIN (R320): A scale-up link retrains and lost foreign requests are reissued. -/
  | linkRetrain (dev : Nat)
  /-- LINK_FAILURE (R320): A link that cannot retrain resolves its outstanding requests by fail with cause 0x18. -/
  | linkFailure (dev : Nat)
  /-- FOREIGN_REQUEST (R320): A receiving device performs a foreign request once, answering repeats from its record. -/
  | foreignRequest (r : ForeignReq)
  /-- LANE_RECALIBRATION (R335): One link lane is recalibrated while the port runs on the rest. -/
  | laneRecalibration (die : Nat) (host out : Bool)
  /-- BAY_SPARING (R336): A failed bay is evicted, its vault copied to the spare, and the spare takes its index. -/
  | baySparing (die bay : Nat)
  /-- ISLAND_UPDATE (R334): A firmware update empties, updates and self-tests one island. -/
  | islandUpdate (island : Nat) (pass : Bool)
  /-- UNCORRECTABLE_ERROR (R50): An uncorrectable ECC error poisons its line. -/
  | uncorrectableError (die bay line : Nat)
  /-- GET_VERSION (R337): SPDM request for the supported versions. -/
  | getVersion
  /-- GET_CAPABILITIES (R337): SPDM request for the device's capabilities. -/
  | getCapabilities
  /-- NEGOTIATE_ALGORITHMS (R337): SPDM request that settles P-521 and SHA-512. -/
  | negotiateAlgorithms (p521 sha512 : Bool)
  /-- GET_DIGESTS (R337): SPDM request for certificate chain digests. -/
  | getDigests
  /-- GET_CERTIFICATE (R337): SPDM request for the certificate chain. -/
  | getCertificate (off len : Nat)
  /-- CHALLENGE (R337): SPDM challenge signed with the device identity key. -/
  | challenge (nonce : BitVec 256)
  /-- GET_MEASUREMENTS (R337): SPDM request for boot ROM, firmware, fuse and ISLCFG measurements. -/
  | getMeasurements (nonce : BitVec 256)
  /-- METER_INCREMENT (R338): A unit reports a usage-meter increment to the security processor. -/
  | meterIncrement (tag meter amount : Nat)
  /-- METER_SNAPSHOT (R339): A nonce request returns a signed snapshot of a partition's meters. -/
  | meterSnapshot (tag : Nat) (nonce : BitVec 256)
  /-- BUDGET_EXHAUSTED (R304): A resident tenant's budget b_v falls to 0 or below, and the island yields it when a rival is eligible at its level or lower. -/
  | budgetExhausted (island : Nat)
  /-- THERMAL_THROTTLE_EVENT (R329): Power, thermal or bandwidth throttling of a bay begins or ends, which stops the hang watchdog counting and is counted in RASLOG.THERM. -/
  | thermalThrottleEvent (die bay : Nat) (begins : Bool)
  /-- CORRECTED_ERROR (R50): A single-bit ECC error is corrected and counted in RASLOG.CORR. -/
  | correctedError (die : Nat)
  /-- FLIT_RETRY (R320): The scale-up link layer retries a damaged flit and counts it in RASLOG.LRETRY. -/
  | flitRetry (die : Nat)
deriving DecidableEq, Repr

end Sys2Proof
end

