-- ==== Sys2Proof/WellFormed.lean ====
section
/-!
DEFINITION. Well-formed instructions: the values that the fields of spec 08 (R153, R155 to R160, Tables 8-3 to 8-6) admit, and
the ranges of the units that a step names (00 R2, R3; 05 R103; 06 R124, R128).
-/
namespace Sys2Proof

/-- The guard 0b10000 is reserved (R153). -/
def Guard.wf (g : Guard) : Bool := !(g.neg && g.p == 0)

/-- Lane count of an integer width (Table 8-4). -/
def IWidth.lanes : IWidth → Nat
  | .i8 => 16
  | .i16 => 8
  | .i32 => 4
  | .i64 => 2

/-- ST takes no sign-extending kind (Table 8-4, R222). -/
def MKind.storable : MKind → Bool
  | .sb => false
  | .sh => false
  | .sw => false
  | .ub => true
  | .uh => true
  | .uw => true
  | .d => true
  | .q => true

/-- n of PANY and PALL runs from 1 to 16 (R182). -/
def panyWf (n : BitVec 5) : Bool := decide (1 ≤ n.toNat) && decide (n.toNat ≤ 16)

/-- The limit exponents of QWAIT and WAITP run from 10 to 30 (R237, R241). -/
def limWf (l : BitVec 5) : Bool := decide (10 ≤ l.toNat) && decide (l.toNat ≤ 30)

/-- Access sizes (R34). -/
def sizeWf (n : Nat) : Bool := n == 1 || n == 2 || n == 4 || n == 8 || n == 16

/-- The combinations of operation, order, scope and size that major 0x24 accepts (Table 8-5, R226). -/
def atomWf (op : AtOp) (o : AOrd) (sc : Scope) (z : ASize) : Bool :=
  (o != .rlx || sc == .str) &&
  (z != .q || op == .swp || op == .ldo || op == .sto) &&
  (op != .ldo || o == .rlx || o == .acq) &&
  (op != .sto || o == .rlx || o == .rel)

/-- A unit of the package (R2, R12). -/
def UnitId.wf (u : UnitId) : Bool := decide (u.die < 4) && decide (u.bay < 2048)

/-- A die of the package, or a device of the domain (R11). -/
def Target.wf : Target → Bool
  | .die d => decide (d < 4)
  | .dev n => decide (n < 16384)

/-- The check of every constructor: guards, cross-field rules, and the ranges of the units named. -/
def Instr.wf : Instr → Bool
  | .add _ _ _ g => g.wf
  | .sub _ _ _ g => g.wf
  | .and _ _ _ g => g.wf
  | .or _ _ _ g => g.wf
  | .xor _ _ _ g => g.wf
  | .andn _ _ _ g => g.wf
  | .shl _ _ _ g => g.wf
  | .shr _ _ _ g => g.wf
  | .sar _ _ _ g => g.wf
  | .mul _ _ _ g => g.wf
  | .mulh _ _ _ g => g.wf
  | .mulhu _ _ _ g => g.wf
  | .min _ _ _ g => g.wf
  | .max _ _ _ g => g.wf
  | .minu _ _ _ g => g.wf
  | .maxu _ _ _ g => g.wf
  | .clz _ _ g => g.wf
  | .ctz _ _ g => g.wf
  | .popc _ _ g => g.wf
  | .addi _ _ _ g => g.wf
  | .andi _ _ _ g => g.wf
  | .ori _ _ _ g => g.wf
  | .xori _ _ _ g => g.wf
  | .shli _ _ _ g => g.wf
  | .shri _ _ _ g => g.wf
  | .sari _ _ _ g => g.wf
  | .cmp _ _ _ _ _ g => g.wf
  | .cmpi _ _ _ _ g => g.wf
  | .pand _ _ _ g => g.wf
  | .por _ _ _ g => g.wf
  | .pxor _ _ _ g => g.wf
  | .pandn _ _ _ g => g.wf
  | .pnot _ _ g => g.wf
  | .pany _ n g => g.wf && panyWf n
  | .pall _ n g => g.wf && panyWf n
  | .prd _ g => g.wf
  | .pwr _ g => g.wf
  | .movi _ _ g => g.wf
  | .div _ _ _ g => g.wf
  | .divu _ _ _ g => g.wf
  | .rem _ _ _ g => g.wf
  | .remu _ _ _ g => g.wf
  | .b _ g => g.wf
  | .bl _ g => g.wf
  | .br _ g => g.wf
  | .blr _ _ g => g.wf
  | .trap _ g => g.wf
  | .svc _ g => g.wf
  | .rft g => g.wf
  | .halt g => g.wf
  | .yield g => g.wf
  | .nop g => g.wf
  | .csrr _ _ g => g.wf
  | .csrw _ _ g => g.wf
  | .tlbi _ _ g => g.wf
  | .vadd _ _ _ _ g => g.wf
  | .vsub _ _ _ _ g => g.wf
  | .vmul _ _ _ _ g => g.wf
  | .vfma _ _ _ _ g => g.wf
  | .vfms _ _ _ _ g => g.wf
  | .vmin _ _ _ _ g => g.wf
  | .vmax _ _ _ _ g => g.wf
  | .vabs _ _ _ g => g.wf
  | .vneg _ _ _ g => g.wf
  | .vcmpeq _ _ _ g => g.wf
  | .vcmplt _ _ _ g => g.wf
  | .vcmple _ _ _ g => g.wf
  | .vcmpun _ _ _ g => g.wf
  | .vrsum _ _ _ g => g.wf
  | .viadd _ _ _ _ g => g.wf
  | .visub _ _ _ _ g => g.wf
  | .vimul _ _ _ _ g => g.wf
  | .vimin _ _ _ _ g => g.wf
  | .vimax _ _ _ _ g => g.wf
  | .viminu _ _ _ _ g => g.wf
  | .vimaxu _ _ _ _ g => g.wf
  | .vand _ _ _ _ g => g.wf
  | .vor _ _ _ _ g => g.wf
  | .vxor _ _ _ _ g => g.wf
  | .vshl _ _ _ _ g => g.wf
  | .vshr _ _ _ _ g => g.wf
  | .vsar _ _ _ _ g => g.wf
  | .vicmpeq _ _ _ g => g.wf
  | .vicmplt _ _ _ g => g.wf
  | .vicmpltu _ _ _ g => g.wf
  | .cvt _ _ fr dest g => g.wf && fr != dest
  | .vshuf _ _ _ _ g => g.wf
  | .vsplat _ _ _ g => g.wf
  | .vsel _ _ _ _ g => g.wf
  | .vext _ _ n w g => g.wf && decide (n.toNat < w.lanes)
  | .vins _ _ n w g => g.wf && decide (n.toNat < w.lanes)
  | .vrot _ _ n w g => g.wf && decide (n.toNat < w.lanes)
  | .vzipl _ _ _ _ g => g.wf
  | .vziph _ _ _ _ g => g.wf
  | .frcp _ _ _ g => g.wf
  | .frsq _ _ _ g => g.wf
  | .fsqrt _ _ _ g => g.wf
  | .fexp2 _ _ _ g => g.wf
  | .flog2 _ _ _ g => g.wf
  | .fsin _ _ _ g => g.wf
  | .fcos _ _ _ g => g.wf
  | .ftanh _ _ _ g => g.wf
  | .fsigm _ _ _ g => g.wf
  | .fdiv _ _ _ _ g => g.wf
  | .ld _ _ _ _ g => g.wf
  | .st _ _ _ k g => g.wf && k.storable
  | .ldx _ _ _ _ g => g.wf
  | .stx _ _ _ _ g => g.wf
  | .aadd _ _ o sc z g => g.wf && atomWf .add o sc z
  | .aand _ _ o sc z g => g.wf && atomWf .and o sc z
  | .aor _ _ o sc z g => g.wf && atomWf .or o sc z
  | .axor _ _ o sc z g => g.wf && atomWf .xor o sc z
  | .amin _ _ o sc z g => g.wf && atomWf .min o sc z
  | .amax _ _ o sc z g => g.wf && atomWf .max o sc z
  | .aminu _ _ o sc z g => g.wf && atomWf .minu o sc z
  | .amaxu _ _ o sc z g => g.wf && atomWf .maxu o sc z
  | .aswp _ _ o sc z g => g.wf && atomWf .swp o sc z
  | .acas _ _ o sc z g => g.wf && atomWf .cas o sc z
  | .afadd _ _ o sc z g => g.wf && atomWf .fadd o sc z
  | .ldo _ _ o sc z g => g.wf && atomWf .ldo o sc z
  | .sto _ _ o sc z g => g.wf && atomWf .sto o sc z
  | .fenceAcq _ g => g.wf
  | .fenceRel _ g => g.wf
  | .fenceAr _ g => g.wf
  | .fenceSc _ g => g.wf
  | .tdef _ _ g => g.wf
  | .trd _ _ g => g.wf
  | .trdMc _ _ _ g => g.wf
  | .twr _ _ g => g.wf
  | .trel _ g => g.wf
  | .tstat _ _ g => g.wf
  | .sbindIn _ _ g => g.wf
  | .sbindOut _ _ g => g.wf
  | .qwait _ _ lim g => g.wf && limWf lim
  | .seos g => g.wf
  | .sclose _ g => g.wf
  | .dlv _ _ _ g => g.wf
  | .mdlv _ _ _ g => g.wf
  | .waitp _ lim g => g.wf && limWf lim
  | .clrp _ g => g.wf
  | .mbx _ _ g => g.wf
  | .mbr _ _ g => g.wf
  | .mwait _ _ _ g => g.wf
  | .cnti _ _ g => g.wf
  | .cntd _ _ g => g.wf
  | .cbar _ _ g => g.wf
  | .cwait _ _ g => g.wf
  | .cqry _ _ g => g.wf
  | .spawnBound _ _ _ g => g.wf
  | .spawnFollow _ _ _ g => g.wf
  | .spawnPos _ _ _ g => g.wf
  | .spawnShuttle _ _ _ g => g.wf
  | .reap _ _ g => g.wf
  | .stop _ g => g.wf
  | .migr _ g => g.wf
  | .widf _ _ k g => g.wf && decide (k.toNat ≤ 5)
  | .slotid _ g => g.wf
  | .posr _ g => g.wf
  | .nbrFirst _ _ g => g.wf
  | .nbrNext _ g => g.wf
  | .settle g => g.wf
  | .fmap _ _ g => g.wf
  | .forkSeq _ _ _ g => g.wf
  | .forkLoad _ _ _ g => g.wf
  | .forkStore _ _ _ g => g.wf
  | .forkCopy _ _ _ g => g.wf
  | .rdv _ g => g.wf
  | .job _ g => g.wf
  | .xid _ _ g => g.wf
  | .xwait _ _ g => g.wf
  | .mxcfg _ g => g.wf
  | .mxz g => g.wf
  | .mxrun _ _ g => g.wf
  | .mxprom _ g => g.wf
  | .mxst _ _ g => g.wf
  | .mxperm _ _ _ g => g.wf
  | .semw _ g => g.wf
  | .sems _ g => g.wf
  | .asn _ _ _ g => g.wf
  | .imm _ => true
  | .fmt _ _ rnd ty => decide (rnd.toNat ≤ 4) && decide (ty.toNat ≤ 8)
  | .hintBranchTarget _ => true
  | .hintNoBorrow _ => true
  | .hint _ code => code != 1 && code != 2
  | .deferredTrap _ => true
  | .trapRecordWrite _ => true
  | .xtrResume tag _ => decide (tag < 32)
  | .xtrStop tag _ => decide (tag < 32)
  | .dbgcResume u _ => u.wf
  | .svcq u tag _ => u.wf && decide (tag < 32)
  | .svcdone u tag _ => u.wf && decide (tag < 32)
  | .fefill die bay _ => decide (die < 4) && decide (bay < 2048)
  | .feempty die bay _ => decide (die < 4) && decide (bay < 2048)
  | .registerWrite writer die _ _ _ => decide (writer < 32) && decide (die < 4)
  | .counterDescriptorWrite writer die inst word _ _ => decide (writer < 32) && decide (die < 4) && decide (inst < 1024) && decide (word < 4)
  | .xfrReplay tag _ => decide (tag < 32)
  | .xfrFail tag _ => decide (tag < 32)
  | .missQueueEntry die _ => decide (die < 4)
  | .walkTableRead die _ => decide (die < 4)
  | .walkEnd die _ => decide (die < 4)
  | .faultRecordDeferredWrite tag => decide (tag < 32)
  | .tlbiComplete _ => true
  | .writeBufferDrain die dest => decide (die < 4) && dest.wf
  | .linkWriteAck die dev => decide (die < 4) && decide (dev < 16384)
  | .rdcExpiry die _ => decide (die < 4)
  | .homeAccess _ => true
  | .deviceRelease _ => true
  | .streamModeEnd u _ => u.wf
  | .parkTableTimeout die bay _ => decide (die < 4) && decide (bay < 2048)
  | .retryReissue _ => true
  | .fillRead _ _ => true
  | .fillReadStep die bay _ => decide (die < 4) && decide (bay < 2048)
  | .tileLanding _ _ => true
  | .multicastStartAccept _ _ => true
  | .tileDrainStore _ _ => true
  | .tileDrainReady _ => true
  | .streamPush _ => true
  | .streamPushTimeout _ => true
  | .streamTimeout _ => true
  | .heddleStep die inst _ => decide (die < 4) && decide (inst < 1024)
  | .exitStep die inst _ => decide (die < 4) && decide (inst < 1024)
  | .barrierTimeout _ => true
  | .migrationDepart _ => true
  | .migrationLanding _ => true
  | .creelQuantumEnd _ => true
  | .messageDelivery _ => true
  | .mdlvSlotDelivery _ slot => decide (slot < 16)
  | .presenceWaitTimeout _ => true
  | .mailboxCountTimeout _ => true
  | .sfuQueueHead u => u.wf
  | .operationReply _ => true
  | .watchdogExpiry _ => true
  | .jobStart _ => true
  | .jobElement _ _ => true
  | .jobCompletion _ => true
  | .packetLanding _ _ => true
  | .programStrandStart _ => true
  | .sequencerStep die bay tag => decide (die < 4) && decide (bay < 2048) && decide (tag < 32)
  | .mxuOpStart die bay tag => decide (die < 4) && decide (bay < 2048) && decide (tag < 32)
  | .mxuOpComplete die bay tag => decide (die < 4) && decide (bay < 2048) && decide (tag < 32)
  | .operandMessage _ => true
  | .scaleRequest _ => true
  | .operandTimeout die bay tag => decide (die < 4) && decide (bay < 2048) && decide (tag < 32)
  | .scaleTimeout die bay tag => decide (die < 4) && decide (bay < 2048) && decide (tag < 32)
  | .asnStart die cluster => decide (die < 4) && decide (cluster < 64)
  | .asnRound die cluster => decide (die < 4) && decide (cluster < 64)
  | .transferWaitTimeout _ => true
  | .launch tag q => decide (tag < 32) && decide (q < 8)
  | .waitfc tag q => decide (tag < 32) && decide (q < 8)
  | .sigfc tag q => decide (tag < 32) && decide (q < 8)
  | .skipif tag q => decide (tag < 32) && decide (q < 8)
  | .jump tag q => decide (tag < 32) && decide (q < 8)
  | .call tag q => decide (tag < 32) && decide (q < 8)
  | .ret tag q => decide (tag < 32) && decide (q < 8)
  | .patch tag q => decide (tag < 32) && decide (q < 8)
  | .listJob tag q => decide (tag < 32) && decide (q < 8)
  | .launchPacket _ => true
  | .sliceExpiry island => decide (island < 64)
  | .handOver island tag => decide (island < 64) && decide (tag < 32)
  | .rangeLoaded die bay tag => decide (die < 4) && decide (bay < 2048) && decide (tag < 32)
  | .partitionReset tag => decide (tag < 32)
  | .pf0Reset => true
  | .powerGood _ _ => true
  | .islandStart island _ => decide (island < 64)
  | .linkRetrain dev => decide (dev < 16384)
  | .linkFailure dev => decide (dev < 16384)
  | .foreignRequest r => decide (r.dev < 16384) && sizeWf r.size
  | .laneRecalibration die _ _ => decide (die < 4)
  | .baySparing die bay => decide (die < 4) && decide (bay < 2048)
  | .islandUpdate island _ => decide (island < 64)
  | .uncorrectableError die bay line => decide (die < 4) && decide (bay < 2048) && decide (line ≤ 262144)
  | .getVersion => true
  | .getCapabilities => true
  | .negotiateAlgorithms _ _ => true
  | .getDigests => true
  | .getCertificate _ _ => true
  | .challenge _ => true
  | .getMeasurements _ => true
  | .meterIncrement tag meter _ => decide (tag < 32) && decide (meter < 9)
  | .meterSnapshot tag _ => decide (tag < 32)
  | .illegalInstruction _ => true
  | .budgetExhausted island => decide (island < 64)
  | .thermalThrottleEvent die bay _ => decide (die < 4) && decide (bay < 2048)
  | .correctedError die => decide (die < 4)
  | .flitRetry die => decide (die < 4)

end Sys2Proof
end

