-- ==== Sys2Proof/Decode.lean ====
section
/-!
DEFINITION. Decoding of instruction words (spec 08, Tables 8-1 to 8-6), total on any word, refusing by name, and the encoder
written from the same tables. Fields are read as numbers: field hi:lo of w is w div 2^lo mod 2^(hi - lo + 1).
-/
namespace Sys2Proof

/-- Why a word is no instruction (R153, R155, R159, R160). Each of them is an illegal trap when the word would issue. -/
inductive DecErr where
  /-- The major is 0x00 or unassigned (R159). -/
  | unassignedMajor
  /-- A minor, function or class code that the tables do not list (R156, R158, R160). -/
  | reservedMinor
  /-- A field that the form leaves unused holds a non-zero value (R155). -/
  | nonZeroUnused
  /-- A field holds a value that it forbids (R155, R157, R158). -/
  | badField
  /-- A source field names no source (R37). -/
  | badSource
  /-- A destination field names no destination (R37). -/
  | badDest
  /-- The guard 0b10000 (R153). -/
  | badGuard
  /-- Fewer than four bytes (R150). -/
  | truncated
deriving DecidableEq, Repr

/-- The field of `len` bits from bit `lo` of a word. -/
def fld (w lo len : Nat) : Nat := w / 2 ^ lo % 2 ^ len

/-- A numeric field as a bit vector of its width. -/
def bvAt (w lo len : Nat) : BitVec len := BitVec.ofNat len (fld w lo len)

/-- A one-bit field. -/
def boolAt (w lo : Nat) : Bool := fld w lo 1 == 1

/-- A field that must be zero (R155). -/
def zeroAt (w lo len : Nat) : Except DecErr Unit :=
  if fld w lo len = 0 then .ok () else .error .nonZeroUnused

/-- The code of a source (Table 2-3). -/
def Src.code : Src → Nat
  | .w i => i.val
  | .wz => 24
  | .qi => 25

/-- The code of a destination (Table 2-3). -/
def Dst.code : Dst → Nat
  | .w i => i.val
  | .wz => 24
  | .qo => 26

/-- The code of a register or wz (Table 2-3). -/
def RegZ.code : RegZ → Nat
  | .w i => i.val
  | .wz => 24

/-- The guard field: bit 4 the sense, bits 3:0 the predicate (R153). -/
def Guard.code (g : Guard) : Nat := g.neg.toNat * 16 + g.p.val

/-- Reads a source field. -/
def srcAt (w lo : Nat) : Except DecErr Src :=
  let n := fld w lo 5
  if h : n < 24 then .ok (.w ⟨n, h⟩)
  else if n = 24 then .ok .wz
  else if n = 25 then .ok .qi
  else .error .badSource

/-- Reads a destination field. -/
def dstAt (w lo : Nat) : Except DecErr Dst :=
  let n := fld w lo 5
  if h : n < 24 then .ok (.w ⟨n, h⟩)
  else if n = 24 then .ok .wz
  else if n = 26 then .ok .qo
  else .error .badDest

/-- Reads a field that names a register or wz. -/
def regzAt (w lo : Nat) : Except DecErr RegZ :=
  let n := fld w lo 5
  if h : n < 24 then .ok (.w ⟨n, h⟩)
  else if n = 24 then .ok .wz
  else .error .badSource

/-- Reads a base field: w0 to w23 only (R37). -/
def baseAt (w lo : Nat) : Except DecErr Base :=
  let n := fld w lo 5
  if h : n < 24 then .ok ⟨n, h⟩ else .error .badSource

/-- Reads a predicate field (R155). -/
def pregAt (w lo : Nat) : Except DecErr PReg :=
  .ok ⟨fld w lo 5, Nat.mod_lt _ (by decide)⟩

/-- Reads the guard field (R153). -/
def guardAt (w lo : Nat) : Except DecErr Guard :=
  let n := fld w lo 5
  if n = 16 then .error .badGuard
  else .ok { neg := decide (16 ≤ n), p := ⟨n % 16, Nat.mod_lt _ (by decide)⟩ }

/-- The code of each of the conditions, Table 8-4. -/
def Cond.code : Cond → Nat
  | .eq => 0
  | .ne => 1
  | .lt => 2
  | .le => 3
  | .gt => 4
  | .ge => 5
  | .ltu => 6
  | .leu => 7
  | .gtu => 8
  | .geu => 9

/-- Reads the conditions, Table 8-4. -/
def condAt (w lo : Nat) : Except DecErr Cond :=
  match fld w lo 4 with
  | 0 => .ok .eq
  | 1 => .ok .ne
  | 2 => .ok .lt
  | 3 => .ok .le
  | 4 => .ok .gt
  | 5 => .ok .ge
  | 6 => .ok .ltu
  | 7 => .ok .leu
  | 8 => .ok .gtu
  | 9 => .ok .geu
  | _ => .error .badField

/-- The code of each of the combine codes, R180. -/
def Combine.code : Combine → Nat
  | .set => 0
  | .and => 1
  | .or => 2

/-- Reads the combine codes, R180. -/
def combAt (w lo : Nat) : Except DecErr Combine :=
  match fld w lo 2 with
  | 0 => .ok .set
  | 1 => .ok .and
  | 2 => .ok .or
  | _ => .error .badField

/-- The code of each of the lane formats, Table 8-4. -/
def FFmt.code : FFmt → Nat
  | .f32 => 0
  | .f64 => 1
  | .f16 => 2
  | .bf16 => 3

/-- Reads the lane formats, Table 8-4. -/
def ffmtAt (w lo : Nat) : Except DecErr FFmt :=
  match fld w lo 2 with
  | 0 => .ok .f32
  | 1 => .ok .f64
  | 2 => .ok .f16
  | 3 => .ok .bf16
  | _ => .error .badField

/-- The code of each of the lane widths, Table 8-4. -/
def IWidth.code : IWidth → Nat
  | .i8 => 0
  | .i16 => 1
  | .i32 => 2
  | .i64 => 3

/-- Reads the lane widths, Table 8-4. -/
def widthAt (w lo : Nat) : Except DecErr IWidth :=
  match fld w lo 2 with
  | 0 => .ok .i8
  | 1 => .ok .i16
  | 2 => .ok .i32
  | 3 => .ok .i64
  | _ => .error .badField

/-- The code of each of the conversion types, Table 8-4. -/
def CvtTy.code : CvtTy → Nat
  | .f64 => 0
  | .f32 => 1
  | .f16 => 2
  | .bf16 => 3
  | .e4m3 => 4
  | .e5m2 => 5
  | .e2m1 => 6
  | .int => 7

/-- Reads the conversion types, Table 8-4. -/
def cvtAt (w lo : Nat) : Except DecErr CvtTy :=
  match fld w lo 3 with
  | 0 => .ok .f64
  | 1 => .ok .f32
  | 2 => .ok .f16
  | 3 => .ok .bf16
  | 4 => .ok .e4m3
  | 5 => .ok .e5m2
  | 6 => .ok .e2m1
  | 7 => .ok .int
  | _ => .error .badField

/-- The code of each of the access kinds, Table 8-4. -/
def MKind.code : MKind → Nat
  | .ub => 0
  | .uh => 1
  | .uw => 2
  | .d => 3
  | .sb => 4
  | .sh => 5
  | .sw => 6
  | .q => 7

/-- Reads the access kinds, Table 8-4. -/
def mkindAt (w lo : Nat) : Except DecErr MKind :=
  match fld w lo 3 with
  | 0 => .ok .ub
  | 1 => .ok .uh
  | 2 => .ok .uw
  | 3 => .ok .d
  | 4 => .ok .sb
  | 5 => .ok .sh
  | 6 => .ok .sw
  | 7 => .ok .q
  | _ => .error .badField

/-- The code of each of the scopes, Table 3-2. -/
def Scope.code : Scope → Nat
  | .str => 0
  | .bay => 1
  | .clu => 2
  | .die => 3
  | .dev => 4
  | .dom => 5

/-- Reads the scopes, Table 3-2. -/
def scopeAt (w lo : Nat) : Except DecErr Scope :=
  match fld w lo 3 with
  | 0 => .ok .str
  | 1 => .ok .bay
  | 2 => .ok .clu
  | 3 => .ok .die
  | 4 => .ok .dev
  | 5 => .ok .dom
  | _ => .error .badField

/-- The code of each of the orders, Table 8-4. -/
def AOrd.code : AOrd → Nat
  | .rlx => 0
  | .acq => 1
  | .rel => 2
  | .ar => 3

/-- Reads the orders, Table 8-4. -/
def aordAt (w lo : Nat) : Except DecErr AOrd :=
  match fld w lo 2 with
  | 0 => .ok .rlx
  | 1 => .ok .acq
  | 2 => .ok .rel
  | 3 => .ok .ar
  | _ => .error .badField

/-- The code of each of the sizes, Table 8-5. -/
def ASize.code : ASize → Nat
  | .w => 0
  | .d => 1
  | .q => 2

/-- Reads the sizes, Table 8-5. -/
def asizeAt (w lo : Nat) : Except DecErr ASize :=
  match fld w lo 2 with
  | 0 => .ok .w
  | 1 => .ok .d
  | 2 => .ok .q
  | _ => .error .badField

/-- A decoded instruction must also be well-formed: fields that its form restricts further (R155, R226). -/
def checked (i : Instr) : Except DecErr Instr :=
  if i.wf then .ok i else .error .badField

/-- Major 0x01: integer register operations (R175). -/
def dec01 (x : Nat) : Except DecErr Instr :=
  match fld x 5 6 with
  | 0 => do
    let d ← dstAt x 21
    let a ← srcAt x 16
    let b ← srcAt x 11
    let g ← guardAt x 0
    checked (.add d a b g)
  | 1 => do
    let d ← dstAt x 21
    let a ← srcAt x 16
    let b ← srcAt x 11
    let g ← guardAt x 0
    checked (.sub d a b g)
  | 2 => do
    let d ← dstAt x 21
    let a ← srcAt x 16
    let b ← srcAt x 11
    let g ← guardAt x 0
    checked (.and d a b g)
  | 3 => do
    let d ← dstAt x 21
    let a ← srcAt x 16
    let b ← srcAt x 11
    let g ← guardAt x 0
    checked (.or d a b g)
  | 4 => do
    let d ← dstAt x 21
    let a ← srcAt x 16
    let b ← srcAt x 11
    let g ← guardAt x 0
    checked (.xor d a b g)
  | 5 => do
    let d ← dstAt x 21
    let a ← srcAt x 16
    let b ← srcAt x 11
    let g ← guardAt x 0
    checked (.andn d a b g)
  | 6 => do
    let d ← dstAt x 21
    let a ← srcAt x 16
    let b ← srcAt x 11
    let g ← guardAt x 0
    checked (.shl d a b g)
  | 7 => do
    let d ← dstAt x 21
    let a ← srcAt x 16
    let b ← srcAt x 11
    let g ← guardAt x 0
    checked (.shr d a b g)
  | 8 => do
    let d ← dstAt x 21
    let a ← srcAt x 16
    let b ← srcAt x 11
    let g ← guardAt x 0
    checked (.sar d a b g)
  | 9 => do
    let d ← dstAt x 21
    let a ← srcAt x 16
    let b ← srcAt x 11
    let g ← guardAt x 0
    checked (.mul d a b g)
  | 10 => do
    let d ← dstAt x 21
    let a ← srcAt x 16
    let b ← srcAt x 11
    let g ← guardAt x 0
    checked (.mulh d a b g)
  | 11 => do
    let d ← dstAt x 21
    let a ← srcAt x 16
    let b ← srcAt x 11
    let g ← guardAt x 0
    checked (.mulhu d a b g)
  | 12 => do
    let d ← dstAt x 21
    let a ← srcAt x 16
    let b ← srcAt x 11
    let g ← guardAt x 0
    checked (.min d a b g)
  | 13 => do
    let d ← dstAt x 21
    let a ← srcAt x 16
    let b ← srcAt x 11
    let g ← guardAt x 0
    checked (.max d a b g)
  | 14 => do
    let d ← dstAt x 21
    let a ← srcAt x 16
    let b ← srcAt x 11
    let g ← guardAt x 0
    checked (.minu d a b g)
  | 15 => do
    let d ← dstAt x 21
    let a ← srcAt x 16
    let b ← srcAt x 11
    let g ← guardAt x 0
    checked (.maxu d a b g)
  | 16 => do
    zeroAt x 11 5
    let d ← dstAt x 21
    let a ← srcAt x 16
    let g ← guardAt x 0
    checked (.clz d a g)
  | 17 => do
    zeroAt x 11 5
    let d ← dstAt x 21
    let a ← srcAt x 16
    let g ← guardAt x 0
    checked (.ctz d a g)
  | 18 => do
    zeroAt x 11 5
    let d ← dstAt x 21
    let a ← srcAt x 16
    let g ← guardAt x 0
    checked (.popc d a g)
  | _ => .error .reservedMinor

/-- Major 0x02: ADDI (R176). -/
def dec02 (x : Nat) : Except DecErr Instr := do
  let d ← dstAt x 21
  let a ← srcAt x 16
  let imm := bvAt x 5 11
  let g ← guardAt x 0
  checked (.addi d a imm g)

/-- Major 0x03: ANDI (R176). -/
def dec03 (x : Nat) : Except DecErr Instr := do
  let d ← dstAt x 21
  let a ← srcAt x 16
  let imm := bvAt x 5 11
  let g ← guardAt x 0
  checked (.andi d a imm g)

/-- Major 0x04: ORI (R176). -/
def dec04 (x : Nat) : Except DecErr Instr := do
  let d ← dstAt x 21
  let a ← srcAt x 16
  let imm := bvAt x 5 11
  let g ← guardAt x 0
  checked (.ori d a imm g)

/-- Major 0x05: XORI (R176). -/
def dec05 (x : Nat) : Except DecErr Instr := do
  let d ← dstAt x 21
  let a ← srcAt x 16
  let imm := bvAt x 5 11
  let g ← guardAt x 0
  checked (.xori d a imm g)

/-- Major 0x06: shifts by a number (R177). -/
def dec06 (x : Nat) : Except DecErr Instr :=
  match fld x 14 2 with
  | 0 => do
    zeroAt x 11 3
    let d ← dstAt x 21
    let a ← srcAt x 16
    let n := bvAt x 5 6
    let g ← guardAt x 0
    checked (.shli d a n g)
  | 1 => do
    zeroAt x 11 3
    let d ← dstAt x 21
    let a ← srcAt x 16
    let n := bvAt x 5 6
    let g ← guardAt x 0
    checked (.shri d a n g)
  | 2 => do
    zeroAt x 11 3
    let d ← dstAt x 21
    let a ← srcAt x 16
    let n := bvAt x 5 6
    let g ← guardAt x 0
    checked (.sari d a n g)
  | _ => .error .reservedMinor

/-- Major 0x07: CMP (R180). -/
def dec07 (x : Nat) : Except DecErr Instr := do
  let pd ← pregAt x 21
  let a ← srcAt x 16
  let b ← srcAt x 11
  let comb ← combAt x 9
  let cc ← condAt x 5
  let g ← guardAt x 0
  checked (.cmp pd a b comb cc g)

/-- Major 0x08: CMPI (R181). -/
def dec08 (x : Nat) : Except DecErr Instr := do
  let pd ← pregAt x 21
  let a ← srcAt x 16
  let cc ← condAt x 12
  let imm := bvAt x 5 7
  let g ← guardAt x 0
  checked (.cmpi pd a cc imm g)

/-- Major 0x09: predicates (R182). -/
def dec09 (x : Nat) : Except DecErr Instr :=
  match fld x 5 6 with
  | 0 => do
    let pd ← pregAt x 21
    let pa ← pregAt x 16
    let pb ← pregAt x 11
    let g ← guardAt x 0
    checked (.pand pd pa pb g)
  | 1 => do
    let pd ← pregAt x 21
    let pa ← pregAt x 16
    let pb ← pregAt x 11
    let g ← guardAt x 0
    checked (.por pd pa pb g)
  | 2 => do
    let pd ← pregAt x 21
    let pa ← pregAt x 16
    let pb ← pregAt x 11
    let g ← guardAt x 0
    checked (.pxor pd pa pb g)
  | 3 => do
    let pd ← pregAt x 21
    let pa ← pregAt x 16
    let pb ← pregAt x 11
    let g ← guardAt x 0
    checked (.pandn pd pa pb g)
  | 4 => do
    zeroAt x 11 5
    let pd ← pregAt x 21
    let pa ← pregAt x 16
    let g ← guardAt x 0
    checked (.pnot pd pa g)
  | 5 => do
    zeroAt x 11 5
    let pd ← pregAt x 21
    let n := bvAt x 16 5
    let g ← guardAt x 0
    checked (.pany pd n g)
  | 6 => do
    zeroAt x 11 5
    let pd ← pregAt x 21
    let n := bvAt x 16 5
    let g ← guardAt x 0
    checked (.pall pd n g)
  | 7 => do
    zeroAt x 11 10
    let d ← dstAt x 21
    let g ← guardAt x 0
    checked (.prd d g)
  | 8 => do
    zeroAt x 11 5
    zeroAt x 21 5
    let a ← srcAt x 16
    let g ← guardAt x 0
    checked (.pwr a g)
  | _ => .error .reservedMinor

/-- Major 0x0A: MOVI (R178). -/
def dec0A (x : Nat) : Except DecErr Instr := do
  let d ← dstAt x 21
  let imm := bvAt x 5 16
  let g ← guardAt x 0
  checked (.movi d imm g)

/-- Major 0x0B: division (R179). -/
def dec0B (x : Nat) : Except DecErr Instr :=
  match fld x 5 6 with
  | 0 => do
    let d ← dstAt x 21
    let a ← srcAt x 16
    let b ← srcAt x 11
    let g ← guardAt x 0
    checked (.div d a b g)
  | 1 => do
    let d ← dstAt x 21
    let a ← srcAt x 16
    let b ← srcAt x 11
    let g ← guardAt x 0
    checked (.divu d a b g)
  | 2 => do
    let d ← dstAt x 21
    let a ← srcAt x 16
    let b ← srcAt x 11
    let g ← guardAt x 0
    checked (.rem d a b g)
  | 3 => do
    let d ← dstAt x 21
    let a ← srcAt x 16
    let b ← srcAt x 11
    let g ← guardAt x 0
    checked (.remu d a b g)
  | _ => .error .reservedMinor

/-- Major 0x10: B (R183). -/
def dec10 (x : Nat) : Except DecErr Instr := do
  let disp := bvAt x 5 21
  let g ← guardAt x 0
  checked (.b disp g)

/-- Major 0x11: BL (R183). -/
def dec11 (x : Nat) : Except DecErr Instr := do
  let disp := bvAt x 5 21
  let g ← guardAt x 0
  checked (.bl disp g)

/-- Major 0x12: BR and BLR (R184). -/
def dec12 (x : Nat) : Except DecErr Instr :=
  match fld x 5 6 with
  | 0 => do
    zeroAt x 11 5
    zeroAt x 21 5
    let a ← srcAt x 16
    let g ← guardAt x 0
    checked (.br a g)
  | 1 => do
    zeroAt x 11 5
    let d ← dstAt x 21
    let a ← srcAt x 16
    let g ← guardAt x 0
    checked (.blr d a g)
  | _ => .error .reservedMinor

/-- Major 0x14: system (R186 to R196). -/
def dec14 (x : Nat) : Except DecErr Instr :=
  match fld x 5 6 with
  | 0 => do
    let n := bvAt x 11 15
    let g ← guardAt x 0
    checked (.trap n g)
  | 1 => do
    let n := bvAt x 11 15
    let g ← guardAt x 0
    checked (.svc n g)
  | 2 => do
    zeroAt x 11 15
    let g ← guardAt x 0
    checked (.rft g)
  | 3 => do
    zeroAt x 11 15
    let g ← guardAt x 0
    checked (.halt g)
  | 4 => do
    zeroAt x 11 15
    let g ← guardAt x 0
    checked (.yield g)
  | 5 => do
    zeroAt x 11 15
    let g ← guardAt x 0
    checked (.nop g)
  | 6 => do
    let d ← dstAt x 21
    let csr := bvAt x 11 10
    let g ← guardAt x 0
    checked (.csrr d csr g)
  | 7 => do
    let csr := bvAt x 11 10
    let a ← srcAt x 21
    let g ← guardAt x 0
    checked (.csrw csr a g)
  | 8 => do
    zeroAt x 21 5
    let a ← srcAt x 16
    let b ← srcAt x 11
    let g ← guardAt x 0
    checked (.tlbi a b g)
  | _ => .error .reservedMinor

/-- Major 0x18: vector floating point (R208). -/
def dec18 (x : Nat) : Except DecErr Instr :=
  match fld x 7 4 with
  | 0 => do
    let d ← dstAt x 21
    let a ← srcAt x 16
    let b ← srcAt x 11
    let f ← ffmtAt x 5
    let g ← guardAt x 0
    checked (.vadd d a b f g)
  | 1 => do
    let d ← dstAt x 21
    let a ← srcAt x 16
    let b ← srcAt x 11
    let f ← ffmtAt x 5
    let g ← guardAt x 0
    checked (.vsub d a b f g)
  | 2 => do
    let d ← dstAt x 21
    let a ← srcAt x 16
    let b ← srcAt x 11
    let f ← ffmtAt x 5
    let g ← guardAt x 0
    checked (.vmul d a b f g)
  | 3 => do
    let d ← regzAt x 21
    let a ← srcAt x 16
    let b ← srcAt x 11
    let f ← ffmtAt x 5
    let g ← guardAt x 0
    checked (.vfma d a b f g)
  | 4 => do
    let d ← regzAt x 21
    let a ← srcAt x 16
    let b ← srcAt x 11
    let f ← ffmtAt x 5
    let g ← guardAt x 0
    checked (.vfms d a b f g)
  | 5 => do
    let d ← dstAt x 21
    let a ← srcAt x 16
    let b ← srcAt x 11
    let f ← ffmtAt x 5
    let g ← guardAt x 0
    checked (.vmin d a b f g)
  | 6 => do
    let d ← dstAt x 21
    let a ← srcAt x 16
    let b ← srcAt x 11
    let f ← ffmtAt x 5
    let g ← guardAt x 0
    checked (.vmax d a b f g)
  | 7 => do
    zeroAt x 11 5
    let d ← dstAt x 21
    let a ← srcAt x 16
    let f ← ffmtAt x 5
    let g ← guardAt x 0
    checked (.vabs d a f g)
  | 8 => do
    zeroAt x 11 5
    let d ← dstAt x 21
    let a ← srcAt x 16
    let f ← ffmtAt x 5
    let g ← guardAt x 0
    checked (.vneg d a f g)
  | 9 => do
    zeroAt x 21 5
    let a ← srcAt x 16
    let b ← srcAt x 11
    let f ← ffmtAt x 5
    let g ← guardAt x 0
    checked (.vcmpeq a b f g)
  | 10 => do
    zeroAt x 21 5
    let a ← srcAt x 16
    let b ← srcAt x 11
    let f ← ffmtAt x 5
    let g ← guardAt x 0
    checked (.vcmplt a b f g)
  | 11 => do
    zeroAt x 21 5
    let a ← srcAt x 16
    let b ← srcAt x 11
    let f ← ffmtAt x 5
    let g ← guardAt x 0
    checked (.vcmple a b f g)
  | 12 => do
    zeroAt x 21 5
    let a ← srcAt x 16
    let b ← srcAt x 11
    let f ← ffmtAt x 5
    let g ← guardAt x 0
    checked (.vcmpun a b f g)
  | 13 => do
    zeroAt x 11 5
    let d ← dstAt x 21
    let a ← srcAt x 16
    let f ← ffmtAt x 5
    let g ← guardAt x 0
    checked (.vrsum d a f g)
  | _ => .error .reservedMinor

/-- Major 0x19: vector integer (R212). -/
def dec19 (x : Nat) : Except DecErr Instr :=
  match fld x 7 4 with
  | 0 => do
    let d ← dstAt x 21
    let a ← srcAt x 16
    let b ← srcAt x 11
    let w ← widthAt x 5
    let g ← guardAt x 0
    checked (.viadd d a b w g)
  | 1 => do
    let d ← dstAt x 21
    let a ← srcAt x 16
    let b ← srcAt x 11
    let w ← widthAt x 5
    let g ← guardAt x 0
    checked (.visub d a b w g)
  | 2 => do
    let d ← dstAt x 21
    let a ← srcAt x 16
    let b ← srcAt x 11
    let w ← widthAt x 5
    let g ← guardAt x 0
    checked (.vimul d a b w g)
  | 3 => do
    let d ← dstAt x 21
    let a ← srcAt x 16
    let b ← srcAt x 11
    let w ← widthAt x 5
    let g ← guardAt x 0
    checked (.vimin d a b w g)
  | 4 => do
    let d ← dstAt x 21
    let a ← srcAt x 16
    let b ← srcAt x 11
    let w ← widthAt x 5
    let g ← guardAt x 0
    checked (.vimax d a b w g)
  | 5 => do
    let d ← dstAt x 21
    let a ← srcAt x 16
    let b ← srcAt x 11
    let w ← widthAt x 5
    let g ← guardAt x 0
    checked (.viminu d a b w g)
  | 6 => do
    let d ← dstAt x 21
    let a ← srcAt x 16
    let b ← srcAt x 11
    let w ← widthAt x 5
    let g ← guardAt x 0
    checked (.vimaxu d a b w g)
  | 7 => do
    let d ← dstAt x 21
    let a ← srcAt x 16
    let b ← srcAt x 11
    let w ← widthAt x 5
    let g ← guardAt x 0
    checked (.vand d a b w g)
  | 8 => do
    let d ← dstAt x 21
    let a ← srcAt x 16
    let b ← srcAt x 11
    let w ← widthAt x 5
    let g ← guardAt x 0
    checked (.vor d a b w g)
  | 9 => do
    let d ← dstAt x 21
    let a ← srcAt x 16
    let b ← srcAt x 11
    let w ← widthAt x 5
    let g ← guardAt x 0
    checked (.vxor d a b w g)
  | 10 => do
    let d ← dstAt x 21
    let a ← srcAt x 16
    let b ← srcAt x 11
    let w ← widthAt x 5
    let g ← guardAt x 0
    checked (.vshl d a b w g)
  | 11 => do
    let d ← dstAt x 21
    let a ← srcAt x 16
    let b ← srcAt x 11
    let w ← widthAt x 5
    let g ← guardAt x 0
    checked (.vshr d a b w g)
  | 12 => do
    let d ← dstAt x 21
    let a ← srcAt x 16
    let b ← srcAt x 11
    let w ← widthAt x 5
    let g ← guardAt x 0
    checked (.vsar d a b w g)
  | 13 => do
    zeroAt x 21 5
    let a ← srcAt x 16
    let b ← srcAt x 11
    let w ← widthAt x 5
    let g ← guardAt x 0
    checked (.vicmpeq a b w g)
  | 14 => do
    zeroAt x 21 5
    let a ← srcAt x 16
    let b ← srcAt x 11
    let w ← widthAt x 5
    let g ← guardAt x 0
    checked (.vicmplt a b w g)
  | 15 => do
    zeroAt x 21 5
    let a ← srcAt x 16
    let b ← srcAt x 11
    let w ← widthAt x 5
    let g ← guardAt x 0
    checked (.vicmpltu a b w g)
  | _ => .error .reservedMinor

/-- Major 0x1A: CVT (R213). -/
def dec1A (x : Nat) : Except DecErr Instr := do
  zeroAt x 11 5
  let d ← dstAt x 21
  let a ← srcAt x 16
  let fr ← cvtAt x 8
  let dest ← cvtAt x 5
  let g ← guardAt x 0
  checked (.cvt d a fr dest g)

/-- Major 0x1B: lane moves (R217). -/
def dec1B (x : Nat) : Except DecErr Instr :=
  match fld x 7 4 with
  | 0 => do
    let d ← dstAt x 21
    let a ← srcAt x 16
    let b ← srcAt x 11
    let w ← widthAt x 5
    let g ← guardAt x 0
    checked (.vshuf d a b w g)
  | 1 => do
    zeroAt x 11 5
    let d ← dstAt x 21
    let a ← srcAt x 16
    let w ← widthAt x 5
    let g ← guardAt x 0
    checked (.vsplat d a w g)
  | 2 => do
    let d ← dstAt x 21
    let a ← srcAt x 16
    let b ← srcAt x 11
    let w ← widthAt x 5
    let g ← guardAt x 0
    checked (.vsel d a b w g)
  | 3 => do
    let d ← dstAt x 21
    let a ← srcAt x 16
    let n := bvAt x 11 5
    let w ← widthAt x 5
    let g ← guardAt x 0
    checked (.vext d a n w g)
  | 4 => do
    let d ← regzAt x 21
    let a ← srcAt x 16
    let n := bvAt x 11 5
    let w ← widthAt x 5
    let g ← guardAt x 0
    checked (.vins d a n w g)
  | 5 => do
    let d ← dstAt x 21
    let a ← srcAt x 16
    let n := bvAt x 11 5
    let w ← widthAt x 5
    let g ← guardAt x 0
    checked (.vrot d a n w g)
  | 6 => do
    let d ← dstAt x 21
    let a ← srcAt x 16
    let b ← srcAt x 11
    let w ← widthAt x 5
    let g ← guardAt x 0
    checked (.vzipl d a b w g)
  | 7 => do
    let d ← dstAt x 21
    let a ← srcAt x 16
    let b ← srcAt x 11
    let w ← widthAt x 5
    let g ← guardAt x 0
    checked (.vziph d a b w g)
  | _ => .error .reservedMinor

/-- Major 0x1C: special functions (R218). -/
def dec1C (x : Nat) : Except DecErr Instr :=
  match fld x 7 4 with
  | 0 => do
    zeroAt x 11 5
    let d ← dstAt x 21
    let a ← srcAt x 16
    let f ← ffmtAt x 5
    let g ← guardAt x 0
    checked (.frcp d a f g)
  | 1 => do
    zeroAt x 11 5
    let d ← dstAt x 21
    let a ← srcAt x 16
    let f ← ffmtAt x 5
    let g ← guardAt x 0
    checked (.frsq d a f g)
  | 2 => do
    zeroAt x 11 5
    let d ← dstAt x 21
    let a ← srcAt x 16
    let f ← ffmtAt x 5
    let g ← guardAt x 0
    checked (.fsqrt d a f g)
  | 3 => do
    zeroAt x 11 5
    let d ← dstAt x 21
    let a ← srcAt x 16
    let f ← ffmtAt x 5
    let g ← guardAt x 0
    checked (.fexp2 d a f g)
  | 4 => do
    zeroAt x 11 5
    let d ← dstAt x 21
    let a ← srcAt x 16
    let f ← ffmtAt x 5
    let g ← guardAt x 0
    checked (.flog2 d a f g)
  | 5 => do
    zeroAt x 11 5
    let d ← dstAt x 21
    let a ← srcAt x 16
    let f ← ffmtAt x 5
    let g ← guardAt x 0
    checked (.fsin d a f g)
  | 6 => do
    zeroAt x 11 5
    let d ← dstAt x 21
    let a ← srcAt x 16
    let f ← ffmtAt x 5
    let g ← guardAt x 0
    checked (.fcos d a f g)
  | 7 => do
    zeroAt x 11 5
    let d ← dstAt x 21
    let a ← srcAt x 16
    let f ← ffmtAt x 5
    let g ← guardAt x 0
    checked (.ftanh d a f g)
  | 8 => do
    zeroAt x 11 5
    let d ← dstAt x 21
    let a ← srcAt x 16
    let f ← ffmtAt x 5
    let g ← guardAt x 0
    checked (.fsigm d a f g)
  | 9 => do
    let d ← dstAt x 21
    let a ← srcAt x 16
    let b ← srcAt x 11
    let f ← ffmtAt x 5
    let g ← guardAt x 0
    checked (.fdiv d a b f g)
  | _ => .error .reservedMinor

/-- Major 0x20: LD (R222). -/
def dec20 (x : Nat) : Except DecErr Instr := do
  let d ← dstAt x 21
  let base ← baseAt x 16
  let off := bvAt x 8 8
  let k ← mkindAt x 5
  let g ← guardAt x 0
  checked (.ld d base off k g)

/-- Major 0x21: ST (R222). -/
def dec21 (x : Nat) : Except DecErr Instr := do
  let a ← srcAt x 21
  let base ← baseAt x 16
  let off := bvAt x 8 8
  let k ← mkindAt x 5
  let g ← guardAt x 0
  checked (.st a base off k g)

/-- Major 0x22: LDX (R225). -/
def dec22 (x : Nat) : Except DecErr Instr := do
  let d ← dstAt x 21
  let base ← baseAt x 16
  let off := bvAt x 8 8
  let sc ← scopeAt x 5
  let g ← guardAt x 0
  checked (.ldx d base off sc g)

/-- Major 0x23: STX (R225). -/
def dec23 (x : Nat) : Except DecErr Instr := do
  let a ← srcAt x 21
  let base ← baseAt x 16
  let off := bvAt x 8 8
  let sc ← scopeAt x 5
  let g ← guardAt x 0
  checked (.stx a base off sc g)

/-- Major 0x24: atomics (R226). -/
def dec24 (x : Nat) : Except DecErr Instr :=
  match fld x 12 4 with
  | 0 => do
    let base ← baseAt x 21
    let b ← regzAt x 16
    let o ← aordAt x 10
    let sc ← scopeAt x 7
    let z ← asizeAt x 5
    let g ← guardAt x 0
    checked (.aadd base b o sc z g)
  | 1 => do
    let base ← baseAt x 21
    let b ← regzAt x 16
    let o ← aordAt x 10
    let sc ← scopeAt x 7
    let z ← asizeAt x 5
    let g ← guardAt x 0
    checked (.aand base b o sc z g)
  | 2 => do
    let base ← baseAt x 21
    let b ← regzAt x 16
    let o ← aordAt x 10
    let sc ← scopeAt x 7
    let z ← asizeAt x 5
    let g ← guardAt x 0
    checked (.aor base b o sc z g)
  | 3 => do
    let base ← baseAt x 21
    let b ← regzAt x 16
    let o ← aordAt x 10
    let sc ← scopeAt x 7
    let z ← asizeAt x 5
    let g ← guardAt x 0
    checked (.axor base b o sc z g)
  | 4 => do
    let base ← baseAt x 21
    let b ← regzAt x 16
    let o ← aordAt x 10
    let sc ← scopeAt x 7
    let z ← asizeAt x 5
    let g ← guardAt x 0
    checked (.amin base b o sc z g)
  | 5 => do
    let base ← baseAt x 21
    let b ← regzAt x 16
    let o ← aordAt x 10
    let sc ← scopeAt x 7
    let z ← asizeAt x 5
    let g ← guardAt x 0
    checked (.amax base b o sc z g)
  | 6 => do
    let base ← baseAt x 21
    let b ← regzAt x 16
    let o ← aordAt x 10
    let sc ← scopeAt x 7
    let z ← asizeAt x 5
    let g ← guardAt x 0
    checked (.aminu base b o sc z g)
  | 7 => do
    let base ← baseAt x 21
    let b ← regzAt x 16
    let o ← aordAt x 10
    let sc ← scopeAt x 7
    let z ← asizeAt x 5
    let g ← guardAt x 0
    checked (.amaxu base b o sc z g)
  | 8 => do
    let base ← baseAt x 21
    let b ← regzAt x 16
    let o ← aordAt x 10
    let sc ← scopeAt x 7
    let z ← asizeAt x 5
    let g ← guardAt x 0
    checked (.aswp base b o sc z g)
  | 9 => do
    let base ← baseAt x 21
    let b ← regzAt x 16
    let o ← aordAt x 10
    let sc ← scopeAt x 7
    let z ← asizeAt x 5
    let g ← guardAt x 0
    checked (.acas base b o sc z g)
  | 10 => do
    let base ← baseAt x 21
    let b ← regzAt x 16
    let o ← aordAt x 10
    let sc ← scopeAt x 7
    let z ← asizeAt x 5
    let g ← guardAt x 0
    checked (.afadd base b o sc z g)
  | 11 => do
    let base ← baseAt x 21
    let b ← regzAt x 16
    let o ← aordAt x 10
    let sc ← scopeAt x 7
    let z ← asizeAt x 5
    let g ← guardAt x 0
    checked (.ldo base b o sc z g)
  | 12 => do
    let base ← baseAt x 21
    let b ← regzAt x 16
    let o ← aordAt x 10
    let sc ← scopeAt x 7
    let z ← asizeAt x 5
    let g ← guardAt x 0
    checked (.sto base b o sc z g)
  | _ => .error .reservedMinor

/-- Major 0x25: FENCE (R228). -/
def dec25 (x : Nat) : Except DecErr Instr :=
  match fld x 5 3 with
  | 0 => do
    zeroAt x 11 15
    let sc ← scopeAt x 8
    let g ← guardAt x 0
    checked (.fenceAcq sc g)
  | 1 => do
    zeroAt x 11 15
    let sc ← scopeAt x 8
    let g ← guardAt x 0
    checked (.fenceRel sc g)
  | 2 => do
    zeroAt x 11 15
    let sc ← scopeAt x 8
    let g ← guardAt x 0
    checked (.fenceAr sc g)
  | 3 => do
    zeroAt x 11 15
    let sc ← scopeAt x 8
    let g ← guardAt x 0
    checked (.fenceSc sc g)
  | _ => .error .reservedMinor

/-- Major 0x26: tiles (R229). -/
def dec26 (x : Nat) : Except DecErr Instr :=
  match fld x 13 3 with
  | 0 => do
    zeroAt x 5 2
    zeroAt x 16 5
    let a ← srcAt x 21
    let t := bvAt x 7 6
    let g ← guardAt x 0
    checked (.tdef a t g)
  | 1 => do
    zeroAt x 5 2
    zeroAt x 16 5
    let a ← srcAt x 21
    let t := bvAt x 7 6
    let g ← guardAt x 0
    checked (.trd a t g)
  | 2 => do
    zeroAt x 5 2
    let a ← srcAt x 21
    let b ← srcAt x 16
    let t := bvAt x 7 6
    let g ← guardAt x 0
    checked (.trdMc a b t g)
  | 3 => do
    zeroAt x 5 2
    zeroAt x 16 5
    let a ← srcAt x 21
    let t := bvAt x 7 6
    let g ← guardAt x 0
    checked (.twr a t g)
  | 4 => do
    zeroAt x 5 2
    zeroAt x 16 10
    let t := bvAt x 7 6
    let g ← guardAt x 0
    checked (.trel t g)
  | 5 => do
    zeroAt x 5 2
    zeroAt x 16 5
    let d ← dstAt x 21
    let t := bvAt x 7 6
    let g ← guardAt x 0
    checked (.tstat d t g)
  | _ => .error .reservedMinor

/-- Major 0x27: streams (R235). -/
def dec27 (x : Nat) : Except DecErr Instr :=
  match fld x 13 3 with
  | 0 =>
    match fld x 9 1 with
    | 0 => do
      zeroAt x 5 4
      zeroAt x 16 5
      let a ← srcAt x 21
      let r := bvAt x 10 3
      let g ← guardAt x 0
      checked (.sbindIn a r g)
    | 1 => do
      zeroAt x 5 4
      zeroAt x 16 5
      let a ← srcAt x 21
      let r := bvAt x 10 3
      let g ← guardAt x 0
      checked (.sbindOut a r g)
    | _ => .error .reservedMinor
  | 1 => do
    zeroAt x 16 5
    let d ← dstAt x 21
    let r := bvAt x 10 3
    let lim := bvAt x 5 5
    let g ← guardAt x 0
    checked (.qwait d r lim g)
  | 2 => do
    zeroAt x 5 8
    zeroAt x 16 10
    let g ← guardAt x 0
    checked (.seos g)
  | 3 => do
    zeroAt x 5 5
    zeroAt x 16 10
    let r := bvAt x 10 3
    let g ← guardAt x 0
    checked (.sclose r g)
  | _ => .error .reservedMinor

/-- Major 0x28: deliveries (R239 to R241). -/
def dec28 (x : Nat) : Except DecErr Instr :=
  match fld x 8 3 with
  | 0 => do
    zeroAt x 5 3
    let a ← srcAt x 21
    let b ← srcAt x 16
    let n ← baseAt x 11
    let g ← guardAt x 0
    checked (.dlv a b n g)
  | 1 => do
    zeroAt x 5 3
    let a ← srcAt x 21
    let b ← srcAt x 16
    let n ← baseAt x 11
    let g ← guardAt x 0
    checked (.mdlv a b n g)
  | 2 => do
    zeroAt x 5 3
    zeroAt x 16 5
    let a ← baseAt x 21
    let lim := bvAt x 11 5
    let g ← guardAt x 0
    checked (.waitp a lim g)
  | 3 => do
    zeroAt x 5 3
    zeroAt x 11 10
    let a ← baseAt x 21
    let g ← guardAt x 0
    checked (.clrp a g)
  | _ => .error .reservedMinor

/-- Major 0x29: mailboxes and MWAIT (R242, R243). -/
def dec29 (x : Nat) : Except DecErr Instr :=
  match fld x 13 3 with
  | 0 => do
    zeroAt x 5 6
    zeroAt x 16 5
    let a ← srcAt x 21
    let m := bvAt x 11 2
    let g ← guardAt x 0
    checked (.mbx a m g)
  | 1 => do
    zeroAt x 5 6
    zeroAt x 16 5
    let d ← dstAt x 21
    let m := bvAt x 11 2
    let g ← guardAt x 0
    checked (.mbr d m g)
  | 2 => do
    zeroAt x 16 5
    let a ← srcAt x 21
    let c := bvAt x 9 4
    let l := bvAt x 5 4
    let g ← guardAt x 0
    checked (.mwait a c l g)
  | _ => .error .reservedMinor

/-- Major 0x2A: heddle (R244). -/
def dec2A (x : Nat) : Except DecErr Instr :=
  match fld x 5 6 with
  | 0 => do
    zeroAt x 11 5
    let d ← dstAt x 21
    let a ← srcAt x 16
    let g ← guardAt x 0
    checked (.cnti d a g)
  | 1 => do
    zeroAt x 11 5
    let d ← dstAt x 21
    let a ← srcAt x 16
    let g ← guardAt x 0
    checked (.cntd d a g)
  | 2 => do
    zeroAt x 11 5
    let d ← dstAt x 21
    let a ← srcAt x 16
    let g ← guardAt x 0
    checked (.cbar d a g)
  | 3 => do
    zeroAt x 21 5
    let a ← srcAt x 16
    let b ← srcAt x 11
    let g ← guardAt x 0
    checked (.cwait a b g)
  | 4 => do
    zeroAt x 11 5
    let d ← dstAt x 21
    let a ← srcAt x 16
    let g ← guardAt x 0
    checked (.cqry d a g)
  | _ => .error .reservedMinor

/-- Major 0x2B: strands (R246 to R249). -/
def dec2B (x : Nat) : Except DecErr Instr :=
  match fld x 8 3 with
  | 0 =>
    match fld x 5 3 with
    | 0 => do
      let d ← dstAt x 21
      let a ← srcAt x 16
      let b ← srcAt x 11
      let g ← guardAt x 0
      checked (.spawnBound d a b g)
    | 1 => do
      let d ← dstAt x 21
      let a ← srcAt x 16
      let b ← srcAt x 11
      let g ← guardAt x 0
      checked (.spawnFollow d a b g)
    | 2 => do
      let d ← dstAt x 21
      let a ← srcAt x 16
      let b ← srcAt x 11
      let g ← guardAt x 0
      checked (.spawnPos d a b g)
    | 4 => do
      let d ← dstAt x 21
      let a ← srcAt x 16
      let b ← srcAt x 11
      let g ← guardAt x 0
      checked (.spawnShuttle d a b g)
    | _ => .error .reservedMinor
  | 1 => do
    zeroAt x 5 3
    zeroAt x 11 5
    let d ← dstAt x 21
    let a ← srcAt x 16
    let g ← guardAt x 0
    checked (.reap d a g)
  | 2 => do
    zeroAt x 5 3
    zeroAt x 11 5
    zeroAt x 21 5
    let a ← srcAt x 16
    let g ← guardAt x 0
    checked (.stop a g)
  | 3 => do
    zeroAt x 5 3
    zeroAt x 11 5
    zeroAt x 21 5
    let a ← srcAt x 16
    let g ← guardAt x 0
    checked (.migr a g)
  | 4 => do
    zeroAt x 11 5
    let d ← dstAt x 21
    let a ← srcAt x 16
    let k := bvAt x 5 3
    let g ← guardAt x 0
    checked (.widf d a k g)
  | 5 => do
    zeroAt x 5 3
    zeroAt x 11 10
    let d ← dstAt x 21
    let g ← guardAt x 0
    checked (.slotid d g)
  | _ => .error .reservedMinor

/-- Major 0x2C: field (R250). -/
def dec2C (x : Nat) : Except DecErr Instr :=
  match fld x 8 3 with
  | 0 => do
    zeroAt x 5 3
    zeroAt x 11 10
    let d ← dstAt x 21
    let g ← guardAt x 0
    checked (.posr d g)
  | 1 =>
    match fld x 5 3 with
    | 0 => do
      zeroAt x 11 5
      let d ← dstAt x 21
      let a ← srcAt x 16
      let g ← guardAt x 0
      checked (.nbrFirst d a g)
    | 1 => do
      zeroAt x 11 10
      let d ← dstAt x 21
      let g ← guardAt x 0
      checked (.nbrNext d g)
    | _ => .error .reservedMinor
  | 2 => do
    zeroAt x 5 3
    zeroAt x 11 15
    let g ← guardAt x 0
    checked (.settle g)
  | 3 => do
    zeroAt x 5 3
    zeroAt x 11 5
    let d ← dstAt x 21
    let a ← srcAt x 16
    let g ← guardAt x 0
    checked (.fmap d a g)
  | _ => .error .reservedMinor

/-- Major 0x2D: engines (R306). -/
def dec2D (x : Nat) : Except DecErr Instr :=
  match fld x 13 3 with
  | 0 =>
    match fld x 10 3 with
    | 0 => do
      let a ← regzAt x 21
      let b ← regzAt x 16
      let h := bvAt x 5 5
      let g ← guardAt x 0
      checked (.forkSeq a b h g)
    | 1 => do
      let a ← regzAt x 21
      let b ← regzAt x 16
      let h := bvAt x 5 5
      let g ← guardAt x 0
      checked (.forkLoad a b h g)
    | 2 => do
      let a ← regzAt x 21
      let b ← regzAt x 16
      let h := bvAt x 5 5
      let g ← guardAt x 0
      checked (.forkStore a b h g)
    | 3 => do
      let a ← regzAt x 21
      let b ← regzAt x 16
      let h := bvAt x 5 5
      let g ← guardAt x 0
      checked (.forkCopy a b h g)
    | _ => .error .reservedMinor
  | 1 => do
    zeroAt x 10 3
    zeroAt x 16 10
    let h := bvAt x 5 5
    let g ← guardAt x 0
    checked (.rdv h g)
  | 2 => do
    zeroAt x 5 8
    zeroAt x 16 5
    let a ← regzAt x 21
    let g ← guardAt x 0
    checked (.job a g)
  | 3 => do
    zeroAt x 5 8
    let a ← regzAt x 21
    let b ← regzAt x 16
    let g ← guardAt x 0
    checked (.xid a b g)
  | 4 => do
    zeroAt x 5 8
    let a ← regzAt x 21
    let b ← regzAt x 16
    let g ← guardAt x 0
    checked (.xwait a b g)
  | _ => .error .reservedMinor

/-- Major 0x2E: matrix (R271). -/
def dec2E (x : Nat) : Except DecErr Instr :=
  match fld x 8 3 with
  | 0 => do
    zeroAt x 5 3
    zeroAt x 11 5
    zeroAt x 21 5
    let a ← regzAt x 16
    let g ← guardAt x 0
    checked (.mxcfg a g)
  | 1 => do
    zeroAt x 5 3
    zeroAt x 11 15
    let g ← guardAt x 0
    checked (.mxz g)
  | 2 => do
    zeroAt x 5 3
    zeroAt x 21 5
    let a ← regzAt x 16
    let b ← regzAt x 11
    let g ← guardAt x 0
    checked (.mxrun a b g)
  | 3 => do
    zeroAt x 5 3
    zeroAt x 11 5
    zeroAt x 21 5
    let a ← regzAt x 16
    let g ← guardAt x 0
    checked (.mxprom a g)
  | 4 => do
    zeroAt x 5 3
    zeroAt x 21 5
    let a ← regzAt x 16
    let b ← regzAt x 11
    let g ← guardAt x 0
    checked (.mxst a b g)
  | 5 => do
    zeroAt x 5 3
    let d ← regzAt x 21
    let a ← regzAt x 16
    let b ← regzAt x 11
    let g ← guardAt x 0
    checked (.mxperm d a b g)
  | _ => .error .reservedMinor

/-- Major 0x2F: semaphores (R271). -/
def dec2F (x : Nat) : Except DecErr Instr :=
  match fld x 8 3 with
  | 0 => do
    zeroAt x 11 15
    let sem := bvAt x 5 3
    let g ← guardAt x 0
    checked (.semw sem g)
  | 1 => do
    zeroAt x 11 15
    let sem := bvAt x 5 3
    let g ← guardAt x 0
    checked (.sems sem g)
  | _ => .error .reservedMinor

/-- Major 0x30: ASN (R280). -/
def dec30 (x : Nat) : Except DecErr Instr :=
  match fld x 13 3 with
  | 0 => do
    zeroAt x 10 3
    let a ← regzAt x 21
    let b ← regzAt x 16
    let h := bvAt x 5 5
    let g ← guardAt x 0
    checked (.asn a b h g)
  | _ => .error .reservedMinor

/-- Major 0x3F: hint words (R160). -/
def dec3F (x : Nat) : Except DecErr Instr :=
  match fld x 24 2 with
  | 0 => do
    zeroAt x 22 2
    let v := bvAt x 0 22
    checked (.imm v)
  | 1 => do
    zeroAt x 9 15
    let sat := boolAt x 8
    let mask := boolAt x 7
    let rnd := bvAt x 4 3
    let ty := bvAt x 0 4
    checked (.fmt sat mask rnd ty)
  | 2 =>
    match fld x 0 8 with
    | 1 => do
      let o := bvAt x 8 16
      checked (.hintBranchTarget o)
    | 2 => do
      let o := bvAt x 8 16
      checked (.hintNoBorrow o)
    | _ => do
      let o := bvAt x 8 16
      let code := bvAt x 0 8
      checked (.hint o code)
  | _ => .error .reservedMinor

/-- The instruction that a word (as a number below 2^32) stands for, or why it is none (R159). -/
def decodeNat (w : Nat) : Except DecErr Instr :=
  match fld w 26 6 with
  | 0x01 => dec01 w
  | 0x02 => dec02 w
  | 0x03 => dec03 w
  | 0x04 => dec04 w
  | 0x05 => dec05 w
  | 0x06 => dec06 w
  | 0x07 => dec07 w
  | 0x08 => dec08 w
  | 0x09 => dec09 w
  | 0x0A => dec0A w
  | 0x0B => dec0B w
  | 0x10 => dec10 w
  | 0x11 => dec11 w
  | 0x12 => dec12 w
  | 0x14 => dec14 w
  | 0x18 => dec18 w
  | 0x19 => dec19 w
  | 0x1A => dec1A w
  | 0x1B => dec1B w
  | 0x1C => dec1C w
  | 0x20 => dec20 w
  | 0x21 => dec21 w
  | 0x22 => dec22 w
  | 0x23 => dec23 w
  | 0x24 => dec24 w
  | 0x25 => dec25 w
  | 0x26 => dec26 w
  | 0x27 => dec27 w
  | 0x28 => dec28 w
  | 0x29 => dec29 w
  | 0x2A => dec2A w
  | 0x2B => dec2B w
  | 0x2C => dec2C w
  | 0x2D => dec2D w
  | 0x2E => dec2E w
  | 0x2F => dec2F w
  | 0x30 => dec30 w
  | 0x3F => dec3F w
  | _ => .error .unassignedMajor

/-- Decoding of an instruction word (R150, R151). Total: every word is an instruction or is refused by name. -/
def decode (w : W32) : Except DecErr Instr := decodeNat w.toNat

/-- The word of an instruction as a number, none for the device's own steps, which have no word. -/
def encodeNat : Instr → Option Nat
  | .add d a b g => some (0x04000000 + d.code * 2097152 + a.code * 65536 + b.code * 2048 + g.code)
  | .sub d a b g => some (0x04000020 + d.code * 2097152 + a.code * 65536 + b.code * 2048 + g.code)
  | .and d a b g => some (0x04000040 + d.code * 2097152 + a.code * 65536 + b.code * 2048 + g.code)
  | .or d a b g => some (0x04000060 + d.code * 2097152 + a.code * 65536 + b.code * 2048 + g.code)
  | .xor d a b g => some (0x04000080 + d.code * 2097152 + a.code * 65536 + b.code * 2048 + g.code)
  | .andn d a b g => some (0x040000A0 + d.code * 2097152 + a.code * 65536 + b.code * 2048 + g.code)
  | .shl d a b g => some (0x040000C0 + d.code * 2097152 + a.code * 65536 + b.code * 2048 + g.code)
  | .shr d a b g => some (0x040000E0 + d.code * 2097152 + a.code * 65536 + b.code * 2048 + g.code)
  | .sar d a b g => some (0x04000100 + d.code * 2097152 + a.code * 65536 + b.code * 2048 + g.code)
  | .mul d a b g => some (0x04000120 + d.code * 2097152 + a.code * 65536 + b.code * 2048 + g.code)
  | .mulh d a b g => some (0x04000140 + d.code * 2097152 + a.code * 65536 + b.code * 2048 + g.code)
  | .mulhu d a b g => some (0x04000160 + d.code * 2097152 + a.code * 65536 + b.code * 2048 + g.code)
  | .min d a b g => some (0x04000180 + d.code * 2097152 + a.code * 65536 + b.code * 2048 + g.code)
  | .max d a b g => some (0x040001A0 + d.code * 2097152 + a.code * 65536 + b.code * 2048 + g.code)
  | .minu d a b g => some (0x040001C0 + d.code * 2097152 + a.code * 65536 + b.code * 2048 + g.code)
  | .maxu d a b g => some (0x040001E0 + d.code * 2097152 + a.code * 65536 + b.code * 2048 + g.code)
  | .clz d a g => some (0x04000200 + d.code * 2097152 + a.code * 65536 + g.code)
  | .ctz d a g => some (0x04000220 + d.code * 2097152 + a.code * 65536 + g.code)
  | .popc d a g => some (0x04000240 + d.code * 2097152 + a.code * 65536 + g.code)
  | .addi d a imm g => some (0x08000000 + d.code * 2097152 + a.code * 65536 + imm.toNat * 32 + g.code)
  | .andi d a imm g => some (0x0C000000 + d.code * 2097152 + a.code * 65536 + imm.toNat * 32 + g.code)
  | .ori d a imm g => some (0x10000000 + d.code * 2097152 + a.code * 65536 + imm.toNat * 32 + g.code)
  | .xori d a imm g => some (0x14000000 + d.code * 2097152 + a.code * 65536 + imm.toNat * 32 + g.code)
  | .shli d a n g => some (0x18000000 + d.code * 2097152 + a.code * 65536 + n.toNat * 32 + g.code)
  | .shri d a n g => some (0x18004000 + d.code * 2097152 + a.code * 65536 + n.toNat * 32 + g.code)
  | .sari d a n g => some (0x18008000 + d.code * 2097152 + a.code * 65536 + n.toNat * 32 + g.code)
  | .cmp pd a b comb cc g => some (0x1C000000 + pd.val * 2097152 + a.code * 65536 + b.code * 2048 + comb.code * 512 + cc.code * 32 + g.code)
  | .cmpi pd a cc imm g => some (0x20000000 + pd.val * 2097152 + a.code * 65536 + cc.code * 4096 + imm.toNat * 32 + g.code)
  | .pand pd pa pb g => some (0x24000000 + pd.val * 2097152 + pa.val * 65536 + pb.val * 2048 + g.code)
  | .por pd pa pb g => some (0x24000020 + pd.val * 2097152 + pa.val * 65536 + pb.val * 2048 + g.code)
  | .pxor pd pa pb g => some (0x24000040 + pd.val * 2097152 + pa.val * 65536 + pb.val * 2048 + g.code)
  | .pandn pd pa pb g => some (0x24000060 + pd.val * 2097152 + pa.val * 65536 + pb.val * 2048 + g.code)
  | .pnot pd pa g => some (0x24000080 + pd.val * 2097152 + pa.val * 65536 + g.code)
  | .pany pd n g => some (0x240000A0 + pd.val * 2097152 + n.toNat * 65536 + g.code)
  | .pall pd n g => some (0x240000C0 + pd.val * 2097152 + n.toNat * 65536 + g.code)
  | .prd d g => some (0x240000E0 + d.code * 2097152 + g.code)
  | .pwr a g => some (0x24000100 + a.code * 65536 + g.code)
  | .movi d imm g => some (0x28000000 + d.code * 2097152 + imm.toNat * 32 + g.code)
  | .div d a b g => some (0x2C000000 + d.code * 2097152 + a.code * 65536 + b.code * 2048 + g.code)
  | .divu d a b g => some (0x2C000020 + d.code * 2097152 + a.code * 65536 + b.code * 2048 + g.code)
  | .rem d a b g => some (0x2C000040 + d.code * 2097152 + a.code * 65536 + b.code * 2048 + g.code)
  | .remu d a b g => some (0x2C000060 + d.code * 2097152 + a.code * 65536 + b.code * 2048 + g.code)
  | .b disp g => some (0x40000000 + disp.toNat * 32 + g.code)
  | .bl disp g => some (0x44000000 + disp.toNat * 32 + g.code)
  | .br a g => some (0x48000000 + a.code * 65536 + g.code)
  | .blr d a g => some (0x48000020 + d.code * 2097152 + a.code * 65536 + g.code)
  | .trap n g => some (0x50000000 + n.toNat * 2048 + g.code)
  | .svc n g => some (0x50000020 + n.toNat * 2048 + g.code)
  | .rft g => some (0x50000040 + g.code)
  | .halt g => some (0x50000060 + g.code)
  | .yield g => some (0x50000080 + g.code)
  | .nop g => some (0x500000A0 + g.code)
  | .csrr d csr g => some (0x500000C0 + d.code * 2097152 + csr.toNat * 2048 + g.code)
  | .csrw csr a g => some (0x500000E0 + a.code * 2097152 + csr.toNat * 2048 + g.code)
  | .tlbi a b g => some (0x50000100 + a.code * 65536 + b.code * 2048 + g.code)
  | .vadd d a b f g => some (0x60000000 + d.code * 2097152 + a.code * 65536 + b.code * 2048 + f.code * 32 + g.code)
  | .vsub d a b f g => some (0x60000080 + d.code * 2097152 + a.code * 65536 + b.code * 2048 + f.code * 32 + g.code)
  | .vmul d a b f g => some (0x60000100 + d.code * 2097152 + a.code * 65536 + b.code * 2048 + f.code * 32 + g.code)
  | .vfma d a b f g => some (0x60000180 + d.code * 2097152 + a.code * 65536 + b.code * 2048 + f.code * 32 + g.code)
  | .vfms d a b f g => some (0x60000200 + d.code * 2097152 + a.code * 65536 + b.code * 2048 + f.code * 32 + g.code)
  | .vmin d a b f g => some (0x60000280 + d.code * 2097152 + a.code * 65536 + b.code * 2048 + f.code * 32 + g.code)
  | .vmax d a b f g => some (0x60000300 + d.code * 2097152 + a.code * 65536 + b.code * 2048 + f.code * 32 + g.code)
  | .vabs d a f g => some (0x60000380 + d.code * 2097152 + a.code * 65536 + f.code * 32 + g.code)
  | .vneg d a f g => some (0x60000400 + d.code * 2097152 + a.code * 65536 + f.code * 32 + g.code)
  | .vcmpeq a b f g => some (0x60000480 + a.code * 65536 + b.code * 2048 + f.code * 32 + g.code)
  | .vcmplt a b f g => some (0x60000500 + a.code * 65536 + b.code * 2048 + f.code * 32 + g.code)
  | .vcmple a b f g => some (0x60000580 + a.code * 65536 + b.code * 2048 + f.code * 32 + g.code)
  | .vcmpun a b f g => some (0x60000600 + a.code * 65536 + b.code * 2048 + f.code * 32 + g.code)
  | .vrsum d a f g => some (0x60000680 + d.code * 2097152 + a.code * 65536 + f.code * 32 + g.code)
  | .viadd d a b w g => some (0x64000000 + d.code * 2097152 + a.code * 65536 + b.code * 2048 + w.code * 32 + g.code)
  | .visub d a b w g => some (0x64000080 + d.code * 2097152 + a.code * 65536 + b.code * 2048 + w.code * 32 + g.code)
  | .vimul d a b w g => some (0x64000100 + d.code * 2097152 + a.code * 65536 + b.code * 2048 + w.code * 32 + g.code)
  | .vimin d a b w g => some (0x64000180 + d.code * 2097152 + a.code * 65536 + b.code * 2048 + w.code * 32 + g.code)
  | .vimax d a b w g => some (0x64000200 + d.code * 2097152 + a.code * 65536 + b.code * 2048 + w.code * 32 + g.code)
  | .viminu d a b w g => some (0x64000280 + d.code * 2097152 + a.code * 65536 + b.code * 2048 + w.code * 32 + g.code)
  | .vimaxu d a b w g => some (0x64000300 + d.code * 2097152 + a.code * 65536 + b.code * 2048 + w.code * 32 + g.code)
  | .vand d a b w g => some (0x64000380 + d.code * 2097152 + a.code * 65536 + b.code * 2048 + w.code * 32 + g.code)
  | .vor d a b w g => some (0x64000400 + d.code * 2097152 + a.code * 65536 + b.code * 2048 + w.code * 32 + g.code)
  | .vxor d a b w g => some (0x64000480 + d.code * 2097152 + a.code * 65536 + b.code * 2048 + w.code * 32 + g.code)
  | .vshl d a b w g => some (0x64000500 + d.code * 2097152 + a.code * 65536 + b.code * 2048 + w.code * 32 + g.code)
  | .vshr d a b w g => some (0x64000580 + d.code * 2097152 + a.code * 65536 + b.code * 2048 + w.code * 32 + g.code)
  | .vsar d a b w g => some (0x64000600 + d.code * 2097152 + a.code * 65536 + b.code * 2048 + w.code * 32 + g.code)
  | .vicmpeq a b w g => some (0x64000680 + a.code * 65536 + b.code * 2048 + w.code * 32 + g.code)
  | .vicmplt a b w g => some (0x64000700 + a.code * 65536 + b.code * 2048 + w.code * 32 + g.code)
  | .vicmpltu a b w g => some (0x64000780 + a.code * 65536 + b.code * 2048 + w.code * 32 + g.code)
  | .cvt d a fr dest g => some (0x68000000 + d.code * 2097152 + a.code * 65536 + fr.code * 256 + dest.code * 32 + g.code)
  | .vshuf d a b w g => some (0x6C000000 + d.code * 2097152 + a.code * 65536 + b.code * 2048 + w.code * 32 + g.code)
  | .vsplat d a w g => some (0x6C000080 + d.code * 2097152 + a.code * 65536 + w.code * 32 + g.code)
  | .vsel d a b w g => some (0x6C000100 + d.code * 2097152 + a.code * 65536 + b.code * 2048 + w.code * 32 + g.code)
  | .vext d a n w g => some (0x6C000180 + d.code * 2097152 + a.code * 65536 + n.toNat * 2048 + w.code * 32 + g.code)
  | .vins d a n w g => some (0x6C000200 + d.code * 2097152 + a.code * 65536 + n.toNat * 2048 + w.code * 32 + g.code)
  | .vrot d a n w g => some (0x6C000280 + d.code * 2097152 + a.code * 65536 + n.toNat * 2048 + w.code * 32 + g.code)
  | .vzipl d a b w g => some (0x6C000300 + d.code * 2097152 + a.code * 65536 + b.code * 2048 + w.code * 32 + g.code)
  | .vziph d a b w g => some (0x6C000380 + d.code * 2097152 + a.code * 65536 + b.code * 2048 + w.code * 32 + g.code)
  | .frcp d a f g => some (0x70000000 + d.code * 2097152 + a.code * 65536 + f.code * 32 + g.code)
  | .frsq d a f g => some (0x70000080 + d.code * 2097152 + a.code * 65536 + f.code * 32 + g.code)
  | .fsqrt d a f g => some (0x70000100 + d.code * 2097152 + a.code * 65536 + f.code * 32 + g.code)
  | .fexp2 d a f g => some (0x70000180 + d.code * 2097152 + a.code * 65536 + f.code * 32 + g.code)
  | .flog2 d a f g => some (0x70000200 + d.code * 2097152 + a.code * 65536 + f.code * 32 + g.code)
  | .fsin d a f g => some (0x70000280 + d.code * 2097152 + a.code * 65536 + f.code * 32 + g.code)
  | .fcos d a f g => some (0x70000300 + d.code * 2097152 + a.code * 65536 + f.code * 32 + g.code)
  | .ftanh d a f g => some (0x70000380 + d.code * 2097152 + a.code * 65536 + f.code * 32 + g.code)
  | .fsigm d a f g => some (0x70000400 + d.code * 2097152 + a.code * 65536 + f.code * 32 + g.code)
  | .fdiv d a b f g => some (0x70000480 + d.code * 2097152 + a.code * 65536 + b.code * 2048 + f.code * 32 + g.code)
  | .ld d base off k g => some (0x80000000 + d.code * 2097152 + base.val * 65536 + off.toNat * 256 + k.code * 32 + g.code)
  | .st a base off k g => some (0x84000000 + a.code * 2097152 + base.val * 65536 + off.toNat * 256 + k.code * 32 + g.code)
  | .ldx d base off sc g => some (0x88000000 + d.code * 2097152 + base.val * 65536 + off.toNat * 256 + sc.code * 32 + g.code)
  | .stx a base off sc g => some (0x8C000000 + a.code * 2097152 + base.val * 65536 + off.toNat * 256 + sc.code * 32 + g.code)
  | .aadd base b o sc z g => some (0x90000000 + base.val * 2097152 + b.code * 65536 + o.code * 1024 + sc.code * 128 + z.code * 32 + g.code)
  | .aand base b o sc z g => some (0x90001000 + base.val * 2097152 + b.code * 65536 + o.code * 1024 + sc.code * 128 + z.code * 32 + g.code)
  | .aor base b o sc z g => some (0x90002000 + base.val * 2097152 + b.code * 65536 + o.code * 1024 + sc.code * 128 + z.code * 32 + g.code)
  | .axor base b o sc z g => some (0x90003000 + base.val * 2097152 + b.code * 65536 + o.code * 1024 + sc.code * 128 + z.code * 32 + g.code)
  | .amin base b o sc z g => some (0x90004000 + base.val * 2097152 + b.code * 65536 + o.code * 1024 + sc.code * 128 + z.code * 32 + g.code)
  | .amax base b o sc z g => some (0x90005000 + base.val * 2097152 + b.code * 65536 + o.code * 1024 + sc.code * 128 + z.code * 32 + g.code)
  | .aminu base b o sc z g => some (0x90006000 + base.val * 2097152 + b.code * 65536 + o.code * 1024 + sc.code * 128 + z.code * 32 + g.code)
  | .amaxu base b o sc z g => some (0x90007000 + base.val * 2097152 + b.code * 65536 + o.code * 1024 + sc.code * 128 + z.code * 32 + g.code)
  | .aswp base b o sc z g => some (0x90008000 + base.val * 2097152 + b.code * 65536 + o.code * 1024 + sc.code * 128 + z.code * 32 + g.code)
  | .acas base b o sc z g => some (0x90009000 + base.val * 2097152 + b.code * 65536 + o.code * 1024 + sc.code * 128 + z.code * 32 + g.code)
  | .afadd base b o sc z g => some (0x9000A000 + base.val * 2097152 + b.code * 65536 + o.code * 1024 + sc.code * 128 + z.code * 32 + g.code)
  | .ldo base b o sc z g => some (0x9000B000 + base.val * 2097152 + b.code * 65536 + o.code * 1024 + sc.code * 128 + z.code * 32 + g.code)
  | .sto base b o sc z g => some (0x9000C000 + base.val * 2097152 + b.code * 65536 + o.code * 1024 + sc.code * 128 + z.code * 32 + g.code)
  | .fenceAcq sc g => some (0x94000000 + sc.code * 256 + g.code)
  | .fenceRel sc g => some (0x94000020 + sc.code * 256 + g.code)
  | .fenceAr sc g => some (0x94000040 + sc.code * 256 + g.code)
  | .fenceSc sc g => some (0x94000060 + sc.code * 256 + g.code)
  | .tdef a t g => some (0x98000000 + a.code * 2097152 + t.toNat * 128 + g.code)
  | .trd a t g => some (0x98002000 + a.code * 2097152 + t.toNat * 128 + g.code)
  | .trdMc a b t g => some (0x98004000 + a.code * 2097152 + b.code * 65536 + t.toNat * 128 + g.code)
  | .twr a t g => some (0x98006000 + a.code * 2097152 + t.toNat * 128 + g.code)
  | .trel t g => some (0x98008000 + t.toNat * 128 + g.code)
  | .tstat d t g => some (0x9800A000 + d.code * 2097152 + t.toNat * 128 + g.code)
  | .sbindIn a r g => some (0x9C000000 + a.code * 2097152 + r.toNat * 1024 + g.code)
  | .sbindOut a r g => some (0x9C000200 + a.code * 2097152 + r.toNat * 1024 + g.code)
  | .qwait d r lim g => some (0x9C002000 + d.code * 2097152 + r.toNat * 1024 + lim.toNat * 32 + g.code)
  | .seos g => some (0x9C004000 + g.code)
  | .sclose r g => some (0x9C006000 + r.toNat * 1024 + g.code)
  | .dlv a b n g => some (0xA0000000 + a.code * 2097152 + b.code * 65536 + n.val * 2048 + g.code)
  | .mdlv a b n g => some (0xA0000100 + a.code * 2097152 + b.code * 65536 + n.val * 2048 + g.code)
  | .waitp a lim g => some (0xA0000200 + a.val * 2097152 + lim.toNat * 2048 + g.code)
  | .clrp a g => some (0xA0000300 + a.val * 2097152 + g.code)
  | .mbx a m g => some (0xA4000000 + a.code * 2097152 + m.toNat * 2048 + g.code)
  | .mbr d m g => some (0xA4002000 + d.code * 2097152 + m.toNat * 2048 + g.code)
  | .mwait a c l g => some (0xA4004000 + a.code * 2097152 + c.toNat * 512 + l.toNat * 32 + g.code)
  | .cnti d a g => some (0xA8000000 + d.code * 2097152 + a.code * 65536 + g.code)
  | .cntd d a g => some (0xA8000020 + d.code * 2097152 + a.code * 65536 + g.code)
  | .cbar d a g => some (0xA8000040 + d.code * 2097152 + a.code * 65536 + g.code)
  | .cwait a b g => some (0xA8000060 + a.code * 65536 + b.code * 2048 + g.code)
  | .cqry d a g => some (0xA8000080 + d.code * 2097152 + a.code * 65536 + g.code)
  | .spawnBound d a b g => some (0xAC000000 + d.code * 2097152 + a.code * 65536 + b.code * 2048 + g.code)
  | .spawnFollow d a b g => some (0xAC000020 + d.code * 2097152 + a.code * 65536 + b.code * 2048 + g.code)
  | .spawnPos d a b g => some (0xAC000040 + d.code * 2097152 + a.code * 65536 + b.code * 2048 + g.code)
  | .spawnShuttle d a b g => some (0xAC000080 + d.code * 2097152 + a.code * 65536 + b.code * 2048 + g.code)
  | .reap d a g => some (0xAC000100 + d.code * 2097152 + a.code * 65536 + g.code)
  | .stop a g => some (0xAC000200 + a.code * 65536 + g.code)
  | .migr a g => some (0xAC000300 + a.code * 65536 + g.code)
  | .widf d a k g => some (0xAC000400 + d.code * 2097152 + a.code * 65536 + k.toNat * 32 + g.code)
  | .slotid d g => some (0xAC000500 + d.code * 2097152 + g.code)
  | .posr d g => some (0xB0000000 + d.code * 2097152 + g.code)
  | .nbrFirst d a g => some (0xB0000100 + d.code * 2097152 + a.code * 65536 + g.code)
  | .nbrNext d g => some (0xB0000120 + d.code * 2097152 + g.code)
  | .settle g => some (0xB0000200 + g.code)
  | .fmap d a g => some (0xB0000300 + d.code * 2097152 + a.code * 65536 + g.code)
  | .forkSeq a b h g => some (0xB4000000 + a.code * 2097152 + b.code * 65536 + h.toNat * 32 + g.code)
  | .forkLoad a b h g => some (0xB4000400 + a.code * 2097152 + b.code * 65536 + h.toNat * 32 + g.code)
  | .forkStore a b h g => some (0xB4000800 + a.code * 2097152 + b.code * 65536 + h.toNat * 32 + g.code)
  | .forkCopy a b h g => some (0xB4000C00 + a.code * 2097152 + b.code * 65536 + h.toNat * 32 + g.code)
  | .rdv h g => some (0xB4002000 + h.toNat * 32 + g.code)
  | .job a g => some (0xB4004000 + a.code * 2097152 + g.code)
  | .xid a b g => some (0xB4006000 + a.code * 2097152 + b.code * 65536 + g.code)
  | .xwait a b g => some (0xB4008000 + a.code * 2097152 + b.code * 65536 + g.code)
  | .mxcfg a g => some (0xB8000000 + a.code * 65536 + g.code)
  | .mxz g => some (0xB8000100 + g.code)
  | .mxrun a b g => some (0xB8000200 + a.code * 65536 + b.code * 2048 + g.code)
  | .mxprom a g => some (0xB8000300 + a.code * 65536 + g.code)
  | .mxst a b g => some (0xB8000400 + a.code * 65536 + b.code * 2048 + g.code)
  | .mxperm d a b g => some (0xB8000500 + d.code * 2097152 + a.code * 65536 + b.code * 2048 + g.code)
  | .semw sem g => some (0xBC000000 + sem.toNat * 32 + g.code)
  | .sems sem g => some (0xBC000100 + sem.toNat * 32 + g.code)
  | .asn a b h g => some (0xC0000000 + a.code * 2097152 + b.code * 65536 + h.toNat * 32 + g.code)
  | .imm v => some (0xFC000000 + v.toNat)
  | .fmt sat mask rnd ty => some (0xFD000000 + sat.toNat * 256 + mask.toNat * 128 + rnd.toNat * 16 + ty.toNat)
  | .hintBranchTarget o => some (0xFE000001 + o.toNat * 256)
  | .hintNoBorrow o => some (0xFE000002 + o.toNat * 256)
  | .hint o code => some (0xFE000000 + o.toNat * 256 + code.toNat)
  | .deferredTrap _ => none
  | .trapRecordWrite _ => none
  | .xtrResume _ _ => none
  | .xtrStop _ _ => none
  | .dbgcResume _ _ => none
  | .svcq _ _ _ => none
  | .svcdone _ _ _ => none
  | .fefill _ _ _ => none
  | .feempty _ _ _ => none
  | .registerWrite _ _ _ _ _ => none
  | .counterDescriptorWrite _ _ _ _ _ _ => none
  | .xfrReplay _ _ => none
  | .xfrFail _ _ => none
  | .missQueueEntry _ _ => none
  | .walkTableRead _ _ => none
  | .walkEnd _ _ => none
  | .faultRecordDeferredWrite _ => none
  | .tlbiComplete _ => none
  | .writeBufferDrain _ _ => none
  | .linkWriteAck _ _ => none
  | .rdcExpiry _ _ => none
  | .homeAccess _ => none
  | .deviceRelease _ => none
  | .streamModeEnd _ _ => none
  | .parkTableTimeout _ _ _ => none
  | .retryReissue _ => none
  | .fillRead _ _ => none
  | .fillReadStep _ _ _ => none
  | .tileLanding _ _ => none
  | .multicastStartAccept _ _ => none
  | .tileDrainStore _ _ => none
  | .tileDrainReady _ => none
  | .streamPush _ => none
  | .streamPushTimeout _ => none
  | .streamTimeout _ => none
  | .heddleStep _ _ _ => none
  | .exitStep _ _ _ => none
  | .barrierTimeout _ => none
  | .migrationDepart _ => none
  | .migrationLanding _ => none
  | .creelQuantumEnd _ => none
  | .messageDelivery _ => none
  | .mdlvSlotDelivery _ _ => none
  | .presenceWaitTimeout _ => none
  | .mailboxCountTimeout _ => none
  | .sfuQueueHead _ => none
  | .operationReply _ => none
  | .watchdogExpiry _ => none
  | .jobStart _ => none
  | .jobElement _ _ => none
  | .jobCompletion _ => none
  | .packetLanding _ _ => none
  | .programStrandStart _ => none
  | .sequencerStep _ _ _ => none
  | .mxuOpStart _ _ _ => none
  | .mxuOpComplete _ _ _ => none
  | .operandMessage _ => none
  | .scaleRequest _ => none
  | .operandTimeout _ _ _ => none
  | .scaleTimeout _ _ _ => none
  | .asnStart _ _ => none
  | .asnRound _ _ => none
  | .transferWaitTimeout _ => none
  | .launch _ _ => none
  | .waitfc _ _ => none
  | .sigfc _ _ => none
  | .skipif _ _ => none
  | .jump _ _ => none
  | .call _ _ => none
  | .ret _ _ => none
  | .patch _ _ => none
  | .listJob _ _ => none
  | .launchPacket _ => none
  | .sliceExpiry _ => none
  | .handOver _ _ => none
  | .rangeLoaded _ _ _ => none
  | .partitionReset _ => none
  | .pf0Reset => none
  | .powerGood _ _ => none
  | .islandStart _ _ => none
  | .linkRetrain _ => none
  | .linkFailure _ => none
  | .foreignRequest _ => none
  | .laneRecalibration _ _ _ => none
  | .baySparing _ _ => none
  | .islandUpdate _ _ => none
  | .uncorrectableError _ _ _ => none
  | .getVersion => none
  | .getCapabilities => none
  | .negotiateAlgorithms _ _ => none
  | .getDigests => none
  | .getCertificate _ _ => none
  | .challenge _ => none
  | .getMeasurements _ => none
  | .meterIncrement _ _ _ => none
  | .meterSnapshot _ _ => none
  | .illegalInstruction _ => none
  | .budgetExhausted _ => none
  | .thermalThrottleEvent _ _ _ => none
  | .correctedError _ => none
  | .flitRetry _ => none

/-- The instruction word of a well-formed instruction (R150), none for the device's own steps. -/
def encode (i : Instr) : Option W32 := (encodeNat i).map (BitVec.ofNat 32)

/-- The bytes of a word as stored, the lowest address first (R150, R5). -/
def wordBytes (w : W32) : List Byte :=
  [w.setWidth 8, w.extractLsb' 8 8, w.extractLsb' 16 8, w.extractLsb' 24 8]

/-- The word that four bytes hold, the lowest address first (R150, R5). -/
def bytesWord (b0 b1 b2 b3 : Byte) : W32 := b3 ++ b2 ++ b1 ++ b0

/-- Decoding on a list of bytes: the instruction at its head and the bytes after it (R150). -/
def decodeBytes : List Byte → Except DecErr (Instr × List Byte)
  | b0 :: b1 :: b2 :: b3 :: rest =>
    match decode (bytesWord b0 b1 b2 b3) with
    | .ok i => .ok (i, rest)
    | .error e => .error e
  | _ => .error .truncated

/-- The instruction the decoder reads from bits numbered as the opcode table numbers them; bits above `nbits` are zero. -/
def decodeTableWord (nbits w : Nat) : Option Instr :=
  match decodeBytes (wordBytes (BitVec.ofNat 32 (w % 2 ^ nbits))) with
  | .ok (i, _) => some i
  | .error _ => none

end Sys2Proof
end

