-- ==== Sys2Proof/Machine/Types.lean ====
section
/-!
DEFINITION. The data types that the state is made of: strands and what they wait for, bays, tenants' bay state, the order's
times, buffers, walks, tiles, rings, jobs, looms, counter instances, fields, command queues and the device (spec 01 to 17).
Everything here is plain data.
-/
namespace Sys2Proof.Machine

/-- Data by number, in rising order of the numbers; a number that is not listed has the table's default. -/
abbrev Tbl (α : Type) := List (Nat × α)

/-- A vector of four die times (R62). -/
structure V4 where
  t0 : Nat
  t1 : Nat
  t2 : Nat
  t3 : Nat
deriving DecidableEq, Repr

/-- The vector of zero times (R61). -/
def V4.zero : V4 := ⟨0, 0, 0, 0⟩

/-- Order state of a strand, a job or an interpreter (R62); the entry of `vw` for its own die is not used. -/
structure OrderState where
  pts : Nat
  vw  : V4
  rs  : V4
  pa  : V4
deriving DecidableEq, Repr

/-- Order state at zero (R62). -/
def OrderState.zero : OrderState := ⟨0, .zero, .zero, .zero⟩

/-- Times and stamp of a line at its home (Table 3-1); zero and no stamp at reset (R61). -/
structure LineOrder where
  wts   : Nat
  rts   : Nat
  stamp : V4
deriving DecidableEq, Repr

/-- A unit of some device of the domain (Table 6-9, bits 63:36). -/
structure UnitName where
  dev : Nat
  u   : UnitId
deriving DecidableEq, Repr

/-- Where storage lies after translation (Tables 1-2, 1-3, 1-5): a byte of a vault, of a scratchpad, of a register window, or of
another device. -/
inductive Loc where
  | vault (die bay off : Nat)
  | spad (die bay off : Nat)
  | rwin (die bay slot reg byte : Nat)
  | foreign (dev : Nat) (gpa : W64)
deriving DecidableEq, Repr

/-- A translated address: its place, what its leaf or segment says of it (Tables 1-4, 1-6), and the power of two of its page's size. -/
structure XLoc where
  loc   : Loc
  write : Bool
  rdc   : Bool
  sd    : Bool
  size  : Nat
deriving DecidableEq, Repr

/-- Kinds of access of a fault record (Table 1-9). -/
inductive AccKind where
  | load | store | atomic | fetch | fill | copy
  /-- The write of a copy element or of a result block: recorded as a copy, checked as a store (R28). -/
  | copyWrite
deriving DecidableEq, Repr

/-- Who asks for a translation (R26, R30): a strand, a line of a fill or a drain, an element of a card, the Assignment Engine's
job, or a command queue. -/
inductive Requester where
  | strand (x : Nat)
  | fill (id line : Nat)
  | drain (id line : Nat)
  | card (id i : Nat)
  | queue (tag q : Nat)
deriving DecidableEq, Repr

/-- A requester merged into a walk, with its access kind, address and cluster (R26, R28). -/
structure WalkReq where
  who  : Requester
  acc  : AccKind
  va   : W64
  die  : Nat
  bay  : Nat
  sp   : Bool
  unit : Nat
  slot : Nat
deriving DecidableEq, Repr

/-- How a walk ended (R13, R14): a leaf at a level, or a refusal of every requester with a cause and the entry. -/
inductive WalkResult where
  | leaf (level : Nat) (pte : W64)
  | bad (cause : Nat) (pte : W64)
deriving DecidableEq, Repr

/-- A walk of a die's walker, queued or under way (R26, R27). The next table entry to read is at (plc, tdie, off). -/
structure Walk where
  id     : Nat
  tag    : Nat
  vpn    : Nat
  reqs   : List WalkReq
  active : Bool
  /-- The level of the first entry that the walk has used: A, or that of a cached pointer (R27). -/
  top    : Nat
  level  : Nat
  plc    : Nat
  tdie   : Nat
  off    : Nat
  result : Option WalkResult
deriving DecidableEq, Repr

/-- A cached translation (R25): level 1 to 3 of its leaf (1 GiB, 2 MiB, 64 KiB) and the leaf entry. -/
structure TlbEntry where
  tag   : Nat
  level : Nat
  page  : Nat
  pte   : W64
deriving DecidableEq, Repr

/-- A cached pointer entry of level A to C (Table 1-8), keyed by the address bits that lead to it. -/
structure WalkCacheEntry where
  tag   : Nat
  level : Nat
  idx   : Nat
  pte   : W64
deriving DecidableEq, Repr

/-- A cached segment-table entry (Table 1-8). -/
structure SegEntry where
  tag : Nat
  idx : Nat
  val : W128
deriving DecidableEq, Repr

/-- A fault record (Table 1-9). -/
structure FaultRec where
  va    : W64
  cause : Nat
  fid   : Nat
  die   : Nat
  bay   : Nat
  unit  : Nat
  slot  : Nat
  acc   : Nat
  nreq  : Nat
  pte   : W64
deriving DecidableEq, Repr

/-- Accesses parked under a fault identifier (R28, R31). -/
structure Parked where
  fid   : Nat
  cause : Nat
  reqs  : List WalkReq
deriving DecidableEq, Repr

/-- An access of a fill, a drain or a card that is parked, or freed by a replay and to be translated afresh (R29, R31): its line or
element, and its fault identifier. -/
structure Remainder where
  item  : Nat
  fid   : Nat
  freed : Bool
deriving DecidableEq, Repr

/-- What a memory operation does when it is performed (R222, R225, R226), or a fetch (R28). -/
inductive MemAct where
  | load (k : MKind)
  | store
  | ldx (sc : Scope)
  | stx (sc : Scope)
  | atomic (op : AtOp) (o : AOrd) (sc : Scope) (z : ASize)
  | fetch
deriving DecidableEq, Repr

/-- Where a memory operation stands: waiting for its walk, to be performed, in the park table of its word's bay, or to be
reissued after a retry reply (R26, R41, R42). -/
inductive MemStage where
  | walk
  | go
  /-- An RDC fill: its read is at the line's slice (R52, R233). -/
  | slice
  | park
  | retry
deriving DecidableEq, Repr

/-- The in-flight record of a memory operation (R29): its operands as read at issue. -/
structure MemOp where
  act   : MemAct
  ea    : W64
  size  : Nat
  data  : W128
  d     : Dst
  loc   : Option XLoc
  stage : MemStage
  /-- Buffer entries numbered below this were present when the operation reached the head of the queue (R73, R74). -/
  upto  : Nat
  /-- The release of the operation's order has been performed. -/
  rel   : Bool
  /-- Reissues after retry replies (R42). -/
  tries : Nat
  /-- Core cycles that the access has spent in the park table before its wait was withdrawn (R220). -/
  parkedFor : Nat
  /-- One half of a 16-byte load or store has been performed (R34): whether it is the high one, and the bytes it read. -/
  half  : Option (Bool × List Byte)
  /-- The instruction has not issued: it issues again once its address is translated (R28, R38). -/
  again : Bool
deriving DecidableEq, Repr

/-- What an instruction writes when it retires (R8): its destination, the predicate word, flags, and the next pc (none: the next word). -/
structure Reply where
  d     : Dst
  v     : W128
  preds : Option W32
  flags : W64
  npc   : Option W64
deriving DecidableEq, Repr

/-- Kinds of heddle request (R112, R115). -/
inductive HedKind where
  | token | anti | arrive
  /-- SETTLE's arrival (R146): the phase that it waits for, the limit exponent of its wait, and whether its append failed. -/
  | settle (q lim : Nat) (ovf : Bool)
deriving DecidableEq, Repr

/-- Requests of the SFU or divider queue (R137, R179, R218). -/
inductive SfuOp where
  | div | divu | rem | remu
  | rcp | rsq | sqrt | exp2 | log2 | sin | cos | tanh | sigm | fdiv
deriving DecidableEq, Repr

/-- The card a job instruction waits to have posted (R308, R309, R280). -/
inductive PostKind where
  | fork (h : Nat) (b : RegZ)
  | job (a : RegZ)
  | asn (h : Nat)
deriving DecidableEq, Repr

/-- What a strand out of rotation waits for (R126, Table 12-1). -/
inductive Wait where
  /-- Nothing. -/
  | none
  /-- The instruction has not issued: its tile does not allow issue (R46). -/
  | tile (t : Nat)
  /-- The instruction has not issued: the ring does not hold the entries that it pops (R57). -/
  | pop (ring entries : Nat)
  /-- The instruction has not issued: the MXU queue is full (R263). -/
  | mxq
  /-- A memory operation (R29). -/
  | mem (op : MemOp)
  /-- A push of the result (R94). -/
  | push (r : Reply)
  /-- QWAIT (R237). -/
  | qwait (d : Dst) (ring lim : Nat)
  /-- A FENCE whose step is not taken yet (R228); the release covers buffer entries below `upto`. -/
  | fence (rel acq sc : Bool) (scope : Scope) (upto : Nat)
  /-- WAITP (R241). -/
  | waitp (reg lim : Nat)
  /-- MDLV (R240): slots still to reply, whether one replied negatively, and the buffer entries it follows (R82). -/
  | mdlv (va : W64) (u : UnitName) (reg : Nat) (v : W128) (left : List Nat) (neg : Bool) (upto : Nat)
  /-- MBX (R242). -/
  | mbx (m : Nat) (v : W128)
  /-- MBR (R242). -/
  | mbr (m : Nat) (d : Dst)
  /-- MWAIT (R243). -/
  | mwait (c e lim : Nat)
  /-- A request held because the instance is being reconfigured, or waiting for the release of R83. -/
  | arrive (die inst : Nat) (k : HedKind) (d : Dst) (upto : Nat)
  /-- A token, antitoken or arrival in the network (R112). -/
  | token (id : Nat) (k : HedKind) (d : Dst)
  /-- CWAIT (R116). -/
  | cwait (die inst p lim : Nat)
  /-- CQRY (R119): whether the instance was quiescent at the start, how many requests had entered it, the exits swept so far and the sum of
  their counts. -/
  | query (die inst : Nat) (quiet : Bool) (entered swept sum : Nat) (d : Dst)
  /-- REAP (R247). -/
  | reap (slot : Nat) (d : Dst)
  /-- SPAWN.shuttle while slot 15 is not free (R246). -/
  | spawn15 (entry w0 : W64) (d : Dst)
  /-- SVC (R193). -/
  | svc
  /-- CSRW of FEFILL or FEEMPTY until its last word (R195). -/
  | fe
  /-- A write of SVCDONE until the head's earlier accesses are performed (R193): buffer entries below `upto`. -/
  | svcdone (v : W64) (upto : Nat)
  /-- RDV (R310). -/
  | rdv (h : Nat)
  /-- XWAIT (R312). -/
  | xwait (chan id lim : Nat)
  /-- SEMW (R267). -/
  | semw (sem : Nat)
  /-- TLBI (R196): mode, first page, page count. -/
  | tlbi (mode va count : Nat)
  /-- SETTLE's wait for its phase (R146), and whether its append failed. -/
  | settle (inst p lim : Nat) (ovf : Bool)
  /-- A request in the SFU or divider queue (R137). -/
  | sfu
  /-- A job posting (R87), with the card to post. -/
  | post (k : PostKind) (card upto : Nat)
  /-- MXCFG with V = 0 until the MXU queue has drained (R272). -/
  | mxoff
  /-- MXPERM (R277). -/
  | mxperm (dst src map esz : Nat) (tr : Bool)
  /-- TRD.mc until every named bay has accepted its start (R232). -/
  | trdmc (fill : Nat)
  /-- The result has come; the strand rejoins rotation at the reply (R126). -/
  | reply (r : Reply)
deriving DecidableEq, Repr

/-- A wait that is withdrawn when its strand loses its slot, and issued again at resumption (R120, R220, R319). A request that has entered
a unit is not. -/
def Wait.withdrawn : Wait → Bool
  | .tile _ => true
  | .pop _ _ => true
  | .mxq => true
  | .mem op => match op.act with
    | .ldx _ => op.stage != .walk
    | .stx _ => op.stage != .walk
    | _ => false
  | .push _ => true
  | .qwait _ _ _ => true
  | .waitp _ _ => true
  | .mdlv _ _ _ _ _ _ _ => true
  | .mbx _ _ => true
  | .mbr _ _ => true
  | .mwait _ _ _ => true
  | .cwait _ _ _ _ => true
  | .reap _ _ => true
  | .spawn15 _ _ _ => true
  | .rdv _ => true
  | .xwait _ _ _ => true
  | .semw _ => true
  | .settle _ _ _ _ => true
  | .mxoff => true
  | .mxperm _ _ _ _ _ => true
  | _ => false

/-- Slot states (Table 6-7, R192). A strand in the creel or on its way is ready or waiting. A ready strand that still has a wait issues it
again at its next turn (R220), but for an access of its own scratchpad of which one half is still to be performed (R34, R125). -/
inductive Status where
  | ready | waiting | parked | stopped | halted
deriving DecidableEq, Repr

/-- Strand kinds (R123). -/
inductive StrandKind where
  | bound | follow | pos
deriving DecidableEq, Repr

/-- Where a strand is (R129, R131, R133, R315). -/
inductive Place where
  | slot (u : UnitId) (n : Nat)
  | creel (u : UnitId)
  | transit (msg : Nat)
  | record (u : UnitId)
deriving DecidableEq, Repr

/-- The binding of qo (R235, R236). -/
structure OutBind where
  ring : Nat
  cons : UnitName
  idx  : Nat
deriving DecidableEq, Repr

/-- A record that holds a strand for its runtime (R314, R315); `seq` once it is written. -/
structure Held where
  seq   : Option Nat
  evt   : Nat
  cause : Nat
  value : W64
  pc    : W64
  sts   : W64
  cycle : W64
  /-- Buffer entries that the release of its store waits for are numbered below this (R74, R314). -/
  upto  : Nat
deriving DecidableEq, Repr

/-- A migration that waits for its departure (R133, R143): the unit, and the buffer entries its release covers (R81). -/
structure Leaving where
  dest   : UnitId
  upto : Nat
deriving DecidableEq, Repr

/-- A strand (R122): its saved context, its order record and its runtime records. -/
structure Strand where
  tag     : Nat
  place   : Place
  status  : Status
  regs    : Vector W128 24
  pc      : W64
  preds   : W32
  sts     : W64
  /-- The prefix bits of STS that the instruction under way took at its issue (R161, R162, R165). -/
  pfx     : W64
  pres    : BitVec 24
  nslot   : Nat
  gen     : Nat
  iring   : Nat
  irv     : Bool
  oring   : OutBind
  orv     : Bool
  kind    : StrandKind
  ord     : OrderState
  wait    : Wait
  /-- Clock at which the wait began. -/
  since   : Nat
  /-- Arrival number of the wait, for queues served oldest first. -/
  arr     : Nat
  /-- Clock at which the tenant left its slots or the strand left its slot, while withdrawn (R220). -/
  susp    : Option Nat
  pend    : Option (Nat × W64)
  /-- Addresses of stores and deliveries that a failed link lost, whose traps are to be taken (R320). -/
  lost    : List W64
  held    : Option Held
  exitw   : W64
  leaving : Option Leaving
  /-- One more than the clock at which the strand's last reply came, 0 for none (R126). -/
  back    : Nat
  /-- The strand has borrowed a turn since its own last turn (R127). -/
  borrowed : Bool
  /-- Turns left of HINT 2 (R163). -/
  noBorrow : Nat
  /-- Registers (0 to 23) and predicates (32 up) whose writer has not yet written them, with the clock at which it does (R125, R127). -/
  writing : List (Nat × Nat)
  /-- Counted cycles of the hang watchdog (R329) and the clock up to which they are counted. -/
  hang    : Nat
  hangAt  : Nat
  /-- Start of the creel quantum (R131), and whether YIELD has ended it (R194). -/
  quantum : Nat
  yielded : Bool
  /-- Word of the last instruction issued (R29, Table 16-3). -/
  word    : W64
  wid     : BitVec 36
  tvec    : W64
  launch  : Option Nat
  card    : Option Nat
  /-- Completions of each copy channel already applied (R312). -/
  applied : Tbl Nat
  /-- Barrier phases whose accumulators are applied, by instance (R118). -/
  phases  : Tbl Nat
  /-- The names under which the strand last published its position, by bank (R145, R146). -/
  settled : Tbl W64
deriving DecidableEq, Repr

/-- Tile states (Table 2-6). -/
inductive TileState where
  | empty | filling | ready | draining
deriving DecidableEq, Repr

/-- A tile-table entry (Table 2-6) and its completion stamp (R92). -/
structure Tile where
  /-- The tenant has defined it (R59). -/
  defd : Bool
  st   : TileState
  err  : Bool
  mc   : Bool
  pend : Nat
  len  : Nat
  base : Nat
  cs   : V4
deriving DecidableEq, Repr

/-- Ring states (Table 2-9). -/
inductive RingState where
  | free | opened | ended
deriving DecidableEq, Repr

/-- A ring descriptor (Table 2-9) and the stamps of its entries (R94), by entry number. -/
structure Ring where
  st     : RingState
  pmask  : BitVec 16
  eos    : BitVec 16
  log2n  : Nat
  limexp : Nat
  head   : Nat
  tail   : Nat
  base   : Nat
  stamps : Tbl V4
deriving DecidableEq, Repr

/-- A mailbox (R128, R242): a word of the bay with a presence bit, in the order. -/
structure Mbox where
  full : Bool
  val  : W128
  line : LineOrder
deriving DecidableEq, Repr

/-- A landed-packet counter (R243) and the stamps of the packets it holds, oldest first. -/
structure Counter where
  n      : Nat
  stamps : List V4
deriving DecidableEq, Repr

/-- An entry of the SVC queue (Table 10-7). -/
structure SvcEntry where
  slot : Nat
  gen  : Nat
  n    : Nat
deriving DecidableEq, Repr

/-- A chunk sum (R265): an exact multiple of 2^-320, an infinity, or NaN. -/
inductive ChunkSum where
  | fin (m : Int)
  | inf (neg : Bool)
  | nan
deriving DecidableEq, Repr

/-- Partial-bank states (Table 13-3). -/
inductive BankState where
  | empty | running | full | promoting
deriving DecidableEq, Repr

/-- A partial bank (R262): its state, its sums, and the E8M0 scales of its chunk's fragments (R257). -/
structure Bank where
  st   : BankState
  sums : List ChunkSum
  ea   : List Byte
  eb   : List Byte
deriving DecidableEq, Repr

/-- An operation of the MXU queue (R263). -/
inductive MxOp where
  | z
  | run (k a b : Nat) (sig : Option Nat)
  | prom (k : Nat) (sig : Option Nat)
  | st (out : Nat) (fmt : Nat) (sat : Bool) (mul : Option W32) (sig : Option Nat)
deriving DecidableEq, Repr

/-- An entry of the MXU queue: when it started, and the operand fragments it has (R255, R256). -/
structure MxEntry where
  op    : MxOp
  start : Option Nat
  a     : Option (List Byte)
  b     : Option (List Byte)
deriving DecidableEq, Repr

/-- A running sequencer job (R268): the steps left, at which step it is, and whether it waits on a semaphore. -/
structure SeqJob where
  card  : Nat
  off   : Nat
  count : Nat
  at_   : Nat
  /-- The semaphore it is parked on (R267). -/
  parked : Option Nat
  arr   : Nat
deriving DecidableEq, Repr

/-- Loom state of a bay (Table 13-7, R270). -/
structure Loom where
  act    : Bool
  w0     : W64
  w1     : W64
  w2     : W64
  err    : Bool
  ecode  : Nat
  echunk : Nat
  semovf : Bool
  bank0  : Bank
  bank1  : Bank
  runk   : Nat
  promk  : Nat
  mxf    : W64
  queue  : List MxEntry
  /-- Scales on their way to the latches of a bank (R260): A or B, the chunk, and the scales. -/
  scales : List (Bool × Nat × List W32)
  seq    : Option SeqJob
  /-- Order state of the MXU's accesses (R264, R267). -/
  ord    : OrderState
  /-- What the strands and the sequencer that have signalled a semaphore hand on (R267). -/
  sord   : OrderState
  /-- The identity of the loom that the bay has left (R272). -/
  gone   : Option Nat
  /-- Clock at which the tenant left the bay, while the MXU is frozen (R325). -/
  frozen : Option Nat
deriving DecidableEq, Repr

/-- Bay state of a tenant on one bay (R322), its compute core and its spindle together (spindle rings are numbered from 8). -/
structure TenBay where
  tiles   : Tbl Tile
  rings   : Tbl Ring
  mbox    : Tbl Mbox
  ctrs    : Tbl Counter
  svcq    : List SvcEntry
  sems    : Tbl Nat
  loom    : Loom
  creel   : List Nat
  spcreel : List Nat
  /-- When the core's creel became non-empty (R131). -/
  creelAt : Nat
  /-- Generation of each slot; spindle slots are numbered from 16 (R135). -/
  gens    : Tbl Nat
  /-- Neighbour cursors of the slots (R251): the entries still to return. -/
  cursors : Tbl (List W128)
  /-- Bound rendezvous handles of each slot: handle and card (R307). -/
  handles : Tbl (List (Nat × Nat))
  /-- The tenant's range is loaded on the bay (R324). -/
  loaded  : Bool
deriving DecidableEq, Repr

/-- An entry of the park table of a scratchpad (R41): the word, the strand, and when it arrived. -/
structure ParkEntry where
  word  : Nat
  x     : Nat
  since : Nat
deriving DecidableEq, Repr

/-- A stream detector (R49): requester, page, next line, run length, whether in stream mode, and the clock of its last access. -/
structure Detector where
  who    : Nat
  page   : Nat
  next   : Nat
  run    : Nat
  stream : Bool
  at_    : Nat
deriving DecidableEq, Repr

/-- A request of the SFU or divider queue (R137), with the operands as read at issue. -/
structure SfuReq where
  x    : Nat
  op   : SfuOp
  f    : FFmt
  a    : W128
  b    : W128
  d    : Dst
  rnd  : Nat
deriving DecidableEq, Repr

/-- Who a fill read of a slice is for (R233): a line of a fill, or as an RDC fill a strand's load or an element of a card. -/
inductive Joiner where
  | fill (id line : Nat)
  | strand (x : Nat)
  | card (id i : Nat)
deriving DecidableEq, Repr

/-- A read that has joined an entry: whether its leaf allows an RDC copy (R51), its address, and the power of two of its page's size. -/
structure SliceJoin where
  who  : Joiner
  rdc  : Bool
  va   : W64
  size : Nat
deriving DecidableEq, Repr

/-- An outstanding or waiting read of a slice's fill-merge table, by partition tag and line (R233). -/
structure MergeEntry where
  tag   : Nat
  line  : Nat
  joins : List SliceJoin
deriving DecidableEq, Repr

/-- Hardware registers and units of a compute core or a spindle. -/
structure CoreUnit where
  crcfg : W64
  orph  : Nat
  hen   : BitVec 16
  sfuq  : List SfuReq
  park  : List ParkEntry
  tlb   : List TlbEntry
  segs  : List SegEntry
  dets  : List Detector
  throttled : Bool
  /-- One more than the bay's cycle in which a turn was last taken (R124). -/
  lastTurn : Nat
  /-- Fill-merge table of the slice (R233): outstanding reads and waiting reads, in order. -/
  merge : List MergeEntry
  mergeWait : List MergeEntry
deriving DecidableEq, Repr

/-- A copy in the RDC of a die (Table 3-1). -/
structure RdcCopy where
  die   : Nat
  home  : Nat
  line  : Nat
  bytes : List Byte
  bad   : List Bool
  wts   : Nat
  rts   : Nat
  stamp : V4
  lease : Nat
deriving DecidableEq, Repr

/-- A packet that lands at a bay when its buffered store is performed (R90, R301): counter and stamp. -/
structure Landing where
  die   : Nat
  bay   : Nat
  tag   : Nat
  ctr   : Option Nat
  stamp : V4
deriving DecidableEq, Repr

/-- What a buffer entry performs at its home (R68, R82): bytes of a line, a delivery to a register, or bytes of a weight buffer. -/
inductive BufAct where
  | bytes (loc : Loc) (bs : List Byte)
  | deliver (name : W64) (reg : Nat) (v : W128)
deriving DecidableEq, Repr

/-- Whose a store in a write buffer is (R29, R320): no one's that a lost store would fail, a strand's, with the address that it would trap
with, or a drain's or a card's. -/
inductive Issuer where
  | none
  | strand (x : Nat) (va : W64)
  | engine (id : Nat)
deriving DecidableEq, Repr

/-- The drain or card whose store it is, 0 for none. -/
def Issuer.id : Issuer → Nat
  | .none => 0
  | .strand _ _ => 0
  | .engine id => id

/-- An entry of a write buffer (Table 3-1). -/
structure BufEntry where
  serial : Nat
  tag    : Nat
  act    : BufAct
  stamp  : V4
  land   : Option Landing
  src    : Issuer
  /-- A link entry performed at the other device, whose acknowledgement has not returned (R68). -/
  sent   : Bool
deriving DecidableEq, Repr

/-- An entry of the SC-fence log (R80): the strand, its place at the step, the scope and the stamp. -/
structure ScEntry where
  x     : Nat
  scope : Scope
  u     : UnitId
  stamp : V4
  /-- The strands in the fence's scope at its own step (R65). -/
  members : List Nat
deriving DecidableEq, Repr

/-- A token, antitoken or arrival in a heddle network (R112): where it is. -/
inductive TokenAt where
  | tree (node : Nat)
  | wire (die layer wire : Nat)
  | exit (die e : Nat)
  | parked (die e : Nat)
deriving DecidableEq, Repr

/-- A token, antitoken or arrival in flight. -/
structure Token where
  id    : Nat
  die   : Nat
  inst  : Nat
  x     : Nat
  kind  : HedKind
  wire0 : Nat
  stamp : V4
  at_   : TokenAt
deriving DecidableEq, Repr

/-- The held reply of an arrival of phase LRP + 16 or later (R118). -/
structure HeldArrival where
  x     : Nat
  v     : Nat
  p     : Nat
  stamp : V4
deriving DecidableEq, Repr

/-- A counter instance (R103): descriptor, toggles, exit counts, and barrier state. -/
structure Instance where
  w0   : W64
  w1   : W64
  w2   : W64
  /-- Toggles that are 1: 1,000 × die + heddle number, or 4,000 + tree node. -/
  tog  : List Nat
  /-- Exit counts: 32 × die + exit. -/
  k    : Tbl Nat
  lrp  : Nat
  exh  : Bool
  acc  : Tbl V4
  held : List HeldArrival
  entered : Nat
deriving DecidableEq, Repr

/-- A region of a card's footprint (R85). -/
structure Region where
  base : Nat
  len  : Nat
  r    : Bool
  w    : Bool
  /-- It is one that a weight-buffer copy may write (R350). -/
  wb   : Bool
deriving DecidableEq, Repr

/-- What a card is (R85). -/
inductive CardKind where
  | copy | load | store | seq | asn
deriving DecidableEq, Repr

/-- An element of a card under way (R88, R301): the bytes read so far, and where it stands. -/
inductive Elem where
  | reading (bs : List Byte) (stamp : V4)
  /-- The next piece's read is at its line's slice (R52, R233). -/
  | atSlice (bs : List Byte)
  | landing (bs : List Byte) (loc : Loc) (stamp : V4)
  | done
deriving DecidableEq, Repr

/-- A job card in a die's job queue (R85 to R89, Table 15-5). -/
structure Card where
  kind    : CardKind
  tag     : Nat
  die     : Nat
  eng     : Nat
  chan    : Nat
  xid     : Nat
  wb      : Bool
  cen     : Bool
  mc      : Nat
  src     : W64
  dst     : W64
  len     : Nat
  pentry  : W64
  parg    : W64
  w1      : W128
  pbay    : Nat
  pwid    : BitVec 36
  ptvec   : W64
  regions : List Region
  ord     : OrderState
  preds   : List Nat
  posted  : Bool
  started : Bool
  elems   : Tbl Elem
  /-- Elements parked or to be replayed, in record order (R29, R31). -/
  parked  : List Remainder
  /-- Status of an error completion, 0 for none (R301, R290). -/
  code    : Nat
  stopped : Bool
  foreign : Bool
  upto    : Option Nat
  cs      : Option V4
  fc      : Option Nat
  strand  : Option Nat
  bay     : Nat
  /-- The descriptor of an assignment job (R281), and the result block once the auction has ended (R289). -/
  desc    : List W64
  result  : List Byte
deriving DecidableEq, Repr

/-- A copy channel (R300): NEXT, WM, last error, and the completion stamps in order. -/
structure Chan where
  next  : Nat
  wm    : Nat
  errId : Nat
  errCode : Nat
  log   : List V4
deriving DecidableEq, Repr

/-- A packet of a fill on its way to one bay (R92, R346). -/
structure FillPacket where
  id    : Nat
  line  : Nat
  bay   : Nat
  bytes : List Byte
  bad   : List Bool
  stamp : V4
deriving DecidableEq, Repr

/-- A receiving bay of a fill (R92, R232): whether it has accepted its start, and what it still waits for. -/
structure FillBay where
  bay      : Nat
  accepted : Bool
  refused  : Bool
  upto     : Option Nat
  done     : Bool
deriving DecidableEq, Repr

/-- A tile fill in progress (R92, R231, R232). -/
structure Fill where
  tag   : Nat
  die   : Nat
  bay   : Nat
  tile  : Nat
  src   : W64
  lines : Nat
  ord   : OrderState
  multi : Bool
  ctr   : Option Nat
  bays  : List FillBay
  /-- TRD.mc has retired, or the fill is unicast: line reads may be sent (R344). -/
  open_ : Bool
  /-- The slot that issued it (R30). -/
  slot  : Nat
  /-- Lines whose read has been sent, and those whose reply has left. -/
  sent  : List Nat
  read  : List Nat
  packets : List FillPacket
  /-- Lines parked or to be replayed, in record order (R29, R31). -/
  parked : List Remainder
  /-- A line came from another device (R89). -/
  foreign : Bool
  /-- The fill has ended by fail: it sends no more reads, and its tiles end empty with ERR (R31, R92). -/
  failed : Bool
deriving DecidableEq, Repr

/-- A tile drain in progress (R93, R234). -/
structure Drain where
  tag   : Nat
  die   : Nat
  bay   : Nat
  tile  : Nat
  dst   : W64
  lines : Nat
  ord   : OrderState
  /-- The slot that issued it (R30). -/
  slot  : Nat
  stored : List Nat
  upto    : Option Nat
  foreign : Bool
  /-- Lines parked or to be replayed, in record order (R29, R31). -/
  parked : List Remainder
  /-- The drain has ended by fail: it stores no more, and its tile ends ready with ERR (R31, R93). -/
  failed : Bool
  /-- Stores of it that a failed link lost (R320). -/
  lost   : Nat
deriving DecidableEq, Repr

/-- An operand message between loom neighbours, or a scale multicast's request (R255, R260). -/
inductive Msg where
  /-- A delivery to a strand of the sender's die (R135, R239), with the sender and its die, time and stamp (R82). -/
  | deliver (tag : Nat) (name : W64) (reg : Nat) (v : W128) (x die pts : Nat) (stamp : V4)
  /-- A FEFILL or FEEMPTY under way (R195): the next word of a bay's scratchpad, how many are left, and the strand that waits for it. -/
  | fe (tag die bay : Nat) (full : Bool) (next left : Nat) (x : Option Nat)
  /-- A strand on its way (R133, R143), from a die to a unit. -/
  | migrate (x fromDie : Nat) (dest : UnitId)
  /-- A launch packet for a bay (R298). -/
  | launch (id die bay : Nat)
  /-- An operand fragment for a bay (R255, R256): A or B, the chunk, the sender's loom identity. -/
  | operand (tag die bay : Nat) (isA : Bool) (k : Nat) (ident : Nat) (bs : List Byte) (sent : Nat)
  /-- A scale request (R260) of a feeding bay. -/
  | scale (tag die bay : Nat) (isA : Bool) (k : Nat)
deriving DecidableEq, Repr

/-- A launch in progress (R298, R352). -/
structure Launch where
  tag   : Nat
  /-- The priority level of the queue it came from (R304), and the die of its interpreter. -/
  prio  : Nat
  die   : Nat
  fc    : Option Nat
  entry : W64
  tvec  : W64
  wid   : BitVec 36
  arg   : W64
  hdr   : W64
  ord   : OrderState
  /-- Bays of the launch, 2,048 × die + bay, whose share is not complete. -/
  left  : List Nat
  /-- Bays whose head has not started. -/
  toStart : List Nat
  field : Option Nat
  /-- Bays where a strand of a launch with a field has landed (R352). -/
  landed : List Nat
  acc   : V4
  dies  : List Nat
  upto  : Option Nat
deriving DecidableEq, Repr

/-- A point or a corner in Q16.16 (R139). -/
structure P3 where
  x : Int
  y : Int
  z : Int
deriving DecidableEq, Repr

/-- A bay of an active field (Tables 7-2, 7-3). -/
structure FieldBay where
  bay  : Nat
  /-- The bay owns a box (R140, R147). -/
  boxed : Bool
  lo   : P3
  hi   : P3
  ovf  : Bool
  hovf : Bool
  nospare : Bool
  pin  : Bool
  cnt0 : Nat
  cnt1 : Nat
  hcnt0 : Nat
  hcnt1 : Nat
deriving DecidableEq, Repr

/-- A split (R147): the bay, the spare that took the upper part, and the phase of the release that made it. -/
structure Split where
  bay   : Nat
  spare : Nat
  phase : Nat
deriving DecidableEq, Repr

/-- A position field (R139 to R147); its registers outlast its launch (R354). -/
structure Field where
  live   : Bool
  tag    : Nat
  die    : Nat
  desc   : List W64
  bays   : List FieldBay
  spares : List Nat
  splits : List Split
  phase  : Nat
deriving DecidableEq, Repr

/-- A command queue (Table 15-1), its return stack and how far the die's interpreter has come with it (R292 to R294). -/
structure CmdQueue where
  cfg   : W64
  pc    : W64
  end_  : W64
  st    : W64
  stack : List W64
  /-- Buffer entries that the release of the entry under way waits for are numbered below this (R74). -/
  upto  : Option Nat
  /-- A translation of the queue that failed by software (R296). -/
  failed : Bool
  parked : Option Nat
  /-- Increments of each fence counter that the interpreter has applied (R295). -/
  applied : Tbl Nat
deriving DecidableEq, Repr

/-- A fence counter (R295): its value and the stamps of its increments, in order. -/
structure FenceCtr where
  v      : W64
  stamps : List V4
deriving DecidableEq, Repr

/-- Registers of a partition (Tables 1-7, 2-5, 6-8, 16-2, 16-7, 15-6) and what its walker and runtime hold. -/
structure Part where
  xtb   : W64
  xsg   : W64
  xfm   : W64
  xfq   : W64
  xfqh  : W32
  xfqt  : W32
  fectl : W64
  crvlt : W64
  wdctl : W64
  sva   : W64
  xtq   : W64
  xtqh  : W32
  xtqt  : W32
  vdsch : W64
  fcs   : Tbl FenceCtr
  queues : Tbl CmdQueue
  nextFid : Nat
  nextSeq : Nat
  /-- Accesses parked under each fault identifier. -/
  parked : List Parked
  /-- Fault records held in walk slots: die, record, and the buffer entries that its release waits for, numbered below this (R30, R74). -/
  heldRecs : List (Nat × FaultRec × Nat)
  /-- Replies and fails held for strands that are not resident (R319): strand, replay, cause, address. -/
  resolved : List (Nat × Bool × Nat × W64)
  meters : List Nat
  /-- What the units have counted for each meter and not yet reported (R338). -/
  owed   : List Nat
  snaps  : Nat
deriving DecidableEq, Repr

/-- A die's walker, registers and drain vector. -/
structure Die where
  rdcctl : W64
  raslog : W64
  dd     : V4
  walks  : List Walk
  held   : List (Nat × WalkReq)
  /-- Walk slots that hold a fault record for want of queue space (R30). -/
  heldCount : Nat
  /-- Link lanes that are out for recalibration: scale-up, host (R335). -/
  laneOut : Bool
  hostLaneOut : Bool
  /-- Order state of the die's command-list interpreter (R87, R294). -/
  listOrd : OrderState
deriving DecidableEq, Repr

/-- The running auction of an Assignment Engine (R284 to R288). -/
structure Auction where
  card   : Nat
  rows   : Nat
  cols   : Nat
  caps   : List Nat
  scores : List (List W32)
  excl   : List Bool
  /-- Prices and holders of each column's slots. -/
  prices : List (List W32)
  holders : List (List (Option Nat))
  frozen : List Bool
  eps    : W32
  rounds : Nat
  phases : Nat
deriving DecidableEq, Repr

/-- A cluster: its TLB, walk cache, scale server register and Assignment Engine. -/
structure Cluster where
  tlb   : List TlbEntry
  wcache : List WalkCacheEntry
  scsrv : W64
  asn   : Option Auction
  spareUsed : Bool
  spareFor : Option Nat
deriving DecidableEq, Repr

/-- A tenant resident on an island, and the bays' contexts it holds (R322). -/
structure Island where
  cfg     : W64
  started : Bool
  failed  : Bool
  updated : Nat
  /-- Clock of the island's start. -/
  at_     : Nat
  resident : List Nat
  running : Option Nat
  /-- The outgoing tenant and the cycle H of the hand-over under way (R323). -/
  prev    : Option Nat
  handAt  : Nat
  /-- When the running tenant's slice began, the last tenant served, and budgets in µs, D where not listed (R304). -/
  sliceAt : Nat
  last    : Nat
  budgets : Tbl Rat
  budgetAt : Nat
  /-- The tenant the serving rule has chosen next, if any. -/
  next    : Option Nat
deriving DecidableEq, Repr

/-- Interrupts raised to the host (R24, R30, R296, R314) and answers returned to it. -/
inductive HostEvent where
  | faultIsolation (r : FaultRec) (tag : Nat)
  | faultQueueFull (tag : Nat)
  | listError (tag q code : Nat)
  | trapRecord (tag : Nat)
  | trapQueueFull (tag : Nat)
  | resetDone (tag : Nat)
  | deviceEvent (n : Nat)
  | spdm (bs : List Byte)
  | meter (bs : List Byte)
  | refused (cause : Nat) (value : W64)
deriving DecidableEq, Repr

/-- A scale-up link to another device (R320): up or failed, and the answers given to its requests by sequence number. -/
structure Link where
  failed  : Bool
  answers : Tbl W128
deriving DecidableEq, Repr

/-- The device as a whole (spec 17). `stage` is 0 before power-good, then one more than the stage of Table 17-1 that has begun. -/
structure Device where
  num    : Nat
  domain : List Nat
  /-- The number and domain that the management controller's configuration gives (R331). -/
  conf   : Nat × List Nat
  stage  : Nat
  /-- Clock of power-good (Table 17-2). -/
  powerAt : Nat
  events : List HostEvent
  /-- The SPDM algorithms have been settled (R337). -/
  algs   : Bool
deriving DecidableEq, Repr

/-- What the machine does next: a turn of a slot, which may be lent where its owner cannot issue or may not (R127), the next entry of a
command queue, or a step of the opcode table. -/
inductive Act where
  | interp (tag q : Nat)
  | turn (u : UnitId) (slot : Nat) (lend : Bool)
  | event (i : Instr)
deriving DecidableEq, Repr, Inhabited

/-- A choice of the next step (R66), `dt` core cycles after the step before it. -/
structure Choice where
  dt  : Nat
  act : Act
deriving DecidableEq, Repr, Inhabited

end Sys2Proof.Machine
end

