-- ==== Sys2Proof/Config.lean ====
section
/-!
DEFINITION. What the spec leaves open, as free values: opaque constants with no body, so that nothing can be proved of a value
of theirs. The step applies them to State.freeCtr and counts it on, so that every use is a fresh value (log 1, 2, 8, 9, 10, 12).
-/
namespace Sys2Proof.Config
open Sys2Proof.Machine

/-- The step the machine chooses when State.agenda is empty (R66): any step, a free value (log 1). -/
opaque choose : Nat → Choice

/-- A value of `w` bits that the spec leaves open (log 2). -/
opaque freeBits (w : Nat) : Nat → BitVec w

/-- A natural number that the spec leaves open, such as which of several orders is taken (log 10). -/
opaque freeNat : Nat → Nat

/-- The bits an approximate SFU function returns for an operand's code, not disclosed by R219: a fixed function of the function, the
format and the operand. The model takes it only where it meets the bound of Table 11-10 (log 8). -/
opaque sfu (op : SfuOp) (f : FFmt) (x : Nat) : Nat

/-- The set of a cluster TLB (8 ways of 128 sets, Table 1-8) that a page of a level goes to: the spec gives no index (log 95). -/
opaque tlbSet (level page : Nat) : Nat

/-- The set of an RDC slice (16 ways of 512 sets, Table 2-1) that a line goes to: the spec gives no index (log 95). -/
opaque rdcSet (line : Nat) : Nat

/-- Whether `n` bytes at a window GPA of another device are a partition's there (R12, R21, R322): that device's own registers say
(log 9, log 96). -/
opaque foreignWindow (tag : Nat) (gpa : BitVec 64) (n : Nat) : Bool

/-- The rounding mode that a reserved RND code selects when an RFT has restored one in a pending FMT payload (R162, R190; log 44). -/
opaque reservedRnd : Nat → Nat

/-- The FMTC code that a reserved one stands for when an RFT has restored it in a pending FMT payload (R162, R190; log 44). -/
opaque reservedInt : Nat → Nat

end Sys2Proof.Config
end

