-- ==== Sys2Proof/Machine/Tbl.lean ====
section
/-!
DEFINITION. Operations on tables, on memory (a table of bytes in canonical form), on sets of numbers, and the bit-field,
sign-extension and byte-order helpers that the model uses.
-/
namespace Sys2Proof.Machine

/-- The entry of a number, `d` where it is not listed. -/
def Tbl.get {α : Type} (d : α) : Tbl α → Nat → α
  | [], _ => d
  | (k, v) :: t, n => if k = n then v else Tbl.get d t n

/-- Lists `v` for a number, keeping the rising order. -/
def Tbl.set {α : Type} : Tbl α → Nat → α → Tbl α
  | [], n, v => [(n, v)]
  | (k, w) :: t, n, v =>
    if k = n then (n, v) :: t
    else if n < k then (n, v) :: (k, w) :: t
    else (k, w) :: Tbl.set t n v

/-- Removes a number from a table. -/
def Tbl.del {α : Type} : Tbl α → Nat → Tbl α
  | [], _ => []
  | (k, v) :: t, n => if k = n then Tbl.del t n else (k, v) :: Tbl.del t n

/-- The entry of a number, if it is listed. -/
def Tbl.find {α : Type} : Tbl α → Nat → Option α
  | [], _ => none
  | (k, v) :: t, n => if k = n then some v else Tbl.find t n

/-- The numbers of a table rise strictly from above `lo`. -/
def Tbl.risingFrom {α : Type} : Option Nat → Tbl α → Bool
  | _, [] => true
  | lo, (k, _) :: t => (match lo with | none => true | some l => decide (l < k)) && Tbl.risingFrom (some k) t

/-- Bytes by address. Addresses number all storage of the package (`State.keyOf`). -/
abbrev Memory := List Host.Cell

/-- What a byte that nothing has written reads as: zero (log 5). -/
def Memory.unwritten : Byte := 0

/-- Reads a byte. -/
def Memory.read (m : Memory) (a : Nat) : Byte := Tbl.get Memory.unwritten m a

/-- Writes a byte, keeping the canonical form: the value an unlisted address reads as is not listed. -/
def Memory.write (m : Memory) (a : Nat) (v : Byte) : Memory :=
  if v = Memory.unwritten then Tbl.del m a else Tbl.set m a v

/-- The canonical form: addresses rise strictly and no entry equals what an unlisted address reads as. -/
def Memory.wf (m : Memory) : Bool :=
  Tbl.risingFrom none m && m.all (fun c => c.2 != Memory.unwritten)

/-- Reads `n` bytes from an address up. -/
def Memory.readBytes (m : Memory) (a : Nat) : Nat → List Byte
  | 0 => []
  | n + 1 => m.read a :: Memory.readBytes m (a + 1) n

/-- Writes bytes from an address up. -/
def Memory.writeBytes (m : Memory) (a : Nat) : List Byte → Memory
  | [] => m
  | b :: bs => Memory.writeBytes (m.write a b) (a + 1) bs

/-- The number that bytes hold, the lowest address first (R5). -/
def leNat : List Byte → Nat
  | [] => 0
  | b :: bs => b.toNat + 256 * leNat bs

/-- The `n` bytes of a number, the lowest address first (R5). -/
def leBytes : Nat → Nat → List Byte
  | 0, _ => []
  | n + 1, v => BitVec.ofNat 8 v :: leBytes n (v / 256)

/-- A set of numbers, kept rising without repeats. -/
def setAdd : List Nat → Nat → List Nat
  | [], n => [n]
  | k :: t, n => if k = n then k :: t else if n < k then n :: k :: t else k :: setAdd t n

/-- Removes a number from a set. -/
def setDel (l : List Nat) (n : Nat) : List Nat := l.filter (fun k => k != n)

/-- Bits `hi` down to `lo` of a 64-bit word, as a number. -/
def bits (x : W64) (hi lo : Nat) : Nat := x.toNat / 2 ^ lo % 2 ^ (hi - lo + 1)

/-- One bit of a word. -/
def bit {w : Nat} (x : BitVec w) (i : Nat) : Bool := x.getLsbD i

/-- A word from fields given as value and lowest bit; the fields are cut to 64 bits. -/
def pack (fs : List (Nat × Nat)) : W64 := BitVec.ofNat 64 (fs.foldl (fun a f => a + f.1 * 2 ^ f.2) 0)

/-- A truth value as a number. -/
def b2n (b : Bool) : Nat := if b then 1 else 0

/-- Writes bits `hi` down to `lo` of a word. -/
def setBits (x : W64) (hi lo : Nat) (v : Nat) : W64 :=
  let m := (2 ^ (hi - lo + 1) - 1) * 2 ^ lo
  (x &&& ~~~(BitVec.ofNat 64 m)) ||| BitVec.ofNat 64 (v % 2 ^ (hi - lo + 1) * 2 ^ lo)

/-- Sets or clears one bit of a word. -/
def setBit {w : Nat} (x : BitVec w) (i : Nat) (b : Bool) : BitVec w :=
  if b then x ||| BitVec.ofNat w (2 ^ i) else x &&& ~~~(BitVec.ofNat w (2 ^ i))

/-- A word as 64 bits. -/
def w64 (n : Nat) : W64 := BitVec.ofNat 64 n

/-- A number as 128 bits. -/
def w128 (n : Nat) : W128 := BitVec.ofNat 128 n

/-- The element of a list at a place, `d` past its end. -/
def nth {α : Type} (d : α) : List α → Nat → α
  | [], _ => d
  | a :: _, 0 => a
  | _ :: t, n + 1 => nth d t n

/-- Replaces the element of a list at a place; nothing past its end. -/
def setNth {α : Type} : List α → Nat → α → List α
  | [], _, _ => []
  | _ :: t, 0, v => v :: t
  | a :: t, n + 1, v => a :: setNth t n v

/-- The first element with a property and what is left without it. -/
def takeFirst {α : Type} (p : α → Bool) : List α → Option (α × List α)
  | [] => none
  | a :: t => if p a then some (a, t) else (takeFirst p t).map (fun r => (r.1, a :: r.2))

/-- Keeps the first `n` elements (the most recently used ones of a cache). -/
def keep {α : Type} (n : Nat) (l : List α) : List α := l.take n

/-- Keeps the first `n` elements with a property, and every other element (the most recently used ones of a set of a cache). -/
def keepWays {α : Type} (p : α → Bool) : Nat → List α → List α
  | _, [] => []
  | 0, a :: t => if p a then keepWays p 0 t else a :: keepWays p 0 t
  | n + 1, a :: t => if p a then a :: keepWays p n t else a :: keepWays p (n + 1) t

/-- Numbers from `a` up, `n` of them. -/
def fromUp (a : Nat) : Nat → List Nat
  | 0 => []
  | n + 1 => a :: fromUp (a + 1) n

/-- The entry of die `d` of a vector of die times (R62). -/
def V4.get (v : V4) : Nat → Nat
  | 0 => v.t0
  | 1 => v.t1
  | 2 => v.t2
  | _ => v.t3

/-- Replaces the entry of die `d`. -/
def V4.set (v : V4) (d x : Nat) : V4 :=
  match d with
  | 0 => { v with t0 := x }
  | 1 => { v with t1 := x }
  | 2 => { v with t2 := x }
  | _ => { v with t3 := x }

/-- Element-wise maximum (R62). -/
def V4.vmax (a b : V4) : V4 := ⟨Nat.max a.t0 b.t0, Nat.max a.t1 b.t1, Nat.max a.t2 b.t2, Nat.max a.t3 b.t3⟩

/-- The knowledge vector on die `d` (R62). -/
def OrderState.know (o : OrderState) (d : Nat) : V4 := o.vw.set d o.pts

end Sys2Proof.Machine
end

