-- ==== Sys2Proof/Machine/Init.lean ====
section
/-!
DEFINITION. What each part of the state holds at reset: the values the spec gives, and where it gives none the values that log 4
and log 6 name.
-/
namespace Sys2Proof.Machine

/-- Compute core of bay 0 of die 0. -/
def UnitId.zero : UnitId := ⟨0, 0, false⟩

/-- A line at reset: times zero, no stamp (R61). -/
def LineOrder.init : LineOrder := ⟨0, 0, .zero⟩

/-- A strand as it is before anything is placed: every register zero, predicate word 1, presence bits 1, STS zero (R36, R130; log 4). -/
def Strand.init : Strand :=
  { tag := 0, place := .transit 0, status := .stopped, regs := Vector.replicate 24 0, pc := 0, preds := 1, sts := 0, pfx := 0,
    pres := BitVec.allOnes 24, nslot := 0, gen := 0, iring := 0, irv := false, oring := ⟨0, ⟨0, UnitId.zero⟩, 0⟩, orv := false,
    kind := .bound, ord := .zero, wait := .none,
    since := 0, arr := 0, susp := none, pend := none, lost := [], held := none, exitw := 0, leaving := none, back := 0, borrowed := false, noBorrow := 0,
    writing := [], hang := 0, hangAt := 0, quantum := 0, yielded := false, word := 0, wid := 0, tvec := 0, launch := none, card := none,
    applied := [], phases := [], settled := [] }

/-- An entry of the tile table at reset (Table 2-6). -/
def Tile.init : Tile := ⟨false, .empty, false, false, 0, 0, 0, .zero⟩

/-- A ring descriptor at reset (Table 2-9). -/
def Ring.init : Ring := ⟨.free, 0, 0, 0, 0, 0, 0, 0, []⟩

/-- A mailbox at reset: empty (log 4). -/
def Mbox.init : Mbox := ⟨false, 0, .init⟩

/-- A landed-packet counter at reset: zero (log 4). -/
def Counter.init : Counter := ⟨0, []⟩

/-- A partial bank at reset: empty (Table 13-7). -/
def Bank.init : Bank := ⟨.empty, [], [], []⟩

/-- Loom state at reset (Table 13-7). -/
def Loom.init : Loom :=
  { act := false, w0 := 0, w1 := 0, w2 := 0, err := false, ecode := 0, echunk := 0, semovf := false, bank0 := .init, bank1 := .init,
    runk := 0, promk := 0, mxf := 0, queue := [], scales := [], seq := none, ord := .zero, sord := .zero, gone := none, frozen := none }

/-- A tenant's bay state at reset: generations 0 (R135), nothing resident (log 4). -/
def TenBay.init : TenBay :=
  { tiles := [], rings := [], mbox := [], ctrs := [], svcq := [], sems := [], loom := .init, creel := [], spcreel := [],
    creelAt := 0, gens := [], cursors := [], handles := [], loaded := false }

/-- A compute core or spindle at reset (Tables 6-8, 6-10, 10-6; caches and queues empty, log 4). -/
def CoreUnit.init : CoreUnit :=
  { crcfg := 0, orph := 0, hen := 0, sfuq := [], park := [], tlb := [], segs := [], dets := [], throttled := false, lastTurn := 0, merge := [], mergeWait := [] }

/-- A counter instance at reset: OWNER 31, all else 0 (Table 5-3). -/
def Instance.init : Instance :=
  { w0 := w64 (31 * 2 ^ 53), w1 := 0, w2 := 0, tog := [], k := [], lrp := 0, exh := false, acc := [], held := [], entered := 0 }

/-- A copy channel at reset: zero (log 4). -/
def Chan.init : Chan := ⟨0, 0, 0, 0, []⟩

/-- A command queue at reset (Table 15-1). -/
def CmdQueue.init : CmdQueue :=
  { cfg := 0, pc := 0, end_ := 0, st := 0, stack := [], upto := none, failed := false, parked := none,
    applied := [] }

/-- A fence counter at reset: zero (log 4). -/
def FenceCtr.init : FenceCtr := ⟨0, []⟩

/-- A partition's registers at reset: FERETRY 4, FEWAIT 0x01_0000 (Table 2-5), WDCTL EN 1, LIM 36 (Table 16-7), VDSCH SLICE 100,
DEPTH 2,000, WEIGHT 1 (Table 15-6), every other one 0. -/
def Part.init : Part :=
  { xtb := 0, xsg := 0, xfm := 0, xfq := 0, xfqh := 0, xfqt := 0, fectl := pack [(4, 28), (0x10000, 0)], crvlt := 0,
    wdctl := pack [(1, 63), (36, 0)], sva := 0, xtq := 0, xtqh := 0, xtqt := 0, vdsch := pack [(100, 32), (2000, 16), (1, 0)],
    fcs := [], queues := [], nextFid := 0, nextSeq := 0, parked := [], heldRecs := [], resolved := [],
    meters := List.replicate 9 0, owed := List.replicate 9 0, snaps := 0 }

/-- A die at reset: LEASE 0x1000 (Table 3-3), RASLOG 0 (Table 17-3). -/
def Die.init : Die :=
  { rdcctl := 0x1000, raslog := 0, dd := .zero, walks := [], held := [], heldCount := 0, laneOut := false, hostLaneOut := false,
    listOrd := .zero }

/-- A cluster at reset: SCSRV V 1, BAY 0 (Table 13-9). -/
def Cluster.init : Cluster :=
  { tlb := [], wcache := [], scsrv := pack [(1, 63)], asn := none, spareUsed := false, spareFor := none }

/-- An island at reset: ISLCFG 0 (Table 16-4), not started (Table 17-1). -/
def Island.init : Island :=
  { cfg := 0, started := false, failed := false, updated := 0, at_ := 0, resident := [], running := none, prev := none, handAt := 0,
    sliceAt := 0, last := 0, budgets := [], budgetAt := 0, next := none }

/-- A link at reset: no answers recorded (log 4). -/
def Link.init : Link := ⟨false, []⟩

/-- The device at reset: before power-good; device number 0 and domain empty until configured (log 6). -/
def Device.init : Device := { num := 0, domain := [], conf := (0, []), stage := 0, powerAt := 0, events := [], algs := false }

end Sys2Proof.Machine
end

