-- ==== Sys2Proof/Machine/State.lean ====
section
/-!
DEFINITION. The state of the machine, its fault and refusal reasons, and the state after reset (INVENTORY.md, ## State).
-/
namespace Sys2Proof.Machine

/-- The state: the model's own fields first, then what the spec gives the machine. -/
structure State where
  /-- Choices still to be taken, the next first (R66; log 1). -/
  agenda  : List Choice
  /-- Counts the free values taken (log 2). -/
  freeCtr : Nat
  /-- The strand whose instruction is issuing (log 3). -/
  cur     : Nat
  /-- Whether the turn under way is borrowed (R127; log 3). -/
  lent    : Bool
  /-- The next internal number of a strand, job, message or wait (log 3). -/
  nextId  : Nat
  /-- Core cycles since the machine's first step (log 3). -/
  clock   : Nat
  /-- Numbers the buffer entries (R74; log 3). -/
  serial  : Nat
  /-- Bytes of vaults, scratchpads and weight buffers (R33). -/
  mem     : Memory
  /-- Full scratchpad words, by word address (R39). -/
  full    : List Nat
  /-- Poisoned 8-byte words (R50, R318). -/
  poison  : List Nat
  /-- Vault lines with an uncorrectable error that has not been consumed, each with the lines that carry its marks (Table 17-3; log 43). -/
  errs    : Tbl (List Nat)
  /-- Times and stamps of lines (R61). -/
  lines   : Tbl LineOrder
  /-- RDC copies (R51). -/
  rdc     : List RdcCopy
  /-- Remote write buffers, 4 × die + home die (R68). -/
  rbuf    : Tbl (List BufEntry)
  /-- Link write buffers, 16,384 × die + device (R68). -/
  lbuf    : Tbl (List BufEntry)
  /-- The SC-fence log (R80). -/
  scLog   : List ScEntry
  /-- Strands by internal number (R122). -/
  strands : Tbl Strand
  /-- Compute cores and spindles, 2 × (2,048 × die + bay) + 1 for a spindle. -/
  units   : Tbl CoreUnit
  /-- Tenants' bay state, 32 × (2,048 × die + bay) + tag (R322). -/
  tens    : Tbl TenBay
  /-- Partitions by tag (R22). -/
  parts   : Tbl Part
  dies    : Tbl Die
  /-- Clusters, 64 × die + cluster (R3). -/
  clusters : Tbl Cluster
  /-- Islands by package number (R3). -/
  islands : Tbl Island
  /-- Counter instances, 1,024 × die + number (R103). -/
  insts   : Tbl Instance
  /-- Tokens, antitokens and arrivals in flight (R112). -/
  tokens  : List Token
  /-- Job cards by number (R85). -/
  cards   : Tbl Card
  /-- Copy channels, 8 × (16 × die + engine) + channel (R300). -/
  chans   : Tbl Chan
  fills   : Tbl Fill
  drains  : Tbl Drain
  /-- Messages on their way. -/
  msgs    : Tbl Msg
  launches : Tbl Launch
  fields  : Tbl Field
  /-- Scale-up links by device (R320). -/
  links   : Tbl Link
  dev     : Device
deriving DecidableEq, Repr

/-- Why the machine stops with a fault. -/
inductive Fault where
  /-- Raised by nothing in this model: every stop of the spec is a trap, a status or a halt, which is a next state. Safe. -/
  | neverRaised
deriving DecidableEq, Repr

/-- Why an instruction has no meaning. -/
inductive Refusal where
  /-- Raised by the dispatch for an instruction whose meaning is not written. Safe: nothing can be proved of it. -/
  | notModelled (mnemonic : String)
deriving DecidableEq, Repr

/-- An outcome of this machine. -/
abbrev Out := Host.Outcome State Fault Refusal

/-- The machine after reset: every register at the value the spec states, or that log 3 to log 6 name; nothing is listed. -/
def State.reset : State :=
  { agenda := [], freeCtr := 0, cur := 0, lent := false, nextId := 0, clock := 0, serial := 0, mem := [], full := [], poison := [], errs := [],
    lines := [], rdc := [], rbuf := [], lbuf := [], scLog := [], strands := [], units := [], tens := [], parts := [], dies := [],
    clusters := [], islands := [], insts := [], tokens := [], cards := [], chans := [], fills := [], drains := [], msgs := [],
    launches := [], fields := [], links := [], dev := Device.init }

end Sys2Proof.Machine
end

