-- ==== Sys2Proof/Machine/Basics.lean ====
section
/-!
DEFINITION. Reading and replacing the parts of the state, the geometry of bays, clusters and islands (R2, R3, R12), tenancy
(R321 to R323), fresh numbers and free values.
-/
namespace Sys2Proof.Machine

/-- Number of a bay in the package (R12, R298). -/
def bayNo (die bay : Nat) : Nat := 2048 * die + bay

/-- Key of a unit. -/
def unitKey (u : UnitId) : Nat := 2 * bayNo u.die u.bay + b2n u.sp

/-- Key of a tenant's bay state. -/
def tenKey (die bay tag : Nat) : Nat := 32 * bayNo die bay + tag

/-- The compute core of a bay. -/
def coreOf (die bay : Nat) : UnitId := ⟨die, bay, false⟩

/-- The spindle of a bay. -/
def spOf (die bay : Nat) : UnitId := ⟨die, bay, true⟩

/-- Row of a bay (R12). -/
def rowOf (bay : Nat) : Nat := bay / 64

/-- Column of a bay (R12). -/
def colOf (bay : Nat) : Nat := bay % 64

/-- Cluster of a bay on its die (Table 1-10). -/
def clusterOf (bay : Nat) : Nat := rowOf bay / 4 * 8 + colOf bay / 8

/-- Package island of a bay (Table 1-10). -/
def islandOf (die bay : Nat) : Nat := die * 16 + rowOf bay / 8 * 4 + colOf bay / 16

/-- Bay number `i` of a cluster, as TRD.mc numbers them (R232). -/
def clusterBay (c i : Nat) : Nat := (c / 8 * 4 + i / 8) * 64 + c % 8 * 8 + i % 8

/-- Bays of a package island, by bay index (R3). -/
def islandBays (isl : Nat) : List Nat :=
  (List.range 128).map (fun i => (isl % 16 / 4 * 8 + i / 16) * 64 + isl % 4 * 16 + i % 16)

/-- A strand by its number. -/
def State.strand (s : State) (x : Nat) : Strand := Tbl.get Strand.init s.strands x

/-- Replaces a strand. -/
def State.setStrand (s : State) (x : Nat) (v : Strand) : State := { s with strands := Tbl.set s.strands x v }

/-- Changes a strand. -/
def State.modStrand (s : State) (x : Nat) (f : Strand → Strand) : State := s.setStrand x (f (s.strand x))

/-- Changes a strand, if there is one of this number. -/
def State.onStrand (s : State) (x : Nat) (f : Strand → Strand) : State := if (Tbl.find s.strands x).isSome then s.modStrand x f else s

/-- A compute core or spindle. -/
def State.unit (s : State) (u : UnitId) : CoreUnit := Tbl.get CoreUnit.init s.units (unitKey u)

/-- Changes a compute core or spindle. -/
def State.modUnit (s : State) (u : UnitId) (f : CoreUnit → CoreUnit) : State :=
  { s with units := Tbl.set s.units (unitKey u) (f (s.unit u)) }

/-- A tenant's bay state. -/
def State.ten (s : State) (die bay tag : Nat) : TenBay := Tbl.get TenBay.init s.tens (tenKey die bay tag)

/-- Changes a tenant's bay state. -/
def State.modTen (s : State) (die bay tag : Nat) (f : TenBay → TenBay) : State :=
  { s with tens := Tbl.set s.tens (tenKey die bay tag) (f (s.ten die bay tag)) }

/-- A partition. -/
def State.part (s : State) (tag : Nat) : Part := Tbl.get Part.init s.parts tag

/-- Changes a partition. -/
def State.modPart (s : State) (tag : Nat) (f : Part → Part) : State := { s with parts := Tbl.set s.parts tag (f (s.part tag)) }

/-- A die. -/
def State.die (s : State) (d : Nat) : Die := Tbl.get Die.init s.dies d

/-- Changes a die. -/
def State.modDie (s : State) (d : Nat) (f : Die → Die) : State := { s with dies := Tbl.set s.dies d (f (s.die d)) }

/-- A cluster of a die. -/
def State.cluster (s : State) (d c : Nat) : Cluster := Tbl.get Cluster.init s.clusters (64 * d + c)

/-- Changes a cluster. -/
def State.modCluster (s : State) (d c : Nat) (f : Cluster → Cluster) : State :=
  { s with clusters := Tbl.set s.clusters (64 * d + c) (f (s.cluster d c)) }

/-- A package island. -/
def State.island (s : State) (i : Nat) : Island := Tbl.get Island.init s.islands i

/-- Changes an island. -/
def State.modIsland (s : State) (i : Nat) (f : Island → Island) : State :=
  { s with islands := Tbl.set s.islands i (f (s.island i)) }

/-- A counter instance as stored. -/
def State.inst (s : State) (d i : Nat) : Instance := Tbl.get Instance.init s.insts (1024 * d + i)

/-- Changes a counter instance. -/
def State.modInst (s : State) (d i : Nat) (f : Instance → Instance) : State :=
  { s with insts := Tbl.set s.insts (1024 * d + i) (f (s.inst d i)) }

/-- Key of a copy channel (R300). -/
def chanKey (die eng ch : Nat) : Nat := 8 * (16 * die + eng) + ch

/-- A copy channel. -/
def State.chan (s : State) (k : Nat) : Chan := Tbl.get Chan.init s.chans k

/-- Changes a copy channel. -/
def State.modChan (s : State) (k : Nat) (f : Chan → Chan) : State := { s with chans := Tbl.set s.chans k (f (s.chan k)) }

/-- Replaces a card. -/
def State.setCard (s : State) (id : Nat) (c : Card) : State := { s with cards := Tbl.set s.cards id c }

/-- Replaces a fill. -/
def State.setFill (s : State) (id : Nat) (f : Fill) : State := { s with fills := Tbl.set s.fills id f }

/-- Replaces a drain. -/
def State.setDrain (s : State) (id : Nat) (g : Drain) : State := { s with drains := Tbl.set s.drains id g }

/-- A command queue of a partition. -/
def State.queue (s : State) (tag q : Nat) : CmdQueue := Tbl.get CmdQueue.init (s.part tag).queues q

/-- Changes a command queue. -/
def State.modQueue (s : State) (tag q : Nat) (f : CmdQueue → CmdQueue) : State :=
  s.modPart tag (fun p => { p with queues := Tbl.set p.queues q (f (Tbl.get CmdQueue.init p.queues q)) })

/-- Takes a fresh internal number. -/
def State.fresh (s : State) : Nat × State := (s.nextId, { s with nextId := s.nextId + 1 })

/-- Takes a free value of `w` bits (log 2). -/
def State.freeBits (s : State) (w : Nat) : BitVec w × State :=
  (Config.freeBits w s.freeCtr, { s with freeCtr := s.freeCtr + 1 })

/-- Takes a free number (log 2). -/
def State.freeNat (s : State) : Nat × State := (Config.freeNat s.freeCtr, { s with freeCtr := s.freeCtr + 1 })

/-- Reports to the host (R24, R30, R296, R314). -/
def State.emit (s : State) (e : HostEvent) : State := { s with dev := { s.dev with events := s.dev.events ++ [e] } }

/-- Adds a message on its way. -/
def State.addMsg (s : State) (m : Msg) : State :=
  { s with msgs := Tbl.set s.msgs s.nextId m, nextId := s.nextId + 1 }

/-- The compute core or spindle a strand is on; for a strand on its way, where it goes. A strand in transit or in a creel counts as running
there for the scopes (R65; the model's choice, log 121). -/
def State.unitOf (s : State) (x : Nat) : UnitId :=
  match (s.strand x).place with
  | .slot u _ => u
  | .creel u => u
  | .record u => u
  | .transit m => match Tbl.find s.msgs m with
    | some (.migrate _ _ dest) => dest
    | _ => UnitId.zero

/-- The slot of a strand, none in the creel or on its way. -/
def State.slotOf (s : State) (x : Nat) : Option Nat :=
  match (s.strand x).place with
  | .slot _ n => some n
  | _ => none

/-- The strand of a tenant in a slot. -/
def State.inSlot (s : State) (u : UnitId) (tag n : Nat) : Option Nat :=
  (s.strands.find? (fun e => decide (e.2.place = .slot u n) && e.2.tag == tag)).map (·.1)

/-- The clock of a bay: core cycles since its island's stage 1 start (Table 10-4). -/
def State.cycle (s : State) (die bay : Nat) : Nat := s.clock - (s.island (islandOf die bay)).at_

/-- The clock of a unit, in its own cycles: a spindle's runs at half the rate (Table 10-4). -/
def State.unitCycle (s : State) (u : UnitId) : Nat := if u.sp then s.cycle u.die u.bay / 2 else s.cycle u.die u.bay

/-- An island has started and has not failed: it is not clamped (R326, R332, R334). -/
def Island.runs (i : Island) : Bool := i.started && !i.failed

/-- The valid tenant entries of an island (Table 16-4): entry, half and tag. -/
def tenantEntries (cfg : W64) : List (Nat × Nat × Nat) :=
  (List.range 4).filterMap (fun n =>
    if bit cfg (8 * n + 7) then some (n, b2n (bit cfg (8 * n + 6)), bits cfg (8 * n + 4) (8 * n)) else none)

/-- Whether an island's bays are a partition's (R321); firmware has every bay (R22). -/
def State.ownsBay (s : State) (tag die bay : Nat) : Bool :=
  tag == 31 || (tenantEntries (s.island (islandOf die bay)).cfg).any (fun e => e.2.2 == tag)

/-- Lowest scratchpad offset and size of the part of a scratchpad that a tenant owns (R322). -/
def State.spadPart (s : State) (tag die bay : Nat) : Nat × Nat :=
  let cfg := (s.island (islandOf die bay)).cfg
  if bit cfg 63 && tag != 31 then
    match (tenantEntries cfg).find? (fun e => e.2.2 == tag) with
    | some (_, h, _) => (h * 0x20000, 0x20000)
    | none => (0, 0x20000)
  else (0, 0x40000)

/-- Lowest weight-buffer offset and size of a tenant's part (R44, R322). -/
def State.wbufPart (s : State) (tag die bay : Nat) : Nat × Nat :=
  let p := s.spadPart tag die bay
  (p.1 / 4, p.2 / 4)

/-- Whether `n` bytes from an offset lie in a part. -/
def inPart (p : Nat × Nat) (off n : Nat) : Bool := decide (p.1 ≤ off) && decide (off + n ≤ p.1 + p.2)

/-- The first cycle from `h` that slot `n` owns, in a rotation of `m` slots (R124). -/
def firstTurn (h n m : Nat) : Nat := h + (n + m - h % m) % m

/-- The tenant whose slot this is (R323): the incoming one from the slot's first turn at or after cycle H. -/
def State.tenantOf (s : State) (u : UnitId) (n : Nat) : Option Nat :=
  let i := s.island (islandOf u.die u.bay)
  let h := i.handAt - i.at_
  let changed := if u.sp then decide (firstTurn ((h + 1) / 2) n 8 ≤ s.cycle u.die u.bay / 2)
    else decide (firstTurn h n 16 ≤ s.cycle u.die u.bay)
  if changed then i.running else i.prev

/-- A strand may take part in the rotation: it holds a slot, its tenant owns the slot and has its range loaded (R323, R324). The strand of a
spindle program runs on while another tenant owns its slot (R325). -/
def State.present (s : State) (x : Nat) : Bool :=
  let t := s.strand x
  match t.place with
  | .slot u n => t.card.isSome || (s.tenantOf u n == some t.tag && (s.ten u.die u.bay t.tag).loaded)
  | _ => false

/-- A wait of a strand that is in its slot has lasted `n` core cycles, not counting the time in which it was withdrawn (R220). -/
def State.expired (s : State) (x n : Nat) : Bool :=
  s.present x && (s.strand x).status == .waiting && decide ((s.strand x).since + n ≤ s.clock)

/-- A strand that holds its slot again (Table 6-7, R220): a withdrawn wait is to be issued again at its turn, another goes on. -/
def resumeSlot (t : Strand) (now : Nat) : Strand :=
  if t.status == .waiting && t.wait.withdrawn then { t with status := .ready } else { t with susp := none, since := t.since + (now - t.susp.getD now) }

/-- A withdrawn wait is issued again with the remainder of its limit (R220). -/
def resumeWait (t : Strand) (now : Nat) : Strand :=
  match t.susp with
  | none => t
  | some c => { t with susp := none, since := t.since + (now - c) }

/-- The other tenants resident on a unit's island (R59, R322). -/
def State.coTenants (s : State) (u : UnitId) (tag : Nat) : List Nat :=
  (s.island (islandOf u.die u.bay)).resident.filter (fun k => k != tag)

/-- The handler-mode bit (Table 10-3). -/
def Strand.hm (t : Strand) : Bool := bit t.sts 61

/-- A prefix is pending (Table 10-3). -/
def Strand.ppx (t : Strand) : Bool := bit t.sts 63

/-- The cycle of a bay's clock at which slot `n` of a unit changes tenant at a hand-over that begins at clock `h` (R323), as a clock. -/
def State.changeAt (s : State) (u : UnitId) (n h : Nat) : Nat :=
  let i := s.island (islandOf u.die u.bay)
  let c := h - i.at_
  i.at_ + (if u.sp then 2 * firstTurn ((c + 1) / 2) n 8 else firstTurn c n 16)

/-- The name of a strand (Table 6-9). -/
def State.nameOf (s : State) (x : Nat) : W64 :=
  let t := s.strand x
  let u := s.unitOf x
  pack [(s.dev.num, 50), (u.die, 48), (u.bay, 37), (b2n u.sp, 36), (t.nslot, 32), (t.gen % 65536, 0)]

/-- The unit fields of a name (Table 6-9, bits 63:36). -/
def unitField (v : W64) : UnitName := ⟨bits v 63 50, ⟨bits v 49 48, bits v 47 37, bit v 36⟩⟩

/-- The name of a unit, bits 35:0 zero (R250). -/
def State.unitNameWord (s : State) (u : UnitId) : W64 := pack [(s.dev.num, 50), (u.die, 48), (u.bay, 37), (b2n u.sp, 36)]

/-- A name is malformed: a reserved bit set, or slot above 7 on a spindle (R134). -/
def badName (v : W64) : Bool := bits v 31 16 != 0 || (bit v 36 && decide (7 < bits v 35 32))

/-- The strand of a tenant that a name names on this device, in a slot or in its unit's creel (R135). A strand that has no name yet
holds a generation from 65,536 up, which no name holds. -/
def State.named (s : State) (tag : Nat) (v : W64) : Option Nat :=
  let n := unitField v
  if n.dev != s.dev.num then none else
  (s.strands.find? (fun e =>
    e.2.tag == tag && e.2.nslot == bits v 35 32 && e.2.gen == bits v 15 0 &&
    (match e.2.place with
     | .slot u _ => decide (u = n.u) && e.2.status != .stopped
     | .creel u => decide (u = n.u)
     | _ => false))).map (·.1)

/-- A message is dropped: the unit's ORPH counter rises, saturating (R135, Table 6-10). -/
def State.orphan (s : State) (u : UnitId) : State :=
  s.modUnit u (fun c => { c with orph := Nat.min (c.orph + 1) 0xFFFFFFFF })

/-- Adds to a saturating field of a die's RASLOG (Table 17-3). -/
def State.rasAdd (s : State) (d hi lo : Nat) : State :=
  s.modDie d (fun e =>
    let v := bits e.raslog hi lo
    { e with raslog := setBits e.raslog hi lo (Nat.min (v + 1) (2 ^ (hi - lo + 1) - 1)) })

/-- A unit has counted what a usage meter of a partition counts, and has yet to report it (R338). -/
def State.owe (s : State) (tag m n : Nat) : State :=
  s.modPart tag (fun p => { p with owed := setNth p.owed m (nth 0 p.owed m + n) })

/-- Adds to a usage meter of a partition, saturating (R338). -/
def State.meterAdd (s : State) (tag m n : Nat) : State :=
  s.modPart tag (fun p => { p with meters := setNth p.meters m (Nat.min (nth 0 p.meters m + n) (2 ^ 64 - 1)) })

end Sys2Proof.Machine
end

