-- ==== Sys2Proof/Machine/Order.lean ====
section
/-!
DEFINITION. Storage and the reference machine's steps over it (spec 03): where bytes are kept, plain loads and stores, buffers,
RDC copies, atomics, release, acquire and fences. Every agent (a strand, a job, a fill, an interpreter) passes its order state and
its die.
-/
namespace Sys2Proof.Machine

/-- Lowest memory key of the scratchpads. -/
def spadBase : Nat := 2 ^ 38

/-- Lowest memory key of the weight buffers. -/
def wbufBase : Nat := 2 ^ 39

/-- Memory key of a vault byte (32 MiB a bay). -/
def vaultKey (die bay off : Nat) : Nat := bayNo die bay * 2 ^ 25 + off

/-- Memory key of a scratchpad byte (256 KiB a bay). -/
def spadKey (die bay off : Nat) : Nat := spadBase + bayNo die bay * 2 ^ 18 + off

/-- Memory key of a weight-buffer byte (64 KiB a bay). -/
def wbufKey (die bay off : Nat) : Nat := wbufBase + bayNo die bay * 2 ^ 16 + off

/-- A tenant's range of a bay has been streamed out to its save area, or not yet loaded (R324; log 11). -/
def State.away (s : State) (tag die bay : Nat) : Bool := tag != 31 && !(s.ten die bay tag).loaded

/-- Memory key of a byte of a scratchpad range that is in its tenant's save area (R324; log 11). -/
def savedKey (tag die bay off : Nat) : Nat := 2 ^ 43 + tag * 2 ^ 32 + bayNo die bay * 2 ^ 18 + off

/-- Memory key of a byte of a weight-buffer range that is in its tenant's save area. -/
def savedWKey (tag die bay off : Nat) : Nat := 2 ^ 44 + tag * 2 ^ 32 + bayNo die bay * 2 ^ 16 + off

/-- Where a tenant's scratchpad byte is held: in the scratchpad, or in the save area while the range is there. -/
def State.spadAt (s : State) (tag die bay off : Nat) : Nat :=
  if s.away tag die bay then savedKey tag die bay off else spadKey die bay off

/-- Where a tenant's weight-buffer byte is held. -/
def State.wbufAt (s : State) (tag die bay off : Nat) : Nat :=
  if s.away tag die bay then savedWKey tag die bay off else wbufKey die bay off

/-- A place of another device whose link has failed (R320). -/
def State.linkDown (s : State) (l : Loc) : Bool :=
  match l with
  | .foreign v _ => (Tbl.get Link.init s.links v).failed
  | _ => false

/-- The line of a place: its memory key by 128 bytes; register windows and other devices have ranges of their own (log 7). -/
def Loc.line : Loc → Nat
  | .vault d b o => vaultKey d b o / 128
  | .spad d b o => spadKey d b o / 128
  | .rwin d b n r k => 2 ^ 41 + (bayNo d b * 8192 + n * 512 + r * 16 + k) / 128
  | .foreign _ g => 2 ^ 60 + g.toNat / 128

/-- Offset of a place in its line. -/
def Loc.inLine : Loc → Nat
  | .vault _ _ o => o % 128
  | .spad _ _ o => o % 128
  | .rwin _ _ _ r k => (r * 16 + k) % 128
  | .foreign _ g => g.toNat % 128

/-- The die a place is homed on, none for another device (R63). -/
def Loc.die? : Loc → Option Nat
  | .vault d _ _ => some d
  | .spad d _ _ => some d
  | .rwin d _ _ _ _ => some d
  | .foreign _ _ => none

/-- The place `n` bytes further on in its line. -/
def Loc.plus (l : Loc) (n : Nat) : Loc :=
  match l with
  | .vault d b o => .vault d b (o + n)
  | .spad d b o => .spad d b (o + n)
  | .rwin d b k r j => .rwin d b k (r + (j + n) / 16) ((j + n) % 16)
  | .foreign v g => .foreign v (g + w64 n)

/-- The first byte of a place's line. -/
def Loc.lineStart (l : Loc) : Loc :=
  match l with
  | .vault d b o => .vault d b (o / 128 * 128)
  | .spad d b o => .spad d b (o / 128 * 128)
  | .rwin d b k r _ => .rwin d b k (r / 8 * 8) 0
  | .foreign v g => .foreign v (w64 (g.toNat / 128 * 128))

/-- The memory key of a place in a vault or scratchpad, for a tenant. -/
def State.keyOf (s : State) (tag : Nat) : Loc → Option Nat
  | .vault d b o => some (vaultKey d b o)
  | .spad d b o => some (s.spadAt tag d b o)
  | .rwin _ _ _ _ _ => none
  | .foreign _ _ => none

/-- Bytes of a register window: zero where the slot holds no strand (R224), and zero past byte 15 of the register that an access begins in
(the model's choice, log 118). -/
def State.windowBytes (s : State) (tag die bay slot reg byte n : Nat) : List Byte :=
  match s.inSlot (coreOf die bay) tag slot with
  | none => List.replicate n 0
  | some x => (List.range n).map (fun i =>
      if h : reg < 24 then (((s.strand x).regs[reg]'h).extractLsb' (8 * (byte + i)) 8) else 0)

/-- The bytes at a place, as its home holds them. Bytes of another device are not held here. -/
def State.bytesAt (s : State) (tag : Nat) (l : Loc) (n : Nat) : List Byte :=
  match l with
  | .vault d b o => s.mem.readBytes (vaultKey d b o) n
  | .spad d b o => s.mem.readBytes (s.spadAt tag d b o) n
  | .rwin d b k r j => s.windowBytes tag d b k r j n
  | .foreign _ _ => List.replicate n 0

/-- Which 8-byte words of a range are poisoned (R318). -/
def State.badAt (s : State) (tag : Nat) (l : Loc) (n : Nat) : Bool :=
  match s.keyOf tag l with
  | some k => (fromUp (k / 8) ((k % 8 + n + 7) / 8)).any (fun w => s.poison.contains w)
  | none => false

/-- Clears the poison of the words a write covers whole (R318). -/
def clearPoison (p : List Nat) (k n : Nat) : List Nat :=
  p.filter (fun w => !(decide (k ≤ 8 * w) && decide (8 * w + 8 ≤ k + n)))

/-- Writes bytes from a memory key up, clearing the marks of whole words. -/
def State.putBytes (s : State) (k : Nat) (bs : List Byte) : State :=
  { s with mem := s.mem.writeBytes k bs, poison := clearPoison s.poison k bs.length }

/-- Replaces `n` bytes of a register, from byte `j`. -/
def putReg (r : W128) (j : Nat) : List Byte → W128
  | [] => r
  | b :: bs =>
    let m : W128 := (0xFF#128) <<< (8 * j)
    putReg ((r &&& ~~~m) ||| ((b.setWidth 128) <<< (8 * j))) (j + 1) bs

/-- An access to a place of a vault, or of another device, has bytes to be counted by a usage meter (R338). -/
def State.metered (s : State) (tag : Nat) (l : Loc) : State :=
  match l with
  | .vault _ _ _ => s.owe tag 6 1
  | .foreign _ _ => s.owe tag 7 1
  | _ => s

/-- Writes bytes at a place of this device. A register-window store to a slot that holds no strand is dropped and counted (R224). -/
def State.writeAt (s : State) (tag : Nat) (l : Loc) (bs : List Byte) : State :=
  match l with
  | .vault d b o => (s.putBytes (vaultKey d b o) bs).metered tag l
  | .spad d b o => s.putBytes (s.spadAt tag d b o) bs
  | .rwin d b k r j =>
    match s.inSlot (coreOf d b) tag k with
    | none => s.orphan (coreOf d b)
    | some x =>
      if h : r < 24 then s.modStrand x (fun t => { t with regs := t.regs.set r (putReg (t.regs[r]'h) j bs) h }) else s
  | .foreign _ _ => s

/-- Order times of a place's line. -/
def State.lineAt (s : State) (l : Loc) : LineOrder := Tbl.get LineOrder.init s.lines l.line

/-- Sets the order times of a place's line. -/
def State.setLine (s : State) (l : Loc) (o : LineOrder) : State := { s with lines := Tbl.set s.lines l.line o }

/-- Key of a remote write buffer. -/
def rbufKey (d h : Nat) : Nat := 4 * d + h

/-- Key of a link write buffer. -/
def lbufKey (d dev : Nat) : Nat := 16384 * d + dev

/-- The FIFO of a die toward a target (R68). -/
def State.fifo (s : State) (d : Nat) : Target → List BufEntry
  | .die h => Tbl.get [] s.rbuf (rbufKey d h)
  | .dev v => Tbl.get [] s.lbuf (lbufKey d v)

/-- Replaces a FIFO. -/
def State.setFifo (s : State) (d : Nat) (t : Target) (l : List BufEntry) : State :=
  match t with
  | .die h => { s with rbuf := Tbl.set s.rbuf (rbufKey d h) l }
  | .dev v => { s with lbuf := Tbl.set s.lbuf (lbufKey d v) l }

/-- The FIFO through which a die's stores to a place go, none for its own places. -/
def Loc.target (l : Loc) (d : Nat) : Option Target :=
  match l with
  | .foreign v _ => some (.dev v)
  | _ => match l.die? with
    | some h => if h = d then none else some (.die h)
    | none => none

/-- The register-window line of a delivery's target (R82). -/
def deliverLine (name : W64) (reg : Nat) : Nat :=
  let u := (unitField name).u
  (Loc.rwin u.die u.bay (bits name 35 32) reg 0).line + (if u.sp then 2 ^ 50 else 0)

/-- The line a buffer entry holds. -/
def BufEntry.line (e : BufEntry) : Nat :=
  match e.act with
  | .bytes l _ => l.line
  | .deliver n r _ => deliverLine n r

/-- Entries of a die's buffer that hold a place's line. -/
def State.buffered (s : State) (d : Nat) (l : Loc) : List BufEntry :=
  match l.target d with
  | none => []
  | some t => (s.fifo d t).filter (fun e => e.line == l.line)

/-- The youngest of the entries. -/
def youngest : List BufEntry → Option BufEntry
  | [] => none
  | [e] => some e
  | _ :: t => youngest t

/-- The bytes an entry supplies for `n` bytes at a place, if it covers all of them (R69). A delivery supplies none, so that a load of its
register waits until it has drained (the model's choice, log 122). -/
def BufEntry.covers (e : BufEntry) (l : Loc) (n : Nat) : Option (List Byte) :=
  match e.act with
  | .bytes k bs =>
    if k.inLine ≤ l.inLine ∧ l.inLine + n ≤ k.inLine + bs.length then some ((bs.drop (l.inLine - k.inLine)).take n) else none
  | .deliver _ _ _ => none

/-- A copy of a line in a die's RDC whose lease has not ended (R71). -/
def State.rdcCopy (s : State) (d : Nat) (l : Loc) : Option RdcCopy :=
  s.rdc.find? (fun c => c.die == d && c.line == l.line && decide (s.clock ≤ c.lease))

/-- Removes a die's RDC copy of a line (R51, R70). -/
def State.rdcDrop (s : State) (d : Nat) (l : Loc) : State :=
  { s with rdc := s.rdc.filter (fun c => !(c.die == d && c.line == l.line)) }

/-- Marks of a line have been consumed: the errors that they came from are no longer ones that were never consumed (Table 17-3; log 43). -/
def State.errSeen (s : State) (l : Loc) : State :=
  (s.errs.filter (fun e => e.2.contains l.line)).foldl (fun s e =>
    ({ s with errs := Tbl.del s.errs e.1 }).modDie (e.1 / 2 ^ 29) (fun d =>
      { d with raslog := setBits d.raslog 47 40 (bits d.raslog 47 40 - 1) })) s

/-- A read of `n` bytes consumes the marks of the words it reads (R318): they go, with a copy of the line on the reader's die. -/
def State.eat (s : State) (d tag : Nat) (l : Loc) (n : Nat) : State :=
  match s.keyOf tag l with
  | none => s
  | some k =>
    let s1 := (s.errSeen l).rdcDrop d l
    { s1 with poison := s1.poison.filter (fun w => !(decide (k / 8 ≤ w) && decide (w < k / 8 + (k % 8 + n + 7) / 8))) }

/-- Length of a lease in core cycles: LEASE mesh cycles, 0 meaning 65,536 (Table 3-3). -/
def State.lease (s : State) (d : Nat) : Nat :=
  let n := bits (s.die d).rdcctl 15 0
  2 * (if n = 0 then 65536 else n)

/-- Where a vault line, by its number, is cached on another die (R51, Table 2-1): the cluster whose RDC slice holds it, from bits 5:0 of
its home bay and of its line in the vault, and the set of that slice. -/
def rdcSlot (line : Nat) : Nat × Nat := ((line / 2 ^ 18 % 64) ^^^ (line % 64), Config.rdcSet line % 512)

/-- The reads for which a die waits at slices and that hold a way of a set of its RDC (R52). -/
def State.rdcReads (s : State) (d : Nat) (slot : Nat × Nat) : Nat :=
  let dieOf (j : Joiner) : Option Nat := match j with
    | .fill id _ => (Tbl.find s.fills id).map (·.die)
    | .strand x => some (s.unitOf x).die
    | .card id _ => (Tbl.find s.cards id).map (·.die)
  ((s.units.flatMap (fun u => u.2.merge ++ u.2.mergeWait)).filter (fun e =>
    rdcSlot e.line == slot && e.joins.any (fun j => j.rdc && dieOf j.who == some d))).length

/-- Makes room for a copy in its set (Table 2-1): while 16 ways are taken, one copy of the set leaves, any one, as an expiry step takes it
(R71). -/
def State.rdcRoom (s : State) (d : Nat) (slot : Nat × Nat) : State :=
  let mine := s.rdc.filter (fun c => c.die == d && rdcSlot c.line == slot)
  if mine.length < 16 then s
  else
    let r := s.freeNat
    match mine[r.1 % mine.length]? with
    | none => r.2
    | some c => { r.2 with rdc := r.2.rdc.filter (fun k => k != c) }

/-- A read at the home returns a line to die `d` (R69, R70): the copy is renewed, installed where the leaf allows, or removed while
RDCCTL.OFF is 1. A set whose 16 ways all wait for reads takes none (R52). While the die's buffer holds the line, a copy would be older
than a store of the die, so it expires at once (R71, R72; log 100). The copy holds the line as the step leaves it (log 14). -/
def State.rdcFill (s : State) (d : Nat) (x : XLoc) : State :=
  match x.loc with
  | .vault h _ _ =>
    if h = d then s
    else if bit (s.die d).rdcctl 16 || !(s.buffered d x.loc).isEmpty then s.rdcDrop d x.loc
    else if x.rdc || (s.rdcCopy d x.loc).isSome then
      let o := s.lineAt x.loc
      let st := x.loc.lineStart
      let c : RdcCopy :=
        { die := d, home := h, line := x.loc.line, bytes := s.bytesAt 0 st 128,
          bad := (List.range 16).map (fun i => s.badAt 0 (st.plus (8 * i)) 8),
          wts := o.wts, rts := o.rts, stamp := o.stamp, lease := s.clock + s.lease d }
      let s1 := s.rdcDrop d x.loc
      if 16 ≤ s1.rdcReads d (rdcSlot x.loc.line) then s1
      else
        let s2 := s1.rdcRoom d (rdcSlot x.loc.line)
        { s2 with rdc := s2.rdc ++ [c] }
    else s
  | _ => s

/-- What a read returns: the bytes, whether a poisoned word is among them, and the reader's order state. -/
structure ReadRes where
  bs  : List Byte
  bad : Bool
  ord : OrderState
deriving DecidableEq, Repr

/-- Times of a load at the home (R67; the home case of R69). -/
def State.readTimes (s : State) (o : OrderState) (d : Nat) (l : Loc) : OrderState × State :=
  match l.die? with
  | none => (o, s)
  | some h =>
    let n := s.lineAt l
    if h = d then
      let t := Nat.max o.pts n.wts
      ({ o with pts := t, pa := o.pa.vmax n.stamp }, s.setLine l { n with rts := Nat.max n.rts t })
    else
      ({ o with vw := o.vw.set h (Nat.max (o.vw.get h) n.wts), pa := o.pa.vmax n.stamp },
        s.setLine l { n with rts := Nat.max n.rts n.wts })

/-- `n` free bytes, for another device's storage (log 9). -/
def State.freeBytes (s : State) (n : Nat) : List Byte × State :=
  let r := s.freeBits (8 * n)
  (leBytes n r.1.toNat, r.2)

/-- A read of `n` bytes of one line at its home. -/
def State.homeRead (s : State) (o : OrderState) (d tag : Nat) (x : XLoc) (n : Nat) : ReadRes × State :=
  match x.loc with
  | .foreign _ _ =>
    let r := s.freeBytes n
    (⟨r.1, false, o⟩, r.2.metered tag x.loc)
  | l =>
    let bs := s.bytesAt tag l n
    let bad := s.badAt tag l n
    let r := s.readTimes o d l
    (⟨bs, bad, r.1⟩, (r.2.rdcFill d x).metered tag l)

/-- A plain load (R67, R69): none while it is not enabled. -/
def State.plainLoad (s : State) (o : OrderState) (d tag : Nat) (x : XLoc) (n : Nat) : Option (ReadRes × State) :=
  match youngest (s.buffered d x.loc) with
  | some e =>
    match e.covers x.loc n with
    | some bs => some (⟨bs, false, o⟩, s)
    | none => none
  | none =>
    match x.loc.target d, s.rdcCopy d x.loc with
    | some (.die h), some c =>
      some (⟨(c.bytes.drop x.loc.inLine).take n,
          ((c.bad.drop (x.loc.inLine / 8)).take ((x.loc.inLine % 8 + n + 7) / 8)).any (fun b => b),
          { o with vw := o.vw.set h (Nat.max (o.vw.get h) c.wts), pa := o.pa.vmax c.stamp }⟩, s)
    | _, _ => some (s.homeRead o d tag x n)

/-- An acquire load (R76): never from a buffer or a copy; none while the die's buffer holds the line. -/
def State.acquireLoad (s : State) (o : OrderState) (d tag : Nat) (x : XLoc) (n : Nat) : Option (ReadRes × State) :=
  if (s.buffered d x.loc).isEmpty then some (s.homeRead o d tag x n) else none

/-- A landed packet is counted (R90, R243). -/
def State.land (s : State) (p : Landing) : State :=
  match p.ctr with
  | none => s
  | some c => s.modTen p.die p.bay p.tag (fun t =>
      let k := Tbl.get Counter.init t.ctrs c
      { t with ctrs := Tbl.set t.ctrs c { n := (k.n + 1) % 2 ^ 32, stamps := k.stamps ++ [p.stamp] } })

/-- A landing of an optional packet. -/
def State.land? (s : State) : Option Landing → State
  | none => s
  | some p => s.land p

/-- Times of a plain store at the home (R67 for a same-die store, R68 for a drain). -/
def State.storeTimes (s : State) (l : Loc) (t : Nat) (stamp : V4) : State := s.setLine l ⟨t, t, stamp⟩

/-- A store toward another device has bytes to be counted by a usage meter (R338). -/
def State.meteredLink (s : State) (tag : Nat) : Target → State
  | .die _ => s
  | .dev _ => s.owe tag 7 1

/-- A plain store of bytes of one line (R67, R68): performed at once on the issuer's die, else accepted into its buffer. -/
def State.plainStore (s : State) (o : OrderState) (d tag : Nat) (l : Loc) (bs : List Byte) (land : Option Landing) (src : Issuer) :
    OrderState × State :=
  match l.target d with
  | none =>
    let t := Nat.max o.pts ((s.lineAt l).rts + 1)
    ({ o with pts := t }, ((s.writeAt tag l bs).storeTimes l t o.rs).land? land)
  | some t =>
    let e : BufEntry := { serial := s.serial, tag := tag, act := .bytes l bs, stamp := o.rs, land := land, src := src, sent := false }
    let s1 := s.setFifo d t (s.fifo d t ++ [e])
    (o, { ((s1.rdcDrop d l).meteredLink tag t) with serial := s.serial + 1 })

/-- Entries of a die's buffers numbered below `upto` have drained (R74); for domain scope, the link buffers' too. -/
def State.drained (s : State) (d : Nat) (dom : Bool) (upto : Nat) : Bool :=
  ([0, 1, 2, 3].all (fun h => (s.fifo d (.die h)).all (fun e => decide (upto ≤ e.serial)))) &&
  (!dom || s.lbuf.all (fun p => p.1 / 16384 != d || p.2.all (fun e => decide (upto ≤ e.serial))))

/-- Entries of the die's FIFO toward a place's home numbered below `upto` have drained (R73). -/
def State.fifoDrained (s : State) (d : Nat) (l : Loc) (upto : Nat) : Bool :=
  match l.target d with
  | none => true
  | some t => (s.fifo d t).all (fun e => decide (upto ≤ e.serial))

/-- A release at device or domain scope, once its wait holds (R74). -/
def State.releaseBy (s : State) (o : OrderState) (d : Nat) : OrderState :=
  let dd := (s.die d).dd
  let vw := ([0, 1, 2, 3].filter (fun h => h != d)).foldl (fun v h => v.set h (Nat.max (v.get h) (dd.get h))) o.vw
  let o1 := { o with vw := vw }
  { o1 with rs := o1.rs.vmax (o1.know d) }

/-- A scope at which releases and acquires take a step (R74, R76). -/
def isWide : Scope → Bool
  | .dev => true
  | .dom => true
  | _ => false

/-- Applies a stamp on die `d` at a scope (R76); nothing below device scope. -/
def State.applyStamp (s : State) (o : OrderState) (d : Nat) (sc : Scope) (st : V4) : OrderState × State :=
  if isWide sc then
    let vw := ([0, 1, 2, 3].filter (fun h => h != d)).foldl (fun v h => v.set h (Nat.max (v.get h) (st.get h))) o.vw
    ({ o with pts := Nat.max o.pts (st.get d), vw := vw },
     { s with rdc := s.rdc.filter (fun c => !(c.die == d && (sc == .dom || decide (c.rts < st.get c.home)))) })
  else (o, s)

/-- Applies a list of stamps at device scope (R90). -/
def State.applyStamps (s : State) (o : OrderState) (d : Nat) : List V4 → OrderState × State
  | [] => (o, s)
  | v :: vs =>
    let r := s.applyStamp o d .dev v
    r.2.applyStamps r.1 d vs

/-- Applies stamps to a strand, on the die it runs on. -/
def State.strandApply (s : State) (x : Nat) (vs : List V4) : State :=
  let r := s.applyStamps (s.strand x).ord (s.unitOf x).die vs
  r.2.modStrand x (fun t => { t with ord := r.1 })

/-- Times of an atomic at its home (R73): those of a load where it writes nothing. -/
def State.atomicTimes (s : State) (o : OrderState) (d : Nat) (l : Loc) (writes : Bool) : OrderState × State :=
  match l.die? with
  | none => (o, s)
  | some h =>
    if writes then
      let n := s.lineAt l
      let t := if h = d then Nat.max o.pts (n.rts + 1) else n.rts + 1
      let o1 := { o with pa := o.pa.vmax n.stamp }
      let o2 := if h = d then { o1 with pts := t } else { o1 with vw := o1.vw.set h (Nat.max (o1.vw.get h) t) }
      (o2, s.setLine l ⟨t, t, n.stamp.vmax o.rs⟩)
    else s.readTimes o d l

/-- A unit lies in a scope around another unit (Table 3-2). -/
def inScope (sc : Scope) (u v : UnitId) : Bool :=
  match sc with
  | .str => false
  | .bay => u.die == v.die && u.bay == v.bay
  | .clu => u.die == v.die && clusterOf u.bay == clusterOf v.bay
  | .die => u.die == v.die
  | .dev => true
  | .dom => true

/-- The strands in a scope of a strand at this step (R64, R65). -/
def State.scopeOf (s : State) (x : Nat) (sc : Scope) : List Nat :=
  (s.strands.map (·.1)).filter (fun y => y == x || inScope sc (s.unitOf x) (s.unitOf y))

/-- The acquire part of a fence: applies pa and clears it, at device or domain scope (R77). -/
def State.acquireFence (s : State) (x : Nat) (sc : Scope) : State :=
  if isWide sc then
    let t := s.strand x
    let r := s.applyStamp t.ord (s.unitOf x).die sc t.ord.pa
    r.2.modStrand x (fun t => { t with ord := { r.1 with pa := V4.zero } })
  else s

/-- The release part of a fence or of an instruction, once its wait holds (R74): a step only at device or domain scope. -/
def State.strandRelease (s : State) (x : Nat) (sc : Scope) : State :=
  if isWide sc then s.modStrand x (fun t => { t with ord := s.releaseBy t.ord (s.unitOf x).die }) else s

/-- The step of an SC fence once its release is enabled (R80). -/
def State.scFence (s : State) (x : Nat) (sc : Scope) : State :=
  let s1 := s.strandRelease x sc
  let mem := s1.scopeOf x sc
  let st := s1.scLog.foldl (fun v e => if e.members.contains x && mem.contains e.x then v.vmax e.stamp else v) V4.zero
  let s2 := { s1 with scLog := s1.scLog ++ [⟨x, sc, s1.unitOf x, (s1.strand x).ord.rs, mem⟩] }
  if isWide sc then
    let r := s2.applyStamp (s2.strand x).ord (s2.unitOf x).die sc st
    (r.2.modStrand x (fun t => { t with ord := r.1 })).acquireFence x sc
  else s2

/-- Arrival of an order state from die `d` at die `e` (R81); none where the dies are the same. -/
def State.arriveOrd (s : State) (o : OrderState) (d e : Nat) : OrderState × State :=
  if d = e then (o, s)
  else
    let o1 := { o with vw := o.vw.set d (Nat.max (o.vw.get d) o.pts) }
    let o2 := { o1 with pts := Nat.max (o1.vw.get e) (o1.rs.get e) }
    s.applyStamp o2 e .dev o2.rs

/-- A plain load of a place that misses in the die's RDC and sends a read to the line's slice (R52): a vault line of another die that the
leaf lets the RDC hold, in no buffer and in no copy. -/
def State.rdcMiss (s : State) (d : Nat) (x : XLoc) : Option UnitId :=
  match x.loc with
  | .vault h b _ => if h != d && x.rdc && (s.buffered d x.loc).isEmpty && (s.rdcCopy d x.loc).isNone then some ⟨h, b, true⟩ else none
  | _ => none

/-- A fill read arrives at a slice (R233, R345): it joins the oldest outstanding entry of its partition's line, or takes a free one, or
waits and never joins. -/
def CoreUnit.joinRead (c : CoreUnit) (tag line : Nat) (j : SliceJoin) : CoreUnit :=
  match c.merge.findIdx? (fun e => e.tag == tag && e.line == line) with
  | some i => { c with merge := c.merge.mapIdx (fun k e => if k = i then { e with joins := e.joins ++ [j] } else e) }
  | none =>
    if c.merge.length < 32 then { c with merge := c.merge ++ [⟨tag, line, [j]⟩] }
    else { c with mergeWait := c.mergeWait ++ [⟨tag, line, [j]⟩] }

/-- Waiting reads take the free entries of a table, in arrival order (R345). -/
def takeEntries : List MergeEntry → List MergeEntry → List MergeEntry × List MergeEntry
  | m, [] => (m, [])
  | m, w :: ws => if m.length < 32 then takeEntries (m ++ [w]) ws else (m, w :: ws)

/-- A slice's table once its waiting reads have taken what entries are free. -/
def CoreUnit.refill (c : CoreUnit) : CoreUnit :=
  let r := takeEntries c.merge c.mergeWait
  { c with merge := r.1, mergeWait := r.2 }

/-- The completion stamp after the release of R89. -/
def OrderState.completion (o : OrderState) : V4 := o.rs.vmax o.pa

/-- A store for a partition, performed at its home by an agent that keeps no order state of this device, with the stamp it leaves (R68). -/
def State.homePut (s : State) (tag : Nat) (l : Loc) (bs : List Byte) (stamp : V4) : State :=
  (s.writeAt tag l bs).storeTimes l ((s.lineAt l).rts + 1) stamp

/-- The release that a record's store waits for is enabled (R30, R74, R314): on the die where the record is homed, in whose order the store
is (log 116), the buffer entries numbered below `upto` have drained. -/
def State.recordReady (s : State) (l : Loc) (upto : Nat) : Bool :=
  match l.die? with
  | some h => s.drained h false upto
  | none => true

/-- Writes bytes at the home as a device-scope release of a unit that keeps no order state (R30, R75, R314): the line's stamp is what its
die's stores have reached. -/
def State.recordStore (s : State) (l : Loc) (bs : List Byte) : State :=
  s.homePut 31 l bs (match l.die? with
    | some h => (s.releaseBy .zero h).rs
    | none => .zero)

end Sys2Proof.Machine
end

