-- ==== Sys2Proof/Machine/Xlate.lean ====
section
/-!
DEFINITION. Address translation (spec 01): canonical and window addresses, placement, page-table entries, translation caches,
the segment table, requests to the walker.
-/
namespace Sys2Proof.Machine

/-- Bits 63:56 are zero (R9). -/
def canonical (va : W64) : Bool := bits va 63 56 == 0

/-- The window region (R10). -/
def inWindow (va : W64) : Bool := bits va 55 52 == 15

/-- The fold of an 18-bit number to `n` bits (R16). -/
def fold (n x : Nat) : Nat := (x % 2 ^ n) ^^^ (x / 2 ^ n)

/-- Home of an offset of vault space under a placement mode (Table 1-5); `rd` is the requester's die. -/
def place (plc die ofs rd : Nat) : Loc :=
  if plc = 0 then
    let l := (die * 2 ^ 36 + ofs) / 128
    let n := (l % 2 ^ 13) ^^^ fold 13 (l / 2 ^ 13)
    .vault (n / 2048) (n % 2048) (l / 2 ^ 13 * 128 + ofs % 128)
  else if plc = 1 then
    let l := ofs / 128
    .vault rd ((l % 2 ^ 11) ^^^ fold 11 (l / 2 ^ 11)) (l / 2 ^ 11 * 128 + ofs % 128)
  else .vault die (ofs / 2 ^ 25) (ofs % 2 ^ 25)

/-- Lowest address bit below which level `l` (0 to 3, A to D) does not look; its page size is 2 to this power (Table 1-1). -/
def levelShift : Nat → Nat
  | 0 => 43
  | 1 => 30
  | 2 => 21
  | _ => 16

/-- Index of an address in a table of level `l` (Table 1-1). -/
def levelIndex (l va : Nat) : Nat :=
  match l with
  | 0 => va / 2 ^ 43 % 2 ^ 13
  | 1 => va / 2 ^ 30 % 2 ^ 13
  | 2 => va / 2 ^ 21 % 2 ^ 9
  | _ => va / 2 ^ 16 % 2 ^ 5

/-- A device number that a GPA may hold: the local device or one of the domain (R11). -/
def State.knownDev (s : State) (d : Nat) : Bool := d == s.dev.num || s.dev.domain.contains d

/-- What a walk does with an entry of level `l` (R13, R14, R15): the end of the walk, or none for a pointer to follow. -/
def State.judgeEntry (s : State) (l : Nat) (pte : W64) : Option WalkResult :=
  let leaf := bit pte 62
  if !bit pte 63 then some (.bad (l + 1) pte)
  else if bits pte 61 60 == 3 || bits pte 55 52 != 0 then some (.bad 5 pte)
  else if leaf then
    if l == 0 || bits pte 15 0 != 0 || (l == 1 && bits pte 29 16 != 0) || (l == 2 && bits pte 20 16 != 0) || !s.knownDev (bits pte 51 38)
    then some (.bad 5 pte) else some (.leaf l pte)
  else if l == 3 || bits pte 7 0 != 0 || bits pte 51 38 != s.dev.num then some (.bad 5 pte)
  else none

/-- The place of an address under a leaf of level `l` (R11, R16, R17, R18), for a requester on die `rd`. -/
def State.leafLoc (s : State) (l : Nat) (pte : W64) (va : W64) (rd : Nat) : XLoc :=
  let ofs := bits pte 35 16 * 65536 + va.toNat % 2 ^ levelShift l
  let plc := bits pte 61 60
  let die := if plc = 1 then rd else bits pte 37 36
  let dev := bits pte 51 38
  if dev = s.dev.num then
    { loc := place plc die ofs rd, write := !bit pte 59, rdc := bit pte 58, sd := bit pte 57, size := levelShift l }
  else
    { loc := .foreign dev (pack [(dev, 50), (die, 48), (ofs, 0)]), write := !bit pte 59, rdc := false, sd := bit pte 57, size := levelShift l }

/-- Reads a word of 8 bytes of a structure that a register names, at its home (R23). -/
def State.structWord (s : State) (plc die off rd : Nat) : W64 :=
  w64 (leNat (s.bytesAt 31 (place plc die off rd) 8))

/-- A TLB entry covers an address of a partition (R22, R25). -/
def TlbEntry.covers (e : TlbEntry) (tag va : Nat) : Bool := e.tag == tag && e.page == va / 2 ^ levelShift e.level

/-- Whether a leaf permits an access (R28). -/
def permits (pte : W64) (a : AccKind) : Bool :=
  match a with
  | .store => !bit pte 59
  | .atomic => !bit pte 59
  | .fetch => bit pte 56
  | .load => true
  | .fill => true
  | .copy => true
  | .copyWrite => !bit pte 59

/-- Two entries are of one page of one partition. -/
def TlbEntry.same (e f : TlbEntry) : Bool := f.tag == e.tag && f.level == e.level && f.page == e.page

/-- Puts an entry at the front of a fully associative cache of `n` entries (least recently used last, R25). -/
def cachePut (n : Nat) (e : TlbEntry) (l : List TlbEntry) : List TlbEntry := keep n (e :: l.filter (fun f => !e.same f))

/-- Set of an entry in a cluster TLB (Table 1-8). -/
def TlbEntry.set (e : TlbEntry) : Nat := Config.tlbSet e.level e.page % 128

/-- Puts an entry at the front of a cluster TLB: of the entries of its set, the 8 most recently used stay (R25, Table 1-8). -/
def clusterPut (e : TlbEntry) (l : List TlbEntry) : List TlbEntry :=
  e :: keepWays (fun f => f.set == e.set) 7 (l.filter (fun f => !e.same f))

/-- Installs a translation in a unit's bay TLB (32 entries) and its cluster's TLB. -/
def State.tlbInstall (s : State) (u : UnitId) (bayToo : Bool) (e : TlbEntry) : State :=
  let s1 := if bayToo then s.modUnit u (fun c => { c with tlb := cachePut 32 e c.tlb }) else s
  s1.modCluster u.die (clusterOf u.bay) (fun c => { c with tlb := clusterPut e c.tlb })

/-- Paging is enabled for a partition (XTB.EN, Table 1-7). -/
def State.pagingOn (s : State) (tag : Nat) : Bool := bit (s.part tag).xtb 0

/-- The result of a translation at issue: a place, a miss, or a trap with its cause. -/
inductive Xr where
  | ok (x : XLoc)
  | miss
  | trap (cause : Nat)
deriving DecidableEq, Repr

/-- Translation of a paged address through a cluster TLB (R25, R26); the entry it hits is used, and installed in the unit's bay TLB
where `bayToo` says that the requester has one. An entry that does not permit the access is left to the walker, which checks it (R28;
log 15). With paging disabled every access goes to the walker, which refuses it (Table 1-7). -/
def State.clusterPaged (s : State) (u : UnitId) (bayToo : Bool) (tag : Nat) (va : W64) (a : AccKind) : Xr × State :=
  if !s.pagingOn tag then (.miss, s)
  else
    match (s.cluster u.die (clusterOf u.bay)).tlb.find? (fun e => e.covers tag va.toNat) with
    | some e =>
      if permits e.pte a then (.ok (s.leafLoc e.level e.pte va u.die), s.tlbInstall u bayToo e) else (.miss, s)
    | none => (.miss, s)

/-- Translation of a paged address by a compute core or a spindle, which has a bay TLB before its cluster's (R25, R26). -/
def State.paged (s : State) (u : UnitId) (tag : Nat) (va : W64) (a : AccKind) : Xr × State :=
  if !s.pagingOn tag then (.miss, s)
  else
    match (s.unit u).tlb.find? (fun e => e.covers tag va.toNat) with
    | some e =>
      if permits e.pte a then
        (.ok (s.leafLoc e.level e.pte va u.die), s.modUnit u (fun c => { c with tlb := cachePut 32 e c.tlb }))
      else (.miss, s)
    | none => s.clusterPaged u true tag va a

/-- A segment-table entry as its home holds it (R20, R23), for a reader on die `rd`. -/
def State.segmentAt (s : State) (tag idx rd : Nat) : W128 :=
  let r := (s.part tag).xsg
  let word (k : Nat) := s.structWord (bits r 63 62) (bits r 37 36) (bits r 35 12 * 4096 + idx * 16 + k) rd
  mk128 (word 8) (word 0)

/-- A segment-table entry from the compute core's segment cache (Table 1-8), or read at its home. -/
def State.segment (s : State) (u : UnitId) (tag idx : Nat) : W128 × State :=
  match (s.unit u).segs.find? (fun e => e.tag == tag && e.idx == idx) with
  | some e => (e.val, s.modUnit u (fun c => { c with segs := e :: c.segs.filter (fun f => !(f.tag == tag && f.idx == idx)) }))
  | none =>
    let v := s.segmentAt tag idx u.die
    if u.sp then (v, s)
    else (v, s.modUnit u (fun c => { c with segs := keep 16 (⟨tag, idx, v⟩ :: c.segs) }))

/-- Bits of a segment-table entry. -/
def sbits (v : W128) (hi lo : Nat) : Nat := v.toNat / 2 ^ lo % 2 ^ (hi - lo + 1)

/-- A strand of another partition is live in a slot (R12): it holds the slot, and its tenant owns the slot and is loaded there; a stopped
strand that is not freed yet counts, one in the shadow bank does not (log 97). -/
def State.liveOther (s : State) (tag die bay slot : Nat) : Bool :=
  s.strands.any (fun t => decide (t.2.place = .slot (coreOf die bay) slot) && t.2.tag != tag && s.present t.1) &&
    (s.inSlot (coreOf die bay) tag slot).isNone

/-- The sum of offset and BASE leaves a bay's window, or names registers 24 to 31 (R12, R21). -/
def outOfWindow (kind b n : Nat) : Bool :=
  if kind == 1 then decide (262144 < b + n) else decide (8192 < b + n) || decide (24 ≤ b / 16 % 32)

/-- The place of a window address of `n` bytes under a segment entry, or the cause of its trap (R12, R20, R21). A DEV that is neither the
local device nor one of the domain is an address error: R11 speaks of walks only (log 98). -/
def State.windowLoc (s : State) (tag : Nat) (e : W128) (va : W64) (n : Nat) (wr : Bool) : Xr :=
  let kind := sbits e 125 124
  let num := bits va 43 18
  let off := bits va 17 0
  let rows := sbits e 84 79
  let cols := sbits e 78 72
  let row := sbits e 95 91 + num / cols
  let col := sbits e 90 85 + num % cols
  let bay := row * 64 + col
  let die := sbits e 97 96
  let dev := sbits e 111 98
  let b := off + sbits e 71 54
  if sbits e 127 127 = 0 || (kind != 1 && kind != 2) || decide (rows * cols ≤ num) || decide (31 < row) || decide (63 < col)
      || decide (sbits e 53 35 ≤ off) || (wr && sbits e 126 126 == 0) then .trap 0x0A
  else if dev != s.dev.num then
    let gpa := pack [(dev, 50), (die, 48), (kind, 46), (bay, 18), (b, 0)]
    if !s.dev.domain.contains dev || outOfWindow kind b n then .trap 0x0A
    else if !Config.foreignWindow tag gpa n then .trap 0x0C
    else .ok { loc := .foreign dev gpa, write := true, rdc := false, sd := false, size := 18 }
  else if !s.ownsBay tag die bay then .trap 0x0C
  else if outOfWindow kind b n then .trap 0x0A
  else if kind == 1 then
    if !inPart (s.spadPart tag die bay) b n then .trap 0x0C
    else .ok { loc := .spad die bay b, write := true, rdc := false, sd := false, size := 18 }
  else if s.liveOther tag die bay (b / 512) then .trap 0x0C
  else .ok { loc := .rwin die bay (b / 512) (b / 16 % 32) (b % 16), write := true, rdc := false, sd := false, size := 18 }

/-- An access kind that a segment's W and a leaf's RO bear on (R20, R28). -/
def AccKind.writes (a : AccKind) : Bool := a == .store || a == .atomic || a == .copyWrite

/-- Translation of a canonical address for an access of `n` bytes by a unit (R10, R20 to R28). -/
def State.xlate (s : State) (u : UnitId) (tag : Nat) (va : W64) (n : Nat) (a : AccKind) : Xr × State :=
  if inWindow va then
    let r := s.segment u tag (bits va 51 44)
    (r.2.windowLoc tag r.1 va n a.writes, r.2)
  else s.paged u tag va a

/-- Translation for an engine or an interpreter of a unit's cluster: it has neither a bay TLB nor a segment cache (Table 1-8). -/
def State.engineXlate (s : State) (u : UnitId) (tag : Nat) (va : W64) (n : Nat) (a : AccKind) : Xr × State :=
  if inWindow va then (s.windowLoc tag (s.segmentAt tag (bits va 51 44) u.die) va n a.writes, s)
  else s.clusterPaged u false tag va a

/-- Whether a walk can take another requester: its page bits and tag are equal and it has not ended (R26). -/
def Walk.joins (w : Walk) (tag vpn : Nat) : Bool := w.tag == tag && w.vpn == vpn

/-- Two requests come from one requester (R28, Table 22-5): a fill, a drain or a card is one requester, whichever its line or element. -/
def sameRequester (q r : WalkReq) : Bool :=
  match q.who, r.who with
  | .fill a _, .fill b _ => a == b
  | .drain a _, .drain b _ => a == b
  | .card a _, .card b _ => a == b && decide (q.acc = r.acc)
  | a, b => decide (a = b)

/-- The requesters of some accesses, each once, by its first access (R28). -/
def requesters : List WalkReq → List WalkReq
  | [] => []
  | r :: rs => r :: (requesters rs).filter (fun q => !sameRequester r q)

/-- An engine's access may be translated now (R28, R31, R88): one of its remainders once a replay has freed it, in record order; one
under way at any time; another while no access of it is parked. -/
def mayTake (rs : List Remainder) (item : Nat) (underWay : Bool) : Bool :=
  match rs.find? (fun r => r.item == item) with
  | some r => r.freed && (rs.find? (·.freed)).any (fun f => f.fid == r.fid)
  | none => underWay || rs.all (·.freed)

/-- A remainder whose access has been translated is one no more. -/
def dropItem (rs : List Remainder) (item : Nat) : List Remainder := rs.filter (fun r => r.item != item)

/-- Adds an access to a walk unless it is already there. -/
def Walk.add (w : Walk) (r : WalkReq) : Walk :=
  if w.reqs.contains r then w else { w with reqs := w.reqs ++ [r] }

/-- A die's miss queue is full (Table 1-8). -/
def Die.missQueueFull (d : Die) : Bool := decide (256 ≤ (d.walks.filter (fun w => !w.active)).length)

/-- Enters a walk request into a die's miss queue, merging it where it can (R26); none while the queue is full, when further misses are
held and merge with nothing. -/
def State.enqueueWalk (s : State) (tag : Nat) (r : WalkReq) : Option State :=
  let vpn := bits r.va 55 16
  let d := s.die r.die
  if d.missQueueFull then none
  else if d.walks.any (fun w => w.joins tag vpn) then
    some (s.modDie r.die (fun d => { d with walks := d.walks.map (fun w => if w.joins tag vpn then w.add r else w) }))
  else
    let w : Walk := { id := s.nextId, tag := tag, vpn := vpn, reqs := [r], active := false, top := 0, level := 0, plc := 0, tdie := 0,
                      off := 0, result := none }
    some { (s.modDie r.die (fun d => { d with walks := d.walks ++ [w] })) with nextId := s.nextId + 1 }

/-- An access waits already for a walk: in one, or as a held miss. -/
def Die.asked (d : Die) (r : WalkReq) : Bool := d.walks.any (fun w => w.reqs.contains r) || d.held.any (fun q => q.2 == r)

/-- A cluster-TLB miss: a walk request, or a held miss while the queue is full (R26). -/
def State.askWalk (s : State) (tag : Nat) (r : WalkReq) : State :=
  if (s.die r.die).asked r then s
  else
    match s.enqueueWalk tag r with
    | some s1 => s1
    | none => s.modDie r.die (fun d => { d with held := d.held ++ [(tag, r)] })

end Sys2Proof.Machine
end

