-- ==== Sys2Proof/Machine/Ops.lean ====
section
/-!
DEFINITION. The named operations over registers and strands: waiting and rejoining rotation, retiring an instruction, the check of
w23 (R142), taking a trap (R187, R188), delivery to the runtime (R314, R315), and the return from a handler (R190).
-/
namespace Sys2Proof.Machine

/-- The strand whose instruction issues. -/
def State.me (s : State) : Strand := s.strand s.cur

/-- Die of the issuing strand. -/
def State.myDie (s : State) : Nat := (s.unitOf s.cur).die

/-- The strand leaves rotation and waits (R126). -/
def State.waitOn (s : State) (x : Nat) (w : Wait) : State :=
  { (s.modStrand x (fun t => { t with status := .waiting, wait := w, since := s.clock, arr := s.nextId, hang := 0, hangAt := s.clock }))
    with nextId := s.nextId + 1 }

/-- Changes what the strand waits for, without a new start of the wait. -/
def State.setWait (s : State) (x : Nat) (w : Wait) : State := s.modStrand x (fun t => { t with wait := w })

/-- The strand rejoins rotation with nothing done (R126). -/
def State.toReady (s : State) (x : Nat) : State := s.modStrand x (fun t => { t with status := .ready, wait := .none })

/-- STS with no prefix pending (R161, R162). -/
def clearPrefix (sts : W64) : W64 := sts &&& ~~~(0xC03FFFFF00000000#64)

/-- The saved context of a strand, 416 bytes (Tables 6-1, 6-2). -/
def contextBytes (t : Strand) : List Byte :=
  (t.regs.toList.flatMap (fun r => leBytes 16 r.toNat)) ++ leBytes 8 t.pc.toNat ++ leBytes 4 t.preds.toNat ++ leBytes 4 0 ++
  leBytes 8 t.sts.toNat ++
  leBytes 8 (pack [(t.pres.toNat, 32), (t.nslot, 26), (t.oring.ring, 23), (b2n t.orv, 22), (t.iring, 19), (b2n t.irv, 18),
    (match t.kind with | .bound => 0 | .follow => 1 | .pos => 2, 16), (t.gen % 65536, 0)]).toNat

/-- The order record of a strand, 64 bytes: pts, vw, rs and pa as four vectors of 32-bit times, pts in the first entry of its own (R122;
log 104). -/
def orderBytes (o : OrderState) : List Byte :=
  ([⟨o.pts, 0, 0, 0⟩, o.vw, o.rs, o.pa] : List V4).flatMap (fun v => [v.t0, v.t1, v.t2, v.t3].flatMap (leBytes 4))

/-- A migration packet or a creel entry, 512 bytes (R122). -/
def packetBytes (t : Strand) : List Byte := contextBytes t ++ orderBytes t.ord ++ leBytes 32 0

/-- A record of the runtime trap queue, 64 bytes (Table 16-3). -/
def trapRecordBytes (h : Held) (seq : Nat) (name : W64) : List Byte :=
  let w0 := pack [(h.evt, 56), (h.cause, 48), (if h.evt = 2 then 8 else 0, 40), (seq % 2 ^ 32, 0)]
  ([w0, name, h.pc, h.sts, h.value, h.cycle, 0, 0] : List W64).flatMap (fun w => leBytes 8 w.toNat)

/-- The place of a 64-byte entry of a partition's trap queue (R314). -/
def State.trapEntry (s : State) (tag die idx : Nat) : Loc :=
  let q := (s.part tag).xtq
  place (bits q 59 58) (bits q 37 36) (bits q 35 6 * 64 + idx % 2 ^ bits q 63 60 * 64) die

/-- Writes 64-byte entries of a partition's trap queue from a place in it (R314). -/
def State.writeTrapEntries (s : State) (tag die idx : Nat) : List Byte → Nat → State
  | _, 0 => s
  | bs, n + 1 => (s.recordStore (s.trapEntry tag die idx) (bs.take 64)).writeTrapEntries tag die (idx + 1) (bs.drop 64) n

/-- Writes the record that holds a strand, if the trap queue has room for it and its release is enabled (R30, R314, R315): 9 entries for a
creel overflow. -/
def State.trapRecord (s : State) (x : Nat) : State :=
  let t := s.strand x
  match t.held with
  | none => s
  | some h =>
    let p := s.part t.tag
    let lg := bits p.xtq 63 60
    let n := if h.evt = 2 then 9 else 1
    let unread := (p.xtqt - p.xtqh).toNat
    if h.seq.isSome then s
    else if lg = 0 || decide (2 ^ lg < unread + n) then s.emit (.trapQueueFull t.tag)
    else if !(List.range n).all (fun k => s.recordReady (s.trapEntry t.tag (s.unitOf x).die (p.xtqt.toNat + k)) h.upto) then s
    else
      let u := s.unitOf x
      let extra := if h.evt = 2 then packetBytes t else []
      let s1 := s.writeTrapEntries t.tag u.die p.xtqt.toNat (trapRecordBytes h p.nextSeq (s.nameOf x) ++ extra) n
      let s2 := s1.modPart t.tag (fun p => { p with xtqt := p.xtqt + BitVec.ofNat 32 n, nextSeq := (p.nextSeq + 1) % 2 ^ 32 })
      (s2.modStrand x (fun t => { t with held := some { h with seq := some p.nextSeq } })).emit (.trapRecord t.tag)

/-- Delivery to the runtime (R314): the strand is held, halted with its context intact, and a record is written or waits in the bay. -/
def State.deliver (s : State) (x evt cause : Nat) (value resume : W64) : State :=
  let t := s.strand x
  let u := s.unitOf x
  let h : Held := { seq := none, evt := evt, cause := cause, value := value, pc := resume, sts := t.sts,
                    cycle := w64 (s.unitCycle u), upto := s.serial }
  (s.modStrand x (fun t => { t with status := .halted, wait := .none, pend := none, held := some h })).trapRecord x

/-- Handler entry (R188). -/
def enterHandler (t : Strand) (cause : Nat) (value resume : W64) : Strand :=
  { t with regs := (t.regs.set 20 (mk128 t.sts resume)).set 21 (mk128 value (w64 cause)),
           sts := setBit (clearPrefix t.sts) 61 true, pc := t.tvec, status := .ready, wait := .none, pend := none }

/-- Consumed poison is counted on the consumer's die (R318, Table 17-3). -/
def State.consumed (s : State) (die : Nat) : State := s.rasAdd die 39 32

/-- Taking a trap (R187): the handler in user mode where there is one, else the runtime. Consumed poison is counted. -/
def State.takeTrap (s : State) (x cause : Nat) (value resume : W64) : State :=
  let t := s.strand x
  let s1 := if cause = 0x40 then s.consumed (s.unitOf x).die else s
  if !t.hm && t.tvec != 0 && cause != 0x26 then s1.modStrand x (fun t => enterHandler t cause value resume)
  else s1.deliver x 1 cause value resume

/-- The prefix that the instruction under way took at its issue is pending again: the instruction traps at check 5 (R165), or is to issue
again where its strand goes (R133). -/
def prefixBack (t : Strand) : Strand := { t with sts := t.sts ||| t.pfx, pfx := 0 }

/-- A trap raised after issue, to be taken at the strand's next turn (R187, R313). -/
def State.defer (s : State) (x cause : Nat) (value : W64) : State :=
  s.modStrand x (fun t => { prefixBack t with status := .ready, wait := .none, pend := some (cause, value) })

/-- A trap of the issuing instruction, resuming at `resume` (R187); a borrowed turn's trap waits for the strand's own turn (R127). -/
def State.trapAt (s : State) (cause : Nat) (value resume : W64) : State :=
  if s.lent then s.defer s.cur cause value else s.takeTrap s.cur cause value resume

/-- A trap of the issuing instruction that resumes at it. -/
def State.raise (s : State) (cause : Nat) (value : W64) : State := s.trapAt cause value s.me.pc

/-- A trap at check 1, 2 or 3 of R164: the prefix is cleared first. -/
def State.raiseEarly (s : State) (cause : Nat) (value : W64) : State :=
  (s.modStrand s.cur (fun t => { t with sts := clearPrefix t.sts })).raise cause value

/-- The return from a handler (R190): STS and pc from w20. -/
def returnFrom (t : Strand) : Strand :=
  let w := t.regs[20]
  { t with sts := hi64 w &&& 0xD03FFFFF00003F80#64, pc := lo64 w }

/-- A lane of w23 as a Q16.16 value (R142). -/
def lane32 (v : W128) (i : Nat) : Int := (v.extractLsb' (32 * i) 32).toInt

/-- A position as three coordinates; z is ignored in a field of two dimensions (R142). -/
def posOf (v : W128) : P3 := ⟨lane32 v 0, lane32 v 1, lane32 v 2⟩

/-- A field has three dimensions (Table 7-1). -/
def Field.d3 (f : Field) : Bool := bit (nth 0 f.desc 0) 62

/-- A point lies in a box on every axis of the field (R142). -/
def Field.inBox (f : Field) (lo hi p : P3) : Bool :=
  decide (lo.x ≤ p.x) && decide (p.x < hi.x) && decide (lo.y ≤ p.y) && decide (p.y < hi.y) &&
  (!f.d3 || (decide (lo.z ≤ p.z) && decide (p.z < hi.z)))

/-- The bay of a field whose current box holds a point (R144). -/
def Field.ownerOf (f : Field) (p : P3) : Option FieldBay := f.bays.find? (fun b => f.inBox b.lo b.hi p)

/-- The active field of a tenant that a bay belongs to, with its number. -/
def State.fieldAt (s : State) (tag die bay : Nat) : Option (Nat × Field) :=
  s.fields.find? (fun e => e.2.live && e.2.tag == tag && e.2.die == die && e.2.bays.any (fun b => b.bay == bay))

/-- The bay's record in a field. -/
def Field.bayRec (f : Field) (bay : Nat) : Option FieldBay := f.bays.find? (fun b => b.bay == bay)

/-- What the check of a write to w23 decides (R142). -/
inductive W23 where
  | write
  | cross (dest : UnitId)
  | stay
  | trap (cause : Nat) (value : W64)
deriving DecidableEq, Repr

/-- The check of a write of `v` to w23 by a strand (R142): only position-bound strands of an active field are checked.
A value outside the domain is a field-bounds error even while a ring is bound (the model's choice, log 125). -/
def State.checkW23 (s : State) (x : Nat) (v : W128) : W23 :=
  let t := s.strand x
  let u := s.unitOf x
  if t.kind != .pos then .write
  else match s.fieldAt t.tag u.die u.bay with
  | none => .write
  | some (_, f) =>
    match f.ownerOf (posOf v) with
    | none => .trap 0x38 (lo64 v)
    | some b =>
      if b.bay = u.bay then .stay
      else if t.irv then .trap 0x23 (w64 t.iring)
      else if t.orv then .trap 0x23 (w64 (256 + t.oring.ring))
      else .cross (coreOf u.die b.bay)

/-- Writes a register of a strand. -/
def setReg (t : Strand) (i : Fin 24) (v : W128) : Strand := { t with regs := t.regs.set i v }

/-- The strand after it retires an instruction: predicates, flags, pc, no prefix pending, back in rotation (R8, R150, R161). -/
def retired (t : Strand) (r : Reply) : Strand :=
  { t with preds := (match r.preds with | some p => p ||| 1 | none => t.preds),
           sts := clearPrefix t.sts ||| r.flags, pfx := 0,
           pc := (match r.npc with | some p => p | none => t.pc + 4), status := .ready, wait := .none }

/-- Raises a trap of strand `x`: now if it is issuing, else at its next turn. -/
def State.raiseOf (s : State) (x : Nat) (now : Bool) (cause : Nat) (value : W64) : State :=
  if now then s.raise cause value else s.defer x cause value

/-- Retires an instruction of strand `x` whose destination is a register or none, with the check of w23 (R142). `now` says that the
strand is issuing. -/
def State.retireReg (s : State) (x : Nat) (now : Bool) (r : Reply) : State :=
  match r.d with
  | .w i =>
    if i = 23 then
      match s.checkW23 x r.v with
      | .write => s.modStrand x (fun t => retired (setReg t i r.v) r)
      | .stay => s.modStrand x (fun t => { retired (setReg t i r.v) r with leaving := none })
      | .cross dest => s.modStrand x (fun t => { retired (setReg t i r.v) r with leaving := some ⟨dest, s.serial⟩ })
      | .trap c v => s.raiseOf x now c v
    else s.modStrand x (fun t => retired (setReg t i r.v) r)
  | .wz => s.modStrand x (fun t => retired t r)
  | .qo => s.modStrand x (fun t => retired t r)

/-- Retires an instruction of strand `x`: a result for qo waits for its push (R38, R94). -/
def State.retireOf (s : State) (x : Nat) (now : Bool) (r : Reply) : State :=
  match r.d with
  | .qo => s.waitOn x (.push r)
  | _ => s.retireReg x now r

/-- Retires the issuing instruction. -/
def State.retire (s : State) (r : Reply) : State := s.retireOf s.cur true r

/-- An instruction's result in its destination, and nothing else. -/
def result (d : Dst) (v : W128) : Reply := { d := d, v := v, preds := none, flags := 0, npc := none }

/-- An instruction that writes no register. -/
def nothing : Reply := result .wz 0

/-- The reply to a waiting strand: its result is there, and it rejoins rotation at OPERATION_REPLY (R126). -/
def State.answer (s : State) (x : Nat) (r : Reply) : State := s.setWait x (.reply r)

/-- A name's slot numbering in a tenant's bay state: spindle slots from 16 (R135). -/
def slotNo (u : UnitId) (n : Nat) : Nat := if u.sp then 16 + n else n

/-- The generation that a slot takes when a strand is placed in it (Table 6-7), recorded. -/
def State.bumpGen (s : State) (u : UnitId) (tag n : Nat) : Nat × State :=
  let g := (Tbl.get 0 (s.ten u.die u.bay tag).gens (slotNo u n) + 1) % 65536
  (g, s.modTen u.die u.bay tag (fun t => { t with gens := Tbl.set t.gens (slotNo u n) g }))

/-- A wait that the hang watchdog bounds (R329): its limit is nothing else. -/
def State.hangWait (s : State) (w : Wait) : Bool :=
  match w with
  | .mbx _ _ => true
  | .mbr _ _ => true
  | .reap _ _ => true
  | .spawn15 _ _ _ => true
  | .rdv _ => true
  | .semw _ => true
  | .svc => true
  | .token id .anti _ => s.tokens.any (fun k => k.id == id && (match k.at_ with | .parked _ _ => true | _ => false))
  | _ => false

/-- A strand's wait is one that the watchdog counts, in a slot that is not throttled (R329). -/
def State.hangWaits (s : State) (x : Nat) : Bool :=
  let t := s.strand x
  match t.place with
  | .slot u _ => t.status == .waiting && s.hangWait t.wait && !(s.unit u).throttled
  | _ => false

/-- A strand's slot counts this cycle (R329). -/
def State.hangCounts (s : State) (x : Nat) : Bool :=
  match (s.strand x).place with
  | .slot u n => s.hangWaits x && s.tenantOf u n == some (s.strand x).tag
  | _ => false

/-- The clocks from and to which a strand's tenant owns its slot, within the interval from a clock until now (R323, R329): the slot
changes tenant in its own cycle. -/
def State.ownedSpan (s : State) (x from_ : Nat) : Nat × Nat :=
  let t := s.strand x
  match t.place with
  | .slot u n =>
    let i := s.island (islandOf u.die u.bay)
    let c := s.changeAt u n i.handAt
    if i.running = some t.tag then (if i.prev = some t.tag then from_ else Nat.max from_ c, s.clock)
    else if i.prev = some t.tag then (from_, Nat.min s.clock c)
    else (from_, from_)
  | _ => (from_, from_)

/-- Cycles counted for a strand's wait up to now (R329). -/
def State.hangTotal (s : State) (x : Nat) : Nat :=
  let p := s.ownedSpan x (s.strand x).hangAt
  (s.strand x).hang + (if s.hangWaits x then p.2 - p.1 else 0)

/-- Notes the counts of some strands, before what the count depends on changes (R329). -/
def State.hangSettle (s : State) (p : Strand → Bool) : State :=
  { s with strands := s.strands.map (fun e => if p e.2 then (e.1, { e.2 with hang := s.hangTotal e.1, hangAt := s.clock }) else e) }

/-- A step of the device: where it is not enabled, nothing happens (R66; log 1). -/
def State.ifEnabled (s : State) (r : Option State) : Out := .next (r.getD s)

end Sys2Proof.Machine
end

