-- ==== Sys2Proof/Machine/Operands.lean ====
section
/-!
DEFINITION. Operand forms and the checks of an issue: sources with qi and destinations with qo (R35 to R38), immediates with and
without IMM (R152), the pending prefix (R161, R162), slot roles (R128), guards (R153, R154), and the order of the checks (R164).
-/
namespace Sys2Proof.Machine

/-- The instruction's word, as a trap's value (Table 10-5). -/
def wordOf (i : Instr) : W64 :=
  match encodeNat i with
  | some n => w64 n
  | none => 0

/-- The value of a register or wz. -/
def regz (t : Strand) : RegZ → W128
  | .w i => t.regs[i]
  | .wz => 0

/-- A base register's scalar value. -/
def baseVal (t : Strand) (b : Base) : W64 := lo64 t.regs[b]

/-- A register or wz as a destination. -/
def RegZ.dst : RegZ → Dst
  | .w i => .w i
  | .wz => .wz

/-- A pop of one entry (R95): none while the ring is open and empty. -/
inductive Pop where
  | wait
  | val (v : W128) (bad : Option W64) (s : State)
  | foul (cause : Nat) (value : W64)

/-- Rings of a unit in the tenant's bay state: a spindle's are numbered from 8. -/
def ringNo (u : UnitId) (k : Nat) : Nat := if u.sp then 8 + k else k

/-- A ring of a unit. -/
def State.ring (s : State) (u : UnitId) (tag k : Nat) : Ring := Tbl.get Ring.init (s.ten u.die u.bay tag).rings (ringNo u k)

/-- Replaces a ring of a unit. -/
def State.setRing (s : State) (u : UnitId) (tag k : Nat) (r : Ring) : State :=
  s.modTen u.die u.bay tag (fun t => { t with rings := Tbl.set t.rings (ringNo u k) r })

/-- The end step (R96): a ring whose EOS covers PMASK and that is empty is ended. -/
def endStep (r : Ring) : Ring :=
  if r.st = .opened ∧ r.head = r.tail ∧ r.pmask &&& ~~~r.eos = 0 then { r with st := .ended } else r

/-- Scratchpad offset of an entry of a ring (R55). -/
def Ring.entryOff (r : Ring) (n : Nat) : Nat := r.base * 16 + n % 2 ^ r.log2n * 16

/-- The name of a ring, HEAD and TAIL as a stream timeout's value (Table 10-5). -/
def ringValue (k : Nat) (r : Ring) : W64 := pack [(k, 0), (r.head, 16), (r.tail, 32)]

/-- Pops one entry of the strand's input ring, a plain load of its own bay (R38, R58, R95): R67's times and the line's stamp as well as the
entry's (the model's choice, log 123). A poisoned entry is reported with its
offset (R318). -/
def State.popOne (s : State) (x : Nat) : Pop :=
  let t := s.strand x
  let u := s.unitOf x
  if !t.irv then .foul 0x23 (w64 t.iring)
  else
    let r := endStep (s.ring u t.tag t.iring)
    if r.st = .ended then
      .val 0 none ((s.setRing u t.tag t.iring r).modStrand x (fun t => { t with sts := setBit t.sts 60 true }))
    else if r.head = r.tail || r.st = .free then .wait
    else
      let off := r.entryOff r.head
      let l : Loc := .spad u.die u.bay off
      let v := w128 (leNat (s.bytesAt t.tag l 16))
      let bad := if s.badAt t.tag l 16 then some (w64 off) else none
      let st := Tbl.get V4.zero r.stamps (r.head % 2 ^ r.log2n)
      let rt := s.readTimes t.ord u.die l
      let s1 := rt.2.modStrand x (fun t => { t with ord := { rt.1 with pa := rt.1.pa.vmax st } })
      .val v bad (s1.setRing u t.tag t.iring (endStep { r with head := (r.head + 1) % 65536 }))

/-- A pop has read a poisoned entry at an offset (R318): its mark is consumed and the instruction traps. -/
def State.foulPop (s : State) (off : W64) : State :=
  let u := s.unitOf s.cur
  (s.eat u.die s.me.tag (.spad u.die u.bay off.toNat) 16).raise 0x40 off

/-- The issuing instruction has not issued and waits (R46, R57, R126). -/
def State.unissued (s : State) (w : Wait) : State := s.waitOn s.cur w

/-- Reads one source of the issuing instruction. -/
def State.src (s : State) (a : Src) (k : W128 → State → State) : State :=
  match a with
  | .w i => k s.me.regs[i] s
  | .wz => k 0 s
  | .qi =>
    match s.popOne s.cur with
    | .wait => s.unissued (.pop s.me.iring 1)
    | .val v none s1 => k v s1
    | .val _ (some a) _ => s.foulPop a
    | .foul c v => s.raise c v

/-- Reads two sources, field a first (R38). Where the second pop must wait, neither is made (log 16). -/
def State.src2 (s : State) (a b : Src) (k : W128 → W128 → State → State) : State :=
  match a, b with
  | .qi, .qi =>
    match s.popOne s.cur with
    | .wait => s.unissued (.pop s.me.iring 2)
    | .foul c v => s.raise c v
    | .val _ (some p) _ => s.foulPop p
    | .val v none s1 =>
      match s1.popOne s1.cur with
      | .wait => s.unissued (.pop s.me.iring 2)
      | .foul c q => s.raise c q
      | .val _ (some p) _ => s.foulPop p
      | .val w none s2 => k v w s2
  | a, b => s.src a (fun v s1 => s1.src b (fun w s2 => k v w s2))

/-- A destination of qo needs a ring bound to that side (R38). -/
def State.dstBound (s : State) (d : Dst) (k : State → State) : State :=
  match d with
  | .qo => if s.me.orv then k s else s.raise 0x23 (w64 (256 + s.me.oring.ring))
  | _ => k s

/-- Sources and destination of an instruction with one source. -/
def State.ops1 (s : State) (d : Dst) (a : Src) (k : W128 → State → State) : State :=
  s.dstBound d (fun s => s.src a k)

/-- Sources and destination of an instruction with two sources. -/
def State.ops2 (s : State) (d : Dst) (a b : Src) (k : W128 → W128 → State → State) : State :=
  s.dstBound d (fun s => s.src2 a b k)

/-- The high bits that a pending IMM supplies, none without it (R161). -/
def immHigh (t : Strand) : Option Nat := if t.ppx && !bit t.sts 62 then some (bits t.sts 53 32) else none

/-- An immediate of `n` bits widened by a pending IMM: the number and its width (Table 8-2). -/
def immWide (t : Strand) (n v : Nat) : Nat × Nat :=
  match immHigh t with
  | some h => (h * 2 ^ n + v, n + 22)
  | none => (v, n)

/-- A number of `n` bits sign-extended to 64. -/
def sextN (v n : Nat) : W64 := if v < 2 ^ (n - 1) then w64 v else w64 (v + (2 ^ 64 - 2 ^ n))

/-- A sign-extended immediate (R152). -/
def immS {n : Nat} (t : Strand) (v : BitVec n) : W64 :=
  let r := immWide t n v.toNat
  sextN r.1 r.2

/-- A zero-extended immediate (R152). -/
def immU {n : Nat} (t : Strand) (v : BitVec n) : W64 := w64 (immWide t n v.toNat).1

/-- The fields of a pending FMT (Table 8-6), all zero without one (R162). -/
structure Fmt where
  ty   : Nat
  rnd  : Nat
  mask : Bool
  sat  : Bool
deriving DecidableEq, Repr

/-- The pending FMT of a strand. -/
def fmtOf (t : Strand) : Fmt :=
  if t.ppx && bit t.sts 62 then ⟨bits t.sts 35 32, bits t.sts 38 36, bit t.sts 39, bit t.sts 40⟩ else ⟨0, 0, false, false⟩

/-- Which prefix an instruction accepts (R161, Table 8-7). -/
inductive Pfx where
  | none
  | imm
  | fmt (ty rnd mask sat : Bool)
deriving DecidableEq, Repr

/-- The prefix check (R164, check 2). -/
def prefixOk (p : Pfx) (t : Strand) : Bool :=
  if !t.ppx then true
  else if bit t.sts 62 then
    match p with
    | .fmt ty rnd mask sat =>
      let f := fmtOf t
      (f.ty == 0 || ty) && (f.rnd == 0 || rnd) && (!f.mask || mask) && (!f.sat || sat)
    | .none => false
    | .imm => false
  else p == .imm

/-- Slot roles that an instruction needs (Table 6-6, R271). -/
inductive Role where
  | any
  | head
  | beater
  | loom
  | shuttle
deriving DecidableEq, Repr

/-- The slot-role check, on a compute core only (R128). -/
def roleOk (r : Role) (sp : Bool) (slot : Option Nat) : Bool :=
  if sp then true
  else match r with
  | .any => true
  | .head => slot == some 0
  | .beater => slot == some 13
  | .loom => slot == some 13 || slot == some 14
  | .shuttle => slot == some 15

/-- A predicate (R35): p0 reads 1. -/
def predOf (p : W32) (i : Nat) : Bool := if i = 0 then true else bit p i

/-- The guard (R153): read at issue. -/
def guardTrue (t : Strand) (g : Guard) : Bool := xor (predOf t.preds g.p.val) g.neg

/-- A wait of an instruction that has issued: not one that it issues after, nor one on the walk of an address at which it is to issue again
(R28, R38, R46, R57, R263). -/
def Wait.issued : Wait → Bool
  | .none => false
  | .tile _ => false
  | .pop _ _ => false
  | .mxq => false
  | .mem op => !op.again
  | _ => true

/-- An instruction that has issued and waits has taken the pending prefix (R161, R162): it is kept with the wait (R165). -/
def State.prefixTaken (s : State) (x : Nat) : State :=
  let t := s.strand x
  if t.ppx && t.wait.issued then
    s.setStrand x { t with pfx := t.sts &&& 0xC03FFFFF00000000#64, sts := clearPrefix t.sts }
  else s

/-- An issue (R164): prefix, slot role, guard, then the operation itself. Encoding is checked by the decoder. A false guard consumes
the prefix and does nothing else (R154). -/
def State.issue (s : State) (i : Instr) (p : Pfx) (r : Role) (g : Guard) (body : State → State) : Out :=
  .next (
    if !prefixOk p s.me then s.raiseEarly 0x02 (wordOf i)
    else if !roleOk r (s.unitOf s.cur).sp (s.slotOf s.cur) then s.raiseEarly 0x03 (wordOf i)
    else if !guardTrue s.me g then s.modStrand s.cur (fun t => retired t nothing)
    else if s.me.ppx then (body s).prefixTaken s.cur else body s)

/-- A unit error: the instruction does not run on a spindle (R133, R220). -/
def State.coreOnly (s : State) (i : Instr) (body : State → State) : State :=
  if (s.unitOf s.cur).sp then s.raise 0x05 (wordOf i) else body s

/-- A scalar result (R174): bits 127:64 zero. -/
def scalar (d : Dst) (v : W64) : Reply := result d (zext128 v)

end Sys2Proof.Machine
end

