-- ==== Sys2Proof/Machine/Flags.lean ====
section
/-!
DEFINITION. Flags and predicates: the sticky flags of STS (Table 10-3), the predicate word, compare conditions (R180, R181) and the
lane predicates p16 to p31 (R207, R210).
-/
namespace Sys2Proof.Machine

/-- Sticky flags that an operation raises, in the positions of STS bits 13:7 (Table 10-3). -/
structure Flags where
  ovf : Bool := false
  sat : Bool := false
  nv  : Bool := false
  dz  : Bool := false
  of  : Bool := false
  uf  : Bool := false
  nx  : Bool := false
deriving DecidableEq, Repr

/-- Flags as bits 13:7 of STS. -/
def Flags.sts (f : Flags) : W64 :=
  pack [(b2n f.ovf, 13), (b2n f.sat, 12), (b2n f.nv, 11), (b2n f.dz, 10), (b2n f.of, 9), (b2n f.uf, 8), (b2n f.nx, 7)]

/-- Flags of two operations together. -/
def Flags.or (a b : Flags) : Flags :=
  ⟨a.ovf || b.ovf, a.sat || b.sat, a.nv || b.nv, a.dz || b.dz, a.of || b.of, a.uf || b.uf, a.nx || b.nx⟩

/-- Writes a predicate; a write to p0 is discarded (R35). -/
def setPred (p : W32) (i : Nat) (b : Bool) : W32 := if i = 0 then p else setBit p i b

/-- Writes lane predicates p16 up from a list (R210). -/
def setLanePreds (p : W32) (n : Nat) : List Bool → W32
  | [] => p
  | b :: bs => setLanePreds (setPred p (16 + n) b) (n + 1) bs

/-- The OR of p16 to p(15 + n) (R182). -/
def anyLane (p : W32) (n : Nat) : Bool := (List.range n).any (fun i => bit p (16 + i))

/-- The AND of p16 to p(15 + n) (R182). -/
def allLanes (p : W32) (n : Nat) : Bool := (List.range n).all (fun i => bit p (16 + i))

/-- A condition on two scalars (R180). -/
def Cond.holds (c : Cond) (x y : W64) : Bool :=
  match c with
  | .eq => x == y
  | .ne => x != y
  | .lt => x.slt y
  | .le => x.sle y
  | .gt => y.slt x
  | .ge => y.sle x
  | .ltu => x.ult y
  | .leu => x.ule y
  | .gtu => y.ult x
  | .geu => y.ule x

/-- Unsigned conditions take a zero-extended immediate in CMPI (R181). -/
def condUnsigned : Cond → Bool
  | .eq => false
  | .ne => false
  | .lt => false
  | .le => false
  | .gt => false
  | .ge => false
  | .ltu => true
  | .leu => true
  | .gtu => true
  | .geu => true

/-- The combine of CMP (R180). -/
def Combine.apply (k : Combine) (old new : Bool) : Bool :=
  match k with
  | .set => new
  | .and => old && new
  | .or => old || new

/-- A result that only changes the predicate word. -/
def predResult (p : W32) : Reply := { nothing with preds := some p }

end Sys2Proof.Machine
end

