-- ==== Sys2Proof/Machine/Float.lean ====
section
/-!
DEFINITION. Floating-point numbers (spec 11, R197 to R206, R213 to R216): formats, exact values, one rounding, special results and
flags. Values are computed exactly on integers and rounded once.
-/
namespace Sys2Proof.Machine

/-- What the top exponent of a format means (Table 11-1). -/
inductive FTop where
  | ieee | e4m3 | e2m1
deriving DecidableEq, Repr

/-- A format: exponent bits, fraction bits and its special values (Table 11-1). -/
structure FP where
  eb  : Nat
  fb  : Nat
  top : FTop
deriving DecidableEq, Repr

def fp64 : FP := ⟨11, 52, .ieee⟩
def fp32 : FP := ⟨8, 23, .ieee⟩
def fp16 : FP := ⟨5, 10, .ieee⟩
def bf16 : FP := ⟨8, 7, .ieee⟩
def e5m2 : FP := ⟨5, 2, .ieee⟩
def e4m3 : FP := ⟨4, 3, .e4m3⟩
def e2m1 : FP := ⟨2, 1, .e2m1⟩

/-- Bits of an element. -/
def FP.width (f : FP) : Nat := 1 + f.eb + f.fb

/-- Exponent bias (Table 11-1). -/
def FP.bias (f : FP) : Nat := 2 ^ (f.eb - 1) - 1

/-- Exponent of the smallest normal (Table 11-1). -/
def FP.emin (f : FP) : Int := 1 - (f.bias : Int)

/-- The code of the largest finite value, sign clear (Table 11-1). -/
def FP.maxCode (f : FP) : Nat :=
  match f.top with
  | .ieee => (2 ^ f.eb - 1) * 2 ^ f.fb - 1
  | .e4m3 => 2 ^ (f.eb + f.fb) - 2
  | .e2m1 => 2 ^ (f.eb + f.fb) - 1

/-- The canonical NaN (Table 11-2); E2M1 has none and takes +0 (R214). -/
def FP.nan (f : FP) : Nat :=
  match f.top with
  | .ieee => (2 ^ f.eb - 1) * 2 ^ f.fb + 2 ^ (f.fb - 1)
  | .e4m3 => 2 ^ (f.eb + f.fb) - 1
  | .e2m1 => 0

/-- The sign bit in place. -/
def FP.signBit (f : FP) (neg : Bool) : Nat := if neg then 2 ^ (f.eb + f.fb) else 0

/-- The code of an infinity, for the formats that have one. -/
def FP.inf (f : FP) (neg : Bool) : Nat := f.signBit neg + (2 ^ f.eb - 1) * 2 ^ f.fb

/-- A floating-point value: NaN (signalling or not), infinity, or a sign and m × 2^e exactly. -/
inductive FVal where
  | nan (sig : Bool)
  | inf (neg : Bool)
  | fin (neg : Bool) (m : Nat) (e : Int)
deriving DecidableEq, Repr

/-- The value of a code (R197 to R199). -/
def FP.val (f : FP) (c : Nat) : FVal :=
  let neg := decide (2 ^ (f.eb + f.fb) ≤ c % 2 ^ f.width)
  let ex := c / 2 ^ f.fb % 2 ^ f.eb
  let fr := c % 2 ^ f.fb
  if f.top = .ieee ∧ ex = 2 ^ f.eb - 1 then
    if fr = 0 then .inf neg else .nan (decide (fr < 2 ^ (f.fb - 1)))
  else if f.top = .e4m3 ∧ ex = 2 ^ f.eb - 1 ∧ fr = 2 ^ f.fb - 1 then .nan false
  else if ex = 0 then .fin neg fr (f.emin - f.fb)
  else .fin neg (fr + 2 ^ f.fb) ((ex : Int) - f.bias - f.fb)

/-- Rounding modes (R202). -/
inductive Rm where
  | rne | rtz | rup | rdn
deriving DecidableEq, Repr

/-- The mode that an RND code selects, `d` where it is 0 (R162, R202); a reserved code, which only an RFT can leave pending, selects
one that the spec does not name (log 44). -/
def rmOf (d : Rm) (n : Nat) : Rm :=
  match if n ≤ 4 then n else Config.reservedRnd n % 5 with
  | 1 => .rne
  | 2 => .rtz
  | 3 => .rup
  | 4 => .rdn
  | _ => d

/-- Whether a quotient `m` with remainder `r` of `den` is rounded away from zero. -/
def roundsUp (rm : Rm) (neg : Bool) (m r den : Nat) : Bool :=
  match rm with
  | .rne => decide (den < 2 * r) || (2 * r == den && m % 2 == 1)
  | .rtz => false
  | .rup => !neg && r != 0
  | .rdn => neg && r != 0

/-- n / d scaled by 2^-q, as quotient, remainder and denominator. -/
def scaled (n d : Nat) (q : Int) : Nat × Nat × Nat :=
  let n' := n * 2 ^ (-q).toNat
  let d' := d * 2 ^ q.toNat
  (n' / d', n' % d', d')

/-- The exponent e with 2^e ≤ n / d < 2^(e + 1), for n and d above 0. -/
def ilog (n d : Nat) : Int :=
  let e : Int := (Nat.log2 n : Int) - (Nat.log2 d : Int)
  if n * 2 ^ (-e).toNat < d * 2 ^ e.toNat then e - 1 else e

/-- The code of the magnitude m × 2^q, with m below 2^(fb + 1) and q at least the subnormal spacing. -/
def FP.encodeMag (f : FP) (m : Nat) (q : Int) : Nat :=
  if m < 2 ^ f.fb then m
  else ((q + f.fb + f.bias).toNat) * 2 ^ f.fb + (m - 2 ^ f.fb)

/-- The result of an overflow (R203). -/
def FP.overflow (f : FP) (rm : Rm) (sat neg : Bool) : Nat :=
  let big := f.signBit neg + f.maxCode
  let toInf := match rm with
    | .rne => true
    | .rtz => false
    | .rup => !neg
    | .rdn => neg
  if !toInf then big
  else match f.top with
    | .ieee => if sat then big else f.inf neg
    | .e4m3 => if sat then big else f.nan
    | .e2m1 => big

/-- The exact positive value n / d with a sign, rounded once to a format (R202 to R204). -/
def FP.round (f : FP) (rm : Rm) (sat neg : Bool) (n d : Nat) : Nat × Flags :=
  let e := ilog n d
  let q := (if e < f.emin then f.emin else e) - f.fb
  let s := scaled n d q
  let m0 := s.1 + b2n (roundsUp rm neg s.1 s.2.1 s.2.2)
  let inexact := s.2.1 != 0
  let carry := decide (2 ^ (f.fb + 1) ≤ m0)
  let m := if carry then m0 / 2 else m0
  let q := if carry then q + 1 else q
  let c := f.encodeMag m q
  if f.maxCode < c then (f.overflow rm sat neg, { of := true, nx := true })
  else
    let tiny := decide (e < f.emin)
    (f.signBit neg + c, { uf := tiny && inexact, nx := inexact })

/-- A signed zero. -/
def FP.zero (f : FP) (neg : Bool) : Nat := f.signBit neg

/-- A value given as a signed integer times 2^e, rounded once; an exact zero takes the sign `zneg`. -/
def FP.roundInt (f : FP) (rm : Rm) (sat : Bool) (m e : Int) (zneg : Bool) : Nat × Flags :=
  if m = 0 then (f.zero zneg, {})
  else f.round rm sat (decide (m < 0)) (m.natAbs * 2 ^ e.toNat) (2 ^ (-e).toNat)

/-- A signalling NaN sets NV (Table 11-3). -/
def FVal.sig : FVal → Bool
  | .nan b => b
  | .inf _ => false
  | .fin _ _ _ => false

/-- The canonical NaN with the flags of an operation (R199). -/
def FP.nanRes (f : FP) (nv : Bool) : Nat × Flags := (f.nan, { nv := nv })

/-- A signed integer mantissa. -/
def sgn (neg : Bool) (m : Nat) : Int := if neg then -(m : Int) else (m : Int)

/-- x as a multiple of 2^e, for e at most its exponent. -/
def alignTo (m : Int) (em e : Int) : Int := m * (2 ^ (em - e).toNat : Nat)

/-- Sign of an exact zero sum (R202). -/
def zeroSign (rm : Rm) (a b : Bool) : Bool := if a = b then a else rm == .rdn

/-- Addition (R208). -/
def FP.add (f : FP) (rm : Rm) (x y : FVal) : Nat × Flags :=
  match x, y with
  | .nan a, y => f.nanRes (a || y.sig)
  | x, .nan b => f.nanRes (b || x.sig)
  | .inf a, .inf b => if a = b then (f.inf a, {}) else f.nanRes true
  | .inf a, .fin _ _ _ => (f.inf a, {})
  | .fin _ _ _, .inf b => (f.inf b, {})
  | .fin a m e, .fin b n k =>
    let lo := if e < k then e else k
    f.roundInt rm false (alignTo (sgn a m) e lo + alignTo (sgn b n) k lo) lo (zeroSign rm a b)

/-- The value with its sign inverted. -/
def FVal.neg : FVal → FVal
  | .nan b => .nan b
  | .inf a => .inf (!a)
  | .fin a m e => .fin (!a) m e

/-- Multiplication (R208). -/
def FP.mul (f : FP) (rm : Rm) (x y : FVal) : Nat × Flags :=
  match x, y with
  | .nan a, y => f.nanRes (a || y.sig)
  | x, .nan b => f.nanRes (b || x.sig)
  | .inf a, .inf b => (f.inf (xor a b), {})
  | .inf a, .fin b n _ => if n = 0 then f.nanRes true else (f.inf (xor a b), {})
  | .fin a m _, .inf b => if m = 0 then f.nanRes true else (f.inf (xor a b), {})
  | .fin a m e, .fin b n k => f.roundInt rm false (sgn (xor a b) (m * n)) (e + k) (xor a b)

/-- An invalid product: zero times infinity (Table 11-3). -/
def badProduct : FVal → FVal → Bool
  | .inf _, .fin _ n _ => n == 0
  | .fin _ m _, .inf _ => m == 0
  | _, _ => false

/-- The product as a value, for finite operands and infinities. -/
def prodVal : FVal → FVal → FVal
  | .nan a, y => .nan (a || y.sig)
  | x, .nan b => .nan (b || x.sig)
  | .inf a, .inf b => .inf (xor a b)
  | .inf a, .fin b _ _ => .inf (xor a b)
  | .fin a _ _, .inf b => .inf (xor a b)
  | .fin a m e, .fin b n k => .fin (xor a b) (m * n) (e + k)

/-- Fused multiply-add x × y + z with one rounding (R208). -/
def FP.fma (f : FP) (rm : Rm) (x y z : FVal) : Nat × Flags :=
  if badProduct x y then f.nanRes true else f.add rm (prodVal x y) z

/-- Division (R218): correctly rounded. -/
def FP.div (f : FP) (rm : Rm) (x y : FVal) : Nat × Flags :=
  match x, y with
  | .nan a, y => f.nanRes (a || y.sig)
  | x, .nan b => f.nanRes (b || x.sig)
  | .inf _, .inf _ => f.nanRes true
  | .inf a, .fin b _ _ => (f.inf (xor a b), {})
  | .fin a _ _, .inf b => (f.zero (xor a b), {})
  | .fin a m e, .fin b n k =>
    if n = 0 then (if m = 0 then f.nanRes true else (f.inf (xor a b), { dz := true }))
    else if m = 0 then (f.zero (xor a b), {})
    else f.round rm false (xor a b) (m * 2 ^ (e - k).toNat) (n * 2 ^ (k - e).toNat)

/-- Whole square root by bisection on bits, from bit `n` down. -/
def isqrtGo (x : Nat) : Nat → Nat → Nat
  | 0, r => r
  | n + 1, r =>
    let c := r + 2 ^ n
    isqrtGo x n (if c * c ≤ x then c else r)

/-- Whole square root. -/
def isqrt (x : Nat) : Nat := isqrtGo x (Nat.log2 x / 2 + 1) 0

/-- Square root of m × 2^e as a number with 70 or more bits and a sticky bit, times a power of two. -/
def sqrtParts (m : Nat) (e : Int) : Nat × Int :=
  let k : Nat := 160 + (if (e % 2) = 0 then 0 else 1)
  let x := m * 2 ^ k
  let r := isqrt x
  (2 * r + b2n (r * r != x), (e - k) / 2 - 1)

/-- Square root (R218): correctly rounded. -/
def FP.sqrt (f : FP) (rm : Rm) (x : FVal) : Nat × Flags :=
  match x with
  | .nan a => f.nanRes a
  | .inf a => if a then f.nanRes true else (f.inf false, {})
  | .fin a m e =>
    if m = 0 then (f.zero a, {})
    else if a then f.nanRes true
    else
      let p := sqrtParts m e
      f.round rm false false (p.1 * 2 ^ p.2.toNat) (2 ^ (-p.2).toNat)

/-- Orders two values; none with a NaN (R210). -/
def FVal.cmp : FVal → FVal → Option Ordering
  | .nan _, _ => none
  | _, .nan _ => none
  | .inf a, .inf b => some (if a = b then .eq else if a then .lt else .gt)
  | .inf a, .fin _ _ _ => some (if a then .lt else .gt)
  | .fin _ _ _, .inf b => some (if b then .gt else .lt)
  | .fin a m e, .fin b n k =>
    let lo := if e < k then e else k
    some (compare (alignTo (sgn a m) e lo) (alignTo (sgn b n) k lo))

/-- A value is a NaN. -/
def FVal.isNan : FVal → Bool
  | .nan _ => true
  | .inf _ => false
  | .fin _ _ _ => false

/-- The sign of a value that is no NaN. -/
def FVal.signNeg : FVal → Bool
  | .nan _ => false
  | .inf a => a
  | .fin a _ _ => a

/-- VMIN and VMAX on codes (R209): one of the operands' patterns; −0 is less than +0. -/
def FP.minmax (f : FP) (isMax : Bool) (cx cy : Nat) : Nat × Flags :=
  let x := f.val cx
  let y := f.val cy
  let fl : Flags := { nv := x.sig || y.sig }
  match FVal.cmp x y with
  | none => (if x.isNan && y.isNan then f.nan else if x.isNan then cy else cx, fl)
  | some .lt => (if isMax then cy else cx, fl)
  | some .gt => (if isMax then cx else cy, fl)
  | some .eq => (if x.signNeg = isMax then cy else cx, fl)

/-- Conversion between floating-point formats (R214). -/
def FP.convert (f : FP) (rm : Rm) (sat : Bool) (x : FVal) : Nat × Flags :=
  match x with
  | .nan sg => (f.nan, { nv := sg || f.top == .e2m1 })
  | .inf a =>
    match f.top with
    | .ieee => (f.inf a, {})
    | .e4m3 => (if sat then f.signBit a + f.maxCode else f.nan, { nv := true })
    | .e2m1 => (f.signBit a + f.maxCode, { nv := true })
  | .fin a m e => if m = 0 then (f.zero a, {}) else f.round rm sat a (m * 2 ^ e.toNat) (2 ^ (-e).toNat)

/-- Conversion to an integer in [lo, hi] (R215). -/
def toInteger (rm : Rm) (lo hi : Int) (x : FVal) : Int × Flags :=
  match x with
  | .nan _ => (0, { nv := true })
  | .inf a => (if a then lo else hi, { nv := true, sat := true })
  | .fin a m e =>
    let n := m * 2 ^ e.toNat
    let d := 2 ^ (-e).toNat
    let r := n % d
    let v := sgn a (n / d + b2n (roundsUp rm a (n / d) r d))
    if v < lo then (lo, { nv := true, sat := true })
    else if hi < v then (hi, { nv := true, sat := true })
    else (v, { nx := r != 0 })

/-- E8M0 scaling of a block sum S = m × 2^e (R206). -/
def scaleE8m0 (s : Option (Int × Int)) (ea eb : Nat) : Nat × Flags :=
  match s with
  | none => (fp32.nan, { nv := true })
  | some (m, e) =>
    if ea = 255 || eb = 255 then (fp32.nan, { nv := true })
    else if m = 0 then (0, {})
    else
      let k := e + (ea : Int) + (eb : Int) - 254
      let r := fp32.round .rne false (decide (m < 0)) (m.natAbs * 2 ^ k.toNat) (2 ^ (-k).toNat)
      if r.2.of then (r.1, { ovf := true }) else (r.1, {})

/-- The format of a lane (Table 8-4). -/
def FP.ofLane : FFmt → FP
  | .f32 => fp32
  | .f64 => fp64
  | .f16 => fp16
  | .bf16 => bf16

end Sys2Proof.Machine
end

