-- ==== Sys2Proof/Machine/Sync.lean ====
section
/-!
DEFINITION. Full/empty words and the park table (spec 02, R39 to R42; spec 03, R79; spec 12, R225), stream detectors (R49), and where
an access of a strand is carried out (R53, R63, R133, R223).
-/
namespace Sys2Proof.Machine

/-- The word address of a scratchpad place. -/
def Loc.word (l : Loc) : Nat :=
  match l with
  | .spad d b o => spadKey d b o / 8
  | _ => 0

/-- The number under which a tenant's word keeps its full/empty bit: that of the place that holds it (R324). -/
def State.bitNo (s : State) (tag : Nat) (l : Loc) : Nat := ((s.keyOf tag l).getD 0) / 8

/-- The bay of a place, by die and index. -/
def Loc.bay? : Loc → Option (Nat × Nat)
  | .vault d b _ => some (d, b)
  | .spad d b _ => some (d, b)
  | .rwin d b _ _ _ => some (d, b)
  | .foreign _ _ => none

/-- The memory operation a strand waits for. -/
def State.memOp (s : State) (x : Nat) : Option MemOp :=
  match (s.strand x).wait with
  | .mem op => some op
  | _ => none

/-- Die a strand runs on. -/
def State.dieOf (s : State) (x : Nat) : Nat := (s.unitOf x).die

/-- A scratchpad word's bit (R39). -/
def State.isFull (s : State) (tag : Nat) (l : Loc) : Bool := s.full.contains (s.bitNo tag l)

/-- An LDX is enabled (R79). -/
def State.ldxReady (s : State) (x : Nat) (l : Loc) : Bool := s.isFull (s.strand x).tag l && (s.buffered (s.dieOf x) l).isEmpty

/-- An STX is enabled (R79, the wait of R73). -/
def State.stxReady (s : State) (x : Nat) (op : MemOp) (l : Loc) : Bool := !s.isFull (s.strand x).tag l && s.fifoDrained (s.dieOf x) l op.upto

/-- The step of an LDX at its word (R79). A poisoned word traps: its mark is consumed, and the word stays full (R318). -/
def State.ldxDo (s : State) (x : Nat) (op : MemOp) (sc : Scope) (l : Loc) : State :=
  let t := s.strand x
  let d := s.dieOf x
  if s.badAt t.tag l 8 then (s.eat d t.tag l 8).defer x 0x40 op.ea
  else
    let v := w128 (leNat (s.bytesAt t.tag l 8))
    let st := (s.lineAt l).stamp
    let r := s.readTimes t.ord d l
    let a := r.2.applyStamp r.1 d sc st
    let s1 := { a.2 with full := setDel a.2.full (s.bitNo t.tag l) }
    (s1.modStrand x (fun t => { t with ord := a.1 })).answer x (result op.d v)

/-- The step of an STX at its word (R79); its release has been performed. -/
def State.stxDo (s : State) (x : Nat) (op : MemOp) (l : Loc) : State :=
  let t := s.strand x
  let same := l.die? == some (s.dieOf x)
  let n := (s.lineAt l).rts + 1
  let at_ := if same then Nat.max t.ord.pts n else n
  let s1 := (s.writeAt t.tag l (leBytes 8 op.data.toNat)).setLine l ⟨at_, at_, t.ord.rs⟩
  let s2 := { s1 with full := setAdd s1.full (s.bitNo t.tag l) }
  (s2.modStrand x (fun t => if same then { t with ord := { t.ord with pts := at_ } } else t)).answer x nothing

/-- Performs the synchronising access of a strand if it is enabled; a withdrawn one is not (R220). -/
def State.syncTry (s : State) (x : Nat) : Option State :=
  match s.memOp x with
  | none => none
  | some op =>
    if !s.present x then none else
    match op.loc with
    | none => none
    | some l =>
      match op.act with
      | .ldx sc => if s.ldxReady x l.loc then some (s.ldxDo x op sc l.loc) else none
      | .stx _ => if s.stxReady x op l.loc then some (s.stxDo x op l.loc) else none
      | _ => none

/-- The parked access of a word that a retest completes next: the oldest that can now proceed (R41). Each is taken in a step of its own
(R79). -/
def State.parkFirst (s : State) (u : UnitId) (word : Nat) : Option Nat :=
  ((s.unit u).park.find? (fun e => e.word == word && (s.syncTry e.x).isSome)).map (·.x)

/-- A strand's access leaves a park table. -/
def State.unpark (s : State) (u : UnitId) (x : Nat) : State := s.modUnit u (fun c => { c with park := c.park.filter (fun e => e.x != x) })

/-- The park table's size (R41). -/
def parkSize : Nat := 32

/-- The order step of a domain-scope acquire of another device's line: the die's copies expire; stamps of another device are ignored (R76;
log 9). -/
def State.foreignAcquire (s : State) (x : Nat) (sc : Scope) : State :=
  let r := s.applyStamp (s.strand x).ord (s.dieOf x) sc .zero
  r.2.modStrand x (fun t => { t with ord := r.1 })

/-- A synchronising access to a word of another device: whether it is granted is that device's answer (log 9). -/
def State.foreignSync (s : State) (x : Nat) (op : MemOp) (l : Loc) : Option State :=
  if !(s.buffered (s.dieOf x) l).isEmpty || !s.fifoDrained (s.dieOf x) l op.upto || !s.present x then none
  else
    let c := (s.metered (s.strand x).tag l).freeNat
    if c.1 % 2 = 1 then some (c.2.setWait x (.mem { op with stage := .retry }))
    else
      match op.act with
      | .ldx sc =>
        let v := c.2.freeBits 64
        some ((v.2.foreignAcquire x sc).answer x (result op.d (zext128 v.1)))
      | _ => some (c.2.answer x nothing)

/-- A synchronising access at its word's home (R41, R42): performed, parked, or answered with a retry reply. While a parked access of its
word can proceed, an arriving one waits for it. -/
def State.homeSync (s : State) (x : Nat) (op : MemOp) (l : Loc) : Option State :=
  match l.bay? with
  | none => s.foreignSync x op l
  | some (d, b) =>
    let u := coreOf d b
    match op.stage with
    | .park => if s.parkFirst u l.word == some x then (s.syncTry x).map (fun s1 => s1.unpark u x) else none
    | .go =>
      if (s.parkFirst u l.word).isSome || !s.present x then none
      else
        match s.syncTry x with
        | some s1 => some s1
        | none =>
          let wrong := match op.act with
            | .ldx _ => !s.isFull (s.strand x).tag l
            | _ => s.isFull (s.strand x).tag l
          if !wrong then none
          else if parkSize ≤ (s.unit u).park.length then some (s.setWait x (.mem { op with stage := .retry }))
          else some ((s.modUnit u (fun c => { c with park := c.park ++ [⟨l.word, x, s.clock - op.parkedFor⟩] })).setWait x
            (.mem { op with stage := .park }))
    | _ => none

/-- The wait of a parked LDX or STX is withdrawn (R220): the access leaves the park table, keeping what it has waited, and is issued again
when its strand holds its slot again. -/
def State.withdrawPark (s : State) (x : Nat) : State :=
  match s.memOp x with
  | none => s
  | some op =>
    match op.stage, op.loc.bind (·.loc.bay?) with
    | .park, some (d, b) =>
      let u := coreOf d b
      match (s.unit u).park.find? (fun e => e.x == x) with
      | some e => (s.unpark u x).setWait x (.mem { op with stage := .go, parkedFor := s.clock - e.since })
      | none => s
    | _, _ => s

/-- Sets the bit of a scratchpad word, by its number (R40). -/
def State.setFullBit (s : State) (full : Bool) (a : Nat) : State :=
  { s with full := if full then setAdd s.full a else setDel s.full a }

/-- Park limit in core cycles (Table 2-5). -/
def State.feWait (s : State) (tag : Nat) : Nat :=
  let n := bits (s.part tag).fectl 23 0
  2 * (if n = 0 then 2 ^ 24 else n)

/-- Reissues before the timeout (Table 2-5). -/
def State.feRetry (s : State) (tag : Nat) : Nat := bits (s.part tag).fectl 31 28

/-- PARK_TABLE_TIMEOUT (R42): an entry that cannot proceed leaves the table with a retry reply. -/
def State.parkTimeout (s : State) (die bay i : Nat) : Option State :=
  let u := coreOf die bay
  match (s.unit u).park[i]? with
  | none => none
  | some e =>
    if s.clock < e.since + s.feWait (s.strand e.x).tag || !s.present e.x || (s.syncTry e.x).isSome then none
    else
      let s1 := s.modUnit u (fun c => { c with park := c.park.eraseIdx i })
      match s.memOp e.x with
      | some op => some (s1.setWait e.x (.mem { op with stage := .retry, parkedFor := 0 }))
      | none => some s1

/-- RETRY_REISSUE (R42): the access is reissued, or traps after FERETRY reissues. -/
def State.retryReissue (s : State) (x : Nat) : Option State :=
  match s.memOp x with
  | none => none
  | some op =>
    if op.stage != .retry || !s.present x then none
    else if s.feRetry (s.strand x).tag ≤ op.tries then
      let saw := match op.act with
        | .stx _ => 1
        | _ => 0
      some (s.defer x 0x20 (op.ea + w64 saw))
    else some (s.setWait x (.mem { op with stage := .go, tries := op.tries + 1 }))

/-- A stream detector after an access to a line of a page (R49). -/
def detectorAfter (old : Option Detector) (who page line now : Nat) : Detector :=
  match old with
  | some e =>
    if e.page = page ∧ e.next = line then
      { who := who, page := page, next := line + 1, run := e.run + 1, stream := e.stream || decide (4 ≤ e.run + 1), at_ := now }
    else { who := who, page := page, next := line + 1, run := 1, stream := false, at_ := now }
  | none => { who := who, page := page, next := line + 1, run := 1, stream := false, at_ := now }

/-- Records an access of requester `who` with the stream detector of unit `u` (R49). -/
def State.detect (s : State) (u : UnitId) (who : Nat) (l : XLoc) (va : W64) : State :=
  let ds := (s.unit u).dets
  let rest := ds.filter (fun e => e.who != who)
  if l.sd then
    let e := detectorAfter (ds.find? (fun e => e.who == who)) who (va.toNat / 2 ^ l.size * 64 + l.size) (va.toNat / 128) s.clock
    s.modUnit u (fun c => { c with dets := rest ++ [e] })
  else if ds.length = rest.length then s
  else s.modUnit u (fun c => { c with dets := rest })

/-- STREAM_MODE_END (R49): after 64 idle spindle cycles. The run of consecutive accesses stays: the next line's access enters stream mode
again (log 89). -/
def State.streamModeEnd (s : State) (u : UnitId) (k : Nat) : Option State :=
  match (s.unit u).dets[k]? with
  | none => none
  | some e =>
    if e.stream && decide (e.at_ + 128 ≤ s.clock) then
      some (s.modUnit u (fun c => { c with dets := c.dets.map (fun f => if f.who = e.who then { f with stream := false } else f) }))
    else none

/-- Where a load or store is carried out (R53, R63, R133, R223). -/
inductive Route where
  | here
  | home
  | move (dest : UnitId)
  | trap (cause : Nat) (value : W64)
deriving DecidableEq, Repr

/-- A migration, unless a ring binding forbids it (R59). -/
def routeMove (t : Strand) (dest : UnitId) : Route :=
  if t.irv then .trap 0x23 (w64 t.iring) else if t.orv then .trap 0x23 (w64 (256 + t.oring.ring)) else .move dest

/-- Where a load or store of strand `x` at `ea` is carried out. -/
def State.route (s : State) (x : Nat) (ea : W64) (l : Loc) : Route :=
  let t := s.strand x
  let u := s.unitOf x
  let follow := t.kind == .follow
  match l with
  | .foreign _ _ => if follow || (!u.sp && !inWindow ea) then .trap 0x0B ea else .home
  | .vault d b _ =>
    if !follow then (if u.sp then .home else .trap 0x0B ea)
    else if u = spOf d b then .home else routeMove t (spOf d b)
  | .spad d b _ =>
    if u = coreOf d b then .here
    else if !follow || decide (u = spOf d b) then .home
    else routeMove t (coreOf d b)
  | .rwin d b _ _ _ =>
    if u = coreOf d b || !follow || decide (u = spOf d b) then .home else routeMove t (coreOf d b)

/-- Marks a strand to depart at its next turn; its instruction has not issued and executes at the destination (R133, R143). -/
def State.depart (s : State) (x : Nat) (dest : UnitId) : State :=
  s.modStrand x (fun t => { prefixBack t with status := .ready, wait := .none, leaving := some ⟨dest, s.serial⟩ })

/-- Discards the neighbour cursor of the slot that a strand holds (R251). -/
def State.dropCursor (s : State) (x : Nat) : State :=
  match (s.strand x).place with
  | .slot u n => s.modTen u.die u.bay (s.strand x).tag (fun b => { b with cursors := Tbl.del b.cursors (slotNo u n) })
  | _ => s

/-- Stops a strand with an exit word (R247): its bindings are released and its cursor is discarded. -/
def State.stopBase (s : State) (x : Nat) (w : W64) : State :=
  (s.dropCursor x).modStrand x (fun t => { t with
    status := .stopped, wait := .none, exitw := w, irv := false, orv := false, pend := none, leaving := none, sts := clearPrefix t.sts })

/-- The end of the regions of a mode that hold an address, or the address itself where none does. -/
def regionsEnd (rs : List Region) (wr : Bool) (a : Nat) : Nat :=
  rs.foldl (fun e r => if (if wr then r.w else r.r) && decide (r.base ≤ a) && decide (a < r.base + r.len) then Nat.max e (r.base + r.len) else e) a

/-- Bytes from `a` to before `e` each lie in some region of a mode, in at most so many pieces. -/
def regionsReach (rs : List Region) (wr : Bool) (e : Nat) : Nat → Nat → Bool
  | 0, a => decide (e ≤ a)
  | k + 1, a => decide (e ≤ a) || (decide (a < regionsEnd rs wr a) && regionsReach rs wr e k (regionsEnd rs wr a))

/-- Each of `n` bytes from an address lies in a region that permits reading or writing it (R88, R350; log 61). -/
def regionsCover (rs : List Region) (wr : Bool) (a n : Nat) : Bool := regionsReach rs wr (a + n) rs.length a

/-- A program strand's access lies in its card's footprint (R88, R302); a strand of no card has none. -/
def State.inFootprint (s : State) (x : Nat) (ea : W64) (n : Nat) (rd wr : Bool) : Bool :=
  match (s.strand x).card with
  | none => true
  | some id =>
    let c := Tbl.find s.cards id
    let rs := match c with
      | some c => c.regions
      | none => []
    (!rd || regionsCover rs false ea.toNat n) && (!wr || regionsCover rs true ea.toNat n)

/-- A footprint violation of a program strand: it stops at the access, and its card ends with status 0x01 (R302). -/
def State.footprintStop (s : State) (x : Nat) : State :=
  let s1 := s.stopBase x (s.strand x).exitw
  match (s.strand x).card with
  | none => s1
  | some id =>
    match Tbl.find s1.cards id with
    | some c => s1.setCard id { c with code := 1 }
    | none => s1

/-- R42, PARK_TABLE_TIMEOUT. -/
def execParkTableTimeout (die bay i : Nat) (s : State) : Out := s.ifEnabled (s.parkTimeout die bay i)

/-- R42, RETRY_REISSUE. -/
def execRetryReissue (x : Nat) (s : State) : Out := s.ifEnabled (s.retryReissue x)

/-- R49, STREAM_MODE_END. -/
def execStreamModeEnd (u : UnitId) (k : Nat) (s : State) : Out := s.ifEnabled (s.streamModeEnd u k)

end Sys2Proof.Machine
end

