-- ==== Sys2Proof/Machine/Memory.lean ====
section
/-!
DEFINITION. Loads, stores, synchronising accesses, atomics and fences (spec 12, R222 to R228): majors 0x20 to 0x25, their performance
at the home (HOME_ACCESS) and the releases they wait for (DEVICE_RELEASE).
-/
namespace Sys2Proof.Machine

/-- Bytes of a kind (Table 8-4). -/
def MKind.bytes : MKind → Nat
  | .ub => 1
  | .uh => 2
  | .uw => 4
  | .d => 8
  | .sb => 1
  | .sh => 2
  | .sw => 4
  | .q => 16

/-- The result of a load of a kind (R222). -/
def MKind.extend (k : MKind) (bs : List Byte) : W128 :=
  match k with
  | .ub => w128 (leNat bs)
  | .uh => w128 (leNat bs)
  | .uw => w128 (leNat bs)
  | .d => w128 (leNat bs)
  | .sb => zext128 (sextN (leNat bs) 8)
  | .sh => zext128 (sextN (leNat bs) 16)
  | .sw => zext128 (sextN (leNat bs) 32)
  | .q => w128 (leNat bs)

/-- Bytes of an atomic's size (Table 8-5). -/
def ASize.bytes : ASize → Nat
  | .w => 4
  | .d => 8
  | .q => 16

/-- The offset of a format FM access (Table 8-2): off8, or 30 bits under IMM, scaled. -/
def memOffset (t : Strand) (off : BitVec 8) (size : Nat) : W64 := immS t off * w64 size

/-- A memory operation before it is placed. -/
def newOp (act : MemAct) (ea : W64) (size : Nat) (data : W128) (d : Dst) (rel : Bool) (upto : Nat) : MemOp :=
  { act := act, ea := ea, size := size, data := data, d := d, loc := none, stage := .go, upto := upto, rel := rel, tries := 0,
    parkedFor := 0, half := none, again := false }

/-- In-flight records of a unit (R29). -/
def recordCount (u : UnitId) : Nat := if u.sp then 16 else 32

/-- A wait that holds an in-flight record (R29): a memory operation, or a request in a heddle network (R120). -/
def Wait.holdsRecord : Wait → Bool
  | .mem _ => true
  | .token _ _ _ => true
  | .query _ _ _ _ _ _ _ => true
  | _ => false

/-- The access of its own scratchpad of which a strand in rotation has one half still to perform (R34, R125). -/
def Strand.split (t : Strand) : Option MemOp :=
  match t.status, t.wait with
  | .ready, .mem op => if op.half.isSome then some op else none
  | _, _ => none

/-- In-flight records of a unit in use (R29): its strands' operations, and its fills and drains from issue to end, one each (log 117). -/
def State.recordsUsed (s : State) (u : UnitId) : Nat :=
  (s.strands.filter (fun e => e.2.wait.holdsRecord && e.2.split.isNone && decide (s.unitOf e.1 = u))).length +
  (s.fills.filter (fun e => decide (coreOf e.2.die e.2.bay = u))).length +
  (s.drains.filter (fun e => decide (coreOf e.2.die e.2.bay = u))).length

/-- A record is free (R29). -/
def State.recordRoom (s : State) (u : UnitId) : Bool := decide (s.recordsUsed u < recordCount u)

/-- The walk request of a strand. -/
def State.walkReq (s : State) (x : Nat) (acc : AccKind) (va : W64) : WalkReq :=
  let u := s.unitOf x
  { who := .strand x, acc := acc, va := va, die := u.die, bay := u.bay, sp := u.sp, unit := b2n u.sp, slot := (s.slotOf x).getD 0 }

/-- The access kind of an operation (Table 1-9). -/
def MemAct.acc : MemAct → AccKind
  | .load _ => .load
  | .store => .store
  | .ldx _ => .load
  | .stx _ => .store
  | .atomic _ _ _ _ => .atomic
  | .fetch => .fetch

/-- The operation waits for a walk (R26). -/
def State.waitWalk (s : State) (x : Nat) (op : MemOp) : State :=
  (s.waitOn x (.mem { op with loc := none, stage := .walk })).askWalk (s.strand x).tag (s.walkReq x op.act.acc op.ea)

/-- A translated load or store, carried out as R223 states (R53, R133); an instruction that has not issued issues again. -/
def State.placed (s : State) (x : Nat) (op : MemOp) (l : XLoc) : State :=
  if op.again then s.toReady x else
  match op.act with
  | .atomic _ _ _ _ => s.setWait x (.mem { op with loc := some l, stage := .go })
  | .fetch => s.toReady x
  | _ =>
    match s.route x op.ea l.loc with
    | .trap c v => s.defer x c v
    | .move dest => s.depart x dest
    | _ => s.setWait x (.mem { op with loc := some l, stage := .go })

/-- The issuing strand's operation leaves the strand waiting for its home (R29): with no record free, it has not issued. -/
def State.hold (s : State) (s0 : State) (op : MemOp) (l : XLoc) : State :=
  if !s.recordRoom (s.unitOf s.cur) then s0 else s.waitOn s.cur (.mem { op with loc := some l })

/-- Checks at issue of every memory instruction (R9, R34, R222), then the footprint of a program strand (R302). -/
def State.memChecks (s : State) (s0 : State) (ea : W64) (size : Nat) (rd wr : Bool) (k : State) : State :=
  if !canonical ea then s0.raise 0x08 ea
  else if ea.toNat % size != 0 then s0.raise 0x09 ea
  else if !s.inFootprint s.cur ea size rd wr then s0.footprintStop s0.cur
  else k

/-- A plain load or store at issue (R222, R223); `s0` is the state before the operands were popped, `here` the access of the
strand's own scratchpad. A data-following strand with a ring bound, which may still have to trap at issue (R59), pops nothing before its
address is translated (R38). -/
def State.plainIssue (s s0 : State) (op : MemOp) (here : XLoc → State → State) : State :=
  let x := s.cur
  let t := s.me
  let u := s.unitOf x
  let wr := op.act.acc == .store
  s.memChecks s0 op.ea op.size (!wr) wr (
    if !inWindow op.ea && !u.sp && t.kind != .follow then s0.raise 0x0B op.ea
    else
      let r := s.xlate u t.tag op.ea op.size op.act.acc
      match r.1 with
      | .trap c => s0.raise c op.ea
      | .miss =>
        if !s.recordRoom u then s0
        else if t.kind == .follow && (t.irv || t.orv) then s0.waitWalk x { op with again := true }
        else r.2.waitWalk x op
      | .ok l =>
        match s.route x op.ea l.loc with
        | .trap c v => s0.raise c v
        | .move dest => s0.depart x dest
        | .home => r.2.hold s0 op l
        | .here => if u.sp then r.2.hold s0 op l else here l r.2)

/-- How a 16-byte load or store is performed, its halves being single-copy atomic each but not together (R34): whole in one step, or one half
in a step of its own first, the low or the high one: a free value (log 46). -/
inductive Halves where
  | whole
  | first (hi : Bool)
deriving DecidableEq, Repr

/-- The way taken for an access of `n` bytes: only 16 bytes may be cut. -/
def State.halves (s : State) (n : Nat) : Halves × State :=
  if n = 16 then
    let r := s.freeNat
    (if r.1 % 3 = 0 then .whole else .first (r.1 % 3 == 1), r.2)
  else (.whole, s)

/-- The place of a half of a 16-byte access. -/
def XLoc.half (l : XLoc) (hi : Bool) : XLoc := { l with loc := l.loc.plus (if hi then 8 else 0) }

/-- The 16 bytes of two halves, of which the one performed first is the high one or not. -/
def joinHalves (hi : Bool) (fst snd : List Byte) : List Byte := if hi then snd ++ fst else fst ++ snd

/-- The bytes of a half of a 16-byte operand. -/
def halfBytes (v : W128) (hi : Bool) : List Byte := leBytes 8 (if hi then hi64 v else lo64 v).toNat

/-- A plain load by strand `x`, with its order state brought up (R67, R69): what it returns; none while it is not enabled. -/
def State.loadBy (s : State) (x : Nat) (l : XLoc) (n : Nat) : Option (ReadRes × State) :=
  (s.plainLoad (s.strand x).ord (s.dieOf x) (s.strand x).tag l n).map (fun r =>
    (r.1, r.2.modStrand x (fun t => { t with ord := r.1.ord })))

/-- A plain store by strand `x` at `ea`, with its order state brought up (R67, R68). -/
def State.storeBy (s : State) (x : Nat) (ea : W64) (l : Loc) (bs : List Byte) : State :=
  let r := s.plainStore (s.strand x).ord (s.dieOf x) (s.strand x).tag l bs none (.strand x ea)
  r.2.modStrand x (fun t => { t with ord := r.1 })

/-- The strand stays in rotation with one half of its access still to be performed (R34, R125). -/
def State.splitOn (s : State) (x : Nat) (op : MemOp) (l : XLoc) (hi : Bool) (bs : List Byte) : State :=
  s.setWait x (.mem { op with loc := some l, half := some (hi, bs) })

/-- LD of the strand's own scratchpad (R67): it stays in rotation (R125), with its second half still to be performed where its halves are
performed apart. -/
def loadHere (op : MemOp) (k : MKind) (s0 : State) (l : XLoc) (s : State) : State :=
  let h := s.halves op.size
  match h.1 with
  | .whole =>
    match h.2.loadBy s.cur l op.size with
    | none => s0
    | some (r, s1) => if r.bad then (s0.eat s0.myDie s0.me.tag l.loc op.size).raise 0x40 op.ea else s1.retire (result op.d (MKind.extend k r.bs))
  | .first hi =>
    match h.2.loadBy s.cur (l.half hi) 8 with
    | none => s0
    | some (r, s1) =>
      if r.bad then (s0.eat s0.myDie s0.me.tag (l.half hi).loc 8).raise 0x40 op.ea else s1.splitOn s.cur op l hi r.bs

/-- ST to the strand's own scratchpad (R67): it stays in rotation (R125), and may leave its second half for a step of its own (R34). -/
def storeHere (op : MemOp) (l : XLoc) (s : State) : State :=
  let h := s.halves op.size
  match h.1 with
  | .whole => (h.2.storeBy s.cur op.ea l.loc (leBytes op.size op.data.toNat)).retire nothing
  | .first hi =>
    (h.2.storeBy s.cur op.ea (l.half hi).loc (halfBytes op.data hi)).splitOn s.cur op l hi []

/-- The second half of an access that left one, by a strand in rotation (R34, R125): the instruction retires, or traps on poison (R318). -/
def State.finishSplit (s : State) (x : Nat) : State :=
  match (s.strand x).split with
  | none => s
  | some op =>
    match op.act, op.loc, op.half with
    | .load k, some l, some (hi, fst) =>
      match s.loadBy x (l.half (!hi)) 8 with
      | none => s
      | some (r, s1) =>
        if r.bad then (s1.eat (s.dieOf x) (s.strand x).tag (l.half (!hi)).loc 8).defer x 0x40 op.ea
        else s1.retireOf x false (result op.d (MKind.extend k (joinHalves hi fst r.bs)))
    | .store, some l, some (hi, _) => (s.storeBy x op.ea (l.half (!hi)).loc (halfBytes op.data (!hi))).retireOf x false nothing
    | _, _, _ => s

/-- R222, LD. -/
def execLd (d : Dst) (base : Base) (off : BitVec 8) (k : MKind) (g : Guard) (s : State) : Out :=
  s.issue (.ld d base off k g) .imm .any g (fun s => s.dstBound d (fun s =>
    let n := MKind.bytes k
    let op := newOp (.load k) (baseVal s.me base + memOffset s.me off n) n 0 d true s.serial
    s.plainIssue s op (loadHere op k s)))

/-- R222, ST. -/
def execSt (a : Src) (base : Base) (off : BitVec 8) (k : MKind) (g : Guard) (s : State) : Out :=
  s.issue (.st a base off k g) .imm .any g (fun s => s.src a (fun v s1 =>
    let n := MKind.bytes k
    let op := newOp .store (baseVal s.me base + memOffset s.me off n) n v .wz true s.serial
    s1.plainIssue s op (storeHere op)))

/-- A synchronising access at issue (R225): its word must be of scratchpad kind, or it is an address error for every strand kind. R53 handles
one at a vault address by strand kind instead: R225, which is of these instructions only, is followed (log 101). It leaves rotation until it
completes. -/
def State.syncIssue (s s0 : State) (op : MemOp) : State :=
  let x := s.cur
  let t := s.me
  let u := s.unitOf x
  let wr := op.act.acc == .store
  s.memChecks s0 op.ea 8 (!wr) wr (
    if !inWindow op.ea then s0.raise 0x0A op.ea
    else
      let r := s.xlate u t.tag op.ea 8 op.act.acc
      match r.1 with
      | .trap c => s0.raise c op.ea
      | .miss => s0
      | .ok l =>
        let isSpad := match l.loc with
          | .spad _ _ _ => true
          | .foreign _ g => bits g 47 46 == 1
          | _ => false
        if !isSpad then s0.raise 0x0A op.ea
        else
          match s.route x op.ea l.loc with
          | .trap c v => s0.raise c v
          | .move dest => s0.depart x dest
          | .home => r.2.hold s0 op l
          | .here => r.2.hold s0 op l)

/-- R225, LDX. -/
def execLdx (d : Dst) (base : Base) (off : BitVec 8) (sc : Scope) (g : Guard) (s : State) : Out :=
  s.issue (.ldx d base off sc g) .imm .any g (fun s => s.dstBound d (fun s =>
    s.syncIssue s (newOp (.ldx sc) (baseVal s.me base + memOffset s.me off 8) 8 0 d true s.serial)))

/-- R225, STX: at device or domain scope it waits for its release first (R79). -/
def execStx (a : Src) (base : Base) (off : BitVec 8) (sc : Scope) (g : Guard) (s : State) : Out :=
  s.issue (.stx a base off sc g) .imm .any g (fun s => s.src a (fun v s1 =>
    s1.syncIssue s (newOp (.stx sc) (baseVal s.me base + memOffset s.me off 8) 8 v .wz (!isWide sc) s.serial)))

/-- The new value at the home and whether it is written, on `n`-byte operands (R227, Table 12-3); `x` holds both halves of ACAS. -/
def atomicNew (op : AtOp) (n old x : Nat) : Nat × Bool :=
  let w := 8 * n
  let m := x % 2 ^ w
  let o := if old < 2 ^ (w - 1) then (old : Int) else (old : Int) - (2 ^ w : Nat)
  let i := if m < 2 ^ (w - 1) then (m : Int) else (m : Int) - (2 ^ w : Nat)
  match op with
  | .add => ((old + m) % 2 ^ w, true)
  | .and => (old &&& m, true)
  | .or => (old ||| m, true)
  | .xor => (old ^^^ m, true)
  | .min => (if o < i then old else m, true)
  | .max => (if i < o then old else m, true)
  | .minu => (Nat.min old m, true)
  | .maxu => (Nat.max old m, true)
  | .swp => (m, true)
  | .cas => (x / 2 ^ 64 % 2 ^ w, old == m)
  | .fadd =>
    let f := if n = 4 then fp32 else fp64
    ((f.add .rne (f.val old) (f.val m)).1, true)
  | .ldo => (old, false)
  | .sto => (m, true)

/-- What an atomic writes to its register (R226): nothing for STO, the match in the high half for ACAS. -/
def atomicResult (op : AtOp) (d : Dst) (old : Nat) (written : Bool) : Reply :=
  match op with
  | .sto => nothing
  | .cas => result d (mk128 (w64 (b2n written)) (w64 old))
  | _ => result d (w128 old)

/-- An order that releases (R226). -/
def AOrd.releases : AOrd → Bool
  | .rlx => false
  | .acq => false
  | .rel => true
  | .ar => true

/-- An order that acquires (R226). -/
def AOrd.acquires : AOrd → Bool
  | .rlx => false
  | .acq => true
  | .rel => false
  | .ar => true

/-- An atomic at its home (R73, R226, R227), none while it is not enabled. -/
def State.homeAtomic (s : State) (x : Nat) (m : MemOp) (l : XLoc) (op : AtOp) (o : AOrd) (sc : Scope) (n : Nat) : Option State :=
  let t := s.strand x
  let d := s.dieOf x
  if !s.fifoDrained d l.loc m.upto || (AOrd.acquires o && !(s.buffered d l.loc).isEmpty) then none
  else
    match l.loc with
    | .foreign _ _ =>
      let r := s.freeBits (8 * n)
      let s1 := (if AOrd.acquires o then r.2.foreignAcquire x sc else r.2).metered t.tag l.loc
      some (s1.answer x (atomicResult op m.d r.1.toNat (atomicNew op n r.1.toNat m.data.toNat).2))
    | _ =>
      if s.badAt t.tag l.loc n && op != .sto then some ((s.eat d t.tag l.loc n).defer x 0x40 m.ea)
      else
        let old := leNat (s.bytesAt t.tag l.loc n)
        let st := (s.lineAt l.loc).stamp
        let nw := atomicNew op n old m.data.toNat
        let a := s.atomicTimes t.ord d l.loc nw.2
        let s1 := (if nw.2 then a.2.writeAt t.tag l.loc (leBytes n nw.1) else a.2).rdcFill d l
        let b := if AOrd.acquires o then s1.applyStamp a.1 d sc st else (a.1, s1)
        some ((b.2.modStrand x (fun t => { t with ord := b.1 })).answer x (atomicResult op m.d old nw.2))

/-- A load has read a poisoned word at a place: its mark is consumed, and the strand traps (R318). -/
def State.poisonTrap (s : State) (x : Nat) (m : MemOp) (l : Loc) (n : Nat) : State :=
  (s.eat (s.dieOf x) (s.strand x).tag l n).defer x 0x40 m.ea

/-- The reply to a load that has read its bytes, the last `n` of them at a place (R222); poison traps (R318). -/
def State.loadReply (s : State) (x : Nat) (m : MemOp) (k : MKind) (l : Loc) (n : Nat) (bs : List Byte) (bad : Bool) : State :=
  if bad then s.poisonTrap x m l n else s.answer x (result m.d (MKind.extend k bs))

/-- A plain load at its home or in its die's copies (R69), whole or by halves (R34). One that misses in the die's RDC sends a read to the
line's slice (R52, R233). -/
def State.homeLoad (s : State) (x : Nat) (m : MemOp) (l : XLoc) (k : MKind) : Option State :=
  match s.rdcMiss (s.dieOf x) l with
  | some u =>
    some ((s.setWait x (.mem { m with stage := .slice })).modUnit u (fun c => c.joinRead (s.strand x).tag l.loc.line ⟨.strand x, l.rdc, m.ea, l.size⟩))
  | none =>
    match m.half with
    | some (hi, fst) => (s.loadBy x (l.half (!hi)) 8).map (fun r => r.2.loadReply x m k (l.half (!hi)).loc 8 (joinHalves hi fst r.1.bs) r.1.bad)
    | none =>
      let h := s.halves m.size
      match h.1 with
      | .whole => (h.2.loadBy x l m.size).map (fun r => r.2.loadReply x m k l.loc m.size r.1.bs r.1.bad)
      | .first hi =>
        (h.2.loadBy x (l.half hi) 8).map (fun r =>
          if r.1.bad then r.2.poisonTrap x m (l.half hi).loc 8 else r.2.setWait x (.mem { m with half := some (hi, r.1.bs) }))

/-- A plain store performed at its home, or accepted into its die's buffer (R67, R68), whole or by halves (R34). -/
def State.homeStore (s : State) (x : Nat) (m : MemOp) (l : XLoc) : State :=
  match m.half with
  | some (hi, _) => (s.storeBy x m.ea (l.half (!hi)).loc (halfBytes m.data (!hi))).answer x nothing
  | none =>
    let h := s.halves m.size
    match h.1 with
    | .whole => (h.2.storeBy x m.ea l.loc (leBytes m.size m.data.toNat)).answer x nothing
    | .first hi => (h.2.storeBy x m.ea (l.half hi).loc (halfBytes m.data hi)).setWait x (.mem { m with half := some (hi, []) })

/-- An access of a program strand reaches another device (R89). -/
def State.noteForeign (s : State) (x : Nat) (l : Loc) : State :=
  match l, (s.strand x).card with
  | .foreign _ _, some id => match Tbl.find s.cards id with
    | some c => s.setCard id { c with foreign := true }
    | none => s
  | _, _ => s

/-- HOME_ACCESS (R69, R73, R79): the access of a waiting strand is performed, once enabled, or the second half of one in rotation (R34). -/
def State.homeAccess (s : State) (x : Nat) : Option State :=
  if (s.strand x).split.isSome then some (s.finishSplit x) else
  match s.memOp x with
  | none => none
  | some m =>
    match m.loc with
    | none => none
    | some l =>
      if m.stage == .retry || m.stage == .walk || m.stage == .slice || !m.rel then none
      else if s.linkDown l.loc then some (s.defer x 0x18 m.ea)
      else
        let u := s.unitOf x
        let s1 := (if u.sp && m.half.isNone then s.detect u (1 + (s.slotOf x).getD 0) l m.ea else s).noteForeign x l.loc
        match m.act with
        | .load k => s1.homeLoad x m l k
        | .store => some (s1.homeStore x m l)
        | .ldx _ => s1.homeSync x m l.loc
        | .stx _ => s1.homeSync x m l.loc
        | .atomic op o sc z => s1.homeAtomic x m l op o sc (ASize.bytes z)
        | .fetch => none

/-- An atomic at issue (R226): vault or scratchpad kind, for every strand kind; it leaves rotation. -/
def atomicIssue (i : Instr) (op : AtOp) (base : Base) (b : RegZ) (o : AOrd) (sc : Scope) (z : ASize) (g : Guard) (s : State) : Out :=
  s.issue i .none .any g (fun s =>
    let t := s.me
    let u := s.unitOf s.cur
    let n := ASize.bytes z
    let ea := baseVal t base
    let m := newOp (.atomic op o sc z) ea n (regz t b) (RegZ.dst b) (!(AOrd.releases o && isWide sc)) s.serial
    s.memChecks s ea n (op != .sto) (op != .ldo) (
      let r := s.xlate u t.tag ea n m.act.acc
      match r.1 with
      | .trap c => s.raise c ea
      | .miss => if !s.recordRoom u then s else r.2.waitWalk s.cur m
      | .ok l =>
        let isWindow := match l.loc with
          | .rwin _ _ _ _ _ => true
          | .foreign _ g => bits g 47 46 == 2
          | _ => false
        if isWindow then s.raise 0x0A ea else r.2.hold s m l))

/-- R226, R227: AADD. -/
def execAadd (base : Base) (b : RegZ) (o : AOrd) (sc : Scope) (z : ASize) (g : Guard) (s : State) : Out :=
  atomicIssue (.aadd base b o sc z g) .add base b o sc z g s

/-- R226, R227: AAND. -/
def execAand (base : Base) (b : RegZ) (o : AOrd) (sc : Scope) (z : ASize) (g : Guard) (s : State) : Out :=
  atomicIssue (.aand base b o sc z g) .and base b o sc z g s

/-- R226, R227: AOR. -/
def execAor (base : Base) (b : RegZ) (o : AOrd) (sc : Scope) (z : ASize) (g : Guard) (s : State) : Out :=
  atomicIssue (.aor base b o sc z g) .or base b o sc z g s

/-- R226, R227: AXOR. -/
def execAxor (base : Base) (b : RegZ) (o : AOrd) (sc : Scope) (z : ASize) (g : Guard) (s : State) : Out :=
  atomicIssue (.axor base b o sc z g) .xor base b o sc z g s

/-- R226, R227: AMIN. -/
def execAmin (base : Base) (b : RegZ) (o : AOrd) (sc : Scope) (z : ASize) (g : Guard) (s : State) : Out :=
  atomicIssue (.amin base b o sc z g) .min base b o sc z g s

/-- R226, R227: AMAX. -/
def execAmax (base : Base) (b : RegZ) (o : AOrd) (sc : Scope) (z : ASize) (g : Guard) (s : State) : Out :=
  atomicIssue (.amax base b o sc z g) .max base b o sc z g s

/-- R226, R227: AMINU. -/
def execAminu (base : Base) (b : RegZ) (o : AOrd) (sc : Scope) (z : ASize) (g : Guard) (s : State) : Out :=
  atomicIssue (.aminu base b o sc z g) .minu base b o sc z g s

/-- R226, R227: AMAXU. -/
def execAmaxu (base : Base) (b : RegZ) (o : AOrd) (sc : Scope) (z : ASize) (g : Guard) (s : State) : Out :=
  atomicIssue (.amaxu base b o sc z g) .maxu base b o sc z g s

/-- R226, R227: ASWP. -/
def execAswp (base : Base) (b : RegZ) (o : AOrd) (sc : Scope) (z : ASize) (g : Guard) (s : State) : Out :=
  atomicIssue (.aswp base b o sc z g) .swp base b o sc z g s

/-- R226, R227: ACAS. -/
def execAcas (base : Base) (b : RegZ) (o : AOrd) (sc : Scope) (z : ASize) (g : Guard) (s : State) : Out :=
  atomicIssue (.acas base b o sc z g) .cas base b o sc z g s

/-- R226, R227: AFADD. -/
def execAfadd (base : Base) (b : RegZ) (o : AOrd) (sc : Scope) (z : ASize) (g : Guard) (s : State) : Out :=
  atomicIssue (.afadd base b o sc z g) .fadd base b o sc z g s

/-- R226, R227: LDO. -/
def execLdo (base : Base) (b : RegZ) (o : AOrd) (sc : Scope) (z : ASize) (g : Guard) (s : State) : Out :=
  atomicIssue (.ldo base b o sc z g) .ldo base b o sc z g s

/-- R226, R227: STO. -/
def execSto (base : Base) (b : RegZ) (o : AOrd) (sc : Scope) (z : ASize) (g : Guard) (s : State) : Out :=
  atomicIssue (.sto base b o sc z g) .sto base b o sc z g s

/-- R77, R228: an acquire fence applies pa at device or domain scope and leaves rotation; narrower ones take no step. -/
def execFenceAcq (sc : Scope) (g : Guard) (s : State) : Out :=
  s.issue (.fenceAcq sc g) .none .any g (fun s =>
    if isWide sc then (s.acquireFence s.cur sc).waitOn s.cur (.reply nothing) else s.retire nothing)

/-- R74, R228: a release fence waits for the release of its scope; narrower ones take no step. -/
def execFenceRel (sc : Scope) (g : Guard) (s : State) : Out :=
  s.issue (.fenceRel sc g) .none .any g (fun s =>
    if isWide sc then s.waitOn s.cur (.fence true false false sc s.serial) else s.retire nothing)

/-- R77, R228: release, then acquire. -/
def execFenceAr (sc : Scope) (g : Guard) (s : State) : Out :=
  s.issue (.fenceAr sc g) .none .any g (fun s =>
    if isWide sc then s.waitOn s.cur (.fence true true false sc s.serial) else s.retire nothing)

/-- R80, R228: the SC fence's step; at device and domain scope once its release is enabled. -/
def execFenceSc (sc : Scope) (g : Guard) (s : State) : Out :=
  s.issue (.fenceSc sc g) .none .any g (fun s =>
    if isWide sc then s.waitOn s.cur (.fence true true true sc s.serial)
    else (s.scFence s.cur sc).waitOn s.cur (.reply nothing))

/-- The step of a fence whose wait holds (R74, R77, R80). -/
def State.fenceStep (s : State) (x : Nat) (acq sc : Bool) (scope : Scope) : State :=
  let s1 := if sc then s.scFence x scope else if acq then (s.strandRelease x scope).acquireFence x scope else s.strandRelease x scope
  s1.answer x nothing

/-- The scope of an operation that releases before it is performed. -/
def MemAct.relScope : MemAct → Scope
  | .stx sc => sc
  | .atomic _ _ sc _ => sc
  | _ => .str

/-- R69, R73, R79, HOME_ACCESS. -/
def execHomeAccess (x : Nat) (s : State) : Out := s.ifEnabled (s.homeAccess x)

end Sys2Proof.Machine
end

