-- ==== Sys2Proof/Machine/Tiles.lean ====
section
/-!
DEFINITION. Tiles (spec 02, R45 to R47; spec 04, R92, R93; spec 12, R229 to R234; spec 19, R344 to R346): major 0x26, the lines of
fills, their merging at a slice, landings, multicast starts and drains.
-/
namespace Sys2Proof.Machine

/-- A tile of a tenant on a bay. -/
def State.tile (s : State) (tag die bay t : Nat) : Tile := Tbl.get Tile.init (s.ten die bay tag).tiles t

/-- Replaces a tile. -/
def State.setTile (s : State) (tag die bay t : Nat) (v : Tile) : State :=
  s.modTen die bay tag (fun b => { b with tiles := Tbl.set b.tiles t v })

/-- The entry word of Table 2-6. -/
def Tile.word (t : Tile) : W64 :=
  pack [(match t.st with | .empty => 0 | .filling => 1 | .ready => 2 | .draining => 3, 62), (b2n t.err, 61), (b2n t.mc, 60),
    (t.pend % 4096, 48), (t.len, 18), (t.base, 7)]

/-- Scratchpad offset of a line of a tile. -/
def Tile.lineOff (t : Tile) (line : Nat) : Nat := (t.base + line) * 128

/-- A tile instruction: it waits, not issued, until `ok` admits the tile's state (R46); on a spindle it is a unit error (R220). A tile that
another resident tenant has defined is an isolation violation (R59). -/
def tileOp (i : Instr) (r : Role) (t : Nat) (g : Guard) (ok : TileState → Bool) (body : Tile → State → State) (s : State) : Out :=
  s.issue i .none r g (fun s => s.coreOnly i (fun s =>
    let u := s.unitOf s.cur
    let e := s.tile s.me.tag u.die u.bay t
    if !e.defd && (s.coTenants u s.me.tag).any (fun k => (s.tile k u.die u.bay t).defd) then s.raise 0x0C (w64 t)
    else if ok e.st then body e s else s.unissued (.tile t)))

/-- The issue of an instruction naming a ready tile applies its completion stamp (R90, R92). -/
def State.applyTile (s : State) (t : Tile) : State := if t.st = .ready then s.strandApply s.cur [t.cs] else s

/-- The first line of a window range that its segment refuses, as the cause of a trap (R20, R21, R231). -/
def State.windowRange (s : State) (u : UnitId) (tag : Nat) (va : W64) (acc : AccKind) : Nat → Option Nat
  | 0 => none
  | n + 1 =>
    match (s.xlate u tag va 128 acc).1 with
    | .ok l =>
      match l.loc with
      | .rwin _ _ _ _ _ => some 0x0A
      | .foreign _ g => if bits g 47 46 = 2 then some 0x0A else s.windowRange u tag (va + 128) acc n
      | _ => s.windowRange u tag (va + 128) acc n
    | .miss => some 0x0A
    | .trap c => some c

/-- The checks of a fill's source or a drain's destination (R231), the cause of the trap if one fails. -/
def State.tileRange (s : State) (u : UnitId) (tag : Nat) (va : W64) (lines : Nat) (acc : AccKind) : Option Nat :=
  if !canonical va then some 0x08
  else if bits va 6 0 != 0 then some 0x09
  else if inWindow va then s.windowRange u tag va acc lines
  else none

/-- A receiving bay of a fill before its start. -/
def FillBay.init (bay : Nat) (acc : Bool) : FillBay := ⟨bay, acc, false, none, false⟩

/-- R230, TDEF. -/
def execTdef (a : Src) (t : BitVec 6) (g : Guard) (s : State) : Out :=
  tileOp (.tdef a t g) .any t.toNat g (fun st => st == .empty || st == .ready) (fun e s => s.src a (fun v s1 =>
    let w := lo64 v
    let u := s.unitOf s.cur
    let off := bits w 17 7 * 128
    let n := (bits w 28 18 + 1) * 128
    if bits w 63 29 != 0 || bits w 6 0 != 0 then s.raise 0x01 (wordOf (.tdef a t g))
    else if e.st = .ready then s.raise 0x24 (w64 t.toNat)
    else if 262144 < off + n then s.raise 0x0A (w64 off)
    else if !inPart (s.spadPart s.me.tag u.die u.bay) off n then s.raise 0x0C (w64 t.toNat)
    else (s1.setTile s.me.tag u.die u.bay t.toNat { e with defd := true, base := bits w 17 7, len := bits w 28 18 }).retire nothing)) s

/-- R231, R92: TRD starts a unicast fill; with no in-flight record free it has not issued (R29). -/
def execTrd (a : Src) (t : BitVec 6) (g : Guard) (s : State) : Out :=
  tileOp (.trd a t g) .any t.toNat g (fun st => st == .empty || st == .ready) (fun e s => s.src a (fun v s1 =>
    let va := lo64 v
    let u := s.unitOf s.cur
    match s1.tileRange u s.me.tag va (e.len + 1) .fill with
    | some c => s.raise c va
    | none =>
      if !s.recordRoom u then s else
      let s2 := s1.applyTile e
      let f : Fill :=
        { tag := s.me.tag, die := u.die, bay := u.bay, tile := t.toNat, src := va, lines := e.len + 1, ord := s2.me.ord, multi := false,
          ctr := none, bays := [FillBay.init u.bay true], open_ := true, slot := (s.slotOf s.cur).getD 0, sent := [], read := [], packets := [],
          parked := [], foreign := false, failed := false }
      let s3 := s2.setTile s.me.tag u.die u.bay t.toNat { e with st := .filling, pend := e.len + 1, mc := false, err := false }
      ({ s3.setFill s3.nextId f with nextId := s3.nextId + 1 }).retire nothing)) s

/-- R232, TRD.mc: a start to every named bay; the shuttle waits until each has accepted. -/
def execTrdMc (a b : Src) (t : BitVec 6) (g : Guard) (s : State) : Out :=
  tileOp (.trdMc a b t g) .shuttle t.toNat g (fun _ => true) (fun e s => s.src2 a b (fun v m s1 =>
    let va := lo64 v
    let u := s.unitOf s.cur
    let tag := s.me.tag
    let mask := m.toNat % 2 ^ 32
    let named := (List.range 32).filterMap (fun i => if bit m i then some (clusterBay (clusterOf u.bay) i) else none)
    if m.toNat / 2 ^ 37 != 0 then s.raise 0x01 (wordOf (.trdMc a b t g))
    else if mask = 0 then s1.retire nothing
    else if named.any (fun x => !s.ownsBay tag u.die x) then s.raise 0x0C (w64 mask)
    else
      match s1.tileRange u tag va (e.len + 1) .fill with
      | some c => s.raise c va
      | none =>
        if !s.recordRoom u then s else
        let s2 := s1.applyTile e
        let f : Fill :=
          { tag := tag, die := u.die, bay := u.bay, tile := t.toNat, src := va, lines := e.len + 1, ord := s2.me.ord, multi := true,
            ctr := if bit m 36 then some (m.toNat / 2 ^ 32 % 16) else none, bays := named.map (FillBay.init · false), open_ := false,
            slot := (s.slotOf s.cur).getD 0, sent := [], read := [], packets := [], parked := [], foreign := false, failed := false }
        let id := s2.nextId
        ({ s2.setFill id f with nextId := id + 1 }).waitOn s.cur (.trdmc id))) s

/-- R234, R93: TWR starts a drain. -/
def execTwr (a : Src) (t : BitVec 6) (g : Guard) (s : State) : Out :=
  tileOp (.twr a t g) .any t.toNat g (fun st => st == .empty || st == .ready) (fun e s =>
    if e.st = .empty then s.raise 0x24 (w64 t.toNat)
    else s.src a (fun v s1 =>
      let va := lo64 v
      let u := s.unitOf s.cur
      match s1.tileRange u s.me.tag va (e.len + 1) .store with
      | some c => s.raise c va
      | none =>
        if !s.recordRoom u then s else
        let s2 := s1.applyTile e
        let dr : Drain :=
          { tag := s.me.tag, die := u.die, bay := u.bay, tile := t.toNat, dst := va, lines := e.len + 1, ord := s2.me.ord,
            slot := (s.slotOf s.cur).getD 0, stored := [], upto := none, foreign := false, parked := [], failed := false, lost := 0 }
        let s3 := s2.setTile s.me.tag u.die u.bay t.toNat { e with st := .draining, pend := e.len + 1, err := false }
        ({ s3.setDrain s3.nextId dr with nextId := s3.nextId + 1 }).retire nothing)) s

/-- R234, TREL. -/
def execTrel (t : BitVec 6) (g : Guard) (s : State) : Out :=
  tileOp (.trel t g) .any t.toNat g (fun st => st == .empty || st == .ready) (fun e s =>
    let u := s.unitOf s.cur
    ((s.applyTile e).setTile s.me.tag u.die u.bay t.toNat { e with st := .empty }).retire nothing) s

/-- R234, TSTAT, in every state. -/
def execTstat (d : Dst) (t : BitVec 6) (g : Guard) (s : State) : Out :=
  tileOp (.tstat d t g) .any t.toNat g (fun _ => true) (fun e s => s.dstBound d (fun s =>
    (s.applyTile e).retire (scalar d (Tile.word e)))) s

/-- A fill has every packet of a bay and its release has been performed: the tile is ready with the fill's stamp (R89, R92), or empty with
ERR where the fill has failed (Table 2-7). -/
def State.fillBayDone (s : State) (id : Nat) (b : Nat) : State :=
  match Tbl.find s.fills id with
  | none => s
  | some f =>
    let f1 := { f with ord := s.releaseBy f.ord f.die,
                       bays := f.bays.map (fun e => if e.bay = b then { e with done := true } else e) }
    let t := s.tile f.tag f.die b f.tile
    let t1 := { t with cs := f1.ord.completion }
    let s1 := s.setTile f.tag f.die b f.tile (if f.failed then { t1 with st := .empty, err := true, pend := 0 } else { t1 with st := .ready })
    if f1.bays.all (fun e => e.done) then { s1 with fills := Tbl.del s1.fills id } else s1.setFill id f1

/-- The completion of a fill at a bay waits for its release (R74, R89); with nothing to wait for it is taken at once. -/
def State.fillBayEnd (s : State) (id : Nat) (b : Nat) : State :=
  match Tbl.find s.fills id with
  | none => s
  | some f =>
    if s.drained f.die f.foreign s.serial then s.fillBayDone id b
    else s.setFill id { f with bays := f.bays.map (fun e => if e.bay = b then { e with upto := some s.serial } else e) }

/-- DEVICE_RELEASE of a fill: the first bay whose release's wait holds. -/
def State.fillRelease (s : State) (id : Nat) : Option State :=
  match Tbl.find s.fills id with
  | none => none
  | some f =>
    match f.bays.find? (fun b => !b.done && (match b.upto with | some n => s.drained f.die f.foreign n | none => false)) with
    | none => none
    | some b => some (s.fillBayDone id b.bay)

/-- Marks poisoned words from a memory key up (R318). -/
def markPoison (p : List Nat) (k : Nat) : List Bool → List Nat
  | [] => p
  | b :: bs => markPoison (if b then setAdd p (k / 8) else p) (k + 8) bs

/-- A fill's packet is written into its tile and counted (R92, R232, R318). It lands only in its tenant's half (R232). -/
def State.landLine (s : State) (f : Fill) (p : FillPacket) : State :=
  let t := s.tile f.tag f.die p.bay f.tile
  let off := t.lineOff p.line
  let l : Loc := .spad f.die p.bay off
  let packet : Landing := ⟨f.die, p.bay, f.tag, f.ctr, p.stamp⟩
  let s1 :=
    if inPart (s.spadPart f.tag f.die p.bay) off 128 then
      let r := s.plainStore f.ord f.die f.tag l p.bytes (some packet) .none
      { r.2 with poison := markPoison r.2.poison (s.spadAt f.tag f.die p.bay off) p.bad }
    else s.land packet
  s1.setTile f.tag f.die p.bay f.tile { t with pend := t.pend - 1 }

/-- The bays that a reply of a fill goes to (R344). -/
def Fill.dests (f : Fill) : List Nat := (f.bays.filter (fun b => b.accepted && !b.refused)).map (·.bay)

/-- A fill that has failed ends at each of its bays once the lines under way there have landed (R88, R92). -/
def State.fillStop (s : State) (id : Nat) : State :=
  match Tbl.find s.fills id with
  | none => s
  | some f =>
    if !f.failed || f.sent.any (fun l => !f.read.contains l) then s
    else if f.dests.isEmpty then { s with fills := Tbl.del s.fills id }
    else
      let ends := (f.bays.filter (fun b => b.accepted && !b.done && b.upto.isNone && f.packets.all (fun p => p.bay != b.bay))).map (·.bay)
      ends.foldl (fun s b => s.fillBayEnd id b) s

/-- TILE_LANDING (R92): packet `i` of a fill lands; the last one completes the fill at that bay. -/
def State.tileLanding (s : State) (id i : Nat) : Option State :=
  match Tbl.find s.fills id with
  | none => none
  | some f =>
    match f.packets[i]? with
    | none => none
    | some p =>
      let s1 := (s.landLine f p).setFill id { f with packets := f.packets.eraseIdx i }
      some (if f.failed then s1.fillStop id
        else if (s1.tile f.tag f.die p.bay f.tile).pend = 0 then s1.fillBayEnd id p.bay else s1)

/-- A line of a fill has been read: one packet to each of its bays, with the stamp of R90. A fill that every bay refused ends with its last
line's reply (R344). -/
def State.fillReply (s : State) (id : Nat) (f : Fill) (line : Nat) (r : ReadRes) (bad : List Bool) (foreign : Bool) : State :=
  let st := (r.ord.completion).vmax (r.ord.know f.die)
  let ps := f.dests.map (fun b => (⟨id, line, b, r.bs, bad, st⟩ : FillPacket))
  let f1 := { f with ord := r.ord, read := setAdd f.read line, packets := f.packets ++ ps, foreign := f.foreign || foreign }
  if f.dests.isEmpty && f1.read.length == f.lines then { s with fills := Tbl.del s.fills id } else (s.setFill id f1).fillStop id

/-- The poison marks of a line. -/
def State.lineBad (s : State) (tag : Nat) (l : Loc) : List Bool := (List.range 16).map (fun i => s.badAt tag (l.plus (8 * i)) 8)

/-- A fill carries a line's marks to its tiles: the error is then consumed by a read of either place (R318, Table 17-3; log 43). -/
def State.errCarry (s : State) (src : Loc) (bad : List Bool) (f : Fill) (line : Nat) : State :=
  if bad.any (fun b => b) then
    let dests := f.dests.map (fun b => (Loc.spad f.die b ((s.tile f.tag f.die b f.tile).lineOff line)).line)
    { s with errs := s.errs.map (fun e => if e.2.contains src.line then (e.1, dests.foldl setAdd e.2) else e) }
  else s

/-- Virtual address of a line of a fill. -/
def Fill.va (f : Fill) (line : Nat) : W64 := f.src + w64 (128 * line)

/-- A fill ends by fail: it sends no more reads, and takes its completion step at each of its bays (R31, R92). -/
def State.fillFail (s : State) (id : Nat) : State :=
  match Tbl.find s.fills id with
  | none => s
  | some f => (s.setFill id { f with failed := true, parked := [] }).fillStop id

/-- A fill's translation request: its requester is the slot of the compute core that issued it (R30). -/
def Fill.req (f : Fill) (id line : Nat) : WalkReq :=
  { who := .fill id line, acc := .fill, va := f.va line, die := f.die, bay := f.bay, sp := false, unit := 0, slot := f.slot }

/-- FILL_READ (R233, R345): a line's read leaves for its slice; lines held nearer (a buffer, an RDC copy, a scratchpad, another
device) are read here. A multicast sends its lines in ascending order (R344). -/
def State.fillRead (s : State) (id line : Nat) : Option State :=
  match Tbl.find s.fills id with
  | none => none
  | some f =>
    if !f.open_ || f.failed || !mayTake f.parked line false || decide (f.lines ≤ line) || f.sent.contains line
        || (f.multi && (List.range line).any (fun l => !f.sent.contains l)) then none
    else
      let u := coreOf f.die f.bay
      let r := s.xlate u f.tag (f.va line) 128 .fill
      match r.1 with
      | .miss => some (r.2.askWalk f.tag (f.req id line))
      | .trap _ => some (s.fillFail id)
      | .ok l =>
        if s.linkDown l.loc then some (s.fillFail id) else
        let s1 := r.2.detect u 0 l (f.va line)
        let f1 := { f with sent := setAdd f.sent line, parked := dropItem f.parked line }
        let atSlice := match l.loc with
          | .vault _ _ _ => (s1.buffered f.die l.loc).isEmpty && (s1.rdcCopy f.die l.loc).isNone
          | _ => false
        if !atSlice then
          match s1.plainLoad f.ord f.die f.tag l 128 with
          | none => none
          | some (res, s2) =>
            let far := match l.loc with
              | .foreign _ _ => true
              | _ => false
            let bad := match s1.rdcCopy f.die l.loc with
              | some c => c.bad
              | none => if far then [] else s1.lineBad f.tag l.loc
            some ((s2.errCarry l.loc bad f1 line).fillReply id f1 line res bad far)
        else
          match l.loc with
          | .vault d b _ =>
            some ((s1.setFill id f1).modUnit (spOf d b) (fun c => c.joinRead f.tag l.loc.line ⟨.fill id line, l.rdc, f.va line, l.size⟩))
          | _ => none

/-- One read step of a fill that joined an entry: a load at the line's home (R67, R69), of the marks `bad`. -/
def State.fillHomeRead (s : State) (l : XLoc) (id line : Nat) (bad : List Bool) : State :=
  match Tbl.find s.fills id with
  | none => s
  | some f =>
    let r := s.homeRead f.ord f.die f.tag l 128
    (r.2.errCarry l.loc bad f line).fillReply id f line r.1 bad false

/-- The place of a vault line from its key. -/
def vaultLine (line : Nat) : Loc := .vault (line / 2 ^ 29) (line / 2 ^ 18 % 2048) (line % 2 ^ 18 * 128)

/-- MULTICAST_START_ACCEPT (R232): the start at the `i`-th named bay, once its tile is empty or ready. When every bay has accepted,
TRD.mc retires and the reads may leave (R344). -/
def State.multicastAccept (s : State) (id i : Nat) : Option State :=
  match Tbl.find s.fills id with
  | none => none
  | some f =>
    match f.bays[i]? with
    | none => none
    | some b =>
      let t := s.tile f.tag f.die b.bay f.tile
      if b.accepted || f.open_ || !(t.st == .empty || t.st == .ready) then none
      else
        let same := t.len + 1 == f.lines
        let t1 := if same then { t with st := .filling, mc := true, err := false, pend := f.lines }
          else { t with st := .empty, err := true }
        let bays := f.bays.set i { b with accepted := true, refused := !same, done := !same }
        let all := bays.all (fun e => e.accepted)
        let s1 := s.setTile f.tag f.die b.bay f.tile t1
        let s2 := s1.setFill id { f with bays := bays, open_ := all }
        some (if all then
          match s2.strands.find? (fun e => e.2.wait == .trdmc id) with
          | some e => s2.answer e.1 nothing
          | none => s2
        else s2)

/-- A drain's translation request: its requester is the slot of the compute core that issued it (R30). -/
def Drain.req (g : Drain) (id line : Nat) : WalkReq :=
  { who := .drain id line, acc := .store, va := g.dst + w64 (128 * line), die := g.die, bay := g.bay, sp := false, unit := 0, slot := g.slot }

/-- A drain ends by fail: it stores no more, and takes its completion step once its stores are performed (R31, R88, R93). -/
def State.drainFail (s : State) (id : Nat) : State :=
  match Tbl.find s.drains id with
  | none => s
  | some g => s.setDrain id { g with failed := true, parked := [] }

/-- A store of a drain has been performed at its home (Table 2-6, PEND). -/
def State.drainAck (s : State) (id : Nat) : State :=
  match Tbl.find s.drains id with
  | none => s
  | some g =>
    let t := s.tile g.tag g.die g.bay g.tile
    s.setTile g.tag g.die g.bay g.tile { t with pend := t.pend - 1 }

/-- TILE_DRAIN_STORE (R93): a 128-byte unit is read from the tile and stored to its line. -/
def State.tileDrainStore (s : State) (id line : Nat) : Option State :=
  match Tbl.find s.drains id with
  | none => none
  | some g =>
    if g.failed || !mayTake g.parked line false || decide (g.lines ≤ line) || g.stored.contains line then none
    else
      let u := coreOf g.die g.bay
      let va := g.dst + w64 (128 * line)
      let r := s.xlate u g.tag va 128 .store
      match r.1 with
      | .miss => some (r.2.askWalk g.tag (g.req id line))
      | .trap _ => some (s.drainFail id)
      | .ok l =>
        if s.linkDown l.loc then some (s.drainFail id) else
        let t := s.tile g.tag g.die g.bay g.tile
        let src : Loc := .spad g.die g.bay (t.lineOff line)
        let bs := r.2.bytesAt g.tag src 128
        let a := r.2.readTimes g.ord g.die src
        let b := a.2.plainStore a.1 g.die g.tag l.loc bs none (.engine id)
        let far := match l.loc with
          | .foreign _ _ => true
          | _ => false
        let s1 := b.2.setDrain id { g with ord := b.1, stored := setAdd g.stored line, foreign := g.foreign || far,
                                           parked := dropItem g.parked line }
        some (if (l.loc.target g.die).isNone then s1.drainAck id else s1)

/-- The completion of a drain (R89, R93): the tile is ready with the drain's stamp, and with ERR where it has failed (Table 2-7). -/
def State.drainDone (s : State) (id : Nat) (g : Drain) : State :=
  let t := s.tile g.tag g.die g.bay g.tile
  { s.setTile g.tag g.die g.bay g.tile { t with st := .ready, err := t.err || g.failed, pend := 0,
                                                cs := (s.releaseBy g.ord g.die).completion } with
    drains := Tbl.del s.drains id }

/-- Every store of a drain is performed at its home, or lost with a link (R93, R320); one that has failed makes no more. -/
def State.drainQuiet (s : State) (g : Drain) : Bool :=
  (g.failed || g.stored.length == g.lines) &&
    (s.tile g.tag g.die g.bay g.tile).pend + g.stored.length == g.lines + g.lost

/-- TILE_DRAIN_READY (R93): every store is performed at its home; the completion's release may still have to wait. -/
def State.tileDrainReady (s : State) (id : Nat) : Option State :=
  match Tbl.find s.drains id with
  | none => none
  | some g =>
    if !s.drainQuiet g || g.upto.isSome then none
    else if s.drained g.die g.foreign s.serial then some (s.drainDone id g)
    else some (s.setDrain id { g with upto := some s.serial })

/-- DEVICE_RELEASE of a drain. -/
def State.drainRelease (s : State) (id : Nat) : Option State :=
  match Tbl.find s.drains id with
  | none => none
  | some g =>
    match g.upto with
    | none => none
    | some n => if s.drained g.die g.foreign n then some (s.drainDone id g) else none

/-- R233, FILL_READ. -/
def execFillRead (id line : Nat) (s : State) : Out := s.ifEnabled (s.fillRead id line)

/-- R92, TILE_LANDING. -/
def execTileLanding (id i : Nat) (s : State) : Out := s.ifEnabled (s.tileLanding id i)

/-- R232, MULTICAST_START_ACCEPT. -/
def execMulticastStartAccept (id i : Nat) (s : State) : Out := s.ifEnabled (s.multicastAccept id i)

/-- R93, TILE_DRAIN_STORE. -/
def execTileDrainStore (id line : Nat) (s : State) : Out := s.ifEnabled (s.tileDrainStore id line)

/-- R93, TILE_DRAIN_READY. -/
def execTileDrainReady (id : Nat) (s : State) : Out := s.ifEnabled (s.tileDrainReady id)

end Sys2Proof.Machine
end

