-- ==== Sys2Proof/Machine/Walker.lean ====
section
/-!
DEFINITION. The die walkers, fault records, parking, replay and fail (spec 01, R13 to R15, R23 to R31; R319, R357).
-/
namespace Sys2Proof.Machine

/-- Concurrent walks of a die (Table 1-8); a fault record held for want of queue space keeps its slot (R30). -/
def walkSlots : Nat := 64

/-- Offset of entry `idx` of a table. -/
def entryAt (base idx : Nat) : Nat := base + idx * 8

/-- Starts a walk at level A (R13, R23), or ends it there where paging is disabled (XTB.EN = 0). -/
def State.walkTop (s : State) (w : Walk) : Walk :=
  let r := (s.part w.tag).xtb
  let va := w.vpn * 65536
  if !bit r 0 then { w with active := true, top := 0, result := some (.bad 1 0) }
  else
    { w with active := true, top := 0, level := 0, plc := bits r 63 62, tdie := bits r 37 36,
             off := entryAt (bits r 35 16 * 65536) (levelIndex 0 va), result := none }

/-- The next table of a pointer entry of level `l` (Table 1-4, R15). -/
def Walk.follow (w : Walk) (l : Nat) (pte : W64) : Walk :=
  { w with level := l + 1, plc := bits pte 61 60, tdie := bits pte 37 36,
           off := entryAt (bits pte 35 8 * 256) (levelIndex (l + 1) (w.vpn * 65536)) }

/-- A walk-cache entry lies on the path of an address (Table 1-8). -/
def WalkCacheEntry.on (e : WalkCacheEntry) (tag va : Nat) : Bool := e.tag == tag && e.idx == va / 2 ^ levelShift e.level

/-- Replaces a walk of a die. -/
def State.setWalk (s : State) (die : Nat) (w : Walk) : State :=
  s.modDie die (fun d => { d with walks := d.walks.map (fun v => if v.id = w.id then w else v) })

/-- The requesting cluster of a walk: that of its first requester. -/
def Walk.cluster (w : Walk) : Nat :=
  match w.reqs with
  | [] => 0
  | r :: _ => clusterOf r.bay

/-- The deepest cached pointer of a cluster on a walk's path (Table 1-8). -/
def State.cachedPointer (s : State) (die : Nat) (w : Walk) : Option WalkCacheEntry :=
  let c := (s.cluster die w.cluster).wcache
  let at_ (l : Nat) := c.find? (fun e => e.level == l && e.on w.tag (w.vpn * 65536))
  match at_ 2 with
  | some e => some e
  | none => match at_ 1 with
    | some e => some e
    | none => at_ 0

/-- Two walk-cache entries are of one pointer's place. -/
def WalkCacheEntry.same (e f : WalkCacheEntry) : Bool := f.tag == e.tag && f.level == e.level && f.idx == e.idx

/-- Puts a pointer entry at the front of a cluster's walk cache: the least recently used entry is last (Table 1-8, R25). -/
def State.usePointer (s : State) (die cluster : Nat) (e : WalkCacheEntry) : State :=
  s.modCluster die cluster (fun c => { c with wcache := keep 64 (e :: c.wcache.filter (fun f => !e.same f)) })

/-- Remembers a pointer entry that a walk has read (Table 1-8, R25). -/
def State.cachePointer (s : State) (die : Nat) (w : Walk) (l : Nat) (pte : W64) : State :=
  s.usePointer die w.cluster ⟨w.tag, l, w.vpn * 65536 / 2 ^ levelShift l, pte⟩

/-- A load at a line's home that keeps no order state (R23): the home's read time rises. -/
def State.homeTouch (s : State) (l : Loc) : State :=
  let n := s.lineAt l
  s.setLine l { n with rts := Nat.max n.rts n.wts }

/-- An acquire of device scope at a line's home, in the home die's order, by a unit that keeps no order state (R27, R76): the line's stamp is
applied on its die, whose older RDC copies expire. -/
def State.homeAcquire (s : State) (l : Loc) : State :=
  match l.die? with
  | some h => ((s.homeTouch l).applyStamp .zero h .dev (s.lineAt l).stamp).2
  | none => s.homeTouch l

/-- One table read of a walk (R13, R14, R15, R27): the entry is read at its home slice. -/
def State.walkRead (s : State) (die : Nat) (w : Walk) : State :=
  let l := place w.plc w.tdie w.off die
  let pte := w64 (leNat (s.bytesAt 31 l 8))
  let s1 := s.homeAcquire l
  match s.judgeEntry w.level pte with
  | some r => s1.setWalk die { w with result := some r }
  | none => (s1.cachePointer die w w.level pte).setWalk die (w.follow w.level pte)

/-- The first table read of a walk (R25, R26): from the deepest pointer that the walk cache holds on its path, which is then the most
recently used one, else from level A. With paging disabled the walk ends at level A (Table 1-7). -/
def State.walkStart (s : State) (die : Nat) (w : Walk) : State :=
  match (if s.pagingOn w.tag then s.cachedPointer die w else none) with
  | some e =>
    let w1 := ({ w with active := true, top := e.level, result := none } : Walk).follow e.level e.pte
    ((s.usePointer die w.cluster e).setWalk die w1).walkRead die w1
  | none =>
    let w1 := s.walkTop w
    if w1.result.isSome then s.setWalk die w1 else (s.setWalk die w1).walkRead die w1

/-- WALK_TABLE_READ (R26, R27): walk `i` of a die takes its next table read; a queued walk starts when a slot is free, in arrival
order. -/
def State.walkTableRead (s : State) (die i : Nat) : Option State :=
  let d := s.die die
  match d.walks.find? (fun w => w.id == i) with
  | none => none
  | some w =>
    if w.result.isSome then none
    else if w.active then some (s.walkRead die w)
    else
      let busy := (d.walks.filter (·.active)).length + (d.heldCount)
      let first := match d.walks.find? (fun v => !v.active) with
        | some v => v.id == i
        | none => false
      if !first || decide (walkSlots ≤ busy) then none else some (s.walkStart die w)

/-- A frame-map bit (R24): the 1 GiB region of the package that a leaf's line lies in, for a requester on die `rd`. A leaf of another device
is not looked up (the model's choice, log 119). -/
def State.frameOk (s : State) (tag : Nat) (l : Nat) (pte : W64) (va rd : Nat) : Bool :=
  if bits pte 51 38 != s.dev.num then true
  else
    let ofs := bits pte 35 16 * 65536 + va % 2 ^ levelShift l
    let die := if bits pte 61 60 = 1 then rd else bits pte 37 36
    let region := (die * 2 ^ 36 + ofs) / 2 ^ 30
    let r := (s.part tag).xfm
    let word := s.structWord (bits r 63 62) (bits r 37 36) (bits r 35 16 * 65536 + region / 64 * 8) rd
    bit word (region % 64)

/-- What a walk's end decides for one requester (R24, R28): a refusal's cause, 8 for an isolation fault. Where a leaf fails the frame map
and does not permit the access either, it is an isolation fault (log 99). -/
def State.refusal (s : State) (tag : Nat) (r : WalkReq) (res : WalkResult) : Option Nat :=
  match res with
  | .bad c _ => some c
  | .leaf l pte =>
    if !s.frameOk tag l pte r.va.toNat r.die then some 8
    else if !permits pte r.acc then some (if r.acc = .fetch then 7 else 6)
    else none

/-- The entry that ended a walk. -/
def WalkResult.pte : WalkResult → W64
  | .leaf _ p => p
  | .bad _ p => p

/-- The code of an access kind (Table 1-9). -/
def AccKind.code : AccKind → Nat
  | .load => 0
  | .store => 1
  | .atomic => 2
  | .fetch => 3
  | .fill => 4
  | .copy => 5
  | .copyWrite => 5

/-- The fault record of a group of requesters (Table 1-9). -/
def faultRec (r : WalkReq) (n cause fid : Nat) (pte : W64) : FaultRec :=
  { va := r.va, cause := cause, fid := fid, die := r.die, bay := r.bay, unit := r.unit, slot := r.slot, acc := r.acc.code,
    nreq := Nat.min n 15, pte := pte }

/-- Bytes of a fault record (Table 1-9). -/
def faultBytes (r : FaultRec) (tag : Nat) : List Byte :=
  ([pack [(r.va.toNat % 2 ^ 56, 8), (r.cause, 0)],
    pack [(r.fid % 2 ^ 32, 0), (r.die, 32), (r.bay, 34), (r.unit, 45), (r.slot, 48), (tag, 52), (r.acc, 57), (r.nreq, 60)],
    r.pte, 0] : List W64).flatMap (fun w => leBytes 8 w.toNat)

/-- The fault queue has room (R30). -/
def Part.faultRoom (p : Part) : Bool :=
  let lg := bits p.xfq 63 60
  decide (lg ≠ 0) && decide ((p.xfqt - p.xfqh).toNat < 2 ^ lg)

/-- The place of the fault record at XFQT (R30). -/
def Part.faultEntry (p : Part) (die : Nat) : Loc :=
  place (bits p.xfq 59 58) (bits p.xfq 37 36) (bits p.xfq 35 5 * 32 + p.xfqt.toNat % 2 ^ bits p.xfq 63 60 * 32) die

/-- Writes a fault record at XFQT, at its home and before XFQT advances (R30). -/
def State.faultWrite (s : State) (tag die : Nat) (r : FaultRec) : State :=
  (s.recordStore ((s.part tag).faultEntry die) (faultBytes r tag)).modPart tag (fun p => { p with xfqt := p.xfqt + 1 })

/-- A fault record is written, or held in a walk slot while the queue is full or disabled, which the host is told, or while the release that
its store is has still to wait (R30, R74). -/
def State.faultPut (s : State) (tag die : Nat) (r : FaultRec) : State :=
  let p := s.part tag
  if p.heldRecs.isEmpty && p.faultRoom && s.recordReady (p.faultEntry die) s.serial then s.faultWrite tag die r
  else
    let s1 := (s.modPart tag (fun p => { p with heldRecs := p.heldRecs ++ [(die, r, s.serial)] })).modDie die
      (fun d => { d with heldCount := d.heldCount + 1 })
    if p.faultRoom then s1 else s1.emit (.faultQueueFull tag)

/-- FAULT_RECORD_DEFERRED_WRITE (R30): the oldest held record is written once there is space and its release is enabled. -/
def State.faultDeferred (s : State) (tag : Nat) : Option State :=
  let p := s.part tag
  match p.heldRecs with
  | [] => none
  | (die, r, upto) :: rest =>
    if !p.faultRoom || !s.recordReady (p.faultEntry die) upto then none
    else some (((s.modPart tag (fun p => { p with heldRecs := rest })).modDie die
      (fun d => { d with heldCount := d.heldCount - 1 })).faultWrite tag die r)

/-- An access parked under a fault identifier stands last in its engine's remainders: they keep record order (R29, R31). -/
def parkItem (rs : List Remainder) (item fid : Nat) : List Remainder :=
  rs.filter (fun r => r.item != item) ++ [⟨item, fid, false⟩]

/-- A replay frees the accesses of its identifier (R31). -/
def freeItems (rs : List Remainder) (fid : Nat) : List Remainder :=
  rs.map (fun r => if r.fid = fid then { r with freed := true } else r)

/-- Parks a requester under a fault identifier (R28, R29). -/
def State.parkReq (s : State) (fid : Nat) (r : WalkReq) : State :=
  match r.who with
  | .strand x => s.modStrand x (fun t => if t.status = .waiting || t.status = .ready then { t with status := .parked } else t)
  | .fill id line => match Tbl.find s.fills id with
    | some f => s.setFill id { f with parked := parkItem f.parked line fid }
    | none => s
  | .drain id line => match Tbl.find s.drains id with
    | some g => s.setDrain id { g with parked := parkItem g.parked line fid }
    | none => s
  | .card id i => match Tbl.find s.cards id with
    | some c => s.setCard id { c with parked := parkItem c.parked i fid }
    | none => s
  | .queue tag q => s.modQueue tag q (fun c => { c with parked := some fid })

/-- The status of an assignment job (Table 14-3) for that of a copy (Table 15-7): a fault resolved by fail, poison, or an address that
traps. -/
def asnCode (code : Nat) : Nat := if code = 3 then 0x85 else if code = 4 then 0x86 else 0x84

/-- What an assignment job adds to the status of a failure that it notes: 256 for a store of no known element, 256 × (k + 2) for element k. -/
def failNote (i : Option Nat) : Nat := match i with | some k => 0x100 * (k + 2) | none => 0x100

/-- A failure of element `i` of an assignment job comes too late to be one (R290): its result block is being written, and the element is an input
or one that is no longer written. -/
def Card.late (c : Card) (i : Option Nat) : Bool :=
  !c.result.isEmpty && (match i with | some k => decide (16 ≤ k) || (Tbl.find c.elems k).isSome | none => false)

/-- An engine job stops with an error completion of a status, for its element `i` where that is known (R88, R301). An assignment job still
writes its result block (R289, R290): it notes its status, with what `failNote` adds, until it does. -/
def State.cardFail (s : State) (id : Nat) (i : Option Nat) (code : Nat) : State :=
  match Tbl.find s.cards id with
  | some c =>
    if c.kind = .asn then
      if c.late i then s else s.setCard id { c with parked := [], code := if 0x100 ≤ c.code then c.code else failNote i + asnCode code }
    else s.setCard id { c with parked := [], stopped := true, code := if c.code = 0 then code else c.code }
  | none => s

/-- A requester refused for good: an isolation fault's trap (R24), or a fault resolved by fail (R31). -/
def State.failReq (s : State) (r : WalkReq) (cause : Nat) : State :=
  match r.who with
  | .strand x => s.defer x (if cause = 8 then 0x0C else 0x10 + cause) r.va
  | .fill id _ => s.fillFail id
  | .drain id _ => s.drainFail id
  | .card id i => s.cardFail id (some i) (if cause = 8 then 6 else 3)
  | .queue tag q => s.modQueue tag q (fun c => { c with parked := none, failed := true })

/-- Installs a walk's result for a requester (R26). -/
def State.installFor (s : State) (tag l : Nat) (pte : W64) (r : WalkReq) : State :=
  let u : UnitId := ⟨r.die, r.bay, r.sp⟩
  s.tlbInstall u (decide (r.unit < 2)) ⟨tag, l, r.va.toNat / 2 ^ levelShift l, pte⟩

/-- A permitted requester completes its translation (R28): a strand's access goes on; engines translate again through the caches. -/
def State.completeReq (s : State) (l : Nat) (pte : W64) (r : WalkReq) : State :=
  match r.who with
  | .strand x =>
    match s.memOp x with
    | some op => if op.stage = .walk then s.placed x op (s.leafLoc l pte op.ea (s.dieOf x)) else s
    | none => s
  | _ => s

/-- Handles the refused accesses of one cause: a record that counts their requesters, and parking; an isolation fault traps each and
interrupts the host with its record, whose FID is 0 and takes none of the partition's (R24, R28; log 99). -/
def State.refuseGroup (s : State) (tag die cause : Nat) (pte : W64) (rs : List WalkReq) : State :=
  match rs with
  | [] => s
  | r :: _ =>
    if cause = 8 then
      (rs.foldl (fun s r => s.failReq r 8) s).emit (.faultIsolation (faultRec r (requesters rs).length 8 0 0) tag)
    else
      let fid := (s.part tag).nextFid
      let s1 := (s.modPart tag (fun p => { p with nextFid := (p.nextFid + 1) % 2 ^ 32,
                                                  parked := p.parked ++ [⟨fid, cause, rs⟩] })).faultPut tag die
        (faultRec r (requesters rs).length cause fid pte)
      rs.foldl (fun s r => s.parkReq fid r) s1

/-- WALK_END (R24, R26, R28): the result is installed, each merged requester completes or is refused, and queued requests of the same
large page complete with it. -/
def State.walkEnd (s : State) (die i : Nat) : Option State :=
  match (s.die die).walks.find? (fun w => w.id == i) with
  | none => none
  | some w =>
    match w.result with
    | none => none
    | some res =>
      let extra : List Walk := match res with
        | .leaf l _ => if l < 3 then (s.die die).walks.filter (fun v =>
            !v.active && v.tag == w.tag && v.vpn * 65536 / 2 ^ levelShift l == w.vpn * 65536 / 2 ^ levelShift l) else []
        | .bad _ _ => []
      let reqs := w.reqs ++ extra.flatMap (·.reqs)
      let gone := i :: extra.map (·.id)
      let s1 := s.modDie die (fun d => { d with walks := d.walks.filter (fun v => !gone.contains v.id) })
      let s2 := match res with
        | .leaf l pte => reqs.foldl (fun s r => if s.refusal w.tag r res == some 8 then s else s.installFor w.tag l pte r) s1
        | .bad _ _ => s1
      let verdicts := reqs.map (fun r => (r, s1.refusal w.tag r res))
      let s3 := match res with
        | .leaf l pte => verdicts.foldl (fun s v => if v.2.isNone then s.completeReq l pte v.1 else s) s2
        | .bad _ _ => s2
      some ([1, 2, 3, 4, 5, 6, 7, 8].foldl (fun s c =>
        s.refuseGroup w.tag die c res.pte ((verdicts.filter (fun v => v.2 == some c)).map (·.1))) s3)

/-- MISS_QUEUE_ENTRY (R26): held miss `i` of a die enters the miss queue once it has room. -/
def State.missQueueEntry (s : State) (die i : Nat) : Option State :=
  match (s.die die).held[i]? with
  | none => none
  | some (tag, r) => (s.modDie die (fun d => { d with held := d.held.eraseIdx i })).enqueueWalk tag r

/-- A tenant is resident where a strand is (R319). -/
def State.residentAt (s : State) (x : Nat) : Bool :=
  let u := s.unitOf x
  (s.island (islandOf u.die u.bay)).resident.contains (s.strand x).tag

/-- Replays a strand's parked access (R31): it is translated afresh. -/
def State.replayStrand (s : State) (x : Nat) : State :=
  match s.memOp x with
  | some op => if (s.strand x).status = .parked then s.waitWalk x op else s
  | none => s

/-- Replays a requester parked under an identifier (R31); a strand that is not resident replays at its resumption (R319). An engine
translates its freed accesses afresh, in record order, before any later one. -/
def State.replayReq (s : State) (tag fid cause : Nat) (r : WalkReq) : State :=
  match r.who with
  | .strand x =>
    if s.residentAt x then s.replayStrand x
    else s.modPart tag (fun p => { p with resolved := p.resolved ++ [(x, true, cause, r.va)] })
  | .fill id _ => match Tbl.find s.fills id with
    | some f => s.setFill id { f with parked := freeItems f.parked fid }
    | none => s
  | .drain id _ => match Tbl.find s.drains id with
    | some g => s.setDrain id { g with parked := freeItems g.parked fid }
    | none => s
  | .card id _ => match Tbl.find s.cards id with
    | some c => s.setCard id { c with parked := freeItems c.parked fid }
    | none => s
  | .queue t q => s.modQueue t q (fun c => { c with parked := none })

/-- Fails a parked requester (R31, R319). -/
def State.failParked (s : State) (tag cause : Nat) (r : WalkReq) : State :=
  match r.who with
  | .strand x =>
    if s.residentAt x then s.failReq r cause
    else s.modPart tag (fun p => { p with resolved := p.resolved ++ [(x, false, cause, r.va)] })
  | _ => s.failReq r cause

/-- Takes the accesses parked under a fault identifier (R31). -/
def State.takeParked (s : State) (tag fid : Nat) : Option (Parked × State) :=
  match (s.part tag).parked.find? (fun p => p.fid == fid) with
  | none => none
  | some k => some (k, s.modPart tag (fun p => { p with parked := p.parked.filter (fun q => q.fid != fid) }))

/-- XFR_REPLAY (R31). -/
def State.xfrReplay (s : State) (tag fid : Nat) : Option State :=
  match s.takeParked tag fid with
  | none => none
  | some (k, s1) => some (k.reqs.foldl (fun s r => s.replayReq tag fid k.cause r) s1)

/-- XFR_FAIL (R31). -/
def State.xfrFail (s : State) (tag fid : Nat) : Option State :=
  match s.takeParked tag fid with
  | none => none
  | some (k, s1) => some (k.reqs.foldl (fun s r => s.failParked tag k.cause r) s1)

/-- The resolutions held for a partition's strands are performed when it is resident again, in record order (R319). -/
def State.applyResolved (s : State) (tag : Nat) : State :=
  let rs := (s.part tag).resolved
  let now := rs.filter (fun r => s.residentAt r.1)
  let s1 := s.modPart tag (fun p => { p with resolved := rs.filter (fun r => !s.residentAt r.1) })
  now.foldl (fun s r =>
    if r.2.1 then s.replayStrand r.1
    else if (s.strand r.1).status = .parked then s.defer r.1 (if r.2.2.1 = 8 then 0x0C else 0x10 + r.2.2.1) r.2.2.2 else s) s1

/-- Bytes `[lo, hi)` and `[a, b)` overlap. -/
def overlaps (lo hi a b : Nat) : Bool := decide (lo < b) && decide (a < hi)

/-- What a TLBI covers (R196): a range of pages, every paged translation, or every segment entry. -/
structure Cover where
  tag  : Nat
  mode : Nat
  lo   : Nat
  hi   : Nat

/-- The cover of a TLBI's operands. -/
def coverOf (tag mode va count : Nat) : Cover :=
  ⟨tag, mode, va / 65536 * 65536, va / 65536 * 65536 + count * 65536⟩

/-- A paged range of addresses is covered. -/
def Cover.pages (c : Cover) (tag lo size : Nat) : Bool :=
  c.tag == tag && (c.mode == 1 || (c.mode == 0 && overlaps c.lo c.hi lo (lo + size)))

/-- The translation of an address through a segment, or through a page of size 2^`size`, is covered (R196). -/
def Cover.translation (c : Cover) (tag : Nat) (va : W64) (size : Nat) : Bool :=
  if inWindow va then c.tag == tag && c.mode == 2 else c.pages tag (va.toNat / 2 ^ size * 2 ^ size) (2 ^ size)

/-- Removes the covered translations from every cache of the package (R27, R196). -/
def State.invalidate (s : State) (c : Cover) : State :=
  let tlb (l : List TlbEntry) := l.filter (fun e => !c.pages e.tag (e.page * 2 ^ levelShift e.level) (2 ^ levelShift e.level))
  { s with
    units := s.units.map (fun e => (e.1, { e.2 with
      tlb := tlb e.2.tlb, segs := e.2.segs.filter (fun g => !(c.mode == 2 && g.tag == c.tag)) })),
    clusters := s.clusters.map (fun e => (e.1, { e.2 with
      tlb := tlb e.2.tlb,
      wcache := e.2.wcache.filter (fun w => !c.pages w.tag (w.idx * 2 ^ levelShift w.level) (2 ^ levelShift w.level)) })) }

/-- A walk has read a covered entry (R27): the first entry that it has used, the one of the largest pages, covers some page of the range
with it. -/
def Walk.readCovered (w : Walk) (c : Cover) : Bool :=
  let size := 2 ^ levelShift w.top
  w.active && c.pages w.tag (w.vpn * 65536 / size * size) size

/-- Restarts from level A the walks that have read a covered entry (R27). -/
def State.restartWalks (s : State) (c : Cover) : State :=
  { s with dies := s.dies.map (fun e => (e.1, { e.2 with walks := e.2.walks.map (fun w =>
      if w.readCovered c then s.walkTop w else w) })) }

/-- An access that was translated through a covered entry is still to be performed (R196): a strand's in flight since before the wait
numbered `arr`, a read of a fill or a card at its slice, or a card's element to land. -/
def State.coveredPending (s : State) (c : Cover) (arr : Nat) : Bool :=
  s.strands.any (fun e => match e.2.wait with
    | .mem op => decide (e.2.arr < arr) && op.loc.any (fun l => c.translation e.2.tag op.ea l.size)
    | _ => false) ||
  s.units.any (fun u => (u.2.merge ++ u.2.mergeWait).any (fun e => e.joins.any (fun j => match j.who with
    | .strand _ => false
    | _ => c.translation e.tag j.va j.size))) ||
  s.cards.any (fun e => e.2.tag == c.tag && e.2.elems.any (fun k => match k.2 with | .landing _ _ _ => true | _ => false))

/-- TLBI_COMPLETE (R27, R196). -/
def State.tlbiComplete (s : State) (x : Nat) : Option State :=
  match (s.strand x).wait with
  | .tlbi mode va count =>
    let c := coverOf (s.strand x).tag mode va count
    if s.coveredPending c (s.strand x).arr then none else some ((s.invalidate c).answer x nothing)
  | _ => none

/-- R27, WALK_TABLE_READ. -/
def execWalkTableRead (die i : Nat) (s : State) : Out := s.ifEnabled (s.walkTableRead die i)

/-- R28, WALK_END. -/
def execWalkEnd (die i : Nat) (s : State) : Out := s.ifEnabled (s.walkEnd die i)

/-- R26, MISS_QUEUE_ENTRY. -/
def execMissQueueEntry (die i : Nat) (s : State) : Out := s.ifEnabled (s.missQueueEntry die i)

/-- R30, FAULT_RECORD_DEFERRED_WRITE. -/
def execFaultRecordDeferredWrite (tag : Nat) (s : State) : Out := s.ifEnabled (s.faultDeferred tag)

/-- R31, XFR_REPLAY. -/
def execXfrReplay (tag fid : Nat) (s : State) : Out := s.ifEnabled (s.xfrReplay tag fid)

/-- R31, XFR_FAIL. -/
def execXfrFail (tag fid : Nat) (s : State) : Out := s.ifEnabled (s.xfrFail tag fid)

/-- R27, R196, TLBI_COMPLETE. -/
def execTlbiComplete (x : Nat) (s : State) : Out := s.ifEnabled (s.tlbiComplete x)

end Sys2Proof.Machine
end

