-- ==== Sys2Proof/Machine/System.lean ====
section
/-!
DEFINITION. System instructions (spec 10, R186 to R196), prefixes and hints (spec 08, R160 to R163), and the steps that serve them:
deferred traps, the SVC queue, DBGC, FEFILL and FEEMPTY, TLBI.
-/
namespace Sys2Proof.Machine

/-- R191: a software trap, resuming at the next word. -/
def execTrap (n : BitVec 15) (g : Guard) (s : State) : Out :=
  s.issue (.trap n g) .none .any g (fun s => s.trapAt 0x32 (n.setWidth 64) (s.me.pc + 4))

/-- R193: a request to the bay runtime; from slot 0 or a spindle it is a privilege violation. The queue has one entry per slot: a later one
of the slot takes its place. -/
def execSvc (n : BitVec 15) (g : Guard) (s : State) : Out :=
  s.issue (.svc n g) .none .any g (fun s =>
    let u := s.unitOf s.cur
    let slot := (s.slotOf s.cur).getD 0
    if u.sp || slot == 0 then s.raise 0x04 (wordOf (.svc n g))
    else (s.modTen u.die u.bay s.me.tag (fun t =>
      { t with svcq := t.svcq.filter (fun e => e.slot != slot) ++ [⟨slot, s.me.gen, n.toNat⟩] })).waitOn s.cur .svc)

/-- R190: STS and pc from w20, in handler mode only. -/
def execRft (g : Guard) (s : State) : Out :=
  s.issue (.rft g) .none .any g (fun s =>
    if !s.me.hm then s.raise 0x04 (wordOf (.rft g))
    else if bits (lo64 s.me.regs[20]) 1 0 != 0 then s.raise 0x09 (lo64 s.me.regs[20])
    else s.modStrand s.cur returnFrom)

/-- R192: halts where DBGC.HEN allows it, else a breakpoint. -/
def execHalt (g : Guard) (s : State) : Out :=
  s.issue (.halt g) .none .any g (fun s =>
    if bit (s.unit (s.unitOf s.cur)).hen ((s.slotOf s.cur).getD 0) then
      (s.retire nothing).modStrand s.cur (fun t => { t with status := .halted })
    else s.raise 0x31 0)

/-- A bay is in an active loom for a tenant (R271): its slots 13 and 14 are no workers. -/
def State.loomOn (s : State) (tag die bay : Nat) : Bool := (s.ten die bay tag).loom.act

/-- A slot that R131 swaps: a worker of a compute core. -/
def State.swapSlot (s : State) (x : Nat) : Bool :=
  let t := s.strand x
  match t.place with
  | .slot u n => !u.sp && decide (1 ≤ n) && (decide (n ≤ 12) || (decide (n ≤ 14) && !s.loomOn t.tag u.die u.bay))
  | _ => false

/-- Handles bound in a slot (R307). -/
def State.handlesAt (s : State) (u : UnitId) (tag n : Nat) : List (Nat × Nat) := Tbl.get [] (s.ten u.die u.bay tag).handles (slotNo u n)

/-- A posting that will bind a handle of the strand's slot (R308, R280). -/
def Wait.binds : Wait → Bool
  | .post (.fork _ _) _ _ => true
  | .post (.asn _) _ _ => true
  | _ => false

/-- Residents kept in place (R131): a ring binding, a handle that is bound or that a posting under way binds (R308), or a wait on SVC. -/
def State.keptInPlace (s : State) (x : Nat) : Bool :=
  let t := s.strand x
  t.irv || t.orv || t.wait == .svc || t.wait.binds ||
  (match t.place with
   | .slot u n => !(s.handlesAt u t.tag n).isEmpty
   | _ => false)

/-- The creel of a unit for a tenant. -/
def State.creelOf (s : State) (u : UnitId) (tag : Nat) : List Nat :=
  let t := s.ten u.die u.bay tag
  if u.sp then t.spcreel else t.creel

/-- R194: ends the slot's creel quantum where R131 would swap its strand. -/
def execYield (g : Guard) (s : State) : Out :=
  s.issue (.yield g) .none .any g (fun s =>
    let ends := !(s.creelOf (s.unitOf s.cur) s.me.tag).isEmpty && s.swapSlot s.cur && !s.keptInPlace s.cur
    let s1 := s.retire nothing
    if ends then s1.modStrand s.cur (fun t => { t with yielded := true }) else s1)

/-- R194: changes nothing. -/
def execNop (g : Guard) (s : State) : Out := s.issue (.nop g) .none .any g (fun s => s.retire nothing)

/-- R161: the next instruction takes IMM22 as the high bits of its immediate. -/
def execImm (v : BitVec 22) (s : State) : Out :=
  .next (if s.me.ppx then s.raiseEarly 0x02 (wordOf (.imm v))
    else s.modStrand s.cur (fun t => { t with sts := clearPrefix t.sts ||| pack [(1, 63), (v.toNat, 32)], pc := t.pc + 4 }))

/-- R162: the next instruction takes these fields. -/
def execFmt (sat mask : Bool) (rnd : BitVec 3) (ty : BitVec 4) (s : State) : Out :=
  .next (if s.me.ppx then s.raiseEarly 0x02 (wordOf (.fmt sat mask rnd ty))
    else s.modStrand s.cur (fun t => { t with
      sts := clearPrefix t.sts ||| pack [(1, 63), (1, 62), (b2n sat, 40), (b2n mask, 39), (rnd.toNat, 36), (ty.toNat, 32)], pc := t.pc + 4 }))

/-- A hint (R160, R163): nothing but the next word; after a prefix it is an illegal prefix (R164). -/
def hintStep (i : Instr) (s : State) (f : Strand → Strand) : Out :=
  .next (if s.me.ppx then s.raiseEarly 0x02 (wordOf i) else s.modStrand s.cur (fun t => { f t with pc := t.pc + 4 }))

/-- R163, code 0x01: fetch may run ahead; nothing a program sees changes. -/
def execHintBranchTarget (o : BitVec 16) (s : State) : Out := hintStep (.hintBranchTarget o) s id

/-- R163, code 0x02: the strand borrows no turn for its next 16 turns. -/
def execHintNoBorrow (o : BitVec 16) (s : State) : Out := hintStep (.hintNoBorrow o) s (fun t => { t with noBorrow := 16 })

/-- R163: any other code has no effect. -/
def execHint (o : BitVec 16) (code : BitVec 8) (s : State) : Out := hintStep (.hint o code) s id

/-- R159, R164: the word traps as illegal. -/
def execIllegalInstruction (w : W32) (s : State) : Out := .next (s.raiseEarly 0x01 (w.setWidth 64))

/-- R187: the trap that a strand holds is taken, or that of the oldest store that it has lost (R320). -/
def State.takeDeferred (s : State) (x : Nat) : Option State :=
  match (s.strand x).pend with
  | none =>
    match (s.strand x).lost with
    | [] => none
    | v :: rest =>
      if (s.strand x).status != .ready || (s.strand x).wait != .none then none
      else some ((s.modStrand x (fun t => { t with lost := rest })).takeTrap x 0x18 v (s.strand x).pc)
  | some (c, v) =>
    if (s.strand x).status != .ready then none
    else some ((s.modStrand x (fun t => { t with pend := none })).takeTrap x c v (s.strand x).pc)

/-- The entry word of the SVC queue (Table 10-7). -/
def SvcEntry.word (e : SvcEntry) : W64 := pack [(1, 63), (e.slot, 48), (e.gen, 32), (e.n, 0)]

/-- SVCQ (R193): the oldest entry is read and removed; 0 with none. -/
def State.svcPop (s : State) (u : UnitId) (tag : Nat) : W64 × State :=
  match (s.ten u.die u.bay tag).svcq with
  | [] => (0, s)
  | e :: rest => (e.word, s.modTen u.die u.bay tag (fun t => { t with svcq := rest }))

/-- SVCDONE (R193): the caller resumes at the word after SVC; a name that does not wait has no effect. For a strand that the
watchdog holds it is recorded (R329). -/
def State.svcDone (s : State) (u : UnitId) (tag : Nat) (v : W64) : State :=
  match s.inSlot u tag (bits v 51 48) with
  | none => s
  | some x =>
    let t := s.strand x
    if t.gen != bits v 47 32 || t.wait != .svc then s else s.answer x nothing

/-- A message is a delivery of strand `x` to its own die (R82). -/
def Msg.deliveryOf (m : Msg) (x : Nat) : Bool :=
  match m with
  | .deliver _ _ _ _ y _ _ _ => y == x
  | _ => false

/-- A delivery of a strand to its own die is still on its way (R82). -/
def State.undelivered (s : State) (x : Nat) : Bool := s.msgs.any (fun m => m.2.deliveryOf x)

/-- The earlier accesses of a strand are performed (R193): its deliveries, and the entries of its die's buffers numbered below `upto`. -/
def State.accessesDone (s : State) (x upto : Nat) : Bool := !s.undelivered x && s.drained (s.dieOf x) true upto

/-- SVCDONE's reserved bits are zero (R193). -/
def svcDoneOk (v : W64) : Bool := bits v 63 52 == 0 && bits v 31 0 == 0

/-- The checks of FEFILL and FEEMPTY (R195): the cause of the trap. -/
def State.feCheck (s : State) (tag die bay : Nat) (v : W64) : Option Nat :=
  let off := bits v 17 3 * 8
  let n := bits v 32 18 + 1
  if bits v 63 33 != 0 || bits v 2 0 != 0 || decide (262144 < off + 8 * n) then some 0x01
  else if !inPart (s.spadPart tag die bay) off (8 * n) then some 0x0C
  else none

/-- FEFILL and FEEMPTY begin (R195): every word of the range in ascending order, each in a step of its own. -/
def State.feRange (s : State) (tag die bay : Nat) (full : Bool) (v : W64) (x : Option Nat) : State :=
  s.addMsg (.fe tag die bay full (bits v 17 3) (bits v 32 18 + 1) x)

/-- The next word of a FEFILL or FEEMPTY (R40, R195), once no parked access of it can proceed (R41): its bit changes, and the entries of its
park table that can now proceed are enabled. After the last word the CSRW that asked for it is answered. -/
def State.feStep (s : State) (id tag die bay : Nat) (full : Bool) (next left : Nat) (x : Option Nat) : Option State :=
  if (s.parkFirst (coreOf die bay) (Loc.spad die bay (8 * next)).word).isSome then none
  else some (
  let s1 := s.setFullBit full (s.bitNo tag (.spad die bay (8 * next)))
  if 1 < left then { s1 with msgs := Tbl.set s1.msgs id (.fe tag die bay full (next + 1) (left - 1) x) }
  else
    let s2 := { s1 with msgs := Tbl.del s1.msgs id }
    match x with
    | some y => s2.answer y nothing
    | none => s2)

/-- A write of FEFILL or FEEMPTY through the bay's control space, by firmware or the host (R195). -/
def State.feControl (s : State) (die bay : Nat) (full : Bool) (v : W64) : State :=
  match s.feCheck 31 die bay v with
  | some c => s.emit (.refused c v)
  | none => s.feRange 31 die bay full v none

/-- Slots of a unit whose strand is halted (Table 10-6). -/
def State.haltedMask (s : State) (u : UnitId) : Nat :=
  (List.range 16).foldl (fun m n =>
    match s.tenantOf u n with
    | some tag => match s.inSlot u tag n with
      | some x => if (s.strand x).status = .halted then m + 2 ^ n else m
      | none => m
    | none => m) 0

/-- DBGC as it reads (Table 10-6). -/
def State.dbgc (s : State) (u : UnitId) : W64 := pack [(s.haltedMask u, 32), ((s.unit u).hen.toNat, 0)]

/-- DBGC_RESUME (R192): the named slots that HALT halted resume. A strand held for its runtime is resolved by XTR only (R316). -/
def State.dbgcResume (s : State) (u : UnitId) (slots : BitVec 16) : State :=
  (List.range 16).foldl (fun s n =>
    if !bit slots n then s
    else match s.tenantOf u n with
      | none => s
      | some tag => match s.inSlot u tag n with
        | none => s
        | some x => if (s.strand x).status = .halted && (s.strand x).held.isNone then s.toReady x else s) s

/-- A control and status register that a unit has (R186, Table 10-4). -/
def csrAssigned (sp : Bool) (n : Nat) : Bool :=
  if sp then decide (n ≤ 3) || n == 0x46 else decide (n ≤ 3) || (decide (0x40 ≤ n) && decide (n ≤ 0x46))

/-- CSRs with read access (Table 10-4). -/
def csrReadable (n : Nat) : Bool := decide (n ≤ 3) || n == 0x42 || n == 0x43 || n == 0x44 || n == 0x46

/-- CSRs with write access (Table 10-4). -/
def csrWritable (n : Nat) : Bool := n == 0 || n == 0x40 || n == 0x41 || n == 0x42 || n == 0x45 || n == 0x46

/-- The value of a CSR for the issuing strand (Table 10-4), and the state after the read. -/
def State.csrRead (s : State) (n : Nat) : W64 × State :=
  let t := s.me
  let u := s.unitOf s.cur
  if n = 0 then (t.sts, s)
  else if n = 1 then (w64 (s.unitCycle u), s)
  else if n = 2 then (w64 t.tag, s)
  else if n = 3 then (t.tvec, s)
  else if n = 0x42 then ((s.unit u).crcfg, s)
  else if n = 0x43 then (s.dbgc u, s)
  else if n = 0x44 then s.svcPop u t.tag
  else (w64 (s.unit u).orph, s)

/-- R186, CSRR. -/
def execCsrr (d : Dst) (csr : BitVec 10) (g : Guard) (s : State) : Out :=
  s.issue (.csrr d csr g) .none .any g (fun s =>
    let n := csr.toNat
    let head := s.slotOf s.cur == some 0
    if !csrAssigned (s.unitOf s.cur).sp n || !csrReadable n then s.raise 0x01 (wordOf (.csrr d csr g))
    else if (n == 0x42 || n == 0x44) && !head then s.raise 0x04 (wordOf (.csrr d csr g))
    else s.dstBound d (fun s =>
      let r := s.csrRead n
      r.2.retire (scalar d r.1)))

/-- The fields of CRCFG that are not reserved (Table 6-8). -/
def crcfgMask : W64 := 0x0000FF000003FE00#64

/-- R186, CSRW. -/
def execCsrw (csr : BitVec 10) (a : Src) (g : Guard) (s : State) : Out :=
  s.issue (.csrw csr a g) .none .any g (fun s =>
    let n := csr.toNat
    let u := s.unitOf s.cur
    let head := s.slotOf s.cur == some 0
    if !csrAssigned u.sp n || !csrWritable n then s.raise 0x01 (wordOf (.csrw csr a g))
    else if (n == 0x42 || n == 0x45 || n == 0x46) && !head then s.raise 0x04 (wordOf (.csrw csr a g))
    else s.src a (fun v s1 =>
      let w := lo64 v
      if n = 0 then
        (s1.retire nothing).modStrand s.cur (fun t =>
          { t with sts := (t.sts &&& ~~~(0x1000000000003F80#64)) ||| (w &&& 0x1000000000003F80#64) })
      else if n = 0x42 then (s1.modUnit u (fun c => { c with crcfg := w &&& crcfgMask })).retire nothing
      else if n = 0x46 then (s1.modUnit u (fun c => { c with orph := w.toNat % 2 ^ 32 })).retire nothing
      else if n = 0x45 then
        if !svcDoneOk w then s.raise 0x01 (wordOf (.csrw csr a g))
        else if s.accessesDone s.cur s.serial then (s1.svcDone u s.me.tag w).retire nothing
        else s1.waitOn s.cur (.svcdone w s.serial)
      else
        match s.feCheck s.me.tag u.die u.bay w with
        | some c => s.raise c (if c = 1 then wordOf (.csrw csr a g) else w64 (bits w 17 3 * 8))
        | none => (s1.waitOn s.cur .fe).feRange s.me.tag u.die u.bay (n == 0x40) w (some s.cur)))

/-- R196, TLBI: from the head or firmware; the covered translations are invalidated and the covered walks restart, and the strand
waits for completion. -/
def execTlbi (a b : Src) (g : Guard) (s : State) : Out :=
  s.issue (.tlbi a b g) .none .any g (fun s =>
    let t := s.me
    let head := !(s.unitOf s.cur).sp && s.slotOf s.cur == some 0
    if !head && t.tag != 31 then s.raise 0x04 (wordOf (.tlbi a b g))
    else s.src2 a b (fun x y s1 =>
      let va := lo64 x
      let w := lo64 y
      let mode := bits w 63 62
      let count := bits w 31 0
      if mode == 3 || bits w 61 32 != 0 || (mode != 0 && count != 0) then s.raise 0x01 (wordOf (.tlbi a b g))
      else if mode == 0 && !canonical va then s.raise 0x08 va
      else if mode == 0 && count == 0 then s1.retire nothing
      else
        let c := coverOf t.tag mode va.toNat count
        ((s1.invalidate c).restartWalks c).waitOn s.cur (.tlbi mode va.toNat count)))

/-- R187, DEFERRED_TRAP: taken at the strand's turn. -/
def execDeferredTrap (x : Nat) (s : State) : Out := s.ifEnabled (s.takeDeferred x)

/-- R192, DBGC_RESUME. -/
def execDbgcResume (u : UnitId) (slots : BitVec 16) (s : State) : Out := s.ifEnabled (some (s.dbgcResume u slots))

/-- R195, FEFILL, written through control space. -/
def execFefill (die bay : Nat) (v : W64) (s : State) : Out := s.ifEnabled (some (s.feControl die bay true v))

/-- R195, FEEMPTY, written through control space. -/
def execFeempty (die bay : Nat) (v : W64) (s : State) : Out := s.ifEnabled (some (s.feControl die bay false v))

/-- R193, SVCQ: the head's read returns and removes the oldest entry of its bay's SVC queue. -/
def execSvcq (u : UnitId) (tag : Nat) (d : Dst) (s : State) : Out :=
  let r := s.svcPop u tag
  .next (r.2.retire (scalar d r.1))

/-- R193, SVCDONE: the head's write resumes the named caller. -/
def execSvcdone (u : UnitId) (tag : Nat) (v : W64) (s : State) : Out :=
  .next (if svcDoneOk v then s.svcDone u tag v else s.emit (.refused 0x01 v))

end Sys2Proof.Machine
end

