-- ==== Sys2Proof/Machine/Creel.lean ====
section
/-!
DEFINITION. The creel and the placing of strands in slots (spec 06, R129 to R132, R135).
-/
namespace Sys2Proof.Machine

/-- Slots that a new strand of a unit may take, in order (R130, R133): 1 to 12, then 13 and 14 outside a loom; 0 to 7 on a spindle. -/
def State.slotChoices (s : State) (u : UnitId) (tag : Nat) : List Nat :=
  if u.sp then List.range 8
  else fromUp 1 12 ++ (if s.loomOn tag u.die u.bay then [] else [13, 14])

/-- The slot of R130: the first of them that is free. -/
def State.freeSlot (s : State) (u : UnitId) (tag : Nat) : Option Nat :=
  (s.slotChoices u tag).find? (fun n => (s.inSlot u tag n).isNone)

/-- A strand takes a slot (Table 6-7, R135): the slot's generation rises; the strand keeps the name it has on this unit, and a strand
without one is named after the slot. It is ready, unless a unit still owes it a reply (R220). -/
def State.takeSlot (s : State) (x : Nat) (u : UnitId) (n : Nat) : State :=
  let t := s.strand x
  let g := s.bumpGen u t.tag n
  g.2.modStrand x (fun t => { resumeSlot t s.clock with
    place := .slot u n, quantum := s.clock, yielded := false, hangAt := s.clock,
    nslot := if 65536 ≤ t.gen then n else t.nslot, gen := if 65536 ≤ t.gen then g.1 else t.gen })

/-- Entries of a creel in the partition's vault region, for a bay (Table 6-8). -/
def State.crvltEntries (s : State) (tag : Nat) : Nat := bits (s.part tag).crvlt 15 0

/-- Entries of a unit's creel that lie in the scratchpad (R131): NENT, none on a spindle. -/
def State.creelSpad (s : State) (u : UnitId) : Nat := if u.sp then 0 else bits (s.unit u).crcfg 47 40

/-- Entries a unit's creel holds (R131): NENT in the scratchpad and those of the bay's VENT in the vault region that the bay's other unit
leaves. -/
def State.creelRoom (s : State) (u : UnitId) (tag : Nat) : Nat :=
  let v : UnitId := { u with sp := !u.sp }
  s.creelSpad u + (s.crvltEntries tag - ((s.creelOf v tag).length - s.creelSpad v))

/-- The place of a paged address of a partition now, for a unit on die `rd`, none where its walk would not end in a leaf (R13 to R15): the
walk of at most `n` levels from one under way. -/
def State.leafNow (s : State) (va : W64) (rd : Nat) (w : Walk) : Nat → Option XLoc
  | 0 => none
  | n + 1 =>
    let pte := w64 (leNat (s.bytesAt 31 (place w.plc w.tdie w.off rd) 8))
    match s.judgeEntry w.level pte with
    | some (.leaf l e) => some (s.leafLoc l e va rd)
    | some (.bad _ _) => none
    | none => s.leafNow va rd (w.follow w.level pte) n

/-- The place of a paged address of a partition now, from its root. -/
def State.placeNow (s : State) (tag : Nat) (va : W64) (rd : Nat) : Option XLoc :=
  let w : Walk := { id := 0, tag := tag, vpn := bits va 55 16, reqs := [], active := true, top := 0, level := 0, plc := 0, tdie := 0, off := 0,
                    result := none }
  if s.pagingOn tag then s.leafNow va rd (s.walkTop w) 4 else none

/-- Where line `j` of the entry at position `i` of a unit's creel lies (R131): the first NENT in the scratchpad from CRCFG.BASE, the others in
the bay's part of the vault region, a core's from its start and a spindle's from its end (log 11). -/
def State.creelPlace (s : State) (u : UnitId) (tag i j : Nat) : Option Loc :=
  let n := s.creelSpad u
  if i < n then
    let off := bits (s.unit u).crcfg 17 9 * 512 + 512 * i + 128 * j
    if off < 262144 then some (.spad u.die u.bay off) else none
  else
    let ents := s.crvltEntries tag
    let k := if u.sp then ents - 1 - i else i - n
    let va := bits (s.part tag).crvlt 55 16 * 65536 + (bayNo u.die u.bay * ents + k) * 512 + 128 * j
    (s.placeNow tag (w64 va) u.die).map (·.loc)

/-- Stores one line of an entry where it lies. An entry is the unit's own: what its bytes hold meanwhile is not read back (log 11).
Where CRVLT names no place of this device, nothing is stored and the strand keeps its entry (the model's choice, log 124). -/
def State.creelStore (s : State) (u : UnitId) (tag i j : Nat) (bs : List Byte) : State :=
  match s.creelPlace u tag i j with
  | none => s
  | some (.foreign _ _) => s
  | some l => (s.writeAt tag l bs).storeTimes l ((s.lineAt l).rts + 1) (s.lineAt l).stamp

/-- Stores the entries of a unit's creel where they lie: 512 bytes each, the saved context and the order record (R122, R131). -/
def State.creelSave (s : State) (u : UnitId) (tag : Nat) : State :=
  let l := s.creelOf u tag
  (List.range l.length).foldl (fun s i =>
    let bs := packetBytes (s.strand (nth 0 l i))
    [0, 1, 2, 3].foldl (fun s j => s.creelStore u tag i j ((bs.drop (128 * j)).take 128)) s) s

/-- Stores a strand's entry again where it is in a creel: a reply or a message has been written into it (R131, R135). -/
def State.creelTouch (s : State) (x : Nat) : State :=
  match (s.strand x).place with
  | .creel u => s.creelSave u (s.strand x).tag
  | _ => s

/-- Replaces the creel of a unit. -/
def State.setCreel (s : State) (u : UnitId) (tag : Nat) (l : List Nat) : State :=
  s.modTen u.die u.bay tag (fun b =>
    if u.sp then { b with spcreel := l }
    else { b with creel := l, creelAt := if b.creel.isEmpty && !l.isEmpty then s.clock else b.creelAt })

/-- A creel overflow (R131, R314): the strand is held in its record. The slot and generation of a name that it has not taken yet are
free (log 2). -/
def State.creelOverflow (s : State) (x : Nat) (u : UnitId) : State :=
  let s1 :=
    if (s.strand x).gen < 65536 then s
    else
      let r := s.freeBits 20
      r.2.modStrand x (fun t => { t with nslot := r.1.toNat / 65536, gen := 65536 + r.1.toNat % 65536 })
  let s2 := s1.modStrand x (fun t => { t with place := .record u })
  s2.deliver x 2 0x26 (s2.nameOf x) (s2.strand x).pc

/-- A strand enters the tail of a creel, or its arrival overflows (R131): a creel overflow goes to the runtime with its context. -/
def State.enterCreel (s : State) (x : Nat) (u : UnitId) : State :=
  let tag := (s.strand x).tag
  let c := s.creelOf u tag
  if c.length < s.creelRoom u tag then
    ((s.setCreel u tag (c ++ [x])).modStrand x (fun t => { t with place := .creel u })).creelSave u tag
  else s.creelOverflow x u

/-- A strand is placed in a slot of R130, or in the creel. -/
def State.settleIn (s : State) (x : Nat) (u : UnitId) : State :=
  match s.freeSlot u (s.strand x).tag with
  | some n => s.takeSlot x u n
  | none => s.enterCreel x u

/-- The head of a creel takes a slot. -/
def State.creelEnter (s : State) (u : UnitId) (tag n : Nat) : State :=
  match s.creelOf u tag with
  | [] => s
  | y :: rest => ((s.setCreel u tag rest).takeSlot y u n).creelSave u tag

/-- The quantum of a slot's strand has ended while the creel holds a strand (R131, R194). -/
def State.quantumOver (s : State) (x : Nat) : Bool :=
  let t := s.strand x
  let u := s.unitOf x
  s.swapSlot x && !(s.creelOf u t.tag).isEmpty &&
  (t.yielded || decide (Nat.max t.quantum (s.ten u.die u.bay t.tag).creelAt + 4096 ≤ s.clock)) &&
  (t.status == .ready || t.status == .waiting)

/-- The quantum starts again for a strand that is kept in place (R131). What a YIELD ended, it ended for the strand's next turn only
(R194). -/
def State.requantum (s : State) (x : Nat) : State :=
  if s.quantumOver x && s.keptInPlace x then s.modStrand x (fun t => { t with quantum := s.clock, yielded := false })
  else if (s.strand x).yielded then s.modStrand x (fun t => { t with yielded := false })
  else s

end Sys2Proof.Machine
end

