-- ==== Sys2Proof/Machine/Field.lean ====
section
/-!
DEFINITION. The position field (spec 07; spec 12, R250, R251): its tables in scratchpad, the settle release (R147), POSR, NBR and
FMAP of major 0x2C. SETTLE is in Settle.lean.
-/
namespace Sys2Proof.Machine

/-- Word `i` of a field's descriptor (Table 7-1). -/
def Field.word (f : Field) (i : Nat) : W64 := nth 0 f.desc i

/-- A 32-bit field as a signed Q16.16 value. -/
def q16 (n : Nat) : Int := if n < 2 ^ 31 then (n : Int) else (n : Int) - (2 ^ 32 : Nat)

/-- Halo width (Table 7-1). -/
def Field.halo (f : Field) : Int := q16 (bits (f.word 4) 31 0)

/-- Cell entries per bank. -/
def Field.cap (f : Field) : Nat := bits (f.word 5) 17 8

/-- Halo entries per bank. -/
def Field.hcap (f : Field) : Nat := bits (f.word 6) 49 40

/-- Scratchpad offset of entry `i` of cell bank `b` (R145). -/
def Field.cellOff (f : Field) (b i : Nat) : Nat := bits (f.word 5) 31 18 * 16 + b * f.cap * 32 + i * 32

/-- Scratchpad offset of entry `i` of halo bank `b` (R145). -/
def Field.haloOff (f : Field) (b i : Nat) : Nat := bits (f.word 6) 63 50 * 16 + b * f.hcap * 32 + i * 32

/-- The settle barrier's instance. -/
def Field.bi (f : Field) : Nat := bits (f.word 6) 36 27

/-- A bay's halo region holds a point (R146). -/
def Field.inHalo (f : Field) (b : FieldBay) (p : P3) : Bool :=
  let h := f.halo
  b.boxed && !f.inBox b.lo b.hi p &&
  f.inBox ⟨b.lo.x - h, b.lo.y - h, b.lo.z - h⟩ ⟨b.hi.x + h, b.hi.y + h, b.hi.z + h⟩ p

/-- Entries in a cell bank. -/
def FieldBay.cells (b : FieldBay) (k : Nat) : Nat := if k = 0 then b.cnt0 else b.cnt1

/-- Entries in a halo bank. -/
def FieldBay.halos (b : FieldBay) (k : Nat) : Nat := if k = 0 then b.hcnt0 else b.hcnt1

/-- Sets the count of a cell bank. -/
def FieldBay.setCells (b : FieldBay) (k n : Nat) : FieldBay := if k = 0 then { b with cnt0 := n } else { b with cnt1 := n }

/-- Sets the count of a halo bank. -/
def FieldBay.setHalos (b : FieldBay) (k n : Nat) : FieldBay := if k = 0 then { b with hcnt0 := n } else { b with hcnt1 := n }

/-- How an entry's 16 bytes are stored at a place. -/
abbrev Putter := State → Loc → List Byte → State

/-- Stores an entry of 32 bytes (R145). -/
def putEntry (put : Putter) (s : State) (die bay off : Nat) (e : List Byte) : State :=
  put (put s (.spad die bay off) (e.take 16)) (.spad die bay (off + 16)) (e.drop 16)

/-- An append at one bay (R146): in its cell bank where its box holds the position, in its halo bank where its halo region does. -/
def fileBay (put : Putter) (f : Field) (k : Nat) (e : List Byte) (p : P3) (s : State) (b : FieldBay) : FieldBay × State :=
  if f.inBox b.lo b.hi p then
    if b.cells k < f.cap then (b.setCells k (b.cells k + 1), putEntry put s f.die b.bay (f.cellOff k (b.cells k)) e)
    else ({ b with ovf := true }, s)
  else if f.inHalo b p then
    if b.halos k < f.hcap then (b.setHalos k (b.halos k + 1), putEntry put s f.die b.bay (f.haloOff k (b.halos k)) e)
    else ({ b with hovf := true }, s)
  else (b, s)

/-- Files an entry at every bay of a list. -/
def fileBays (put : Putter) (f : Field) (k : Nat) (e : List Byte) (p : P3) : State → List FieldBay → List FieldBay × State
  | s, [] => ([], s)
  | s, b :: bs =>
    let r := fileBay put f k e p s b
    let q := fileBays put f k e p r.2 bs
    (r.1 :: q.1, q.2)

/-- An entry of a cell or halo table (R145). -/
def entryBytes (v : W128) (name : W64) : List Byte := leBytes 16 v.toNat ++ leBytes 8 name.toNat ++ leBytes 8 0

/-- A store that takes no order step: the settle release is a step of the machine itself (R147). -/
def putPlain (tag : Nat) : Putter := fun s l bs =>
  match s.keyOf tag l with
  | some k => s.putBytes k bs
  | none => s

/-- The entries of a cell bank of a bay, as the words stand (R145). -/
def State.cellEntries (s : State) (f : Field) (b : FieldBay) (k : Nat) : List (List Byte) :=
  (List.range (b.cells k)).map (fun i => s.mem.readBytes (s.spadAt f.tag f.die b.bay (f.cellOff k i)) 32)

/-- The entries of a halo bank of a bay. -/
def State.haloEntries (s : State) (f : Field) (b : FieldBay) (k : Nat) : List (List Byte) :=
  (List.range (b.halos k)).map (fun i => s.mem.readBytes (s.spadAt f.tag f.die b.bay (f.haloOff k i)) 32)

/-- The copy of w23 in an entry. -/
def entryW23 (e : List Byte) : W128 := w128 (leNat (e.take 16))

/-- The name in an entry. -/
def entryName (e : List Byte) : W64 := w64 (leNat ((e.drop 16).take 8))

/-- Replaces the record of a bay in a list of bay records. -/
def putBay (bs : List FieldBay) (b : FieldBay) : List FieldBay := bs.map (fun c => if c.bay = b.bay then b else c)

/-- A split that step 1 of R147 joins again: neither part has split since, it is older than this release, and the joint population
is below MERGE. A later split that has been merged again does not count (log 105). -/
def Field.mergeable (f : Field) (k : Nat) (sp : Split) : Bool :=
  let later := (f.splits.dropWhile (fun t => t != sp)).drop 1
  let pop (n : Nat) := match f.bayRec n with
    | some b => b.cells k
    | none => 0
  decide (sp.phase < f.phase) && !later.any (fun t => t.bay == sp.bay || t.bay == sp.spare) &&
  decide (pop sp.bay + pop sp.spare < bits (f.word 5) 47 32)

/-- One merge (R147, step 1): the upper box rejoins its parent and the spare is free again. -/
def Field.mergeOne (f : Field) (sp : Split) : Field :=
  match f.bayRec sp.bay, f.bayRec sp.spare with
  | some p, some c =>
    { f with bays := putBay (putBay f.bays { p with hi := c.hi }) { c with boxed := false, lo := ⟨0, 0, 0⟩, hi := ⟨0, 0, 0⟩ },
             spares := f.spares ++ [sp.spare], splits := f.splits.filter (fun t => t != sp) }
  | _, _ => f

/-- The axis along which a box splits: the longest, x before y before z (R147). -/
def Field.splitAxis (f : Field) (b : FieldBay) : Nat :=
  let ex := b.hi.x - b.lo.x
  let ey := b.hi.y - b.lo.y
  let ez := b.hi.z - b.lo.z
  if decide (ey ≤ ex) && (!f.d3 || decide (ez ≤ ex)) then 0
  else if !f.d3 || decide (ez ≤ ey) then 1 else 2

/-- The point at which a box splits along an axis. -/
def splitMid (b : FieldBay) (axis : Nat) : Int :=
  match axis with
  | 0 => b.lo.x + (b.hi.x - b.lo.x) / 2
  | 1 => b.lo.y + (b.hi.y - b.lo.y) / 2
  | _ => b.lo.z + (b.hi.z - b.lo.z) / 2

/-- A point with one coordinate replaced. -/
def P3.with (p : P3) (axis : Nat) (v : Int) : P3 :=
  match axis with
  | 0 => { p with x := v }
  | 1 => { p with y := v }
  | _ => { p with z := v }

/-- Position-bound strands resident on a bay of a field. -/
def State.fieldResidents (s : State) (f : Field) (bay : Nat) : List Nat :=
  (s.strands.filter (fun e => e.2.tag == f.tag && e.2.kind == .pos && e.2.status != .stopped &&
    (match e.2.place with
     | .slot u _ => decide (u = coreOf f.die bay)
     | .creel u => decide (u = coreOf f.die bay)
     | _ => false))).map (·.1)

/-- One split (R147, step 2): refused for want of a spare, or for a resident with a bound ring in the upper part. -/
def Field.splitOne (s : State) (k : Nat) (f : Field) (n : Nat) : Field :=
  match f.bayRec n with
  | none => f
  | some b =>
    if !b.boxed || decide (b.cells k ≤ bits (f.word 5) 63 48) then f
    else
      let ax := f.splitAxis b
      let mid := splitMid b ax
      let up := b.lo.with ax mid
      let pinned := (s.fieldResidents f n).any (fun x =>
        ((s.strand x).irv || (s.strand x).orv) && f.inBox up b.hi (posOf (s.strand x).regs[23]))
      match f.spares with
      | [] => { f with bays := putBay f.bays { b with nospare := true, pin := b.pin || pinned } }
      | sp :: rest =>
        if pinned then { f with bays := putBay f.bays { b with pin := true } }
        else
          match f.bayRec sp with
          | none => f
          | some c =>
            { f with bays := putBay (putBay f.bays { b with hi := b.hi.with ax mid }) { c with boxed := true, lo := up, hi := b.hi },
                     spares := rest, splits := f.splits ++ [⟨n, sp, f.phase⟩] }

/-- Files entries again under the new boxes (R147, step 3). -/
def refile (k : Nat) : State → Field → List (List Byte) → State × Field
  | s, f, [] => (s, f)
  | s, f, e :: es =>
    let r := fileBays (putPlain f.tag) f k e (posOf (entryW23 e)) s f.bays
    refile k r.2 { f with bays := r.1 } es

/-- A resident outside its host's box after a release is marked migrating (R143, R147, step 5); one inside no longer departs.
One outside the domain, which no bay owns, stays as it was marked (the model's choice, log 127). -/
def State.markResident (s : State) (f : Field) (bay x : Nat) : State :=
  match f.ownerOf (posOf (s.strand x).regs[23]) with
  | none => s
  | some b => s.modStrand x (fun t => { t with leaving := if b.bay = bay then none else some ⟨coreOf f.die b.bay, s.serial⟩ })

/-- The entries of a bank of a field (R147): those of the cell tables by ascending bay, in table order, then those that stand in halo tables
only, their cell append having failed, as often as one halo table holds them (log 106). -/
def State.bankEntries (s : State) (f : Field) (k : Nat) : List (List Byte) :=
  let of (g : FieldBay → List (List Byte)) : List (List (List Byte)) := (List.range 2048).map (fun n => ((f.bayRec n).map g).getD [])
  let cells := (of (fun b => s.cellEntries f b k)).flatten
  let halos := of (fun b => s.haloEntries f b k)
  cells ++ halos.flatten.eraseDups.flatMap (fun e =>
    List.replicate (halos.foldl (fun m l => Nat.max m (l.count e)) 0 - cells.count e) e)

/-- Discards the neighbour cursors of a tenant's slots on a bay (R251). -/
def State.dropCursors (s : State) (die bay tag : Nat) : State := s.modTen die bay tag (fun b => { b with cursors := [] })

/-- The release of a field's open phase (R147): merges, splits, filing again, emptying, and marks; cursors are discarded (R251). -/
def State.settleRelease (s : State) (id : Nat) (f : Field) : State :=
  let k := f.phase % 2
  let es := s.bankEntries f k
  let ms := f.splits.filter (f.mergeable k)
  let f1 := ms.foldl Field.mergeOne f
  let busy := ms.flatMap (fun m => [m.bay, m.spare])
  let cand := (List.range 2048).filter (fun n => (f.bayRec n).isSome && !busy.contains n)
  let f2 := cand.foldl (Field.splitOne s k) f1
  let f3 := { f2 with bays := f2.bays.map (fun b => (b.setCells k 0).setHalos k 0) }
  let r := refile k s f3 es
  let f4 := { r.2 with phase := f.phase + 1, bays := r.2.bays.map (fun b => (b.setCells (1 - k) 0).setHalos (1 - k) 0) }
  let s1 := { r.1 with fields := Tbl.set r.1.fields id f4 }
  f4.bays.foldl (fun s b => (s.fieldResidents f4 b.bay).foldl (fun s x => s.markResident f4 b.bay x)
    (s.dropCursors f4.die b.bay f4.tag)) s1

/-- The active fields whose open phases an instance's barrier carries (R141, R147). -/
def State.fieldsOf (s : State) (die inst : Nat) : List (Nat × Field) :=
  s.fields.filter (fun e => e.2.live && e.2.die == die && e.2.bi == inst)

/-- The strand's settled entry (R149), by the name it had when it was published: the field, the bay whose cell bank holds it, the bank, and
its place in the bank. -/
def State.settledEntry (s : State) (x : Nat) : Option (Field × FieldBay × Nat × Nat) :=
  let t := s.strand x
  let u := s.unitOf x
  match s.fieldAt t.tag u.die u.bay with
  | none => none
  | some (_, f) =>
    let k := (f.phase + 1) % 2
    match Tbl.find t.settled k with
    | none => none
    | some name =>
      if f.phase = 0 then none
      else
        f.bays.findSome? (fun b =>
          ((s.cellEntries f b k).findIdx? (fun e => entryName e == name)).map (fun i => (f, b, k, i)))

/-- Loads by a strand of 16 bytes at each of some scratchpad offsets of a bay (R67). -/
def State.loads16 (s : State) (x die bay : Nat) : List Nat → State
  | [] => s
  | o :: os =>
    let r := s.readTimes (s.strand x).ord (s.dieOf x) (.spad die bay o)
    (r.2.modStrand x (fun t => { t with ord := r.1 })).loads16 x die bay os

/-- The issuing strand leaves rotation with its reply under way (R250). -/
def State.replyLater (s : State) (r : Reply) : State := s.waitOn s.cur (.reply r)

/-- R250, POSR. -/
def execPosr (d : Dst) (g : Guard) (s : State) : Out :=
  s.issue (.posr d g) .none .any g (fun s => s.coreOnly (.posr d g) (fun s => s.dstBound d (fun s =>
    match s.settledEntry s.cur with
    | some (f, b, k, i) =>
      if s.me.kind != .pos then s.raise 0x3B 0
      else
        let off := f.cellOff k i
        (s.loads16 s.cur f.die b.bay [off]).replyLater (result d (w128 (leNat (s.mem.readBytes (s.spadAt f.tag f.die b.bay off) 16))))
    | none => s.raise 0x3B 0)))

/-- R250, R144: FMAP. -/
def execFmap (d : Dst) (a : Src) (g : Guard) (s : State) : Out :=
  s.issue (.fmap d a g) .none .any g (fun s => s.coreOnly (.fmap d a g) (fun s => s.ops1 d a (fun v s1 =>
    let u := s.unitOf s.cur
    match s.fieldAt s.me.tag u.die u.bay with
    | none => s.raise 0x3B 0
    | some (_, f) =>
      match f.ownerOf (posOf v) with
      | none => s.raise 0x38 (lo64 v)
      | some b => s1.replyLater (scalar d (s.unitNameWord (coreOf f.die b.bay))))))

/-- The squared distance of two points over a field's axes (R149). -/
def Field.dist2 (f : Field) (p q : P3) : Int :=
  (p.x - q.x) * (p.x - q.x) + (p.y - q.y) * (p.y - q.y) + (if f.d3 then (p.z - q.z) * (p.z - q.z) else 0)

/-- The positions of the neighbours of entry `i` of a bay's cell bank within radius `r` (R149): the other entries of that bank and of
its halo bank. -/
def State.neighbours (s : State) (f : Field) (b : FieldBay) (k i : Nat) (r : Int) : List W128 :=
  let cs := s.cellEntries f b k
  let me := posOf (entryW23 (nth [] cs i))
  ((cs.eraseIdx i ++ s.haloEntries f b k).map entryW23).filter (fun v => decide (f.dist2 me (posOf v) ≤ r * r))

/-- The neighbour cursor of the slot that a strand holds (R251). -/
def State.cursorOf (s : State) (x : Nat) : Option (List W128) :=
  match (s.strand x).place with
  | .slot u n => Tbl.find (s.ten u.die u.bay (s.strand x).tag).cursors (slotNo u n)
  | _ => none

/-- Replaces it. -/
def State.setCursor (s : State) (x : Nat) (left : List W128) : State :=
  match (s.strand x).place with
  | .slot u n => s.modTen u.die u.bay (s.strand x).tag (fun b => { b with cursors := Tbl.set b.cursors (slotNo u n) left })
  | _ => s

/-- The next neighbour of a cursor, in a free order (R149; log 10): the reply, with p15. -/
def State.nbrStep (s : State) (d : Dst) (preds : W32) (left : List W128) : State :=
  match left with
  | [] => (s.setCursor s.cur []).replyLater { result d 0 with preds := some (setPred preds 15 false) }
  | _ :: _ =>
    let n := s.freeNat
    let i := n.1 % left.length
    (n.2.setCursor s.cur (left.eraseIdx i)).replyLater { result d (nth 0 left i) with preds := some (setPred preds 15 true) }

/-- R251, R149: NBR.first. -/
def execNbrFirst (d : Dst) (a : Src) (g : Guard) (s : State) : Out :=
  s.issue (.nbrFirst d a g) .none .any g (fun s => s.coreOnly (.nbrFirst d a g) (fun s => s.ops1 d a (fun v s1 =>
    let u := s.unitOf s.cur
    let r := lane32 v 0
    if v.toNat / 2 ^ 32 != 0 then s.raise 0x01 (wordOf (.nbrFirst d a g))
    else
      match s.fieldAt s.me.tag u.die u.bay with
      | none => s.raise 0x3B 0
      | some (_, f) =>
        if s.me.kind != .pos then s.raise 0x3B 0
        else if r < 0 || f.halo < r then s.raise 0x3A (lo64 v)
        else
          match s1.settledEntry s.cur with
          | none => s.raise 0x3B 0
          | some (f, b, k, i) =>
            let ns := s1.neighbours f b k i r
            let offs := (List.range (b.cells k)).map (f.cellOff k ·) ++ (List.range (b.halos k)).map (f.haloOff k ·)
            (s1.loads16 s.cur f.die b.bay offs).nbrStep d (setPred s.me.preds 14 (b.ovf || b.hovf)) ns)))

/-- R251: NBR.next. -/
def execNbrNext (d : Dst) (g : Guard) (s : State) : Out :=
  s.issue (.nbrNext d g) .none .any g (fun s => s.coreOnly (.nbrNext d g) (fun s => s.dstBound d (fun s =>
    match s.cursorOf s.cur with
    | none => s.raise 0x3B 0
    | some left => if s.me.kind != .pos then s.raise 0x3B 0 else s.nbrStep d s.me.preds left)))

/-- FSTAT of a bay (Table 7-2). -/
def Field.fstat (f : Field) (b : FieldBay) : W64 :=
  let k := (f.phase + 1) % 2
  pack [(b2n b.ovf, 63), (b2n b.hovf, 62), (b2n b.nospare, 61), (b2n b.pin, 60), (b.halos k, 48), (b.cells k, 38), (f.phase % 2 ^ 32, 0)]

/-- FBOXX, FBOXY and FBOXZ of a bay (Table 7-3), axis 0 to 2. -/
def Field.fbox (f : Field) (b : FieldBay) (axis : Nat) : W64 :=
  let w (l h : Int) : W64 := w64 ((l % (2 ^ 32 : Nat)).toNat * 2 ^ 32 + (h % (2 ^ 32 : Nat)).toNat)
  match axis with
  | 0 => w b.lo.x b.hi.x
  | 1 => w b.lo.y b.hi.y
  | _ => if f.d3 then w b.lo.z b.hi.z else 0

end Sys2Proof.Machine
end

