-- ==== Sys2Proof/Machine/Heddle.lean ====
section
/-!
DEFINITION. The heddle network (spec 05): topology, tokens and antitokens, exits, barriers, queries, descriptors and their rewriting,
and major 0x2A (spec 12, R244, R245).
-/
namespace Sys2Proof.Machine

/-- The layers of Bitonic[32] (R98): whether a flip layer, and its k or j. -/
def layers : List (Bool × Nat) :=
  [(true, 2), (true, 4), (false, 1), (true, 8), (false, 2), (false, 1), (true, 16), (false, 4), (false, 2), (false, 1),
   (true, 32), (false, 8), (false, 4), (false, 2), (false, 1)]

/-- The heddle of a layer (counted from 0) that a wire meets: its rank in the layer (R99), lo and hi. -/
def heddleAt (layer wire : Nat) : Nat × Nat × Nat :=
  match nth (false, 1) layers layer with
  | (true, k) =>
    let lo := if wire % k < k / 2 then wire else wire / k * k + (k - 1 - wire % k)
    (lo / k * (k / 2) + lo % k, lo, lo / k * k + (k - 1 - lo % k))
  | (false, j) =>
    let lo := if wire / j % 2 = 0 then wire else wire - j
    (lo / (2 * j) * j + lo % j, lo, lo + j)

/-- Width of an instance (Table 5-3). -/
def Instance.width (i : Instance) : Nat := 2 ^ bits i.w0 60 58

/-- Layers that a width uses (R100). -/
def Instance.depth (i : Instance) : Nat := bits i.w0 60 58 * (bits i.w0 60 58 + 1) / 2

/-- A package-scope instance. -/
def Instance.package (i : Instance) : Bool := bit i.w0 62

/-- A barrier instance. -/
def Instance.barrier (i : Instance) : Bool := bit i.w0 61

/-- The barrier count N. -/
def Instance.nbar (i : Instance) : Nat := bits i.w2 23 0

/-- The stride, sign-extended (Table 5-3). -/
def Instance.stride (i : Instance) : W64 := sextN (bits i.w0 31 0) 32

/-- Passes a toggle (R97): whether the token or antitoken leaves on hi, and the instance after it. -/
def Instance.pass (i : Instance) (key : Nat) (anti : Bool) : Bool × Instance :=
  let t := i.tog.contains key
  (if anti then !t else t, { i with tog := if t then setDel i.tog key else setAdd i.tog key })

/-- The toggle key of a die's heddle (R99). -/
def heddleKey (die layer rank : Nat) : Nat := 1000 * die + 16 * layer + rank

/-- The toggle key of a tree heddle: 0 the root, 1 and 2 the two below it (R108). -/
def treeKey (node : Nat) : Nat := 4000 + node

/-- Where a token enters a die's network, on the wire of R101. -/
def Instance.enterAt (i : Instance) (die wire0 : Nat) : TokenAt :=
  if i.width = 1 then .exit die 0 else .wire die 0 (wire0 % i.width)

/-- The die whose record an instance named from a die has (R103, R244): package-scope instances are kept with die 0. -/
def State.instDie (s : State) (die inst : Nat) : Nat :=
  if 960 ≤ inst && bit (s.inst 0 inst).w0 62 then 0 else die

/-- The entry-wire number of a strand before it is taken modulo the width (R101): that of the slot it holds as its token enters. One that
was swapped to the creel while its release was awaited enters as from slot 0, the model's choice (log 115). -/
def State.entryNo (s : State) (x : Nat) : Nat :=
  let u := s.unitOf x
  16 * u.bay + (if u.sp then 8 else 0) + (s.slotOf x).getD 0

/-- The checks of a request at issue (R106): the cause of its trap. `mode` is the mode it needs, none for a query. -/
def State.instCheck (s : State) (tag die inst : Nat) (mode : Option Bool) : Option Nat :=
  let i := s.inst die inst
  if bits i.w0 57 53 != tag && tag != 31 then some 0x0C
  else if !bit i.w0 63 then some 0x28
  else match mode with
  | none => none
  | some b => if i.barrier == b then none else some 0x28

/-- The entry step of a token, antitoken or arrival (R112); its strand waits for the reply. -/
def State.enterToken (s : State) (x die inst : Nat) (k : HedKind) (d : Dst) : State :=
  let i := s.inst die inst
  let w := s.entryNo x
  let tok : Token := { id := s.nextId, die := die, inst := inst, x := x, kind := k, wire0 := w, stamp := (s.strand x).ord.rs,
                       at_ := if i.package then .tree 0 else i.enterAt die w }
  let s1 := { (s.modInst die inst (fun i => { i with entered := i.entered + 1 })) with tokens := s.tokens ++ [tok], nextId := s.nextId + 1 }
  s1.waitOn x (.token tok.id k d)

/-- Whether a kind is an antitoken. -/
def HedKind.anti? : HedKind → Bool
  | .anti => true
  | .token => false
  | .arrive => false
  | .settle _ _ _ => false

/-- Moves a token. -/
def State.moveToken (s : State) (id : Nat) (a : TokenAt) : State :=
  { s with tokens := s.tokens.map (fun t => if t.id = id then { t with at_ := a } else t) }

/-- A heddle step of a token (R97, R108, R112). -/
def State.passHeddle (s : State) (t : Token) : Option State :=
  let i := s.inst t.die t.inst
  let anti := HedKind.anti? t.kind
  match t.at_ with
  | .tree n =>
    let r := i.pass (treeKey n) anti
    let s1 := s.modInst t.die t.inst (fun _ => r.2)
    let dest : TokenAt := match n with
      | 0 => .tree (if r.1 then 2 else 1)
      | 1 => i.enterAt (if r.1 then 2 else 0) t.wire0
      | _ => i.enterAt (if r.1 then 3 else 1) t.wire0
    some (s1.moveToken t.id dest)
  | .wire d l w =>
    let h := heddleAt l w
    let r := i.pass (heddleKey d l h.1) anti
    let s1 := s.modInst t.die t.inst (fun _ => r.2)
    let out := if r.1 then h.2.2 else h.2.1
    some (s1.moveToken t.id (if l + 1 < i.depth then .wire d (l + 1) out else .exit d out))
  | .exit _ _ => none
  | .parked _ _ => none

/-- HEDDLE_STEP (R112): token `id` of an instance passes one heddle. -/
def State.heddleStep (s : State) (die inst id : Nat) : Option State :=
  match s.tokens.find? (fun t => t.id == id && t.die == die && t.inst == inst) with
  | none => none
  | some t => s.passHeddle t

/-- Removes a token. -/
def State.dropToken (s : State) (id : Nat) : State := { s with tokens := s.tokens.filter (fun t => t.id != id) }

/-- The index handed out at an exit (R107, R108). -/
def Instance.index (i : Instance) (d e k : Nat) : Nat :=
  if i.package then d + 4 * (e + i.width * k) else e + i.width * k

/-- The value of an index (R107). -/
def Instance.value (i : Instance) (v : Nat) : W64 := i.w1 + i.stride * w64 v

/-- A reply comes to a strand that the watchdog holds (R329): its register is written in the saved context, and its wait is over once it goes
on. A write of w23, which is checked (R142), is made then. -/
def State.heldReply (s : State) (x : Nat) (r : Reply) : State :=
  match r.d with
  | .w i => if i = 23 then s.answer x r else (s.answer x { r with d := .wz }).modStrand x (fun t => setReg t i r.v)
  | _ => s.answer x r

/-- The reply of a token or antitoken to its strand, if that still waits for it (R120). -/
def State.tokenReply (s : State) (t : Token) (i : Instance) (v : Nat) : State :=
  match (s.strand t.x).wait with
  | .token id _ d =>
    let r := result d (mk128 (w64 v) (i.value v))
    if id != t.id then s else if (s.strand t.x).held.isSome then s.heldReply t.x r else s.answer t.x r
  | _ => s

/-- The trap of a token's strand, if that still waits for it. One that the watchdog holds (R329) takes it once it goes on. -/
def State.tokenTrap (s : State) (t : Token) (cause : Nat) : State :=
  match (s.strand t.x).wait with
  | .token id _ _ =>
    if id != t.id then s
    else if (s.strand t.x).held.isSome then s.modStrand t.x (fun k => { k with wait := .none, pend := some (cause, w64 t.inst) })
    else s.defer t.x cause (w64 t.inst)
  | _ => s

/-- The reply of an arrival: its index and phase, or the start of SETTLE's wait for the phase that was open at its issue (R115, R146). -/
def State.arriveReply (s : State) (x inst v p : Nat) : State :=
  match (s.strand x).wait with
  | .token _ (.settle q lim ovf) _ =>
    s.modStrand x (fun t => { t with wait := .settle inst (q % 2 ^ 32) lim ovf, since := s.clock, susp := t.susp.map (fun _ => s.clock) })
  | .token _ _ d => s.answer x (result d (mk128 (w64 v) (w64 (p % 2 ^ 32))))
  | _ => s

/-- An exit count (R103). -/
def Instance.count (i : Instance) (d e : Nat) : Nat := Tbl.get 0 i.k (32 * d + e)

/-- Sets an exit count. -/
def Instance.setCount (i : Instance) (d e n : Nat) : Instance := { i with k := Tbl.set i.k (32 * d + e) n }

/-- The quota of a phase at an exit (R115). -/
def Instance.quota (i : Instance) (p d e : Nat) : Nat :=
  if i.package then ((p + 1) * i.nbar - (d + 4 * e) + (4 * i.width - 1)) / (4 * i.width)
  else ((p + 1) * i.nbar - e + (i.width - 1)) / i.width

/-- Dies whose exits an instance kept with die `d` uses. -/
def Instance.dies (i : Instance) (d : Nat) : List Nat := if i.package then [0, 1, 2, 3] else [d]

/-- Every exit has met its quota for a phase (R115). -/
def Instance.met (i : Instance) (die p : Nat) : Bool :=
  (i.dies die).all (fun d => (List.range i.width).all (fun e => decide (i.quota p d e ≤ i.count d e)))

/-- The sum of an instance's exit counts (R119). -/
def Instance.total (i : Instance) : Nat := i.k.foldl (fun a e => a + e.2) 0

/-- Merges a stamp into a phase's accumulator (R118). -/
def Instance.merge (i : Instance) (p : Nat) (st : V4) : Instance := { i with acc := Tbl.set i.acc p ((Tbl.get V4.zero i.acc p).vmax st) }

/-- Held arrivals whose phase has come within reach of LRP reply and merge their stamps (R118). -/
def State.freeHeld (s : State) (die inst : Nat) : State :=
  let i := s.inst die inst
  let now := i.held.filter (fun h => decide (h.p < i.lrp + 16))
  let s1 := s.modInst die inst (fun i => { i with held := i.held.filter (fun h => !decide (h.p < i.lrp + 16)) })
  now.foldl (fun s h => (s.modInst die inst (fun i => i.merge h.p h.stamp)).arriveReply h.x inst h.v h.p) s1

/-- Advances LRP past every phase whose quotas are all met (R116), with the settle release of a field in the same step (R147). -/
def State.advance (s : State) (die inst : Nat) : Nat → State
  | 0 => s
  | n + 1 =>
    let i := s.inst die inst
    if i.nbar = 0 || !i.met die i.lrp then s
    else
      let s1 := (s.fieldsOf die inst).foldl (fun s e => if !i.package && e.2.phase == i.lrp then s.settleRelease e.1 e.2 else s) s
      let s2 := s1.modInst die inst (fun i => { i with lrp := i.lrp + 1 })
      (s2.freeHeld die inst).advance die inst n

/-- An exhausted exit (R109): the requester traps and the instance sets EXH. -/
def State.exhaust (s : State) (t : Token) : State :=
  (((s.dropToken t.id).modInst t.die t.inst (fun i => { i with exh := true })).tokenTrap t 0x2A)

/-- An antitoken reclaims an index at an exit whose count is not 0 (R112). -/
def State.reclaim (s : State) (t : Token) (d e : Nat) : State :=
  let i := s.inst t.die t.inst
  let k := i.count d e - 1
  ((s.dropToken t.id).modInst t.die t.inst (fun i => i.setCount d e k)).tokenReply t i (i.index d e k)

/-- The oldest antitoken parked at an exit takes its exit step (R113). -/
def State.wakeParked (s : State) (die inst d e : Nat) : State :=
  match s.tokens.find? (fun t => t.die == die && t.inst == inst && decide (t.at_ = .parked d e)) with
  | some a => s.reclaim a d e
  | none => s

/-- An arrival's phase bookkeeping (R115, R118). -/
def State.arrived (s : State) (t : Token) (i : Instance) (v : Nat) : State :=
  let p := v / i.nbar
  let s1 := if p < i.lrp + 16 then (s.modInst t.die t.inst (fun i => i.merge p t.stamp)).arriveReply t.x t.inst v p
    else s.modInst t.die t.inst (fun i => { i with held := i.held ++ [⟨t.x, v, p, t.stamp⟩] })
  s1.advance t.die t.inst ((s1.inst t.die t.inst).total / i.nbar + 2)

/-- The exit step of a token or antitoken (R107 to R115). -/
def State.exitOf (s : State) (t : Token) (d e : Nat) : State :=
  let i := s.inst t.die t.inst
  let k := i.count d e
  if i.exh then s.exhaust t
  else if HedKind.anti? t.kind then
    if 0 < k then s.reclaim t d e
    else
      let s1 := (s.dropToken t.id).onStrand t.x (fun q => { q with hangAt := s.clock })
      { s1 with tokens := s1.tokens ++ [{ t with at_ := .parked d e }] }
  else if k = 2 ^ 43 - 1 then s.exhaust t
  else
    let v := i.index d e k
    let s1 := (s.dropToken t.id).modInst t.die t.inst (fun i => i.setCount d e (k + 1))
    match t.kind with
    | .token => (s1.tokenReply t i v).wakeParked t.die t.inst d e
    | _ => s1.arrived t i v

/-- EXIT_STEP (R112): token `id` of an instance at an exit. -/
def State.exitStep (s : State) (die inst id : Nat) : Option State :=
  match s.tokens.find? (fun t => t.id == id && t.die == die && t.inst == inst) with
  | none => none
  | some t =>
    match t.at_ with
    | .exit d e => some (s.exitOf t d e)
    | _ => none

/-- The test of a wait on a phase (R116): if it is released, the number of phases up to and including it, none where it lies before
phase 0. -/
def Instance.released (i : Instance) (p : Nat) : Option Nat :=
  let g := (i.lrp + 2 ^ 32 - p % 2 ^ 32) % 2 ^ 32
  if 1 ≤ g ∧ g ≤ 2 ^ 31 then some (i.lrp + 1 - g) else none

/-- The order step of a wait that returns (R83, R118): the accumulators of the first `n` phases not yet applied, at the instance's scope. -/
def State.applyPhases (s : State) (x die inst n : Nat) : State :=
  let i := s.inst die inst
  let key := 1024 * die + inst
  let from_ := Tbl.get 0 (s.strand x).phases key
  let vs := (i.acc.filter (fun e => decide (from_ ≤ e.1) && decide (e.1 < n))).map (·.2)
  let s1 := if i.package then s.strandApply x vs else s
  s1.modStrand x (fun t => { t with phases := Tbl.set t.phases key (Nat.max from_ n) })

/-- The test of a CWAIT (R116, R245). -/
def State.cwaitTry (s : State) (x die inst p : Nat) : Option State :=
  match (s.inst die inst).released p with
  | none => none
  | some n => some (s.applyPhases x die inst n)

/-- The test of a settle wait (R146, R116): its phase is released. A failed append traps once the wait returns. -/
def State.settleTry (s : State) (x inst p : Nat) (ovf : Bool) : Option State :=
  match s.cwaitTry x (s.dieOf x) inst p with
  | none => none
  | some s1 => some (if ovf then s1.defer x 0x39 (w64 (s.unitOf x).bay) else s1.retireReg x false nothing)

/-- A wait on a phase returns, if its phase is released (R116). -/
def State.phaseTry (s : State) (x : Nat) : Option State :=
  match (s.strand x).wait with
  | .cwait die inst p _ => (s.cwaitTry x die inst p).map (fun s => s.retireReg x false nothing)
  | .settle inst p _ ovf => s.settleTry x inst p ovf
  | _ => none

/-- Exit `n` of an instance's sweep, die by die (R119). -/
def Instance.sweepCount (i : Instance) (die n : Nat) : Nat := i.count (nth 0 (i.dies die) (n / i.width)) (n % i.width)

/-- Number of exits in a sweep. -/
def Instance.exits (i : Instance) (die : Nat) : Nat := (i.dies die).length * i.width

/-- The word of a query at the end of its sweep, from the sum of the counts that it has read (Table 5-7). -/
def State.queryWord (s : State) (die inst : Nat) (quiet : Bool) (entered sum : Nat) : W64 :=
  let i := s.inst die inst
  let mine := s.tokens.filter (fun t => t.die == die && t.inst == inst)
  let parked := mine.any (fun t => match t.at_ with | .parked _ _ => true | _ => false)
  pack [(b2n (quiet && mine.isEmpty && i.entered == entered), 63), (b2n parked, 62), (b2n i.barrier, 61), (b2n i.exh, 60),
    (if i.barrier then i.lrp % 2 ^ 32 else sum % 2 ^ 50, 0)]

/-- A heddle instruction at issue (R244, R106): its instance, checked. A request holds an in-flight record (R120). -/
def hedIssue (i : Instr) (d : Dst) (a : Src) (g : Guard) (mode : Option Bool) (body : Nat → Nat → State → State) (s : State) : Out :=
  s.issue i .none .any g (fun s => s.ops1 d a (fun v s1 =>
    let w := lo64 v
    if bits w 63 10 != 0 then s.raise 0x01 (wordOf i)
    else
      let inst := bits w 9 0
      let die := s.instDie s.myDie inst
      match s.instCheck s.me.tag die inst mode with
      | some c => s.raise c (w64 inst)
      | none => if !s.recordRoom (s.unitOf s.cur) then s else body die inst s1))

/-- R245, CNTI. -/
def execCnti (d : Dst) (a : Src) (g : Guard) (s : State) : Out :=
  hedIssue (.cnti d a g) d a g (some false) (fun die inst s => s.enterToken s.cur die inst .token d) s

/-- R245, CNTD. -/
def execCntd (d : Dst) (a : Src) (g : Guard) (s : State) : Out :=
  hedIssue (.cntd d a g) d a g (some false) (fun die inst s => s.enterToken s.cur die inst .anti d) s

/-- R245, R83, CBAR: on a package-scope instance its device-scope release is performed first. -/
def execCbar (d : Dst) (a : Src) (g : Guard) (s : State) : Out :=
  hedIssue (.cbar d a g) d a g (some true) (fun die inst s =>
    if (s.inst die inst).package then s.waitOn s.cur (.arrive die inst .arrive d s.serial)
    else s.enterToken s.cur die inst .arrive d) s

/-- The release of a package-scope arrival is performed, and its token enters (R83); the request is checked again, since the instance
may have been rewritten meanwhile (R105): if it is of die scope now, it is the one of the strand's die. -/
def State.arriveEnter (s : State) (x die inst : Nat) (k : HedKind) (d : Dst) : State :=
  let s1 := s.strandRelease x .dev
  let at_ := if (s.inst die inst).package then die else s.instDie (s.dieOf x) inst
  match s1.instCheck (s.strand x).tag at_ inst (some true) with
  | some c => s1.defer x c (w64 inst)
  | none => s1.enterToken x at_ inst k d

/-- The limit exponent of CWAIT (R245). -/
def cwaitLim (l : Nat) : Nat := if l = 0 || l = 31 then 30 else if l ≤ 9 then 10 else l

/-- R245, R116, CWAIT. -/
def execCwait (a b : Src) (g : Guard) (s : State) : Out :=
  s.issue (.cwait a b g) .none .any g (fun s => s.src2 a b (fun v q s1 =>
    let w := lo64 v
    let y := lo64 q
    if bits w 63 10 != 0 || bits y 63 37 != 0 then s.raise 0x01 (wordOf (.cwait a b g))
    else
      let inst := bits w 9 0
      let die := s.instDie s.myDie inst
      match s.instCheck s.me.tag die inst (some true) with
      | some c => s.raise c (w64 inst)
      | none => s1.waitOn s.cur (.cwait die inst (bits y 31 0) (cwaitLim (bits y 36 32)))))

/-- R119, R245, CQRY. -/
def execCqry (d : Dst) (a : Src) (g : Guard) (s : State) : Out :=
  hedIssue (.cqry d a g) d a g none (fun die inst s =>
    let quiet := !s.tokens.any (fun t => t.die == die && t.inst == inst)
    s.waitOn s.cur (.query die inst quiet (s.inst die inst).entered 0 0 d)) s

/-- BARRIER_TIMEOUT (R116, R146): a CWAIT or a settle wait expires. The value is Table 10-5's, instance and phase, and has no room for the
LRP that R116 names beside them (log 103). -/
def State.barrierTimeout (s : State) (x : Nat) : Option State :=
  match (s.strand x).wait with
  | .cwait die inst p lim =>
    if ((s.inst die inst).released p).isNone && s.expired x (2 ^ lim) then some (s.defer x 0x2B (pack [(inst, 0), (p, 10)])) else none
  | .settle inst p lim _ =>
    if ((s.inst (s.dieOf x) inst).released p).isNone && s.expired x (2 ^ lim) then some (s.defer x 0x2B (pack [(inst, 0), (p, 10)]))
    else none
  | _ => none

/-- Completes the passage of every token of an instance that is not parked (R105, step 2), in a free order (log 10). -/
def State.drainTokens (s : State) (die inst : Nat) : Nat → State
  | 0 => s
  | n + 1 =>
    let mv := s.tokens.filter (fun t => t.die == die && t.inst == inst && (match t.at_ with | .parked _ _ => false | _ => true))
    if mv.isEmpty then s
    else
      let r := s.freeNat
      match mv[r.1 % mv.length]? with
      | none => s
      | some t =>
        let s1 := match t.at_ with
          | .exit d e => r.2.exitOf t d e
          | _ => (r.2.passHeddle t).getD r.2
        s1.drainTokens die inst n

/-- A strand's wait on an instance's phase is parked at its station (R105, step 3); a withdrawn one is not (R120). -/
def State.waitsOnInst (s : State) (x : Nat) (t : Strand) (die inst : Nat) : Bool :=
  t.susp.isNone &&
  (match t.wait with
   | .cwait d i _ _ => d == die && i == inst
   | .settle i _ _ _ => s.dieOf x == die && i == inst
   | _ => false)

/-- A held wait on an instance's phase proceeds (R105, step 5): the request is checked against the new descriptor (R106). -/
def State.heldWait (s : State) (die inst x : Nat) : State :=
  match s.instCheck (s.strand x).tag die inst (some true) with
  | some c => s.defer x c (w64 inst)
  | none => s

/-- Rewrites an instance (R105): drains it, replies to held arrivals, traps parked antitokens and waits, clears it, and sets the
descriptor. A parked wait whose phase the passages have released returns first (R116). The wait of a SETTLE whose arrival is answered here
is new, so it is held until the new descriptor takes effect. -/
def State.reconfigure (s : State) (die inst : Nat) (w0 w1 w2 : W64) : State :=
  let s1 := s.drainTokens die inst (20 * s.tokens.length + 1)
  let s2 := (s1.inst die inst).held.foldl (fun s h => s.arriveReply h.x inst h.v h.p) s1
  let parked := s2.tokens.filter (fun t => t.die == die && t.inst == inst)
  let s3 : State := parked.foldl (fun s t => (s.dropToken t.id).tokenTrap t 0x2C) s2
  let waiting (s : State) := (s.strands.filter (fun (e : Nat × Strand) => s.waitsOnInst e.1 e.2 die inst)).map (·.1)
  let s4 := (waiting s).foldl (fun s x => (s.phaseTry x).getD (s.defer x 0x2C (w64 inst))) s3
  let s5 := { s4 with strands := s4.strands.map (fun (e : Nat × Strand) => (e.1, { e.2 with phases := Tbl.del e.2.phases (1024 * die + inst) })) }
  let s6 := s5.modInst die inst (fun i => { Instance.init with w0 := w0, w1 := w1, w2 := w2, entered := i.entered + 1 })
  (waiting s4).foldl (fun s x => s.heldWait die inst x) s6

/-- Part of an 8-byte register replaced by a write (R32). -/
def mergePart (p : WPart) (old v : W64) : W64 :=
  match p with
  | .full => v
  | .low => (old &&& 0xFFFFFFFF00000000#64) ||| (v &&& 0xFFFFFFFF#64)
  | .high => (old &&& 0xFFFFFFFF#64) ||| (v <<< 32)

/-- A descriptor that a write would leave is not valid (R104). -/
def badDescriptor (die inst : Nat) (w0 w2 : W64) : Bool :=
  bits w0 52 32 != 0 || bits w2 63 24 != 0 ||
  (bit w0 63 && (decide (5 < bits w0 60 58) || (bit w0 61 && bits w2 23 0 == 0) || (bit w0 62 && (die != 0 || decide (inst < 960)))))

/-- An accepted descriptor write (R104): a package-scope instance's descriptor is written on all four dies, from die 0 only. -/
def State.descriptorPut (s : State) (die inst : Nat) (w0 w1 w2 : W64) : State :=
  let pkg := bit (s.inst 0 inst).w0 62 && decide (960 ≤ inst)
  if die != 0 && pkg then s
  else
    let all := decide (960 ≤ inst) && die == 0 && (pkg || bit w0 62)
    (if all then [0, 1, 2, 3] else [die]).foldl (fun s d => s.reconfigure d inst w0 w1 w2) s

/-- COUNTER_DESCRIPTOR_WRITE (R104, R105): checked, then the instance is rewritten. Word 3 is reserved and read-only (Table 5-3): a write of
zero has no effect (R7), any other is refused. -/
def State.descriptorWrite (s : State) (writer die inst word : Nat) (v : W64) (part : WPart) : State :=
  let i := s.inst die inst
  let w0 := if word = 0 then mergePart part i.w0 v else i.w0
  let w1 := if word = 1 then mergePart part i.w1 v else i.w1
  let w2 := if word = 2 then mergePart part i.w2 v else i.w2
  let pkg := bit (s.inst 0 inst).w0 62 && decide (960 ≤ inst)
  if die != 0 && pkg then s
  else if word = 3 then
    if writer != 31 && bits i.w0 57 53 != writer then s.emit (.refused 0x0C (w64 inst))
    else if mergePart part 0 v != 0 then s.emit (.refused 0x29 (w64 inst))
    else s
  else if writer != 31 && (bits i.w0 57 53 != writer || bits w0 57 53 != bits i.w0 57 53) then s.emit (.refused 0x0C (w64 inst))
  else if badDescriptor die inst w0 w2 then s.emit (.refused 0x29 (w64 inst))
  else s.descriptorPut die inst w0 w1 w2

/-- R112, HEDDLE_STEP. -/
def execHeddleStep (die inst i : Nat) (s : State) : Out := s.ifEnabled (s.heddleStep die inst i)

/-- R112, EXIT_STEP. -/
def execExitStep (die inst i : Nat) (s : State) : Out := s.ifEnabled (s.exitStep die inst i)

/-- R116, BARRIER_TIMEOUT. -/
def execBarrierTimeout (x : Nat) (s : State) : Out := s.ifEnabled (s.barrierTimeout x)

/-- R104, R105, COUNTER_DESCRIPTOR_WRITE. -/
def execCounterDescriptorWrite (writer die inst word : Nat) (v : W64) (part : WPart) (s : State) : Out :=
  s.ifEnabled (some (s.descriptorWrite writer die inst word v part))

end Sys2Proof.Machine
end

