-- ==== Sys2Proof/Machine/Settle.lean ====
section
/-!
DEFINITION. SETTLE (spec 07, R146; spec 12, R250): publication, arrival and wait.
-/
namespace Sys2Proof.Machine

/-- A store by a strand to its die's scratchpads (R67). -/
def putBy (x : Nat) : Putter := fun s l bs =>
  let r := s.plainStore (s.strand x).ord (s.dieOf x) (s.strand x).tag l bs none .none
  r.2.modStrand x (fun t => { t with ord := r.1 })

/-- The publication of a strand's position (R146): at every bay whose box or halo region holds it; whether its cell append failed. -/
def State.publish (s : State) (x id : Nat) (f : Field) (host : FieldBay) : Bool × State :=
  let v := (s.strand x).regs[23]
  let k := f.phase % 2
  let r := fileBays (putBy x) f k (entryBytes v (s.nameOf x)) (posOf v) s f.bays
  let s1 := { r.2 with fields := Tbl.set r.2.fields id { f with bays := r.1 } }
  (decide (f.cap ≤ host.cells k), s1.modStrand x (fun t => { t with settled := Tbl.set t.settled k (s.nameOf x) }))

/-- R146, SETTLE. The request is checked against instance BI as any arrival is (R106). -/
def execSettle (g : Guard) (s : State) : Out :=
  s.issue (.settle g) .none .any g (fun s => s.coreOnly (.settle g) (fun s =>
    let x := s.cur
    let u := s.unitOf x
    match s.fieldAt s.me.tag u.die u.bay with
    | none => s.raise 0x3B 0
    | some (id, f) =>
      if s.me.kind != .pos then s.raise 0x3B 0
      else
        match f.bayRec u.bay with
        | none => s.raise 0x3B 0
        | some b =>
          let v := s.me.regs[23]
          if !f.inBox b.lo b.hi (posOf v) then s.raise 0x38 (lo64 v)
          else
            match s.instCheck s.me.tag u.die f.bi (some true) with
            | some c => s.raise c (w64 f.bi)
            | none =>
              if !s.recordRoom u then s
              else
                let r := s.publish x id f b
                r.2.enterToken x u.die f.bi (.settle f.phase (bits (f.word 5) 7 3) r.1) .wz))

end Sys2Proof.Machine
end

