-- ==== Sys2Proof/Machine/Strands.lean ====
section
/-!
DEFINITION. Strand instructions (spec 12, R246 to R249; major 0x2B), migration (spec 03, R81; spec 06, R133; spec 07, R143), and the
shares of a launch that stops complete (spec 15, R298; spec 21, R352).
-/
namespace Sys2Proof.Machine

/-- Adds to a fence counter, recording the stamp of a completion's increment (R295). -/
def State.fcAdd (s : State) (tag fc : Nat) (n : W64) (stamp : V4) : State :=
  s.modPart tag (fun p =>
    let c := Tbl.get FenceCtr.init p.fcs fc
    { p with fcs := Tbl.set p.fcs fc ⟨c.v + n, c.stamps ++ [stamp]⟩ })

/-- A strand leaves the machine and its slot is free (Table 6-7). -/
def State.freeStrand (s : State) (x : Nat) : State := { s with strands := Tbl.del s.strands x }

/-- Strands of a launch on a bay, in slots of its core and its spindle. -/
def State.launchOn (s : State) (id die bay : Nat) : List (Nat × Strand) :=
  s.strands.filter (fun e => e.2.launch == some id &&
    (match e.2.place with
     | .slot u _ => u.die == die && u.bay == bay
     | _ => false))

/-- A bay's share of a launch is complete (R298): its head has started and every strand of the launch in its slots is stopped. -/
def State.shareDone (s : State) (id : Nat) (l : Launch) (n : Nat) : Bool :=
  !l.toStart.contains n && (s.launchOn id (n / 2048) (n % 2048)).all (fun e => e.2.status == .stopped)

/-- Every bay's share of a launch that carries a field is complete (R352). -/
def State.fieldDone (s : State) (id : Nat) (l : Launch) (f : Field) : Bool :=
  l.toStart.isEmpty &&
  (l.left ++ f.bays.map (fun b => bayNo f.die b.bay)).all (fun n =>
    (s.launchOn id (n / 2048) (n % 2048)).all (fun e => e.2.status == .stopped)) &&
  s.strands.all (fun e => e.2.launch != some id || (match e.2.place with | .slot _ _ => true | .record _ => true | _ => false))

/-- What a strand that stops hands to its launch's completion: its stamps and what it knows on its die (R89, R298). -/
def State.noteStop (s : State) (x id : Nat) : State :=
  match Tbl.find s.launches id with
  | none => s
  | some l =>
    let t := s.strand x
    let d := s.dieOf x
    let l1 := { l with acc := ((l.acc.vmax t.ord.rs).vmax t.ord.pa).vmax (t.ord.know d), dies := setAdd l.dies d }
    { s with launches := Tbl.set s.launches id l1 }

/-- The completion step of a launch (R89, R298): its stamp, and the increment of its fence counter. Its field is no longer active. -/
def State.launchComplete (s : State) (id : Nat) (l : Launch) : State :=
  let cs := l.dies.foldl (fun v d => v.vmax (s.die d).dd) l.acc
  let s1 := { s with launches := Tbl.del s.launches id }
  let s2 := match l.fc with
    | some fc => s1.fcAdd l.tag fc 1 cs
    | none => s1
  match l.field with
  | none => s2
  | some f => match Tbl.find s2.fields f with
    | some fd => { s2 with fields := Tbl.set s2.fields f { fd with live := false } }
    | none => s2

/-- The buffers that a launch's completion waits for have drained (R74): at domain scope where the partition has foreign stores. -/
def State.launchDrained (s : State) (l : Launch) (upto : Nat) : Bool :=
  l.dies.all (fun d =>
    s.drained d (s.lbuf.any (fun p => p.1 / 16384 == d && p.2.any (fun e => e.tag == l.tag))) upto)

/-- A launch with no share left completes, once its release is enabled. -/
def State.launchEnd (s : State) (id : Nat) (l : Launch) : State :=
  if s.launchDrained l s.serial then s.launchComplete id l
  else { s with launches := Tbl.set s.launches id { l with upto := some s.serial } }

/-- DEVICE_RELEASE of a launch. -/
def State.launchRelease (s : State) (id : Nat) : Option State :=
  match Tbl.find s.launches id with
  | none => none
  | some l => match l.upto with
    | none => none
    | some n => if s.launchDrained l n then some (s.launchComplete id l) else none

/-- Frees the stopped strands of a launch on some bays (R298). -/
def State.freeStopped (s : State) (id : Nat) (ns : List Nat) : State :=
  ns.foldl (fun s n => (s.launchOn id (n / 2048) (n % 2048)).foldl (fun s e =>
    if e.2.status = .stopped then s.freeStrand e.1 else s) s) s

/-- After a strand of a launch stopped: its bay's share may be complete, and with the last one the launch (R298, R352). -/
def State.shareCheck (s : State) (id die bay : Nat) : State :=
  match Tbl.find s.launches id with
  | none => s
  | some l =>
    if l.upto.isSome then s
    else
      match l.field.bind (fun k => Tbl.find s.fields k) with
      | some f =>
        if s.fieldDone id l f then
          let s1 := s.freeStopped id (l.left ++ f.bays.map (fun b => bayNo f.die b.bay))
          s1.launchEnd id { l with left := [] }
        else s
      | none =>
        let n := bayNo die bay
        if l.left.contains n && s.shareDone id l n then
          let s1 := s.freeStopped id [n]
          let l1 := { l with left := setDel l.left n }
          if l1.left.isEmpty then s1.launchEnd id l1 else { s1 with launches := Tbl.set s1.launches id l1 }
        else s

/-- A strand stops (R247) with an exit word. -/
def State.stopStrand (s : State) (x : Nat) (w : W64) : State :=
  let u := s.unitOf x
  let s1 := s.stopBase x w
  match (s.strand x).launch with
  | none => s1
  | some id => (s1.noteStop x id).shareCheck id u.die u.bay

/-- R247, STOP: nothing of the strand's is outstanding when it issues (R126), so it stops at once. -/
def execStop (a : Src) (g : Guard) (s : State) : Out :=
  s.issue (.stop a g) .none .any g (fun s => s.src a (fun v s1 => s1.stopStrand s.cur (lo64 v)))

/-- A new strand of the issuing head (R130, R246): its registers, kind, order state, and its launch's copy of widths and handler. -/
def newStrand (head : Strand) (kind : StrandKind) (entry w0 : W64) : Strand :=
  { Strand.init with
    tag := head.tag, status := .ready, regs := Strand.init.regs.set 0 (zext128 w0), pc := entry, kind := kind, gen := 65536,
    ord := { OrderState.zero with pts := head.ord.pts, vw := head.ord.vw }, wid := head.wid, tvec := head.tvec, launch := head.launch }

/-- Adds a strand to the machine. -/
def State.addStrand (s : State) (t : Strand) : State := { (s.setStrand s.nextId t) with nextId := s.nextId + 1 }

/-- What SPAWN writes for a placed strand (R246): its name, or 0 in the creel. What it writes where the creel overflows is not
stated: a free value (log 2). -/
def State.spawnResult (s : State) (y : Nat) : W64 × State :=
  match (s.strand y).place with
  | .slot _ _ => (s.nameOf y, s)
  | .creel _ => (0, s)
  | _ => s.freeBits 64

/-- The checks of SPAWN's entry (R222, R246). -/
def entryTrap (va : W64) : Option Nat := if !canonical va then some 0x08 else if bits va 1 0 != 0 then some 0x09 else none

/-- SPAWN of a worker (R130, R246). -/
def spawnIssue (i : Instr) (kind : StrandKind) (d : Dst) (a b : Src) (g : Guard) (s : State) : Out :=
  s.issue i .none .head g (fun s => s.coreOnly i (fun s => s.ops2 d a b (fun v w s1 =>
    let u := s.unitOf s.cur
    match entryTrap (lo64 v) with
    | some c => s.raise c (lo64 v)
    | none =>
      if kind == .pos && (s.fieldAt s.me.tag u.die u.bay).isNone then s.raise 0x3B 0
      else
        let y := s1.nextId
        let s2 := (s1.addStrand (newStrand s1.me kind (lo64 v) (lo64 w))).settleIn y u
        let r := s2.spawnResult y
        r.2.waitOn s.cur (.reply (scalar d r.1)))))

/-- R246, SPAWN.bound. -/
def execSpawnBound (d : Dst) (a b : Src) (g : Guard) (s : State) : Out := spawnIssue (.spawnBound d a b g) .bound d a b g s

/-- R246, SPAWN.follow. -/
def execSpawnFollow (d : Dst) (a b : Src) (g : Guard) (s : State) : Out := spawnIssue (.spawnFollow d a b g) .follow d a b g s

/-- R246, SPAWN.pos. -/
def execSpawnPos (d : Dst) (a b : Src) (g : Guard) (s : State) : Out := spawnIssue (.spawnPos d a b g) .pos d a b g s

/-- The placing of a shuttle once slot 15 is free (R246): the name of the new strand. -/
def State.spawn15Try (s : State) (x : Nat) (entry w0 : W64) : Option (W64 × State) :=
  let u := s.unitOf x
  let t := s.strand x
  if (s.inSlot u t.tag 15).isSome then none
  else
    let y := s.nextId
    let s1 := (s.addStrand (newStrand t .bound entry w0)).takeSlot y u 15
    some (s1.nameOf y, s1)

/-- R246, SPAWN.shuttle. -/
def execSpawnShuttle (d : Dst) (a b : Src) (g : Guard) (s : State) : Out :=
  s.issue (.spawnShuttle d a b g) .none .head g (fun s => s.coreOnly (.spawnShuttle d a b g) (fun s => s.ops2 d a b (fun v w s1 =>
    match entryTrap (lo64 v) with
    | some c => s.raise c (lo64 v)
    | none =>
      match s1.spawn15Try s.cur (lo64 v) (lo64 w) with
      | some r => r.2.waitOn s.cur (.reply (scalar d r.1))
      | none => s1.waitOn s.cur (.spawn15 (lo64 v) (lo64 w) d))))

/-- The test of REAP (R247): the exit word of a stopped strand, whose slot is freed; 0 for a free slot. -/
def State.reapTry (s : State) (x slot : Nat) : Option (W64 × State) :=
  match s.inSlot (s.unitOf x) (s.strand x).tag slot with
  | none => some (0, s)
  | some y => if (s.strand y).status = .stopped then some ((s.strand y).exitw, s.freeStrand y) else none

/-- R247, REAP. -/
def execReap (d : Dst) (a : Src) (g : Guard) (s : State) : Out :=
  s.issue (.reap d a g) .none .head g (fun s => s.coreOnly (.reap d a g) (fun s => s.ops1 d a (fun v s1 =>
    let w := lo64 v
    if bits w 63 4 != 0 then s.raise 0x01 (wordOf (.reap d a g))
    else if w = 0 then s.raise 0x04 (wordOf (.reap d a g))
    else
      match s1.reapTry s.cur w.toNat with
      | some r => r.2.retire (scalar d r.1)
      | none => s1.waitOn s.cur (.reap w.toNat d))))

/-- R248, MIGR: the strand departs at its next turn. -/
def execMigr (a : Src) (g : Guard) (s : State) : Out :=
  s.issue (.migr a g) .none .any g (fun s => s.src a (fun v s1 =>
    let w := lo64 v
    let n := unitField w
    if bits w 35 0 != 0 then s.raise 0x01 (wordOf (.migr a g))
    else if s.me.kind != .follow then s.raise 0x05 (wordOf (.migr a g))
    else if s.me.irv then s.raise 0x23 (w64 s.me.iring)
    else if s.me.orv then s.raise 0x23 (w64 (256 + s.me.oring.ring))
    else if n.dev != s.dev.num || !s.ownsBay s.me.tag n.u.die n.u.bay then s.raise 0x0C w
    else if n.u = s.unitOf s.cur then s1.retire nothing
    else (s1.retire nothing).modStrand s.cur (fun t => { t with leaving := some ⟨n.u, s.serial⟩ })))

/-- Field `k` of a work identifier under six widths (R138). -/
def widField (wid : BitVec 36) (k : Nat) (v : W64) : W64 :=
  let f (i : Nat) := wid.toNat / 2 ^ (6 * i) % 64
  let lo := ((List.range k).map f).foldl (· + ·) 0
  w64 (v.toNat / 2 ^ lo % 2 ^ f k)

/-- R249, R138, WIDF. -/
def execWidf (d : Dst) (a : Src) (k : BitVec 3) (g : Guard) (s : State) : Out :=
  s.issue (.widf d a k g) .none .any g (fun s => s.ops1 d a (fun v s1 => s1.retire (scalar d (widField s.me.wid k.toNat (lo64 v)))))

/-- R249, SLOTID. -/
def execSlotid (d : Dst) (g : Guard) (s : State) : Out :=
  s.issue (.slotid d g) .none .any g (fun s => s.dstBound d (fun s => s.retire (scalar d (s.nameOf s.cur))))

/-- Where a strand marked migrating goes (R143): a position-bound strand to the owner of its latest position. -/
def State.destination (s : State) (x : Nat) (dest : UnitId) : UnitId :=
  let t := s.strand x
  let u := s.unitOf x
  if t.kind != .pos then dest
  else match s.fieldAt t.tag u.die u.bay with
  | none => dest
  | some (_, f) => match f.ownerOf (posOf t.regs[23]) with
    | some b => coreOf u.die b.bay
    | none => u

/-- Jobs bound to handles of a strand's slot, with their completion stamps, none while one has not completed (R307). -/
def State.handleStamps (s : State) (hs : List (Nat × Nat)) : Option (List V4) :=
  hs.mapM (fun h => (Tbl.find s.cards h.2).bind (·.cs))

/-- Frees every handle of a slot. -/
def State.clearHandles (s : State) (u : UnitId) (tag n : Nat) : State :=
  s.modTen u.die u.bay tag (fun t => { t with handles := Tbl.del t.handles (slotNo u n) })

/-- A strand departs at its turn (R133, R143); one with a ring bound stays until it has none (R59, R236; log 108). -/
def Strand.departs (t : Strand) : Bool := t.leaving.isSome && !t.irv && !t.orv

/-- MIGRATION_DEPART (R81, R133, R143, R307): at its turn the strand leaves its slot as a packet, once its bound jobs have completed and
its device-scope release, where it leaves its die, is enabled. The slot it leaves is free, so the bay's share may be complete (R298). -/
def State.migrationDepart (s : State) (x : Nat) : Option State :=
  let t := s.strand x
  match t.leaving, t.place with
  | some l, .slot u n =>
    let dest := s.destination x l.dest
    if t.status != .ready || !t.departs then none
    else if dest = u then some (s.modStrand x (fun t => { t with leaving := none }))
    else
      match s.handleStamps (s.handlesAt u t.tag n) with
      | none => none
      | some vs =>
        if dest.die != u.die && !s.drained u.die false l.upto then none
        else
          let s1 := (s.strandApply x vs).clearHandles u t.tag n
          let s2 := if dest.die != u.die then s1.strandRelease x .dev else s1
          let id := s2.nextId
          let s3 := ((s2.dropCursor x).addMsg (.migrate x u.die dest)).modStrand x (fun t =>
            { t with place := .transit id, leaving := none, gen := 65536, writing := [] })
          some (match t.launch with
            | none => s3
            | some k => s3.shareCheck k u.die u.bay)
  | _, _ => none

/-- A strand of a launch has landed on a bay, or has left its creel: a spare of the launch's field holds a share from then on, and what the
launch's completion waits for may hold (R352). -/
def State.noteLanding (s : State) (x die bay : Nat) : State :=
  match (s.strand x).launch with
  | none => s
  | some k =>
    match Tbl.find s.launches k with
    | none => s
    | some l =>
      let l1 := { l with landed := if l.field.isSome then setAdd l.landed (bayNo die bay) else l.landed }
      ({ s with launches := Tbl.set s.launches k l1 }).shareCheck k die bay

/-- The head of a creel takes a slot, in a turn that the slot has free (R131). -/
def State.creelTake (s : State) (u : UnitId) (tag n : Nat) : State :=
  match s.creelOf u tag with
  | [] => s
  | y :: _ => (s.creelEnter u tag n).noteLanding y u.die u.bay

/-- CREEL_QUANTUM_END (R131): the resident goes to the creel tail and the creel head takes the slot, as where
it takes a free one. -/
def State.creelQuantumEnd (s : State) (x : Nat) : Option State :=
  match (s.strand x).place with
  | .slot u n =>
    let tag := (s.strand x).tag
    if !s.quantumOver x then none
    else if s.keptInPlace x then some (s.requantum x)
    else
      match s.creelOf u tag with
      | [] => none
      | y :: rest =>
        let s1 := s.withdrawPark x
        let s2 := (((s1.setCreel u tag (rest ++ [x])).modStrand x (fun t => { t with
          place := .creel u, yielded := false, susp := t.susp.or (some s.clock), hang := s.hangTotal x, hangAt := s.clock })).takeSlot y u n).creelSave
            u tag
        some (s2.noteLanding y u.die u.bay)
  | _ => none

/-- MIGRATION_LANDING (R81, R131, R133): the order step of an arrival on another die, and a slot or the creel. -/
def State.migrationLanding (s : State) (id : Nat) : Option State :=
  match Tbl.find s.msgs id with
  | some (.migrate x d dest) =>
    let r := s.arriveOrd (s.strand x).ord d dest.die
    let s1 := { r.2 with msgs := Tbl.del r.2.msgs id }
    some (((s1.modStrand x (fun t => { t with ord := r.1 })).settleIn x dest).noteLanding x dest.die dest.bay)
  | _ => none

/-- R81, R133, MIGRATION_DEPART. -/
def execMigrationDepart (x : Nat) (s : State) : Out := s.ifEnabled (s.migrationDepart x)

/-- R81, MIGRATION_LANDING. -/
def execMigrationLanding (id : Nat) (s : State) : Out := s.ifEnabled (s.migrationLanding id)

/-- R131, CREEL_QUANTUM_END. -/
def execCreelQuantumEnd (x : Nat) (s : State) : Out := s.ifEnabled (s.creelQuantumEnd x)

end Sys2Proof.Machine
end

