-- ==== Sys2Proof/Machine/Jobs.lean ====
section
/-!
DEFINITION. Job cards and copy engines (spec 04, R85 to R91; spec 15, R299 to R302; spec 20, R350), and FORK, RDV, JOB, XID and XWAIT
(spec 15, R306 to R312; major 0x2D).
-/
namespace Sys2Proof.Machine

/-- A card with nothing in it but its kind, partition and engine. -/
def Card.init (kind : CardKind) (tag die eng : Nat) : Card :=
  { kind := kind, tag := tag, die := die, eng := eng, chan := 0, xid := 0, wb := false, cen := false, mc := 0, src := 0, dst := 0,
    len := 0, pentry := 0, parg := 0, w1 := 0, pbay := 0, pwid := 0, ptvec := 0, regions := [], ord := .zero, preds := [],
    posted := false, started := false, elems := [], parked := [], code := 0, stopped := false, foreign := false, upto := none,
    cs := none, fc := none, strand := none, bay := 0, desc := [], result := [] }

/-- The 64-bit words of bytes. -/
def wordsOf : Nat → List Byte → List W64
  | 0, _ => []
  | n + 1, bs => w64 (leNat (bs.take 8)) :: wordsOf n (bs.drop 8)

/-- Sum of the six widths of a work identifier (R138). -/
def widSum (w : W64) : Nat := ((List.range 6).map (fun i => bits w (6 * i + 5) (6 * i))).foldl (· + ·) 0

/-- An address where instructions may start: canonical and 4-byte aligned (R297, R302). -/
def codeAddress (v : W64) : Bool := canonical v && bits v 1 0 == 0

/-- A destination word of weight-buffer form (Table 15-5). -/
def wbForm (v : W64) : Bool := bits v 63 48 == 0 && bits v 36 16 == 0 && bits v 3 0 == 0

/-- The regions of a card's words 8 to 15 (Table 15-5), and which of them a weight-buffer copy may write (R350). -/
def cardRegions (ws : List W64) : List Region :=
  (List.range 4).filterMap (fun r =>
    let b := nth 0 ws (8 + 2 * r)
    let m := nth 0 ws (9 + 2 * r)
    if bits m 63 62 = 0 then none else some ⟨b.toNat, bits m 31 0, bit m 62, bit m 63, bits (nth 0 ws 0) 63 62 == 0 && bit (nth 0 ws 0) 52 && bit m 63⟩)

/-- A card's words keep Table 15-5 (R299, R302). -/
def cardOk (ws : List W64) : Bool :=
  let w (i : Nat) := nth (0 : W64) ws i
  let kind := bits (w 0) 63 62
  let copy := bits (w 1) 3 0 == 0 && bits (w 2) 3 0 == 0 && bits (w 3) 3 0 == 0 && w 3 != 0 &&
    (w 4 == 0 && w 5 == 0 && w 6 == 0 && w 7 == 0) &&
    (!bit (w 0) 52 || wbForm (w 2))
  let prog := codeAddress (w 4) && codeAddress (w 7) && decide (widSum (w 6) ≤ 64)
  kind != 3 && bits (w 0) 46 0 == 0 && bits (w 3) 63 32 == 0 && bits (w 6) 63 48 == 0 && !bit (w 6) 36 &&
  (if kind = 0 then copy else prog) &&
  (List.range 4).all (fun r =>
    let m := w (9 + 2 * r)
    bits m 61 32 == 0 && canonical (w (8 + 2 * r)) && (bits m 63 62 == 0 || bits m 31 0 != 0))

/-- The card of its words (Table 15-5). -/
def cardOf (tag : Nat) (ws : List W64) : Card :=
  let w (i : Nat) := nth (0 : W64) ws i
  let k := bits (w 0) 63 62
  { Card.init (if k = 0 then .copy else if k = 1 then .load else .store) tag (bits (w 0) 54 53) (bits (w 0) 58 55) with
    chan := bits (w 0) 61 59, wb := bit (w 0) 52, cen := bit (w 0) 51, mc := bits (w 0) 50 47, src := w 1, dst := w 2,
    len := bits (w 3) 31 0, pentry := w 4, parg := w 5, pbay := bits (w 6) 47 37, pwid := (w 6).setWidth 36, ptvec := w 7,
    regions := cardRegions ws }

/-- A region of weight-buffer bytes never overlaps a vault or window range (R350): one that a weight-buffer copy may write, with a BASE of its
destination's form, and one that is not such a copy's. -/
def Region.apart (a b : Region) : Bool := a.wb && wbForm (w64 a.base) && !b.wb

/-- Two regions give an edge (Table 4-1): they overlap as byte ranges (R350), and one may write. -/
def Region.clash (a b : Region) : Bool :=
  !a.apart b && !b.apart a && decide (a.base < b.base + b.len) && decide (b.base < a.base + a.len) && ((a.w && (b.r || b.w)) || (a.r && b.w))

/-- Cards that a new card of a partition on a die has an edge from (R86). -/
def State.edges (s : State) (tag die : Nat) (rs : List Region) : List Nat :=
  (s.cards.filter (fun e => e.2.posted && e.2.tag == tag && e.2.die == die && e.2.cs.isNone &&
    e.2.regions.any (fun a => rs.any (fun b => a.clash b)))).map (·.1)

/-- The channel of a copy card. -/
def Card.channel (c : Card) : Nat := chanKey c.die c.eng c.chan

/-- The transfer word of a copy card (R309). -/
def Card.transfer (c : Card) : W64 := pack [(c.xid, 0), (c.channel, 32)]

/-- The posting step of a card (R87), once the poster's release is done; `o` is the poster's order state, on die `d`. A copy card takes its
channel's NEXT (R300). -/
def State.postCard (s : State) (id : Nat) (o : OrderState) (d : Nat) : State :=
  match Tbl.find s.cards id with
  | none => s
  | some c =>
    let r := s.arriveOrd o d c.die
    let n := (r.2.chan c.channel).next
    let c1 := { c with ord := r.1, preds := r.2.edges c.tag c.die c.regions, posted := true,
                       xid := if c.kind = .copy then n else 0 }
    let s1 := r.2.setCard id c1
    if c.kind = .copy then s1.modChan c.channel (fun h => { h with next := (n + 1) % 2 ^ 32 }) else s1

/-- Binds a handle of the slot that strand `x` holds to a job (R307). -/
def State.bindHandle (s : State) (x h id : Nat) : State :=
  let t := s.strand x
  match t.place with
  | .slot u n => s.modTen u.die u.bay t.tag (fun b =>
      { b with handles := Tbl.set b.handles (slotNo u n) ((h, id) :: Tbl.get [] b.handles (slotNo u n)) })
  | _ => s

/-- The job bound to a handle of strand `x`'s slot. -/
def State.handleOf (s : State) (x h : Nat) : Option Nat :=
  let t := s.strand x
  match t.place with
  | .slot u n => ((s.handlesAt u t.tag n).find? (fun e => e.1 == h)).map (·.2)
  | _ => none

/-- Frees a handle of strand `x`'s slot. -/
def State.freeHandle (s : State) (x h : Nat) : State :=
  let t := s.strand x
  match t.place with
  | .slot u n => s.modTen u.die u.bay t.tag (fun b =>
      { b with handles := Tbl.set b.handles (slotNo u n) ((Tbl.get [] b.handles (slotNo u n)).filter (fun e => e.1 != h)) })
  | _ => s

/-- What a posting instruction leaves once its card is posted (R308, R309): the handle bound, the transfer word for its register. -/
def State.posted (s : State) (x : Nat) (k : PostKind) (id : Nat) : State :=
  let w := match Tbl.find s.cards id with
    | some c => zext128 c.transfer
    | none => 0
  match k with
  | .fork h b =>
    let copy : Bool := match Tbl.find s.cards id with
      | some c => c.kind == .copy
      | none => false
    (s.bindHandle x h id).answer x (if copy then result (RegZ.dst b) w else nothing)
  | .job a => s.answer x (result (RegZ.dst a) w)
  | .asn h => (s.bindHandle x h id).answer x nothing

/-- A card is posted by the issuing strand, which leaves rotation (R87, R308): on its own die at once, on another die after its
device-scope release. -/
def State.postBy (s : State) (k : PostKind) (c : Card) : State :=
  let x := s.cur
  let id := s.nextId
  let s1 := { s.setCard id c with nextId := id + 1 }
  if c.die = s.myDie then ((s1.waitOn x (.post k id s.serial)).postCard id s1.me.ord s.myDie).posted x k id
  else s1.waitOn x (.post k id s.serial)

/-- DEVICE_RELEASE of a posting (R74, R87). -/
def State.postRelease (s : State) (x : Nat) (k : PostKind) (id : Nat) : State :=
  let s1 := s.strandRelease x .dev
  (s1.postCard id (s1.strand x).ord (s1.dieOf x)).posted x k id

/-- Reads `n` bytes of the issuing strand's own scratchpad, line by line as plain loads (R67, R280). -/
def State.ownBytes (s : State) (off : Nat) : Nat → List Byte × Bool × State
  | 0 => ([], false, s)
  | n + 1 =>
    let u := s.unitOf s.cur
    let l : Loc := .spad u.die u.bay off
    let r := s.homeRead s.me.ord u.die s.me.tag ⟨l, true, false, false, 18⟩ 64
    let t := (r.2.modStrand s.cur (fun t => { t with ord := r.1.ord })).ownBytes (off + 64) n
    (r.1.bs ++ t.1, r.1.bad || t.2.1, t.2.2)

/-- Reads a block of `n` times 64 bytes at an offset of the issuing strand's scratchpad: an isolation violation outside its half
(R21), poison (R318). -/
def State.ownBlock (s : State) (off n : Nat) (k : List W64 → State → State) : State :=
  let u := s.unitOf s.cur
  if !inPart (s.spadPart s.me.tag u.die u.bay) off (64 * n) then s.raise 0x0C (w64 off)
  else
    let r := s.ownBytes off n
    if r.2.1 then r.2.2.raise 0x40 (w64 off) else k (wordsOf (8 * n) r.1) r.2.2

/-- The card of FORK and JOB (R299): read from the scratchpad and checked, with the kind that the form asks for. -/
def State.ownCard (s : State) (i : Instr) (a : W64) (kind : Nat) (k : Card → State → State) : State :=
  let off := bits a 17 7 * 128
  if bits a 63 18 != 0 || bits a 6 0 != 0 then s.raise 0x01 (wordOf i)
  else s.ownBlock off 2 (fun ws s1 =>
    if !cardOk ws || bits (nth 0 ws 0) 63 62 != kind then s1.raise 0x4E (w64 off)
    else
      let c := cardOf s.me.tag ws
      if kind != 0 && !s.ownsBay s.me.tag c.die c.pbay then s1.raise 0x0C (w64 off)
      else k { c with bay := (s.unitOf s.cur).bay } s1)

/-- FORK of a card at issue (R307, R308). -/
def forkIssue (i : Instr) (kind : Nat) (a b : RegZ) (h : BitVec 5) (g : Guard) (s : State) : Out :=
  s.issue i .none .any g (fun s => s.coreOnly i (fun s =>
    if (s.handleOf s.cur h.toNat).isSome then s.raise 0x4C (w64 h.toNat)
    else s.ownCard i (lo64 (regz s.me a)) kind (fun c s1 =>
      s1.postBy (.fork h.toNat b) (if kind = 0 then c else { c with w1 := regz s.me b }))))

/-- R308, FORK.load. -/
def execForkLoad (a b : RegZ) (h : BitVec 5) (g : Guard) (s : State) : Out := forkIssue (.forkLoad a b h g) 1 a b h g s

/-- R308, FORK.store. -/
def execForkStore (a b : RegZ) (h : BitVec 5) (g : Guard) (s : State) : Out := forkIssue (.forkStore a b h g) 2 a b h g s

/-- R308, FORK.copy. -/
def execForkCopy (a b : RegZ) (h : BitVec 5) (g : Guard) (s : State) : Out := forkIssue (.forkCopy a b h g) 0 a b h g s

/-- R309, JOB: on a spindle too, whose card lies in its bay's scratchpad. -/
def execJob (a : RegZ) (g : Guard) (s : State) : Out :=
  s.issue (.job a g) .none .any g (fun s => s.ownCard (.job a g) (lo64 (regz s.me a)) 0 (fun c s1 => s1.postBy (.job a) c))

/-- The flags of a sequencer job are merged into the beater that joins it (R266). -/
def State.mergeMxf (s : State) (x : Nat) : State :=
  let u := s.unitOf x
  let tag := (s.strand x).tag
  let f := (s.ten u.die u.bay tag).loom.mxf
  (s.modStrand x (fun t => { t with sts := t.sts ||| f })).modTen u.die u.bay tag (fun b => { b with loom := { b.loom with mxf := 0 } })

/-- The test of an RDV (R310): the job's stamp is applied and the handle freed; a free handle returns at once. -/
def State.rdvTry (s : State) (x h : Nat) : Option State :=
  match s.handleOf x h with
  | none => some s
  | some id =>
    match Tbl.find s.cards id with
    | none => some (s.freeHandle x h)
    | some c =>
      match c.cs with
      | none => none
      | some v =>
        let s1 := (s.strandApply x [v]).freeHandle x h
        some (if c.kind = .seq then s1.mergeMxf x else s1)

/-- R310, RDV. -/
def execRdv (h : BitVec 5) (g : Guard) (s : State) : Out :=
  s.issue (.rdv h g) .none .any g (fun s => s.coreOnly (.rdv h g) (fun s =>
    match s.rdvTry s.cur h.toNat with
    | some s1 => s1.retire nothing
    | none => s.waitOn s.cur (.rdv h.toNat)))

/-- What XID returns (R311). -/
def Chan.word (c : Chan) : W128 :=
  mk128 (pack [(c.errId, 0), (c.errCode, 32)]) (pack [(c.wm, 0), (c.next, 32)])

/-- R311, XID. -/
def execXid (a b : RegZ) (g : Guard) (s : State) : Out :=
  s.issue (.xid a b g) .none .any g (fun s =>
    let w := lo64 (regz s.me a)
    if bits w 63 41 != 0 || bits w 31 0 != 0 then s.raise 0x01 (wordOf (.xid a b g))
    else s.waitOn s.cur (.reply (result (RegZ.dst b) (s.chan (bits w 40 32)).word)))

/-- An ID has completed on a channel (R312). -/
def Chan.complete (c : Chan) (id : Nat) : Bool := decide ((c.wm + 2 ^ 33 - id - 1) % 2 ^ 32 < 2 ^ 31)

/-- The test of an XWAIT (R312): every completion of the channel that the strand has not applied yet is applied. -/
def State.xwaitTry (s : State) (x ch id : Nat) : Option State :=
  let c := s.chan ch
  if !c.complete id then none
  else
    let n := Tbl.get 0 (s.strand x).applied ch
    some ((s.strandApply x (c.log.drop n)).modStrand x (fun t => { t with applied := Tbl.set t.applied ch c.log.length }))

/-- R312, XWAIT. -/
def execXwait (a b : RegZ) (g : Guard) (s : State) : Out :=
  s.issue (.xwait a b g) .none .any g (fun s =>
    let w := lo64 (regz s.me a)
    let y := lo64 (regz s.me b)
    if bits w 63 41 != 0 || bits w 31 0 != 0 || bits y 63 37 != 0 then s.raise 0x01 (wordOf (.xwait a b g))
    else s.waitOn s.cur (.xwait (bits w 40 32) (bits y 31 0) (cwaitLim (bits y 36 32))))

/-- TRANSFER_WAIT_TIMEOUT (R312). -/
def State.transferTimeout (s : State) (x : Nat) : Option State :=
  match (s.strand x).wait with
  | .xwait ch id lim =>
    if !(s.chan ch).complete id && s.expired x (2 ^ lim) then some (s.defer x 0x4D (pack [(id, 0), (ch, 32)])) else none
  | _ => none

/-- Every predecessor of a card has completed (R88). -/
def State.predsDone (s : State) (c : Card) : Bool :=
  c.preds.all (fun p => match Tbl.find s.cards p with
    | some q => q.cs.isSome
    | none => true)

/-- The start step of a card (R88): its predecessors' stamps are applied at device scope. -/
def State.cardStart (s : State) (id : Nat) (c : Card) : State :=
  let vs := c.preds.filterMap (fun p => (Tbl.find s.cards p).bind (·.cs))
  let r := s.applyStamps c.ord c.die vs
  r.2.setCard id { c with ord := r.1, started := true }

/-- A sequencer job begins on its bay (R268). -/
def State.seqStart (s : State) (id : Nat) (c : Card) : State :=
  (s.cardStart id c).modTen c.die c.bay c.tag (fun b =>
    { b with loom := { b.loom with seq := some { card := id, off := c.src.toNat, count := c.len, at_ := 0, parked := none, arr := 0 } } })

/-- The oldest sequencer job that waits on a bay begins when the sequencer is idle (R268). -/
def State.seqNext (s : State) (id : Nat) : Option State :=
  match Tbl.find s.cards id with
  | none => none
  | some c =>
    let older := s.cards.any (fun e => e.2.kind == .seq && e.2.tag == c.tag && e.2.die == c.die && e.2.bay == c.bay && e.2.cs.isNone &&
      decide (e.1 < id))
    if c.kind == .seq && c.posted && !c.started && !older && (s.ten c.die c.bay c.tag).loom.seq.isNone then some (s.seqStart id c) else none

/-- JOB_START (R88, R300): a copy card when it is its channel's next, a program card at any time, a sequencer job when its sequencer is
idle; an assignment job starts in ASN_START. -/
def State.jobStart (s : State) (id : Nat) : Option State :=
  match Tbl.find s.cards id with
  | none => none
  | some c =>
    let turn : Bool := match c.kind with
      | .copy => c.xid == (s.chan c.channel).wm
      | .load => true
      | .store => true
      | .seq => false
      | .asn => false
    if c.kind = .seq then s.seqNext id
    else if c.posted && !c.started && c.cs.isNone && turn && s.predsDone c then some (s.cardStart id c) else none

/-- The hosting bay of a copy engine (R300). -/
def engineBay (e : Nat) : Nat := 512 * (e / 4) + 16 * (e % 4)

/-- Piece `i` of `n` bytes that begin `m` bytes into a line, cut at line ends: its first byte and its length. -/
def lineCut (m n i : Nat) : Nat × Nat := (128 * i - m, Nat.min (128 * (i + 1) - m) n - (128 * i - m))

/-- Number of pieces of `n` bytes that begin `m` bytes into a line. -/
def lineCount (m n : Nat) : Nat := (m + n + 127) / 128

/-- Number of elements of a copy (R301). -/
def Card.elements (c : Card) : Nat := lineCount (c.dst.toNat % 128) c.len

/-- First byte of an element, from the start of the copy, and its length (R301). -/
def Card.elem (c : Card) (i : Nat) : Nat × Nat := lineCut (c.dst.toNat % 128) c.len i

/-- Rows, columns and bytes of a score of an assignment descriptor (Table 14-1). -/
def asnShape (ws : List W64) : Nat × Nat × Nat :=
  let w := nth (0 : W64) ws 0
  (bits w 63 56 + 1, bits w 55 50 + 1, if bit w 49 then 4 else 2)

/-- Bytes of the score tile of a descriptor. -/
def asnScoreBytes (ws : List W64) : Nat := (asnShape ws).1 * (asnShape ws).2.1 * (asnShape ws).2.2

/-- Number of element steps that read the score tile, and the capacities (R283). -/
def asnPieces (ws : List W64) : Nat × Nat :=
  (lineCount ((nth (0 : W64) ws 1).toNat % 128) (asnScoreBytes ws), lineCount ((nth (0 : W64) ws 2).toNat % 128) (asnShape ws).2.1)

/-- Number of the first element of an assignment job that reads an input; those below write the result block. -/
def firstInput : Nat := 16

/-- The address and length of input piece `k` of an assignment job: the score tile's, then the capacities' (R283). -/
def asnInput (ws : List W64) (k : Nat) : W64 × Nat :=
  let n := (asnPieces ws).1
  let from_ (b : W64) (len i : Nat) : W64 × Nat := (b + w64 (lineCut (b.toNat % 128) len i).1, (lineCut (b.toNat % 128) len i).2)
  if k < n then from_ (nth 0 ws 1) (asnScoreBytes ws) k else from_ (nth 0 ws 2) (asnShape ws).2.1 (k - n)

/-- The address and length of what an element reads: of a copy, or an input piece of an assignment job. -/
def Card.span (c : Card) (i : Nat) : W64 × Nat :=
  match c.kind with
  | .asn => asnInput c.desc (i - firstInput)
  | _ => (c.src + w64 (c.elem i).1, (c.elem i).2)

/-- Every byte of an access of a card lies in a region that permits it (R88, R350). -/
def Card.covers (c : Card) (a n : Nat) (wr : Bool) : Bool := regionsCover c.regions wr a n

/-- The walk request of an element of a copy engine or of the Assignment Engine (R30). -/
def Card.req (c : Card) (id i : Nat) (acc : AccKind) (va : W64) : WalkReq :=
  match c.kind with
  | .asn => { who := .card id i, acc := acc, va := va, die := c.die, bay := clusterBay c.eng 0, sp := false, unit := 3, slot := 0 }
  | _ => { who := .card id i, acc := acc, va := va, die := c.die, bay := engineBay c.eng, sp := false, unit := 2, slot := c.chan }

/-- The unit whose cluster TLB an engine uses. -/
def Card.unit (c : Card) : UnitId :=
  match c.kind with
  | .asn => coreOf c.die (clusterBay c.eng 0)
  | _ => coreOf c.die (engineBay c.eng)

/-- A place of a register window, of this device or of another. -/
def Loc.isWindow (l : Loc) : Bool :=
  match l with
  | .rwin _ _ _ _ _ => true
  | .foreign _ g => bits g 47 46 == 2
  | _ => false

/-- A place of another device. -/
def Loc.isForeign (l : Loc) : Bool :=
  match l with
  | .foreign _ _ => true
  | _ => false

/-- The next piece, up to the end of a line, of an element's source of which some bytes have been read: its address and length. -/
def Card.piece (c : Card) (i got : Nat) : W64 × Nat :=
  let e := c.span i
  let va := e.1 + w64 got
  (va, Nat.min (e.2 - got) (128 - va.toNat % 128))

/-- A piece of an element has been read (R88, R90); poison ends the card (R283, R301). -/
def State.elemGot (s : State) (id : Nat) (c : Card) (i : Nat) (bs : List Byte) (v : ReadRes) (foreign : Bool) : State :=
  if v.bad then (s.consumed c.die).cardFail id none 4
  else
    let st := v.ord.completion.vmax (v.ord.know c.die)
    s.setCard id { c with ord := v.ord, foreign := c.foreign || foreign, parked := dropItem c.parked i,
                          elems := Tbl.set c.elems i (.reading (bs ++ v.bs) st) }

/-- The stream detector of a copy channel sees an access (R49). -/
def State.channelDetect (s : State) (c : Card) (l : XLoc) (va : W64) : State :=
  if c.kind = .copy then s.detect (coreOf c.die (engineBay c.eng)) (1 + c.chan) l va else s

/-- Reads the next piece of an element's source (R88, R301). One that misses in the die's RDC is an RDC fill, read at its line's slice
(R52, R233). -/
def State.elemRead (s : State) (id : Nat) (c : Card) (i : Nat) (bs : List Byte) : Option State :=
  let va := (c.piece i bs.length).1
  let n := (c.piece i bs.length).2
  if c.kind != .asn && !c.covers va.toNat n false then some (s.cardFail id none 1)
  else if !canonical va then some (s.cardFail id none 2)
  else
    let r := s.engineXlate c.unit c.tag va n .copy
    match r.1 with
    | .miss => some ((r.2.setCard id { c with elems := Tbl.set c.elems i (.reading bs .zero) }).askWalk c.tag (c.req id i .copy va))
    | .trap k => some (s.cardFail id none (if k = 0x0C then 6 else 2))
    | .ok l =>
      if l.loc.isWindow then some (s.cardFail id none 2)
      else if s.linkDown l.loc then some (s.cardFail id none 3)
      else
        let s1 := r.2.channelDetect c l va
        match s1.rdcMiss c.die l with
        | some u =>
          some ((s1.setCard id { c with parked := dropItem c.parked i, elems := Tbl.set c.elems i (.atSlice bs) }).modUnit u
            (fun k => k.joinRead c.tag l.loc.line ⟨.card id i, l.rdc, va, l.size⟩))
        | none => (s1.plainLoad c.ord c.die c.tag l n).map (fun v =>
            (if v.1.bad then v.2.errSeen l.loc else v.2).elemGot id c i bs v.1 l.loc.isForeign)

/-- The counter an element's packet counts (R301). -/
def Card.counter (c : Card) : Option Nat := if c.cen then some c.mc else none

/-- Writes an element to its destination (R88, R90, R301): a bay's scratchpad or weight buffer on the engine's die by a packet, other
storage as a plain store of the engine's die. -/
def State.elemWrite (s : State) (id : Nat) (c : Card) (i : Nat) (bs : List Byte) (st : V4) : Option State :=
  let e := c.elem i
  let va := c.dst + w64 e.1
  let put (k : Elem) := { c with elems := Tbl.set c.elems i k, parked := dropItem c.parked i }
  if !c.covers va.toNat e.2 true then some (s.cardFail id none 1)
  else if c.wb then
    let bay := bits c.dst 47 37
    let off := bits c.dst 15 4 * 16 + e.1
    if !s.ownsBay c.tag c.die bay then some (s.cardFail id none 6)
    else if !inPart (s.wbufPart c.tag c.die bay) off e.2 then some (s.cardFail id none 5)
    else some (s.setCard id (put (.landing bs (.spad c.die bay off) st)))
  else if !canonical va then some (s.cardFail id none 2)
  else
    let r := s.engineXlate c.unit c.tag va e.2 .copyWrite
    match r.1 with
    | .miss => some (r.2.askWalk c.tag (c.req id i .copyWrite va))
    | .trap k => some (s.cardFail id none (if k = 0x0C then 6 else 2))
    | .ok l =>
      if l.loc.isWindow then some (s.cardFail id none 2)
      else if s.linkDown l.loc then some (s.cardFail id none 3)
      else
        let s1 := r.2.channelDetect c l va
        match l.loc with
        | .spad d b o =>
          if d = c.die then some (s1.setCard id (put (.landing bs l.loc st)))
          else
            let w := s1.plainStore c.ord c.die c.tag (.spad d b o) bs (some ⟨d, b, c.tag, c.counter, st⟩) (.engine id)
            some (w.2.setCard id { put .done with ord := w.1 })
        | k =>
          let w := s1.plainStore c.ord c.die c.tag k bs none (.engine id)
          some (w.2.setCard id { put .done with ord := w.1, foreign := c.foreign || k.isForeign })

/-- The elements of a result block at an address, cut at line ends, but for the status word, which is the last element (R289). -/
def resultPieces (out : W64) : List (Nat × Nat) :=
  let m := out.toNat % 128
  let part (a n : Nat) : List (Nat × Nat) :=
    (List.range (lineCount ((m + a) % 128) n)).map (fun k => (a + (lineCut ((m + a) % 128) n k).1, (lineCut ((m + a) % 128) n k).2))
  part 0 768 ++ part 776 248

/-- The number of the element that writes the status word. -/
def Card.statusElem (c : Card) : Nat := (resultPieces c.dst).length

/-- A write of element `i` of the result block cannot be made, or a store of the block, of no known element, is lost (R289): only the status
word is still written, with the code; where that is the one that cannot be written, it stays as it is. A lost store is the status word's if that
has been made, for it is made last. -/
def State.resultFail (s : State) (id : Nat) (c : Card) (i : Option Nat) (code : Nat) : State :=
  let n := c.statusElem
  if i == some n || (i.isNone && (Tbl.find c.elems n).isSome) then s.setCard id { c with stopped := true, code := code, parked := [] }
  else
    let st := setBits (w64 (leNat ((c.result.drop 768).take 8))) 63 56 code
    s.setCard id { c with code := code, elems := (List.range n).map (fun k => (k, .done)), parked := [],
                          result := c.result.take 768 ++ leBytes 8 st.toNat ++ c.result.drop 776 }

/-- No buffer holds a store of a card: each has been performed at its home (R68). -/
def State.storesDone (s : State) (id : Nat) : Bool :=
  s.rbuf.all (fun f => f.2.all (fun e => e.src.id != id)) && s.lbuf.all (fun f => f.2.all (fun e => e.src.id != id))

/-- An element of the result block may be written (R289): the status word once every other has been performed. -/
def State.resultReady (s : State) (id : Nat) (c : Card) (i : Nat) : Bool :=
  let n := c.statusElem
  decide (i ≤ n) && (Tbl.find c.elems i).isNone && mayTake c.parked i false &&
    (i != n || (decide (c.elems.length = n) && s.storesDone id))

/-- A write of an element of the result block (R289). -/
def State.resultWrite (s : State) (id : Nat) (c : Card) (i : Nat) : Option State :=
  let e := ((resultPieces c.dst)[i]?).getD (768, 8)
  let va := c.dst + w64 e.1
  if 0x100 ≤ c.code then some (s.resultFail id c (if c.code < 0x200 then none else some (c.code / 0x100 - 2)) (c.code % 0x100))
  else if !s.resultReady id c i then none
  else if !canonical va then some (s.resultFail id c (some i) 0x84)
  else
    let r := s.engineXlate c.unit c.tag va e.2 .copyWrite
    match r.1 with
    | .miss => some (r.2.askWalk c.tag (c.req id i .copyWrite va))
    | .trap _ => some (s.resultFail id c (some i) 0x84)
    | .ok l =>
      if l.loc.isWindow then some (s.resultFail id c (some i) 0x84)
      else if s.linkDown l.loc then some (s.resultFail id c (some i) 0x85)
      else
        let w := r.2.plainStore c.ord c.die c.tag l.loc ((c.result.drop e.1).take e.2) none (.engine id)
        some (w.2.setCard id { c with ord := w.1, foreign := c.foreign || l.loc.isForeign, parked := dropItem c.parked i,
                                      elems := Tbl.set c.elems i .done })

/-- The next read of an input piece of an assignment job whose auction has not begun (R283). -/
def State.inputRead (s : State) (id : Nat) (c : Card) (i : Nat) : Option State :=
  let k := i - firstInput
  if decide (i < firstInput) || decide (0x100 ≤ c.code) || (s.cluster c.die c.eng).asn.isSome ||
      decide ((asnPieces c.desc).1 + (asnPieces c.desc).2 ≤ k) || !mayTake c.parked i (Tbl.find c.elems i).isSome then none
  else
    match Tbl.find c.elems i with
    | none => s.elemRead id c i []
    | some (.reading bs _) => if bs.length < (c.span i).2 then s.elemRead id c i bs else none
    | _ => none

/-- JOB_ELEMENT (R88): the next read or the write of an element of a copy, or, of an assignment job, the read of an input or a write of
the result block. -/
def State.jobElement (s : State) (id i : Nat) : Option State :=
  match Tbl.find s.cards id with
  | none => none
  | some c =>
    if !c.started || c.cs.isSome || c.stopped || c.upto.isSome then none
    else
      match c.kind with
      | .copy =>
        if decide (c.elements ≤ i) || !mayTake c.parked i (Tbl.find c.elems i).isSome then none
        else
          match Tbl.find c.elems i with
          | none => s.elemRead id c i []
          | some (.atSlice _) => none
          | some (.reading bs st) => if bs.length < (c.elem i).2 then s.elemRead id c i bs else s.elemWrite id c i bs st
          | some (.landing _ _ _) => none
          | some .done => none
      | .asn => if c.result.isEmpty then s.inputRead id c i else s.resultWrite id c i
      | _ => none

/-- PACKET_LANDING (R90, R301): an element's packet lands at a bay of the engine's die. -/
def State.packetLanding (s : State) (id i : Nat) : Option State :=
  match Tbl.find s.cards id with
  | none => none
  | some c =>
    match Tbl.find c.elems i with
    | some (.landing bs l st) =>
      let c1 := { c with elems := Tbl.set c.elems i .done }
      match l with
      | .spad d b o =>
        let p : Landing := ⟨d, b, c.tag, c.counter, st⟩
        if c.wb then some (((s.putBytes (s.wbufAt c.tag d b o) bs).land p).setCard id c1)
        else
          let w := s.plainStore c.ord c.die c.tag l bs (some p) .none
          some (w.2.setCard id { c1 with ord := w.1 })
      | _ => none
    | _ => none

/-- PROGRAM_STRAND_START (R302): the program's strand, in the lowest free slot of its spindle; not on an island that is clamped (R326). -/
def State.programStart (s : State) (id : Nat) : Option State :=
  match Tbl.find s.cards id with
  | none => none
  | some c =>
    let u := spOf c.die c.pbay
    if !(c.kind == .load || c.kind == .store) || !c.started || c.strand.isSome || c.cs.isSome || !(s.island (islandOf c.die c.pbay)).runs then none
    else
      match (List.range 8).find? (fun n => (s.inSlot u c.tag n).isNone) with
      | none => none
      | some n =>
        let x := s.nextId
        let t : Strand :=
          { Strand.init with
            tag := c.tag, status := .ready, regs := (Strand.init.regs.set 0 (zext128 c.parg)).set 1 c.w1, pc := c.pentry, gen := 65536,
            ord := c.ord, wid := c.pwid, tvec := c.ptvec, card := some id }
        some (((s.addStrand t).takeSlot x u n).setCard id { c with strand := some x })

/-- Two order states together, as of strands that SEMS and SEMW order (R267). -/
def OrderState.join (a b : OrderState) : OrderState :=
  ⟨Nat.max a.pts b.pts, a.vw.vmax b.vw, a.rs.vmax b.rs, a.pa.vmax b.pa⟩

/-- Order state `a` once it has seen what order state `b` has done before it on the same die, as in program order (R267). -/
def OrderState.see (a b : OrderState) : OrderState := { a with pts := Nat.max a.pts b.pts, pa := a.pa.vmax b.pa }

/-- A card's completion step (R89): its stamp, its channel's watermark and error (R300), and a list's fence counter (R295). -/
def State.cardDone (s : State) (id : Nat) (c : Card) : State :=
  let o := s.releaseBy c.ord c.die
  let cs := o.completion
  let s1 := s.setCard id { c with ord := o, cs := some cs }
  let s2 := match c.kind with
    | .copy => s1.modChan c.channel (fun h =>
        { h with wm := (c.xid + 1) % 2 ^ 32, log := h.log ++ [cs], errId := if c.code = 0 then h.errId else c.xid,
                 errCode := if c.code = 0 then h.errCode else c.code })
    | .asn => s1.modCluster c.die c.eng (fun k => { k with asn := none })
    | .seq => s1.modTen c.die c.bay c.tag (fun b => { b with loom := { b.loom with seq := none } })
    | _ => match c.strand with
      | some x => s1.freeStrand x
      | none => s1
  match c.fc with
  | some fc => s2.fcAdd c.tag fc 1 cs
  | none => s2

/-- The completion of a card, which may have to wait for its release (R74, R89). -/
def State.cardEnd (s : State) (id : Nat) (c : Card) : State :=
  if s.drained c.die c.foreign s.serial then s.cardDone id c else s.setCard id { c with upto := some s.serial }

/-- DEVICE_RELEASE of a card. -/
def State.cardRelease (s : State) (id : Nat) : Option State :=
  match Tbl.find s.cards id with
  | none => none
  | some c => match c.upto with
    | none => none
    | some n => if c.cs.isNone && s.drained c.die c.foreign n then some (s.cardDone id c) else none

/-- Every element of a card has been performed, or the card has stopped with none on its way (R89). -/
def Card.finished (c : Card) (n : Nat) : Bool :=
  let flying := c.elems.any (fun e => match e.2 with | .landing _ _ _ => true | _ => false)
  if c.stopped then !flying
  else c.elems.length == n && c.elems.all (fun e => match e.2 with | .done => true | _ => false)

/-- JOB_COMPLETION (R89, R268, R302): a copy or an assignment job when its elements are done, a program when its strand has stopped, a
sequencer job when its last operation has completed. -/
def State.jobCompletion (s : State) (id : Nat) : Option State :=
  match Tbl.find s.cards id with
  | none => none
  | some c =>
    if c.cs.isSome || c.upto.isSome || !c.started then none
    else
      match c.kind with
      | .copy => if c.finished c.elements then some (s.cardEnd id c) else none
      | .asn => if c.finished (c.statusElem + 1) then some (s.cardEnd id c) else none
      | .seq =>
        let l := (s.ten c.die c.bay c.tag).loom
        let last := match l.seq with
          | some j => j.card == id && (c.stopped || j.at_ == j.count)
          | none => false
        if last && l.queue.isEmpty && (c.stopped || !l.err) then some (s.cardEnd id { c with ord := c.ord.join l.ord }) else none
      | _ =>
        match c.strand with
        | none => none
        | some x =>
          let t := s.strand x
          if t.status = .stopped then some (s.cardEnd id { c with ord := t.ord }) else none

/-- The die of a read's requester, none once it is no more. -/
def State.joinDie (s : State) (j : Joiner) : Option Nat :=
  match j with
  | .fill id _ => (Tbl.find s.fills id).map (·.die)
  | .strand x => some (s.dieOf x)
  | .card id _ => (Tbl.find s.cards id).map (·.die)

/-- The bytes of its line that a load at a slice reads: all of its own, or those of the half that is still to be read (R34). -/
def MemOp.sliceSpan (m : MemOp) : Nat × Nat :=
  let a := m.ea.toNat % 128
  match m.half with
  | none => (a, m.size)
  | some (hi, _) => (a + (if hi then 0 else 8), 8)

/-- A read of a line's words meets a poisoned one, by the marks of the line that its one read found (R233, R318). -/
def spanBad (bad : List Bool) (p : Nat × Nat) : Bool := ((bad.drop (p.1 / 8)).take ((p.1 % 8 + p.2 + 7) / 8)).any (fun b => b)

/-- The load of a strand that is at a slice. -/
def State.sliceLoad (s : State) (x : Nat) : Option (MemOp × MKind) :=
  match s.memOp x with
  | none => none
  | some m =>
    match m.act, m.stage with
    | .load k, .slice => some (m, k)
    | _, _ => none

/-- The read step of a strand's RDC fill, a load at the line's home (R69, R70, R222), of the marks `bad`. -/
def State.strandSliceRead (s : State) (x : Nat) (loc : Loc) (rdc : Bool) (bad : List Bool) : State :=
  match s.sliceLoad x with
  | none => s
  | some (m, k) =>
    let p := m.sliceSpan
    let l : XLoc := { loc := loc.plus p.1, write := true, rdc := rdc, sd := false, size := 16 }
    let r := s.homeRead (s.strand x).ord (s.dieOf x) (s.strand x).tag l p.2
    let s1 := r.2.modStrand x (fun t => { t with ord := r.1.ord })
    let bs := match m.half with
      | none => r.1.bs
      | some (hi, fst) => joinHalves hi fst r.1.bs
    if spanBad bad p then s1.defer x 0x40 m.ea else s1.answer x (result m.d (MKind.extend k bs))

/-- The marks that a strand's load at a slice consumed go (R318), after every read that joined its entry has seen them; `s0` is the state
before the entry's read step. -/
def State.sliceEat (s s0 : State) (loc : Loc) (bad : List Bool) (j : Joiner) : State :=
  match j with
  | .strand x => match s0.sliceLoad x with
    | some (m, _) =>
      if spanBad bad m.sliceSpan then s.eat (s0.dieOf x) (s0.strand x).tag (loc.plus m.sliceSpan.1) m.sliceSpan.2 else s
    | none => s
  | .fill _ _ => s
  | .card _ _ => s

/-- The read step of a card's element that is at a slice (R88): a load at the line's home. A poisoned word ends the card (R318). -/
def State.cardSliceRead (s : State) (id i : Nat) (loc : Loc) (rdc : Bool) (bad : List Bool) : State :=
  match Tbl.find s.cards id with
  | none => s
  | some c =>
    match Tbl.find c.elems i with
    | some (.atSlice bs) =>
      let p := c.piece i bs.length
      let l : XLoc := { loc := loc.plus (p.1.toNat % 128), write := true, rdc := rdc, sd := false, size := 16 }
      let r := s.homeRead c.ord c.die c.tag l p.2
      let b := spanBad bad (p.1.toNat % 128, p.2)
      (if b then r.2.errSeen loc else r.2).elemGot id c i bs { r.1 with bad := b } false
    | _ => s

/-- What an entry's read step is to one read that has joined it (R233); `bad` are the marks that the step found. -/
def State.joinStep (s : State) (loc : Loc) (bad : List Bool) (j : SliceJoin) : State :=
  match j.who with
  | .fill id line => s.fillHomeRead ⟨loc, true, j.rdc, false, 16⟩ id line bad
  | .strand x => s.strandSliceRead x loc j.rdc bad
  | .card id i => s.cardSliceRead id i loc j.rdc bad

/-- FILL_READ_STEP (R233, R345): the oldest entry of a slice's fill-merge table is read, and every read that joined it receives the
same bytes and marks; its place goes to the oldest waiting read. The read is no longer in progress as its copies are installed (R52). -/
def State.fillReadStep (s : State) (die bay i : Nat) : Option State :=
  let u := spOf die bay
  match (s.unit u).merge with
  | [] => none
  | e :: rest =>
    let loc := vaultLine e.line
    let clear := e.joins.all (fun j => match s.joinDie j.who with | some d => (s.buffered d loc).isEmpty | none => true)
    if i != 0 || !clear then none
    else
      let bad := s.lineBad 0 loc
      let s1 := s.modUnit u (fun c => { c with merge := rest })
      let s2 := e.joins.foldl (fun s j => s.joinStep loc bad j) s1
      some ((e.joins.foldl (fun t j => t.sliceEat s loc bad j.who) s2).modUnit u (·.refill))

/-- R233, R345, FILL_READ_STEP. -/
def execFillReadStep (die bay i : Nat) (s : State) : Out := s.ifEnabled (s.fillReadStep die bay i)

/-- R88, JOB_START. -/
def execJobStart (id : Nat) (s : State) : Out := s.ifEnabled (s.jobStart id)

/-- R88, JOB_ELEMENT. -/
def execJobElement (id i : Nat) (s : State) : Out := s.ifEnabled (s.jobElement id i)

/-- R89, JOB_COMPLETION. -/
def execJobCompletion (id : Nat) (s : State) : Out := s.ifEnabled (s.jobCompletion id)

/-- R90, PACKET_LANDING. -/
def execPacketLanding (id i : Nat) (s : State) : Out := s.ifEnabled (s.packetLanding id i)

/-- R302, PROGRAM_STRAND_START. -/
def execProgramStrandStart (id : Nat) (s : State) : Out := s.ifEnabled (s.programStart id)

/-- R312, TRANSFER_WAIT_TIMEOUT. -/
def execTransferWaitTimeout (x : Nat) (s : State) : Out := s.ifEnabled (s.transferTimeout x)

end Sys2Proof.Machine
end

