-- ==== Sys2Proof/Machine/Assign.lean ====
section
/-!
DEFINITION. The Assignment Engine (spec 14, R279 to R291; major 0x30): ASN, the start of a job, its inputs, the rounds of the auction and
the result block.
-/
namespace Sys2Proof.Machine

/-- The reserved fields of a descriptor are zero (Table 14-1). -/
def asnReserved (ws : List W64) : Bool := bits (nth 0 ws 0) 31 0 == 0 && nth 0 ws 6 == 0 && nth 0 ws 7 == 0

/-- The configuration errors of ASN (R280). -/
def asnConfigOk (ws : List W64) : Bool :=
  asnReserved ws && canonical (nth 0 ws 1) && canonical (nth 0 ws 2) && (nth 0 ws 1).toNat % (asnShape ws).2.2 == 0

/-- The card of an assignment job (R280). -/
def asnCard (tag die cluster : Nat) (ws : List W64) (out : W64) : Card :=
  { Card.init .asn tag die cluster with
    dst := out, desc := ws,
    regions := [⟨(nth (0 : W64) ws 1).toNat, asnScoreBytes ws, true, false, false⟩,
      ⟨(nth (0 : W64) ws 2).toNat, (asnShape ws).2.1, true, false, false⟩, ⟨out.toNat, 1024, false, true, false⟩] }

/-- R280, ASN: posted on the poster's die at issue, which stays in rotation. -/
def execAsn (a b : RegZ) (h : BitVec 5) (g : Guard) (s : State) : Out :=
  s.issue (.asn a b h g) .none .any g (fun s => s.coreOnly (.asn a b h g) (fun s =>
    let w := lo64 (regz s.me a)
    let out := lo64 (regz s.me b)
    let off := bits w 17 6 * 64
    let u := s.unitOf s.cur
    if (s.handleOf s.cur h.toNat).isSome then s.raise 0x4C (w64 h.toNat)
    else if bits w 63 18 != 0 || bits w 5 0 != 0 then s.raise 0x01 (wordOf (.asn a b h g))
    else if !canonical out then s.raise 0x08 out
    else if bits out 5 0 != 0 then s.raise 0x09 out
    else s.ownBlock off 1 (fun ws s1 =>
      if !asnConfigOk ws then s1.raise 0x4B (w64 off)
      else
        let id := s1.nextId
        let s2 := { s1.setCard id { asnCard s.me.tag u.die (clusterOf u.bay) ws out with bay := u.bay } with nextId := id + 1 }
        ((s2.postCard id s1.me.ord u.die).bindHandle s.cur h.toNat id).retire nothing)))

/-- An FP32 field is finite and greater than +0. -/
def positive32 (c : Nat) : Bool := decide (0 < c) && decide (c < 0x7F800000)

/-- x is less than y, as FP32 codes. -/
def lt32 (x y : Nat) : Bool := FVal.cmp (fp32.val x) (fp32.val y) == some .lt

/-- Subtraction in FP32, nearest even. -/
def sub32 (x y : Nat) : Nat := (fp32.add .rne (fp32.val x) (fp32.val y).neg).1

/-- Addition in FP32, nearest even. -/
def add32 (x y : Nat) : Nat := (fp32.add .rne (fp32.val x) (fp32.val y)).1

/-- The larger of two FP32 codes. -/
def max32 (x y : Nat) : Nat := if lt32 x y then y else x

/-- The check of a job's values at its start (R282): the status code of the first failure. -/
def asnBad (ws : List W64) : Option Nat :=
  let w (i : Nat) := nth (0 : W64) ws i
  let sched := bit (w 0) 48
  let finite (c : Nat) := decide (c % 2 ^ 31 < 0x7F800000)
  if bits (w 0) 47 32 = 0 then some 0x83
  else if !sched && !positive32 (bits (w 3) 31 0) then some 0x81
  else if sched && !(positive32 (bits (w 4) 31 0) && positive32 (bits (w 5) 31 0) && !lt32 (bits (w 4) 31 0) (bits (w 5) 31 0) &&
      finite (bits (w 4) 63 32) && lt32 0x3F800000 (bits (w 4) 63 32)) then some 0x81
  else if !finite (bits (w 3) 63 32) then some 0x82
  else if (fp32.val (bits (w 5) 63 32)).isNan then some 0x82
  else none

/-- Splits codes of `z` bytes, `n` of them. -/
def codesOf (z : Nat) : Nat → List Byte → List Nat
  | 0, _ => []
  | n + 1, bs => leNat (bs.take z) :: codesOf z n (bs.drop z)

/-- Rows of `c` entries, `n` of them. -/
def rowsOf {α : Type} (c : Nat) : Nat → List α → List (List α)
  | 0, _ => []
  | n + 1, xs => xs.take c :: rowsOf c n (xs.drop c)

/-- The auction at its start (R283, R284): BF16 scores widened, rows excluded, every slot at +0 with no holder. -/
def auctionOf (id : Nat) (ws : List W64) (scores caps : List Byte) : Auction :=
  let z := asnShape ws
  let rows := (rowsOf z.2.1 z.1 (codesOf z.2.2 (z.1 * z.2.1) scores)).map (fun r => r.map (fun c => if z.2.2 = 2 then c * 65536 else c))
  let cs := caps.map (·.toNat)
  let w3 := nth (0 : W64) ws 3
  { card := id, rows := z.1, cols := z.2.1, caps := cs, scores := rows.map (fun r => r.map (BitVec.ofNat 32 ·)),
    excl := rows.map (fun r => r.any (fun c => (fp32.val c).isNan || c == 0x7F800000)),
    prices := cs.map (fun n => List.replicate n 0), holders := cs.map (fun n => List.replicate n none),
    frozen := cs.map (fun _ => false),
    eps := BitVec.ofNat 32 (if bit (nth (0 : W64) ws 0) 48 then bits (nth (0 : W64) ws 4) 31 0 else bits w3 31 0), rounds := 0, phases := 1 }

/-- The lowest price of a column and its lowest-numbered slot, none without slots (R284). -/
def cheapest (ps : List W32) : Option (Nat × Nat) :=
  (List.range ps.length).foldl (fun b m =>
    let p := (nth (0 : W32) ps m).toNat
    match b with
    | none => some (m, p)
    | some (k, q) => if lt32 p q then some (m, p) else some (k, q)) none

/-- The lowest price among a column's other slots. -/
def secondPrice (ps : List W32) (m : Nat) : Option Nat := (cheapest (ps.eraseIdx m)).map (·.2)

/-- A bid: the row, the column and slot it goes to, and its amount, none if it is not placed (R285, R286). -/
structure Bid where
  row : Nat
  col : Nat
  slot : Nat
  amount : Option Nat

/-- Columns that take part, with their cheapest slots and its price (R284, R287). -/
def Auction.open_ (a : Auction) : List (Nat × Nat × Nat) :=
  (List.range a.cols).filterMap (fun j =>
    if nth false a.frozen j then none else (cheapest (nth [] a.prices j)).map (fun p => (j, p.1, p.2)))

/-- A row holds no slot. -/
def Auction.free (a : Auction) (i : Nat) : Bool := a.holders.all (fun h => h.all (fun x => x != some i))

/-- The bid of a row (R285, R286), none where it makes none. -/
def Auction.bid (a : Auction) (floor : Nat) (os : List (Nat × Nat × Nat)) (i : Nat) : Option Bid :=
  let row := nth [] a.scores i
  let sc (j : Nat) := (nth (0 : W32) row j).toNat
  let vs := os.map (fun o => (o, sub32 (sc o.1) o.2.2))
  let best := vs.foldl (fun b v => match b with
    | none => some v
    | some w => if lt32 w.2 v.2 then some v else some w) none
  match best with
  | none => none
  | some ((j, m, p), v1) =>
    if nth false a.excl i || !a.free i || lt32 v1 floor then none
    else
      let others := (vs.filter (fun v => v.1.1 != j)).map (·.2)
      let own := match secondPrice (nth [] a.prices j) m with
        | some q => [sub32 (sc j) q]
        | none => []
      let v2 := (others ++ own).foldl max32 floor
      let b0 := add32 (sub32 (sc j) v2) a.eps.toNat
      let b1 := if b0 = 0x7F800000 then 0x7F7FFFFF else b0
      let b2 := if lt32 p b1 then b1 else p + 1
      some ⟨i, j, m, if b2 = 0x7F800000 then none else some b2⟩

/-- The winning bid for a column: the highest, and of equal ones the lowest row (R285). -/
def winner (bs : List Bid) (j : Nat) : Option (Nat × Nat × Nat) :=
  bs.foldl (fun w b =>
    match b.amount with
    | none => w
    | some x =>
      if b.col != j then w
      else match w with
      | none => some (b.row, b.slot, x)
      | some (r, k, y) => if lt32 y x then some (b.row, b.slot, x) else some (r, k, y)) none

/-- A round (R285 to R287): the auction after it, none where no row bids. -/
def Auction.round (a : Auction) (floor ceil : Nat) : Option Auction :=
  let bs := (List.range a.rows).filterMap (a.bid floor a.open_)
  if bs.isEmpty then none
  else
    let ws := (List.range a.cols).map (winner bs)
    let put {α : Type} (ls : List (List α)) (f : Nat × Nat × Nat → α) : List (List α) :=
      (ls.zip ws).map (fun e => match e.2 with
        | none => e.1
        | some w => setNth e.1 w.2.1 (f w))
    let ps := put a.prices (fun w => BitVec.ofNat 32 w.2.2)
    let hs := put a.holders (fun w => some w.1)
    let marked (j : Nat) := bs.any (fun b => b.col == j && b.amount.isNone)
    let past (j : Nat) := match cheapest (nth [] ps j) with
      | some p => lt32 ceil p.2
      | none => false
    some { a with prices := ps, holders := hs, rounds := a.rounds + 1,
                  frozen := (List.range a.cols).map (fun j => nth false a.frozen j || marked j || past j) }

/-- The slot that a row holds: column and slot. -/
def Auction.slotOf (a : Auction) (i : Nat) : Option (Nat × Nat) :=
  (List.range a.cols).findSome? (fun j =>
    ((List.range (nth [] a.holders j).length).find? (fun m => nth none (nth [] a.holders j) m == some i)).map (fun m => (j, m)))

/-- The status word (Table 14-3). -/
def asnStatus (code rounds excl asg frz ph : Nat) : W64 :=
  pack [(code, 56), (rounds, 40), (excl, 31), (asg, 22), (frz, 15), (Nat.min ph 255, 7)]

/-- The result block of an auction that has ended (Table 14-2). -/
def Auction.block (a : Auction) (code : Nat) : List Byte :=
  let held := (List.range a.rows).map a.slotOf
  let rows := (List.range 256).flatMap (fun i => match nth none held i with
    | some (j, m) => [BitVec.ofNat 8 j, BitVec.ofNat 8 m]
    | none => [0xFF#8, 0xFF#8])
  let cols := (List.range 64).flatMap (fun j => leBytes 4 (match cheapest (nth [] a.prices j) with | some p => p.2 | none => 0))
  let st := asnStatus code a.rounds (a.excl.filter (fun b => b)).length (held.filter (·.isSome)).length
    (a.frozen.filter (fun b => b)).length a.phases
  rows ++ cols ++ leBytes 8 st.toNat ++ leBytes 248 0

/-- The result block of a job whose inputs could not be read (R290). -/
def failBlock (code : Nat) : List Byte :=
  List.replicate 512 0xFF ++ leBytes 256 0 ++ leBytes 8 (asnStatus code 0 0 0 0 0).toNat ++ leBytes 248 0

/-- The job that an engine has to run: the oldest posted to it that has not completed (R279). -/
def State.asnHead (s : State) (die cluster : Nat) : Option (Nat × Card) :=
  s.cards.find? (fun e => e.2.kind == .asn && e.2.posted && e.2.die == die && e.2.eng == cluster && e.2.cs.isNone)

/-- The bytes read of an input piece. -/
def Card.inputBytes (c : Card) (k : Nat) : List Byte :=
  match Tbl.find c.elems (firstInput + k) with
  | some (.reading bs _) => bs
  | _ => []

/-- The end of the reading of a job's inputs (R283): every piece has been read and the auction begins, or the job has failed and its
result block says so (R290). -/
def State.asnInputs (s : State) (id : Nat) (c : Card) : Option State :=
  let n := asnPieces c.desc
  if 0x100 ≤ c.code then
    some (s.setCard id { c with code := c.code % 0x100, result := failBlock (c.code % 0x100), elems := [] })
  else if (List.range (n.1 + n.2)).all (fun k => (c.inputBytes k).length == (asnInput c.desc k).2) then
    let scores := (List.range n.1).flatMap c.inputBytes
    let caps := (List.range n.2).flatMap (fun k => c.inputBytes (n.1 + k))
    some ((s.setCard id { c with elems := [] }).modCluster c.die c.eng (fun k => { k with asn := some (auctionOf id c.desc scores caps) }))
  else none

/-- ASN_START (R279, R282, R283): the start step with its checks, or, its inputs read, the start of the auction. -/
def State.asnStart (s : State) (die cluster : Nat) : Option State :=
  match s.asnHead die cluster with
  | none => none
  | some (id, c) =>
    if (s.cluster die cluster).asn.isSome || !c.result.isEmpty then none
    else if c.started then s.asnInputs id c
    else if !s.predsDone c then none
    else
      let s1 := s.cardStart id c
      match Tbl.find s1.cards id with
      | none => none
      | some c1 =>
        match asnBad c.desc with
        | some code =>
          some (s1.setCard id { c1 with code := code, result := failBlock code, elems := (List.range c1.statusElem).map (fun k => (k, .done)) })
        | none => some s1

/-- The auction ends with a status (R288): its result block is to be written. -/
def State.asnEnd (s : State) (die cluster : Nat) (a : Auction) (code : Nat) : State :=
  match Tbl.find s.cards a.card with
  | none => s
  | some c => (s.setCard a.card { c with code := code, result := a.block code }).modCluster die cluster (fun k => { k with asn := none })

/-- The ε of the next phase (R288). -/
def nextEps (ws : List W64) (eps : Nat) : Nat :=
  let fl := bits (nth (0 : W64) ws 5) 31 0
  let q := (fp32.div .rne (fp32.val eps) (fp32.val (bits (nth (0 : W64) ws 4) 63 32))).1
  if lt32 q eps then max32 q fl else fl

/-- ASN_ROUND (R285, R288): one round, the end of a phase, or the end of the job. -/
def State.asnRound (s : State) (die cluster : Nat) : Option State :=
  match (s.cluster die cluster).asn with
  | none => none
  | some a =>
    match Tbl.find s.cards a.card with
    | none => none
    | some c =>
      let w3 := nth (0 : W64) c.desc 3
      let w5 := nth (0 : W64) c.desc 5
      match a.round (bits w3 63 32) (bits w5 63 32) with
      | some b =>
        if b.rounds = bits (nth (0 : W64) c.desc 0) 47 32 then some (s.asnEnd die cluster b 0x01)
        else some (s.modCluster die cluster (fun k => { k with asn := some b }))
      | none =>
        if bit (nth (0 : W64) c.desc 0) 48 && lt32 (bits w5 31 0) a.eps.toNat then
          let b : Auction := { a with
            eps := BitVec.ofNat 32 (nextEps c.desc a.eps.toNat), phases := a.phases + 1,
            holders := a.holders.map (fun h => h.map (fun _ => none)) }
          some (s.modCluster die cluster (fun k => { k with asn := some b }))
        else some (s.asnEnd die cluster a 0x00)

/-- R282, R283, ASN_START. -/
def execAsnStart (die cluster : Nat) (s : State) : Out := s.ifEnabled (s.asnStart die cluster)

/-- R285, ASN_ROUND. -/
def execAsnRound (die cluster : Nat) (s : State) : Out := s.ifEnabled (s.asnRound die cluster)

end Sys2Proof.Machine
end

