-- ==== Sys2Proof/Machine/Deliver.lean ====
section
/-!
DEFINITION. Deliveries and presence (spec 06, R135, R136; spec 12, R239 to R241; spec 03, R82), mailboxes (R242) and landed-packet
counters (R243): majors 0x28 and 0x29.
-/
namespace Sys2Proof.Machine

/-- A delivery to a register sets its presence bit (R36). -/
def presented (t : Strand) (reg : Nat) (v : W128) : Strand :=
  if h : reg < 24 then { t with regs := t.regs.set reg v h, pres := setBit t.pres reg true } else t

/-- A remote delivery to w23 of a position-bound strand is refused (R142). -/
def refusesDelivery (t : Strand) (reg : Nat) : Bool := t.kind == .pos && reg == 23

/-- Order times of a register-window line by its number. -/
def State.setLineNo (s : State) (n : Nat) (o : LineOrder) : State := { s with lines := Tbl.set s.lines n o }

/-- A message arrives (R135): it is delivered to the strand that carries the name, or dropped and counted. The order step of R82 is
taken by `times`. -/
def State.deliverName (s : State) (tag : Nat) (name : W64) (reg : Nat) (v : W128) (times : State → State) : State :=
  match s.named tag name with
  | none => s.orphan (unitField name).u
  | some y => if refusesDelivery (s.strand y) reg then s.orphan (unitField name).u else times ((s.modStrand y (fun t => presented t reg v)).creelTouch y)

/-- R239, DLV: posted at retire, by message within the die and through the die's buffer across dies and devices (R82). -/
def execDlv (a b : Src) (n : Base) (g : Guard) (s : State) : Out :=
  s.issue (.dlv a b n g) .none .any g (fun s => s.src2 a b (fun x v s1 =>
    let name := lo64 x
    let dest := unitField name
    let d := s.myDie
    if badName name then s.raise 0x01 (wordOf (.dlv a b n g))
    else
      let s2 := s1.retire nothing
      if dest.dev = s.dev.num && dest.u.die = d then
        s2.addMsg (.deliver s.me.tag name n.val v s.cur d s1.me.ord.pts s1.me.ord.rs)
      else
        let t : Target := if dest.dev = s.dev.num then .die dest.u.die else .dev dest.dev
        let e : BufEntry := { serial := s2.serial, tag := s.me.tag, act := .deliver name n.val v, stamp := s1.me.ord.rs, land := none,
                              src := .strand s.cur name, sent := false }
        { ((s2.setFifo d t (s2.fifo d t ++ [e])).meteredLink s.me.tag t) with serial := s2.serial + 1 }))

/-- MESSAGE_DELIVERY (R135, R82, R195): a message of the die arrives, as a same-die store by its sender; or the next word of a FEFILL or
FEEMPTY changes. -/
def State.messageDelivery (s : State) (id : Nat) : Option State :=
  match Tbl.find s.msgs id with
  | some (.deliver tag name reg v x die pts stamp) =>
    let s1 := { s with msgs := Tbl.del s.msgs id }
    let n := deliverLine name reg
    let t := Nat.max pts ((Tbl.get LineOrder.init s.lines n).rts + 1)
    some (s1.deliverName tag name reg v (fun s =>
      let s2 := s.setLineNo n ⟨t, t, stamp⟩
      if s2.dieOf x = die then s2.modStrand x (fun q => { q with ord := { q.ord with pts := Nat.max q.ord.pts t } }) else s2))
  | some (.fe tag die bay full next left x) => s.feStep id tag die bay full next left x
  | _ => none

/-- Slots of a mask (R240). -/
def maskSlots (m : Nat) : List Nat := (List.range 16).filter (fun i => m / 2 ^ i % 2 == 1)

/-- R240, MDLV. -/
def execMdlv (a b : Src) (n : Base) (g : Guard) (s : State) : Out :=
  s.issue (.mdlv a b n g) .none .any g (fun s => s.src2 a b (fun x v s1 =>
    let w := lo64 x
    let m := bits w 31 16
    if bits w 35 32 != 0 || bits w 15 0 != 0 || (bit w 36 && decide (256 ≤ m)) then s.raise 0x01 (wordOf (.mdlv a b n g))
    else if m = 0 then s1.retire nothing
    else s1.waitOn s.cur (.mdlv w (unitField w) n.val v (maskSlots m) false s.serial)))

/-- The reply of a slot to an MDLV: the strand trapped or answered once every slot has replied (R240). -/
def State.mdlvReplied (s : State) (x : Nat) (va : W64) (u : UnitName) (reg : Nat) (v : W128) (left : List Nat) (neg : Bool) (upto : Nat) :
    State :=
  if !left.isEmpty then s.setWait x (.mdlv va u reg v left neg upto)
  else if neg then s.defer x 0x25 va
  else s.answer x nothing

/-- A negative reply of a slot (R135, R240): the message is dropped, and its unit counts it. -/
def State.mdlvAbsent (s : State) (x : Nat) (va : W64) (u : UnitName) (reg : Nat) (v : W128) (left : List Nat) (upto : Nat) : State :=
  (s.orphan u.u).mdlvReplied x va u reg v left true upto

/-- MDLV_SLOT_DELIVERY (R240, R82): one slot replies, once its register's presence bit is clear and the sender's buffered stores
toward it have drained: a delivery across dies enters no FIFO itself, but waits for what its die's FIFO toward the target held at issue and is
then performed at the target, and the die's drain vector notes its time as it does a drained store's (log 107). A slot of another device
replies as that device does (log 9). -/
def State.mdlvSlot (s : State) (x slot : Nat) : Option State :=
  let t := s.strand x
  match t.wait with
  | .mdlv va u reg v left neg upto =>
    if !left.contains slot || !s.present x then none
    else
      let rest := left.filter (fun k => k != slot)
      if s.linkDown (.foreign u.dev 0) && u.dev != s.dev.num then some (s.defer x 0x18 va)
      else if u.dev != s.dev.num then
        let r := (s.meteredLink t.tag (.dev u.dev)).freeNat
        some (r.2.mdlvReplied x va u reg v rest (neg || r.1 % 2 == 1) upto)
      else
        match s.inSlot u.u t.tag slot with
        | none => some (s.mdlvAbsent x va u reg v rest upto)
        | some y =>
          let q := s.strand y
          if q.status = .stopped || refusesDelivery q reg then some (s.mdlvAbsent x va u reg v rest upto)
          else if bit q.pres reg then none
          else
            let d := s.dieOf x
            let h := u.u.die
            let name := pack [(va.toNat / 2 ^ 36, 36), (q.nslot, 32)]
            let n := deliverLine name reg
            let rts := (Tbl.get LineOrder.init s.lines n).rts
            if h != d && !(s.fifo d (.die h)).all (fun e => decide (upto ≤ e.serial)) then none
            else
              let at_ := if h = d then Nat.max t.ord.pts (rts + 1) else rts + 1
              let s1 := (s.modStrand y (fun k => presented k reg v)).setLineNo n ⟨at_, at_, t.ord.rs⟩
              let s2 := if h = d then s1.modStrand x (fun k => { k with ord := { k.ord with pts := at_ } })
                else s1.modDie d (fun e => { e with dd := e.dd.set h (Nat.max (e.dd.get h) at_) })
              some (s2.mdlvReplied x va u reg v rest neg upto)
  | _ => none

/-- A WAITP that returns is a plain load of its register's line by the receiver (R82). -/
def State.waitpLoad (s : State) (x reg : Nat) : State :=
  let t := s.strand x
  let u := s.unitOf x
  let n := deliverLine (pack [(u.die, 48), (u.bay, 37), (b2n u.sp, 36), (t.nslot, 32)]) reg
  let l := Tbl.get LineOrder.init s.lines n
  let at_ := Nat.max t.ord.pts l.wts
  (s.setLineNo n { l with rts := Nat.max l.rts at_ }).modStrand x (fun k => { k with ord := { k.ord with pts := at_, pa := k.ord.pa.vmax l.stamp } })

/-- The test of a WAITP (R241). -/
def State.waitpTry (s : State) (x reg : Nat) : Option State :=
  if bit (s.strand x).pres reg then some (s.waitpLoad x reg) else none

/-- R241, WAITP. -/
def execWaitp (a : Base) (lim : BitVec 5) (g : Guard) (s : State) : Out :=
  s.issue (.waitp a lim g) .none .any g (fun s =>
    match s.waitpTry s.cur a.val with
    | some s1 => s1.retire nothing
    | none => s.waitOn s.cur (.waitp a.val lim.toNat))

/-- R241, CLRP. -/
def execClrp (a : Base) (g : Guard) (s : State) : Out :=
  s.issue (.clrp a g) .none .any g (fun s =>
    (s.modStrand s.cur (fun t => { t with pres := setBit t.pres a.val false })).retire nothing)

/-- An MDLV still waits for a presence bit to clear (Table 12-1): that of a slot that has not replied. -/
def State.mdlvWaits (s : State) (tag : Nat) (u : UnitName) (reg : Nat) (left : List Nat) : Bool :=
  u.dev != s.dev.num || left.any (fun n => match s.inSlot u.u tag n with
    | some y => bit (s.strand y).pres reg && (s.strand y).status != .stopped && !refusesDelivery (s.strand y) reg
    | none => false)

/-- PRESENCE_WAIT_TIMEOUT (R221): WAITP after 2^LIM core cycles, MDLV after FEWAIT × (FERETRY + 1) mesh cycles (Table 12-1). -/
def State.presenceTimeout (s : State) (x : Nat) : Option State :=
  let t := s.strand x
  match t.wait with
  | .waitp reg lim => if !bit t.pres reg && s.expired x (2 ^ lim) then some (s.defer x 0x27 (w64 reg)) else none
  | .mdlv _ u reg _ left _ _ =>
    if s.mdlvWaits t.tag u reg left && s.expired x (s.feWait t.tag * (s.feRetry t.tag + 1)) then some (s.defer x 0x27 (w64 reg)) else none
  | _ => none

/-- A mailbox of a tenant on a bay. -/
def State.mailbox (s : State) (die bay tag m : Nat) : Mbox := Tbl.get Mbox.init (s.ten die bay tag).mbox m

/-- Replaces a mailbox. -/
def State.setMailbox (s : State) (die bay tag m : Nat) (b : Mbox) : State :=
  s.modTen die bay tag (fun t => { t with mbox := Tbl.set t.mbox m b })

/-- The step of an MBX once its mailbox is empty (R242), ordered as an STX at bay scope (R79). -/
def State.mbxTry (s : State) (x m : Nat) (v : W128) : Option State :=
  let t := s.strand x
  let u := s.unitOf x
  let b := s.mailbox u.die u.bay t.tag m
  if b.full then none
  else
    let at_ := Nat.max t.ord.pts (b.line.rts + 1)
    some ((s.setMailbox u.die u.bay t.tag m ⟨true, v, ⟨at_, at_, t.ord.rs⟩⟩).modStrand x (fun k => { k with ord := { k.ord with pts := at_ } }))

/-- The step of an MBR once its mailbox is full (R242), ordered as an LDX at bay scope (R79). -/
def State.mbrTry (s : State) (x m : Nat) : Option (W128 × State) :=
  let t := s.strand x
  let u := s.unitOf x
  let b := s.mailbox u.die u.bay t.tag m
  if !b.full then none
  else
    let at_ := Nat.max t.ord.pts b.line.wts
    let l := { b.line with rts := Nat.max b.line.rts at_ }
    some (b.val, (s.setMailbox u.die u.bay t.tag m { b with full := false, line := l }).modStrand x
      (fun k => { k with ord := { k.ord with pts := at_, pa := k.ord.pa.vmax b.line.stamp } }))

/-- R242, MBX. -/
def execMbx (a : Src) (m : BitVec 2) (g : Guard) (s : State) : Out :=
  s.issue (.mbx a m g) .none .any g (fun s => s.coreOnly (.mbx a m g) (fun s => s.src a (fun v s1 =>
    match s1.mbxTry s.cur m.toNat v with
    | some s2 => s2.retire nothing
    | none => s1.waitOn s.cur (.mbx m.toNat v))))

/-- R242, MBR: the shuttle only. -/
def execMbr (d : Dst) (m : BitVec 2) (g : Guard) (s : State) : Out :=
  s.issue (.mbr d m g) .none .shuttle g (fun s => s.coreOnly (.mbr d m g) (fun s => s.dstBound d (fun s =>
    match s.mbrTry s.cur m.toNat with
    | some (v, s1) => s1.retire (result d v)
    | none => s.waitOn s.cur (.mbr m.toNat d))))

/-- A landed-packet counter of a tenant on a bay. -/
def State.counter (s : State) (die bay tag c : Nat) : Counter := Tbl.get Counter.init (s.ten die bay tag).ctrs c

/-- Another MWAIT on the counter that arrived earlier would return first (R243). -/
def State.mwaitOlder (s : State) (x c : Nat) (n arr : Nat) : Bool :=
  s.strands.any (fun e => e.1 != x && e.2.tag == (s.strand x).tag && decide (s.unitOf e.1 = s.unitOf x) && s.present e.1 && e.2.status == .waiting &&
    (match e.2.wait with
     | .mwait k q _ => k == c && decide (q ≤ n) && decide (e.2.arr < arr)
     | _ => false))

/-- The test of an MWAIT (R243): the expected count is subtracted and the stamps of the counted packets are applied (R90). -/
def State.mwaitTry (s : State) (x c n arr : Nat) : Option State :=
  let t := s.strand x
  let u := s.unitOf x
  let k := s.counter u.die u.bay t.tag c
  if k.n < n || s.mwaitOlder x c k.n arr then none
  else
    some ((s.modTen u.die u.bay t.tag (fun b => { b with ctrs := Tbl.set b.ctrs c ⟨k.n - n, k.stamps.drop n⟩ })).strandApply x
      (k.stamps.take n))

/-- R243, MWAIT. -/
def execMwait (a : Src) (c l : BitVec 4) (g : Guard) (s : State) : Out :=
  s.issue (.mwait a c l g) .none .any g (fun s => s.coreOnly (.mwait a c l g) (fun s => s.src a (fun v s1 =>
    let w := lo64 v
    if bits w 63 32 != 0 then s.raise 0x01 (wordOf (.mwait a c l g))
    else if w = 0 then s1.retire nothing
    else
      match s1.mwaitTry s.cur c.toNat w.toNat s1.nextId with
      | some s2 => s2.retire nothing
      | none => s1.waitOn s.cur (.mwait c.toNat w.toNat l.toNat))))

/-- MAILBOX_COUNT_TIMEOUT (R243): the expectation is withdrawn and the counter unchanged. -/
def State.mwaitTimeout (s : State) (x : Nat) : Option State :=
  match (s.strand x).wait with
  | .mwait c n l =>
    if (s.mwaitTry x c n (s.strand x).arr).isNone && s.expired x (2 ^ (15 + l)) then some (s.defer x 0x2D (w64 c)) else none
  | _ => none

/-- R135, MESSAGE_DELIVERY. -/
def execMessageDelivery (id : Nat) (s : State) : Out := s.ifEnabled (s.messageDelivery id)

/-- R240, MDLV_SLOT_DELIVERY. -/
def execMdlvSlotDelivery (x slot : Nat) (s : State) : Out := s.ifEnabled (s.mdlvSlot x slot)

/-- R221, PRESENCE_WAIT_TIMEOUT. -/
def execPresenceWaitTimeout (x : Nat) (s : State) : Out := s.ifEnabled (s.presenceTimeout x)

/-- R243, MAILBOX_COUNT_TIMEOUT. -/
def execMailboxCountTimeout (x : Nat) (s : State) : Out := s.ifEnabled (s.mwaitTimeout x)

end Sys2Proof.Machine
end

