-- ==== Sys2Proof/Machine/LoomMath.lean ====
section
/-!
DEFINITION. The arithmetic of the matrix loom (spec 13, R257, R258, R265, R276): operand fragments, exact chunk sums, promotion and the
converted store.
-/
namespace Sys2Proof.Machine

/-- Bytes of a row or column of 128 elements of an operand format (R257). -/
def rowBytes (fmt : Nat) : Nat := if fmt = 2 then 64 else if fmt = 4 then 256 else 128

/-- Bytes of an A fragment, and of a dense B fragment (Table 13-2). -/
def fragA (fmt : Nat) : Nat := 64 * rowBytes fmt + (if fmt = 2 then 256 else 0)

/-- Bytes of a B fragment (Table 13-2). -/
def fragB (fmt : Nat) (sparse : Bool) : Nat :=
  if sparse then 64 * (rowBytes fmt / 2) + 1024 + (if fmt = 2 then 256 else 0) else fragA fmt

/-- The value of an element's code (R257). -/
def elemVal (fmt c : Nat) : FVal :=
  if fmt = 0 then e4m3.val c
  else if fmt = 1 then e5m2.val c
  else if fmt = 2 then e2m1.val c
  else if fmt = 3 then (let v := (BitVec.ofNat 8 c).toInt; .fin (decide (v < 0)) v.natAbs 0)
  else bf16.val c

/-- The elements of a row or column of bytes. -/
def rowVals (fmt : Nat) (bs : List Byte) : List FVal :=
  if fmt = 2 then bs.flatMap (fun b => [elemVal 2 (b.toNat % 16), elemVal 2 (b.toNat / 16)])
  else if fmt = 4 then (codesOf 2 (bs.length / 2) bs).map (elemVal 4)
  else bs.map (fun b => elemVal fmt b.toNat)

/-- The 64 rows of an A fragment or columns of a dense B fragment. -/
def fragRows (fmt : Nat) (bs : List Byte) : List (List FVal) := (rowsOf (rowBytes fmt) 64 bs).map (rowVals fmt)

/-- The 4-bit entries of a sparse column's metadata, group 0 first (R257). -/
def metaOf (bs : List Byte) : List Nat := bs.flatMap (fun b => [b.toNat % 16, b.toNat / 16])

/-- A group of four elements from its entry and two kept values (R258). -/
def expandGroup (e : Nat) (v0 v1 : FVal) : List FVal :=
  (List.range 4).map (fun i => if i = e % 4 then v0 else if i = e / 4 then v1 else .fin false 0 0)

/-- A sparse column decompressed (R258), none with an entry of i0 at or above i1. -/
def expandColumn : List Nat → List FVal → Option (List FVal)
  | [], _ => some []
  | e :: es, v0 :: v1 :: vs =>
    if e / 4 ≤ e % 4 then none else (expandColumn es vs).map (fun r => expandGroup e v0 v1 ++ r)
  | _ :: _, _ => some []

/-- The 64 columns of a B fragment (R257, R258). -/
def fragCols (fmt : Nat) (sparse : Bool) (bs : List Byte) : Option (List (List FVal)) :=
  if sparse then
    let vals := (rowsOf (rowBytes fmt / 2) 64 bs).map (rowVals fmt)
    let ms := (rowsOf 16 64 (bs.drop (64 * (rowBytes fmt / 2)))).map metaOf
    (ms.zip vals).mapM (fun p => expandColumn p.1 p.2)
  else some (fragRows fmt bs)

/-- The E8M0 scales at a fragment's end (R257). -/
def fragScales (bs : List Byte) (n : Nat) : List Byte := bs.drop (n - 256)

/-- A running sum of products (R265). -/
structure SumAcc where
  nan  : Bool := false
  pinf : Bool := false
  ninf : Bool := false
  m    : Int := 0

/-- Adds a product to a sum; finite products count in multiples of 2^-320. -/
def SumAcc.add (s : SumAcc) (a b : FVal) : SumAcc :=
  if badProduct a b then { s with nan := true }
  else match prodVal a b with
  | .nan _ => { s with nan := true }
  | .inf n => if n then { s with ninf := true } else { s with pinf := true }
  | .fin n m e => { s with m := s.m + sgn n m * (2 ^ (e + 320).toNat : Nat) }

/-- What a sum comes to (R265). -/
def SumAcc.done (s : SumAcc) : ChunkSum :=
  if s.nan || (s.pinf && s.ninf) then .nan else if s.pinf then .inf false else if s.ninf then .inf true else .fin s.m

/-- The sum of the products of two rows (R265). -/
def dot (a b : List FVal) : ChunkSum := ((a.zip b).foldl (fun (s : SumAcc) p => s.add p.1 p.2) {}).done

/-- The sums of a chunk in row-major order; four block sums an element for E2M1 (R262, R265). -/
def chunkSums (fmt : Nat) (rows cols : List (List FVal)) : List ChunkSum :=
  rows.flatMap (fun r => cols.flatMap (fun c =>
    if fmt = 2 then (List.range 4).map (fun q => dot ((r.drop (32 * q)).take 32) ((c.drop (32 * q)).take 32))
    else [dot r c]))

/-- A chunk sum as a value; an exact zero is +0 (R265). -/
def ChunkSum.val : ChunkSum → FVal
  | .nan => .nan false
  | .inf n => .inf n
  | .fin m => .fin (decide (m < 0)) m.natAbs (-320)

/-- promote(S, sa, sb) of R265. -/
def promote (s : ChunkSum) (sa sb : Nat) : Nat × Flags :=
  let a := fp32.val sa
  let b := fp32.val sb
  let x := s.val
  let isZero (v : FVal) : Bool := match v with | .fin _ m _ => m == 0 | _ => false
  let isInf (v : FVal) : Bool := match v with | .inf _ => true | _ => false
  let vs := [x, a, b]
  if vs.any (·.isNan) || (vs.any isZero && vs.any isInf) then fp32.nanRes true
  else match prodVal (prodVal x a) b with
  | .nan _ => fp32.nanRes true
  | .inf n => (fp32.inf n, {})
  | .fin n m e => fp32.roundInt .rne false (sgn n m) e false

/-- A chunk sum rounded to FP32 (R265). -/
def ChunkSum.round32 (s : ChunkSum) : Nat × Flags :=
  match s with
  | .nan => fp32.nanRes true
  | .inf n => (fp32.inf n, {})
  | .fin m => fp32.roundInt .rne false m (-320) false

/-- One addition to an accumulator element (R265), with the flags of the addend. -/
def accAdd (acc : Nat) (r : Nat × Flags) : Nat × Flags :=
  let t := fp32.add .rne (fp32.val acc) (fp32.val r.1)
  (t.1, r.2.or t.2)

/-- The block sum of an E2M1 chunk with its scales (R206, R265). -/
def blockVal (s : ChunkSum) (ea eb : Nat) : Nat × Flags :=
  match s with
  | .fin m => scaleE8m0 (some (m, -320)) ea eb
  | _ => scaleE8m0 none ea eb

/-- The promotion of one element (R265): `sums` are its chunk sums, `ea` and `eb` its E8M0 scales. -/
def promoteElem (fmt : Nat) (acc : Nat) (sums : List ChunkSum) (sa sb : Nat) (ea eb : List Byte) : Nat × Flags :=
  if fmt = 3 then
    match sums.headD .nan with
    | .fin m =>
      let v := (BitVec.ofNat 32 acc).toInt + m / (2 ^ 320 : Nat)
      let lo : Int := -(2 ^ 31)
      let hi : Int := 2 ^ 31 - 1
      let c := if v < lo then lo else if hi < v then hi else v
      ((BitVec.ofInt 32 c).toNat, { sat := c != v })
    | _ => (acc, {})
  else if fmt = 4 then accAdd acc (sums.headD .nan).round32
  else if fmt = 2 then
    ((sums.zip (ea.zip eb)).foldl (fun p q =>
      let t := accAdd p.1 (blockVal q.1 q.2.1.toNat q.2.2.toNat)
      (t.1, p.2.or t.2)) (acc, {}))
  else accAdd acc (promote (sums.headD .nan) sa sb)

/-- The promotion of a chunk (R265): the accumulator's codes in row-major order, and the flags. -/
def promoteAll (fmt : Nat) (acc : List Nat) (sums : List ChunkSum) (sa : List W32) (sb : W32) (ea eb : List Byte) :
    List Nat × Flags :=
  let per := if fmt = 2 then 4 else 1
  let ss := rowsOf per 4096 sums
  let rs := ((acc.zip ss).zip (List.range 4096)).map (fun p =>
    let i := p.2 / 64
    let j := p.2 % 64
    promoteElem fmt p.1.1 p.1.2 (nth (0 : W32) sa i).toNat sb.toNat ((ea.drop (4 * i)).take 4) ((eb.drop (4 * j)).take 4))
  (rs.map (·.1), (rs.map (·.2)).foldl Flags.or {})

/-- Bytes of an output element (R276). -/
def outSize (fmt : Nat) : Nat := if fmt = 0 || fmt = 5 then 4 else if fmt ≤ 2 then 2 else 1

/-- The output format of MXST (R276). -/
def outFP (fmt : Nat) : FP := if fmt = 0 then fp32 else if fmt = 1 then bf16 else if fmt = 2 then fp16 else if fmt = 3 then e4m3 else e5m2

/-- One element of MXST (R276): the accumulator, or its product with the multiplier, rounded once. -/
def outElem (fmt : Nat) (sat : Bool) (mul : Option W32) (acc : Nat) : Nat × Flags :=
  if fmt = 5 then (acc, {})
  else
    let f := outFP fmt
    let x := fp32.val acc
    match mul with
    | none => f.convert .rne sat x
    | some m =>
      let y := fp32.val m.toNat
      if badProduct x y then f.nanRes true else f.convert .rne sat (prodVal x y)

end Sys2Proof.Machine
end

