-- ==== Sys2Proof/Machine/Loom.lean ====
section
/-!
DEFINITION. The matrix loom (spec 13, R252 to R278; majors 0x2E and 0x2F): configuration, the MXU queue and its banks, operand and scale
messages, semaphores, the sequencer with FORK.seq, and MXPERM.
-/
namespace Sys2Proof.Machine

/-- Loom state of a tenant on a bay. -/
def State.loom (s : State) (die bay tag : Nat) : Loom := (s.ten die bay tag).loom

/-- Changes loom state. -/
def State.modLoom (s : State) (die bay tag : Nat) (f : Loom → Loom) : State :=
  s.modTen die bay tag (fun b => { b with loom := f b.loom })

/-- The MXU runs for a tenant: it is not frozen (R325). -/
def State.loomLive (s : State) (die bay tag : Nat) : Bool :=
  s.tenantOf (coreOf die bay) 13 == some tag && (s.ten die bay tag).loaded

/-- Fields of the descriptor (Table 13-1). -/
def Loom.afmt (l : Loom) : Nat := bits l.w0 62 60
def Loom.bfmt (l : Loom) : Nat := bits l.w0 59 57
def Loom.sparse (l : Loom) : Bool := bit l.w0 56
def Loom.sclen (l : Loom) : Bool := bit l.w0 55
def Loom.orgy (l : Loom) : Nat := bits l.w0 54 50
def Loom.orgx (l : Loom) : Nat := bits l.w0 49 44
def Loom.rows (l : Loom) : Nat := bits l.w0 43 41 + 1
def Loom.cols (l : Loom) : Nat := bits l.w0 40 37 + 1
def Loom.oplim (l : Loom) : Nat := bits l.w0 36 32
def Loom.accOff (l : Loom) : Nat := bits l.w1 63 60 * 16384
def Loom.asbase (l : Loom) : Nat := bits l.w2 63 48 * 4
def Loom.bsbase (l : Loom) : Nat := bits l.w2 47 32 * 4

/-- The identity of a loom (R270). -/
def Loom.ident (l : Loom) : Nat := bits l.w0 62 37

/-- Loom row and column of a bay (R252). -/
def Loom.row (l : Loom) (bay : Nat) : Nat := rowOf bay - l.orgy
def Loom.col (l : Loom) (bay : Nat) : Nat := colOf bay - l.orgx

/-- The bank of a chunk (R262). -/
def Loom.bank (l : Loom) (k : Nat) : Bank := if k % 2 = 0 then l.bank0 else l.bank1

/-- Replaces the bank of a chunk. -/
def Loom.setBank (l : Loom) (k : Nat) (b : Bank) : Loom := if k % 2 = 0 then { l with bank0 := b } else { l with bank1 := b }

/-- An MXZ of the queue has not started. -/
def Loom.zPending (l : Loom) : Bool := l.queue.any (fun e => decide (e.op = .z) && e.start.isNone)

/-- A bank's state as issue sees it (Table 13-3, R273): from an MXZ that has not started on, both banks count as empty, and only what was
issued after it counts. -/
def Loom.view (l : Loom) (k : Nat) : BankState :=
  l.queue.foldl (fun st e =>
    match e.op with
    | .z => if e.start.isNone then .empty else st
    | .run j _ _ _ => if l.zPending && j % 2 = k % 2 && e.start.isNone && st != .promoting then .running else st
    | .prom j _ => if l.zPending && j % 2 = k % 2 && e.start.isNone then .promoting else st
    | .st _ _ _ _ _ => st) (l.bank k).st

/-- A bank's state as an issue leaves it (Table 13-3); with an MXZ pending, the queue alone tells. -/
def Loom.mark (l : Loom) (k : Nat) (st : BankState) : Loom := if l.zPending then l else l.setBank k { l.bank k with st := st }

/-- A deferred loom error (R269): the first one stands until MXCFG with V = 0. -/
def State.loomError (s : State) (die bay tag code chunk : Nat) : State :=
  let s1 := if code = 5 then s.consumed die else s
  s1.modLoom die bay tag (fun l => if l.err then l else { l with err := true, ecode := code, echunk := chunk % 65536 })

/-- The trap value of a deferred loom error (R269). -/
def Loom.errValue (l : Loom) : W64 := pack [(l.ecode, 0), (l.echunk, 16)]

/-- Strands and the sequencer that have parked on a semaphore before arrival number `arr` (R267). -/
def State.semAhead (s : State) (die bay tag sem arr : Nat) : Nat :=
  (s.strands.filter (fun e => e.2.tag == tag && decide (s.unitOf e.1 = coreOf die bay) && s.present e.1 && e.2.status == .waiting && e.2.wait == .semw sem &&
    decide (e.2.arr < arr))).length +
  (match (s.loom die bay tag).seq with
   | some j => if j.parked = some sem ∧ j.arr < arr then 1 else 0
   | none => 0)

/-- The count of a semaphore. -/
def State.semCount (s : State) (die bay tag sem : Nat) : Nat := Tbl.get 0 (s.ten die bay tag).sems sem

/-- Sets the count of a semaphore. -/
def State.setSem (s : State) (die bay tag sem n : Nat) : State := s.modTen die bay tag (fun b => { b with sems := Tbl.set b.sems sem n })

/-- SEMS (R267): an addition at 255 is lost. -/
def State.semAdd (s : State) (die bay tag sem : Nat) : State :=
  let n := s.semCount die bay tag sem
  if 255 ≤ n then s.modLoom die bay tag (fun l => { l with semovf := true }) else s.setSem die bay tag sem (n + 1)

/-- SEMS by an agent of the bay (R267): what follows the SEMW that returns on it comes after what the agent has done, as in program order. -/
def State.semSignal (s : State) (die bay tag sem : Nat) (o : OrderState) : State :=
  (s.semAdd die bay tag sem).modLoom die bay tag (fun l => { l with sord := l.sord.join o })

/-- A signal of an MXU operation (R264). -/
def State.signal (s : State) (die bay tag : Nat) : Option Nat → State
  | none => s
  | some i => s.semAdd die bay tag i

/-- Takes one count for a waiter that arrived at `arr`, if it is its turn (R267). -/
def State.semTake (s : State) (die bay tag sem arr : Nat) : Option State :=
  let n := s.semCount die bay tag sem
  if s.semAhead die bay tag sem arr < n then some (s.setSem die bay tag sem (n - 1)) else none

/-- The order state that a bay's semaphores hand on: the MXU's, and that of those who have signalled (R267). -/
def Loom.handed (l : Loom) : OrderState := l.ord.join l.sord

/-- A SEMW that returns (R266, R267): it sees the MXU's writes and those of the strands that have signalled, and the beater takes the MXU's
flags. -/
def State.semReturn (s : State) (x : Nat) : State :=
  let t := s.strand x
  let u := s.unitOf x
  let o := (s.loom u.die u.bay t.tag).handed
  let s1 := s.modStrand x (fun t => { t with ord := t.ord.see o })
  if s.slotOf x = some 13 then s1.mergeMxf x else s1

/-- The test of a SEMW that waits. -/
def State.semwTry (s : State) (x sem : Nat) : Option State :=
  let t := s.strand x
  let u := s.unitOf x
  (s.semTake u.die u.bay t.tag sem t.arr).map (fun s1 => s1.semReturn x)

/-- Reads `n` lines of 128 bytes of a bay's scratchpad as same-die plain loads of its MXU (R264): bytes, and whether one is poisoned. -/
def State.mxRead (s : State) (die bay tag off : Nat) : Nat → List Byte × Bool × State
  | 0 => ([], false, s)
  | n + 1 =>
    let l : Loc := .spad die bay off
    let r := s.homeRead (s.loom die bay tag).ord die tag ⟨l, true, false, false, 18⟩ 128
    let t := (r.2.modLoom die bay tag (fun k => { k with ord := r.1.ord })).mxRead die bay tag (off + 128) n
    (r.1.bs ++ t.1, r.1.bad || t.2.1, t.2.2)

/-- Writes bytes of a bay's scratchpad as same-die plain stores of its MXU, line by line (R264). -/
def State.mxWrite (s : State) (die bay tag off : Nat) (bs : List Byte) : Nat → State
  | 0 => s
  | n + 1 =>
    let w := s.plainStore (s.loom die bay tag).ord die tag (.spad die bay off) (bs.take 128) none .none
    (w.2.modLoom die bay tag (fun k => { k with ord := w.1 })).mxWrite die bay tag (off + 128) (bs.drop 128) n

/-- What entering an operation in the MXU queue comes to: a trap (with the trapping word as value where none is given), a wait for room,
or the state after it. -/
inductive MxRes where
  | trap (cause : Nat) (value : Option W64)
  | wait
  | ok (s : State)

/-- Enters an operation in the MXU queue (R263), which holds eight. -/
def State.mxEnter (s : State) (die bay tag : Nat) (op : MxOp) (o : OrderState) (f : Loom → Loom) : MxRes :=
  if 8 ≤ (s.loom die bay tag).queue.length then .wait
  else .ok (s.modLoom die bay tag (fun l =>
    let l1 := f l
    { l1 with queue := l1.queue ++ [⟨op, none, none, none⟩], ord := l1.ord.join o }))

/-- MXZ at issue (R273). -/
def State.mxZ (s : State) (die bay tag : Nat) (o : OrderState) : MxRes :=
  s.mxEnter die bay tag .z o (fun l => { l with runk := 0, promk := 0 })

/-- The signal of an operand register's bits 18:16 and 19. -/
def sigOf (v : W64) : Option Nat := if bit v 19 then some (bits v 18 16) else none

/-- The check of a scratchpad range of `n` bytes (R274): an address error past the end, an isolation violation outside the half. -/
def State.rangeTrap (s : State) (die bay tag off n : Nat) : Option Nat :=
  if 262144 < off + n then some 0x0A else if !inPart (s.spadPart tag die bay) off n then some 0x0C else none

/-- The same for a weight-buffer range. -/
def State.wbufTrap (s : State) (die bay tag off n : Nat) : Option Nat :=
  if 65536 < off + n then some 0x0A else if !inPart (s.wbufPart tag die bay) off n then some 0x0C else none

/-- MXRUN at issue (R274). -/
def State.mxRun (s : State) (die bay tag : Nat) (a b : W64) (o : OrderState) : MxRes :=
  let l := s.loom die bay tag
  let k := l.runk
  let aoff := bits a 17 7 * 128
  let boff := bits b 15 7 * 128
  let st := l.view k
  if bits a 63 18 != 0 || bits a 6 0 != 0 || bits b 63 20 != 0 || bits b 6 0 != 0 then .trap 0x01 none
  else if st == .running || st == .full then .trap 0x48 none
  else
    match (if l.col bay = 0 then s.rangeTrap die bay tag aoff (fragA l.afmt) else none) with
    | some c => .trap c (some (w64 aoff))
    | none =>
      match s.wbufTrap die bay tag boff (fragB l.bfmt l.sparse) with
      | some c => .trap c (some (w64 boff))
      | none => s.mxEnter die bay tag (.run k aoff boff (sigOf b)) o (fun l =>
          { (if st = .promoting then l else l.mark k .running) with runk := k + 1 })

/-- MXPROM at issue (R275). -/
def State.mxProm (s : State) (die bay tag : Nat) (a : W64) (o : OrderState) : MxRes :=
  let l := s.loom die bay tag
  let k := l.promk
  let st := l.view k
  if bits a 63 20 != 0 || bits a 15 0 != 0 then .trap 0x01 none
  else if !(st == .running || st == .full) then .trap 0x48 none
  else s.mxEnter die bay tag (.prom k (sigOf a)) o (fun l => { l.mark k .promoting with promk := k + 1 })

/-- MXST at issue (R276). -/
def State.mxSt (s : State) (die bay tag : Nat) (a b : W64) (o : OrderState) : MxRes :=
  let l := s.loom die bay tag
  let off := bits a 17 7 * 128
  let fmt := bits b 2 0
  let men := bit b 20
  let n := 4096 * outSize fmt
  if bits a 63 18 != 0 || bits a 6 0 != 0 || bits b 31 21 != 0 || bits b 15 4 != 0 || decide (5 < fmt) then .trap 0x01 none
  else if (l.afmt == 3) != (fmt == 5) || (l.afmt == 3 && men) then .trap 0x48 none
  else
    match s.rangeTrap die bay tag off n with
    | some c => .trap c (some (w64 off))
    | none =>
      if off < l.accOff + 16384 ∧ l.accOff < off + n then .trap 0x0A (some (w64 off))
      else s.mxEnter die bay tag (.st off fmt (bit b 3) (if men then some (BitVec.ofNat 32 (bits b 63 32)) else none) (sigOf b)) o id

/-- Checks of a major 0x2E instruction of the beater (R268, R269, R273): a sequencer job, a deferred error, no active loom. -/
def State.loomCheck (s : State) (i : Instr) (needAct : Bool) (k : State → State) : State :=
  let u := s.unitOf s.cur
  let l := s.loom u.die u.bay s.me.tag
  if l.seq.isSome then s.raise 0x48 (wordOf i)
  else if l.err then s.raise 0x4A l.errValue
  else if needAct && !l.act then s.raise 0x48 (wordOf i)
  else k s

/-- An operation of the beater that enters the MXU queue: it stays in rotation unless the queue is full (R263). -/
def mxIssue (i : Instr) (g : Guard) (f : State → Nat → Nat → Nat → OrderState → MxRes) (s : State) : Out :=
  s.issue i .none .beater g (fun s => s.coreOnly i (fun s => s.loomCheck i true (fun s =>
    let u := s.unitOf s.cur
    match f s u.die u.bay s.me.tag s.me.ord with
    | .trap c v => s.raise c (v.getD (wordOf i))
    | .wait => s.unissued .mxq
    | .ok s1 => s1.retire nothing)))

/-- R273, MXZ. -/
def execMxz (g : Guard) (s : State) : Out := mxIssue (.mxz g) g (fun s d b t o => s.mxZ d b t o) s

/-- R274, MXRUN. -/
def execMxrun (a b : RegZ) (g : Guard) (s : State) : Out :=
  mxIssue (.mxrun a b g) g (fun s d y t o => s.mxRun d y t (lo64 (regz s.me a)) (lo64 (regz s.me b)) o) s

/-- R275, MXPROM. -/
def execMxprom (a : RegZ) (g : Guard) (s : State) : Out :=
  mxIssue (.mxprom a g) g (fun s d y t o => s.mxProm d y t (lo64 (regz s.me a)) o) s

/-- R276, MXST. -/
def execMxst (a b : RegZ) (g : Guard) (s : State) : Out :=
  mxIssue (.mxst a b g) g (fun s d y t o => s.mxSt d y t (lo64 (regz s.me a)) (lo64 (regz s.me b)) o) s

/-- The formats of a descriptor and its wait limit (R259). -/
def loomFormats (w0 : W64) : Bool :=
  let a := bits w0 62 60
  let b := bits w0 59 57
  let fp8 (f : Nat) := decide (f ≤ 1)
  decide (a ≤ 4) && decide (b ≤ 4) && fp8 a == fp8 b && (fp8 a || a == b) && (!bit w0 55 || fp8 a) &&
  decide (10 ≤ bits w0 36 32) && decide (bits w0 36 32 ≤ 30)

/-- The scale server of a cluster of a die (R261, Table 13-9), if one is configured. -/
def State.scaleServer (s : State) (die cluster : Nat) : Option Nat :=
  let r := (s.cluster die cluster).scsrv
  if bit r 63 then some (clusterBay cluster (bits r 4 0)) else none

/-- The scale server of a loom: of the cluster of bay (0, 0). -/
def State.loomServer (s : State) (die : Nat) (l : Loom) : Option Nat := s.scaleServer die (clusterOf (l.orgy * 64 + l.orgx))

/-- The configuration of a loom on a bay is admitted (R252, R254, R259 to R261, R272). -/
def State.loomOk (s : State) (tag die bay : Nat) (l : Loom) (ws : List W64) : Bool :=
  let y1 := l.orgy + l.rows - 1
  let x1 := l.orgx + l.cols - 1
  let spad (b off n : Nat) := inPart (s.spadPart tag die b) off n
  bits l.w0 31 0 == 0 && bits l.w1 59 32 == 0 && bits l.w2 31 0 == 0 && (ws.drop 3).all (fun w => w == 0) && loomFormats l.w0 &&
  decide (y1 ≤ 31) && decide (x1 ≤ 63) && l.orgy / 8 == y1 / 8 && l.orgx / 16 == x1 / 16 &&
  (List.range l.rows).all (fun g => (List.range l.cols).all (fun c => s.ownsBay tag die ((l.orgy + g) * 64 + l.orgx + c))) &&
  decide (l.orgy ≤ rowOf bay) && decide (rowOf bay ≤ y1) && decide (l.orgx ≤ colOf bay) && decide (colOf bay ≤ x1) &&
  spad bay l.accOff 16384 &&
  (!l.sclen || (match s.loomServer die l with
    | none => false
    | some b => s.ownsBay tag die b && spad b l.asbase (2048 * l.rows) && spad b l.bsbase 256))

/-- R272, MXCFG: it leaves rotation until it retires, with the MXU's flags (R266). -/
def execMxcfg (a : RegZ) (g : Guard) (s : State) : Out :=
  s.issue (.mxcfg a g) .none .beater g (fun s => s.coreOnly (.mxcfg a g) (fun s =>
    let w := lo64 (regz s.me a)
    let off := bits w 17 6 * 64
    let u := s.unitOf s.cur
    let tag := s.me.tag
    let old := s.loom u.die u.bay tag
    if bits w 63 18 != 0 || bits w 5 0 != 0 then s.raise 0x01 (wordOf (.mxcfg a g))
    else if old.seq.isSome then s.raise 0x48 (wordOf (.mxcfg a g))
    else s.ownBlock off 1 (fun ws s1 =>
      let w0 := nth (0 : W64) ws 0
      if !bit w0 63 then s1.waitOn s.cur .mxoff
      else if old.err then s1.raise 0x4A old.errValue
      else if old.act then s1.raise 0x48 (wordOf (.mxcfg a g))
      else
        let l : Loom := { Loom.init with act := true, w0 := w0, w1 := nth (0 : W64) ws 1, w2 := nth (0 : W64) ws 2,
                                         semovf := old.semovf, mxf := old.mxf, ord := old.ord.join s1.me.ord }
        if !s.loomOk tag u.die u.bay l ws then s1.raise 0x49 (w64 off)
        else
          let s2 := s1.modTen u.die u.bay tag (fun b =>
            { b with loom := l, sems := (List.range 8).map (fun i => (i, bits l.w1 (4 * i + 3) (4 * i))) })
          (s2.mergeMxf s.cur).waitOn s.cur (.reply nothing))))

/-- A message is an operand message for a bay of a tenant. -/
def Msg.operandFor (m : Msg) (tag die bay : Nat) : Bool :=
  match m with
  | .operand t d b _ _ _ _ _ => t == tag && d == die && b == bay
  | _ => false

/-- MXCFG with V = 0, once the MXU queue has drained (R272): the bay's banks and counts are as after MXCFG (R262), and operand messages still on
their way to the bay are discarded, those that arrive later too (log 68). -/
def State.mxoffTry (s : State) (x : Nat) : Option State :=
  let t := s.strand x
  let u := s.unitOf x
  if !(s.loom u.die u.bay t.tag).queue.isEmpty then none
  else
    let s1 := s.modLoom u.die u.bay t.tag (fun l =>
      { l with act := false, err := false, ecode := 0, echunk := 0, semovf := false, scales := [], bank0 := .init, bank1 := .init,
               runk := 0, promk := 0, gone := if l.act then some l.ident else l.gone })
    let s2 := { s1 with msgs := s1.msgs.filter (fun m => !m.2.operandFor t.tag u.die u.bay) }
    let s3 := s2.modStrand x (fun t => { t with ord := { t.ord with pts := Nat.max t.ord.pts (s.loom u.die u.bay t.tag).ord.pts } })
    some (s3.mergeMxf x)

/-- R267, R278, SEMW. -/
def execSemw (sem : BitVec 3) (g : Guard) (s : State) : Out :=
  s.issue (.semw sem g) .none .loom g (fun s => s.coreOnly (.semw sem g) (fun s =>
    let u := s.unitOf s.cur
    let l := s.loom u.die u.bay s.me.tag
    if !l.act || (l.seq.isSome && s.slotOf s.cur == some 13) then s.raise 0x48 (wordOf (.semw sem g))
    else if l.err then s.raise 0x4A l.errValue
    else
      match s.semTake u.die u.bay s.me.tag sem.toNat s.nextId with
      | some s1 => (s1.semReturn s.cur).retire nothing
      | none => s.waitOn s.cur (.semw sem.toNat)))

/-- R267, R278, SEMS. -/
def execSems (sem : BitVec 3) (g : Guard) (s : State) : Out :=
  s.issue (.sems sem g) .none .loom g (fun s => s.coreOnly (.sems sem g) (fun s =>
    let u := s.unitOf s.cur
    let l := s.loom u.die u.bay s.me.tag
    if !l.act then s.raise 0x48 (wordOf (.sems sem g))
    else if l.err then s.raise 0x4A l.errValue
    else (s.semSignal u.die u.bay s.me.tag sem.toNat s.me.ord).retire nothing))

/-- R277, MXPERM: it leaves rotation and waits for the MXU queue to drain. -/
def execMxperm (d a b : RegZ) (g : Guard) (s : State) : Out :=
  s.issue (.mxperm d a b g) .none .beater g (fun s => s.coreOnly (.mxperm d a b g) (fun s => s.loomCheck (.mxperm d a b g) false (fun s =>
    let u := s.unitOf s.cur
    let x := lo64 (regz s.me d)
    let y := lo64 (regz s.me a)
    let z := lo64 (regz s.me b)
    let dst := bits x 17 7 * 128
    let src := bits y 17 7 * 128
    let map := bits z 17 6 * 64
    let esz := 2 ^ bits z 1 0
    let n := 4096 * esz
    let past (p q k : Nat) := decide (p < q + k) && decide (q < p + n)
    if bits x 63 18 != 0 || bits x 6 0 != 0 || bits y 63 18 != 0 || bits y 6 0 != 0 || bits z 63 18 != 0 || bits z 5 3 != 0 then
      s.raise 0x01 (wordOf (.mxperm d a b g))
    else if 262144 < dst + n || past dst src n || past dst map 64 then s.raise 0x0A (w64 dst)
    else if 262144 < src + n then s.raise 0x0A (w64 src)
    else if !inPart (s.spadPart s.me.tag u.die u.bay) dst n then s.raise 0x0C (w64 dst)
    else if !inPart (s.spadPart s.me.tag u.die u.bay) src n then s.raise 0x0C (w64 src)
    else if !inPart (s.spadPart s.me.tag u.die u.bay) map 64 then s.raise 0x0C (w64 map)
    else s.waitOn s.cur (.mxperm dst src map esz (bit z 2)))))

/-- The destination block of MXPERM (R277), in row-major order of its elements; `zero` is an element of zeros. -/
def permute (mp : List Nat) (rows : List (List (List Byte))) (zero : List Byte) (tr : Bool) : List Byte :=
  let pick (i col : Nat) := let m := nth 0 mp i; if 128 ≤ m then zero else nth zero (nth [] rows (m % 64)) col
  (List.range 64).flatMap (fun i => (List.range 64).flatMap (fun c => if tr then pick c i else pick i c))

/-- MXPERM once the queue has drained (R277): the whole map is read first; a poisoned operand is a deferred error and nothing is written. -/
def State.mxpermTry (s : State) (x dst src map esz : Nat) (tr : Bool) : Option State :=
  let t := s.strand x
  let u := s.unitOf x
  if !(s.loom u.die u.bay t.tag).queue.isEmpty then none
  else
    let s0 := s.modLoom u.die u.bay t.tag (fun l => { l with ord := l.ord.join t.ord })
    let m := s0.mxRead u.die u.bay t.tag (map / 128 * 128) 1
    let mp := ((m.1.drop (map % 128)).take 64).map (·.toNat)
    if s.badAt t.tag (.spad u.die u.bay map) 64 then some ((s.loomError u.die u.bay t.tag 5 0).answer x nothing)
    else if mp.any (fun b => b / 64 % 2 == 1) then some (s.defer x 0x49 (w64 map))
    else
      let r := m.2.2.mxRead u.die u.bay t.tag src (32 * esz)
      if r.2.1 then some ((s.loomError u.die u.bay t.tag 5 0).answer x nothing)
      else
        let rows := (rowsOf (64 * esz) 64 r.1).map (fun row => rowsOf esz 64 row)
        let s1 := r.2.2.mxWrite u.die u.bay t.tag dst (permute mp rows (List.replicate esz 0) tr) (32 * esz)
        let o := (s1.loom u.die u.bay t.tag).ord
        some ((s1.modStrand x (fun t => { t with ord := t.ord.see o })).answer x nothing)

/-- The bay east or south of a loom bay, if it is in the loom (R255, R256). -/
def Loom.next (l : Loom) (bay : Nat) (isA : Bool) : Option Nat :=
  if isA then (if l.col bay + 1 < l.cols then some (bay + 1) else none)
  else if l.row bay + 1 < l.rows then some (bay + 64) else none

/-- Sends an operand fragment on (R255, R256). -/
def State.forward (s : State) (die bay tag : Nat) (isA : Bool) (k : Nat) (bs : List Byte) : State :=
  let l := s.loom die bay tag
  match l.next bay isA with
  | none => s
  | some b => s.addMsg (.operand tag die b isA k l.ident bs s.clock)

/-- The clocks at which a bay has sent on fragments of chunk `k` that have not been accepted yet (R255, R270). -/
def State.unacceptedSince (s : State) (die bay tag k : Nat) : List Nat :=
  let l := s.loom die bay tag
  s.msgs.filterMap (fun m => match m.2 with
    | .operand t d b isA j _ _ at_ => if t == tag && d == die && j == k && l.next bay isA == some b then some at_ else none
    | _ => none)

/-- A fragment of chunk `k` that a bay has sent on has not been accepted yet (R255). -/
def State.unaccepted (s : State) (die bay tag k : Nat) : Bool := !(s.unacceptedSince die bay tag k).isEmpty

/-- Replaces entry `i` of the MXU queue. -/
def Loom.setEntry (l : Loom) (i : Nat) (e : MxEntry) : Loom := { l with queue := setNth l.queue i e }

/-- An MXU operation ends in an operand error (R258, R270, R318): its bank is empty, its messages and the promotion of its chunk that was
queued behind it go with it; from an MXZ on the queue is of another loop (R273). -/
def State.mxFail (s : State) (die bay tag i k code : Nat) : State :=
  let l := s.loom die bay tag
  let s1 := { s with msgs := s.msgs.filter (fun m => match m.2 with
    | .operand t d b isA j _ _ _ => !(t == tag && d == die && j == k && l.next bay isA == some b)
    | _ => true) }
  let isProm (e : MxEntry) : Bool := match e.op with
    | .prom j _ => j == k
    | _ => false
  let rest := l.queue.drop (i + 1)
  let own := rest.takeWhile (fun e => !decide (e.op = .z))
  let rest1 := match takeFirst isProm own with
    | some r => r.2 ++ rest.drop own.length
    | none => rest
  (s1.modLoom die bay tag (fun l => { (l.setBank k Bank.init) with queue := l.queue.take i ++ rest1 })).loomError die bay tag code k

/-- MXRUN starts (R274): feeders read their fragments and send them on, and ask for scales (R260). -/
def State.runStart (s : State) (die bay tag i k a b : Nat) (e : MxEntry) : State :=
  let l := s.loom die bay tag
  let row0 := l.row bay = 0
  let col0 := l.col bay = 0
  let ra := if col0 then s.mxRead die bay tag a (fragA l.afmt / 128) else ([], false, s)
  if ra.2.1 then s.mxFail die bay tag i k 5
  else
    let s1 := if col0 then ra.2.2.forward die bay tag true k ra.1 else s
    let bb := s1.mem.readBytes (wbufKey die bay b) (fragB l.bfmt l.sparse)
    let s2 := if row0 then s1.forward die bay tag false k bb else s1
    let e1 : MxEntry := { e with start := some s.clock, a := if col0 then some ra.1 else e.a, b := if row0 then some bb else e.b }
    let s3 := s2.modLoom die bay tag (fun l => l.setEntry i e1)
    let s4 := if l.sclen && col0 then s3.addMsg (.scale tag die bay true k) else s3
    if l.sclen && row0 && l.col bay % 2 == 0 then s4.addMsg (.scale tag die bay false k) else s4

/-- An MXPROM for the bank of chunk `k` is in a part of the queue. -/
def promotes (k : Nat) (es : List MxEntry) : Bool := es.any (fun e => match e.op with
  | .prom j _ => j % 2 == k % 2
  | _ => false)

/-- Every MXRUN of a part of the queue has its operands, so that it can have finished reading them (R263). -/
def runsRead (es : List MxEntry) : Bool := es.all (fun e => match e.op with
  | .run _ _ _ _ => e.a.isSome && e.b.isSome
  | _ => true)

/-- An MXRUN behind entry `i` of the queue has started, so that the MXRUN at `i` has finished reading its operands (R263). -/
def Loom.hasRead (l : Loom) (i : Nat) : Bool := (l.queue.drop (i + 1)).any (fun e => match e.op with
  | .run _ _ _ _ => e.start.isSome
  | _ => false)

/-- The B fragment that the MXRUN at entry `i` multiplies (R256): a column feeder's as it was read and sent on, another bay's as its weight
buffer holds it when it is read. -/
def State.runB (s : State) (die bay i b : Nat) (l : Loom) (got : List Byte) : List Byte :=
  if l.row bay = 0 || l.hasRead i then got else s.mem.readBytes (wbufKey die bay b) (fragB l.bfmt l.sparse)

/-- The MXRUNs ahead of entry `i` finish reading their operands, so that the MXRUN at `i` may start (R263). -/
def State.readAhead (s : State) (die bay i : Nat) (l : Loom) : Loom :=
  { l with queue := l.queue.mapIdx (fun j e => match e.op with
    | .run _ _ b _ => if j < i then { e with b := e.b.map (s.runB die bay j b l) } else e
    | _ => e) }

/-- MXU_OP_START (R263): the first operation of the queue that has not started, once it may. -/
def State.mxStart (s : State) (die bay tag : Nat) : Option State :=
  let l := s.loom die bay tag
  match l.queue.findIdx? (fun e => e.start.isNone) with
  | none => none
  | some i =>
    let ahead := l.queue.take i
    match l.queue[i]? with
    | none => none
    | some e =>
      let started (l : Loom) := l.setEntry i { e with start := some s.clock }
      if !s.loomLive die bay tag then none
      else
        match e.op with
        | .run k a b _ =>
          if runsRead ahead && !promotes k ahead then
            some ((s.modLoom die bay tag (s.readAhead die bay i)).runStart die bay tag i k a b e)
          else none
        | .prom k _ =>
          if i = 0 ∧ !(l.bank k).sums.isEmpty then some (s.modLoom die bay tag started) else none
        | .st _ _ _ _ _ => if i = 0 then some (s.modLoom die bay tag started) else none
        | .z =>
          if i != 0 then none
          else
            let s1 := s.mxWrite die bay tag l.accOff (List.replicate 16384 0) 128
            some (s1.modLoom die bay tag (fun l =>
              let v (k : Nat) : Bank := { Bank.init with st := l.view k }
              started { l with bank0 := v 0, bank1 := v 1, scales := [] }))

/-- The scales of chunk `k` that have come (R260): the A scales and the B scale, or 1.0. -/
def Loom.scalesOf (l : Loom) (k : Nat) : Option (List W32 × W32) :=
  if !l.sclen then some (List.replicate 64 0x3F800000, 0x3F800000)
  else
    match l.scales.find? (fun e => e.1 && e.2.1 == k), l.scales.find? (fun e => !e.1 && e.2.1 == k) with
    | some a, some b => some (a.2.2, nth 0 b.2.2 0)
    | _, _ => none

/-- The MXU's scales of chunk `k` are taken. -/
def Loom.dropScales (l : Loom) (k : Nat) : Loom :=
  let d (b : Bool) (xs : List (Bool × Nat × List W32)) := match takeFirst (fun e => e.1 == b && e.2.1 == k) xs with
    | some r => r.2
    | none => xs
  { l with scales := d true (d false l.scales) }

/-- An operation leaves the queue. -/
def Loom.dequeue (l : Loom) (i : Nat) : Loom := { l with queue := l.queue.eraseIdx i }

/-- The end of an MXRUN (R265, R274): its sums, or a sparse-index error (R258). -/
def State.runEnd (s : State) (die bay tag i k : Nat) (a b : List Byte) (sig : Option Nat) : State :=
  let l := s.loom die bay tag
  match fragCols l.bfmt l.sparse b with
  | none => s.mxFail die bay tag i k 1
  | some cols =>
    let e2 := l.afmt == 2
    let bank : Bank := { st := if (l.bank k).st = .running then .full else (l.bank k).st, sums := chunkSums l.afmt (fragRows l.afmt a) cols,
                         ea := if e2 then fragScales a (fragA 2) else [], eb := if e2 then fragScales b (fragB 2 l.sparse) else [] }
    (((s.modLoom die bay tag (fun l => (l.setBank k bank).dequeue i)).owe tag l.afmt 1).owe tag 8 1).signal die bay tag sig

/-- An MXRUN for the bank of chunk `k` waits in the queue. -/
def runWaits (k : Nat) (es : List MxEntry) : Bool := es.any (fun e => match e.op with
  | .run j _ _ _ => j % 2 == k % 2
  | _ => false)

/-- The end of an MXPROM (R265, R275): a poisoned accumulator is a deferred error. -/
def State.promEnd (s : State) (die bay tag k : Nat) (sa : List W32) (sb : W32) (sig : Option Nat) : State :=
  let l := s.loom die bay tag
  let r := s.mxRead die bay tag l.accOff 128
  if r.2.1 then s.mxFail die bay tag 0 k 5
  else
    let b := l.bank k
    let p := promoteAll l.afmt (codesOf 4 4096 r.1) b.sums sa sb b.ea b.eb
    let s1 := r.2.2.mxWrite die bay tag l.accOff (p.1.flatMap (leBytes 4 ·)) 128
    let s2 := s1.modLoom die bay tag (fun l =>
      let l1 := l.dequeue 0
      { (l1.setBank k { Bank.init with st := if runWaits k l1.queue then .running else .empty }).dropScales k with
        mxf := l.mxf ||| Flags.sts p.2 })
    s2.signal die bay tag sig

/-- The end of an MXST (R276). -/
def State.stEnd (s : State) (die bay tag out fmt : Nat) (sat : Bool) (mul : Option W32) (sig : Option Nat) : State :=
  let l := s.loom die bay tag
  let r := s.mxRead die bay tag l.accOff 128
  if r.2.1 then (s.modLoom die bay tag (·.dequeue 0)).loomError die bay tag 5 0
  else
    let es := (codesOf 4 4096 r.1).map (outElem fmt sat mul)
    let s1 := r.2.2.mxWrite die bay tag out (es.flatMap (fun e => leBytes (outSize fmt) e.1)) (32 * outSize fmt)
    let f := (es.map (·.2)).foldl Flags.or {}
    (s1.modLoom die bay tag (fun l => { l.dequeue 0 with mxf := l.mxf ||| Flags.sts f })).signal die bay tag sig

/-- The end of the operation at the head of the queue, if it is no MXRUN and can complete (R264). -/
def State.headEnd (s : State) (die bay tag : Nat) : Option State :=
  let l := s.loom die bay tag
  match l.queue with
  | ⟨.z, some _, _, _⟩ :: _ => some (s.modLoom die bay tag (·.dequeue 0))
  | ⟨.prom k sig, some _, _, _⟩ :: _ => (l.scalesOf k).map (fun v => s.promEnd die bay tag k v.1 v.2 sig)
  | ⟨.st out fmt sat mul sig, some _, _, _⟩ :: _ => some (s.stEnd die bay tag out fmt sat mul sig)
  | _ => none

/-- The end of the oldest MXRUN of the queue, if it can complete (R264): its neighbours have accepted what it has sent on (R255). -/
def State.runTry (s : State) (die bay tag : Nat) : Option State :=
  let l := s.loom die bay tag
  match l.queue.findIdx? (fun e => match e.op with | .run _ _ _ _ => true | _ => false) with
  | none => none
  | some i =>
    match l.queue[i]? with
    | some ⟨.run k _ bo sig, some _, some a, some b⟩ =>
      if s.unaccepted die bay tag k then none else some (s.runEnd die bay tag i k a (s.runB die bay i bo l b) sig)
    | _ => none

/-- MXU_OP_COMPLETE (R264): the head of the queue, or the oldest MXRUN, which overlaps the promotion ahead of it (R263); which of the two
ends first is free. -/
def State.mxComplete (s : State) (die bay tag : Nat) : Option State :=
  if !s.loomLive die bay tag then none
  else
    match s.headEnd die bay tag, s.runTry die bay tag with
    | some s1, none => some s1
    | none, r => r
    | some _, some _ =>
      let c := s.freeNat
      if c.1 % 2 = 0 then c.2.headEnd die bay tag else c.2.runTry die bay tag

/-- The B fragment of entry `i` may land at a weight-buffer offset: no MXRUN ahead is still to read bytes of it (R256). -/
def Loom.mayLand (l : Loom) (i b n : Nat) : Bool := (l.queue.zipIdx.take i).all (fun e => match e.1.op with
  | .run _ _ c _ => l.hasRead e.2 || !(decide (c < b + n) && decide (b < c + n))
  | _ => true)

/-- OPERAND_MESSAGE (R255, R256, R270): accepted once the bay's own MXRUN for the chunk has issued, and sent on. A bay that has left the
message's loom discards it (R272; log 68). -/
def State.operandMessage (s : State) (id : Nat) : Option State :=
  match Tbl.find s.msgs id with
  | some (.operand tag die bay isA k ident bs _) =>
    let l := s.loom die bay tag
    let s0 := { s with msgs := Tbl.del s.msgs id }
    if !s.loomLive die bay tag then none
    else if !l.act then (if l.gone = some ident then some s0 else none)
    else if ident != l.ident then some (s0.loomError die bay tag 2 k)
    else
      let wants (e : MxEntry) : Bool := match e.op with
        | .run j _ _ _ => j == k && (if isA then e.a.isNone else e.b.isNone)
        | _ => false
      match l.queue.findIdx? wants with
      | none => none
      | some i =>
        match l.queue[i]? with
        | some ⟨.run j ao bo sg, st, a, b⟩ =>
          let held := (l.queue.filter (fun e => e.a.isSome)).length
          if isA then
            if 2 ≤ held then none
            else some ((s0.modLoom die bay tag (fun l => l.setEntry i ⟨.run j ao bo sg, st, some bs, b⟩)).forward die bay tag true k bs)
          else if !l.mayLand i bo (fragB l.bfmt l.sparse) then none
          else
            let s1 := s0.putBytes (wbufKey die bay bo) bs
            some ((s1.modLoom die bay tag (fun l => l.setEntry i ⟨.run j ao bo sg, st, a, some bs⟩)).forward die bay tag false k bs)
        | _ => none
  | _ => none

/-- Scales read by the server (R260), as codes. -/
def scaleCodes (n : Nat) (bs : List Byte) : List W32 := (codesOf 4 n bs).map (BitVec.ofNat 32 ·)

/-- SCALE_REQUEST (R260): a poisoned scale is a deferred error of the bay that reads it (R318); else the server reads the scales as
a same-die plain load and they go to every bay of a loom row, or of a pair of
loom columns; each holds them for the bank's latch until it promotes the chunk. -/
def State.scaleRequest (s : State) (id : Nat) : Option State :=
  match Tbl.find s.msgs id with
  | some (.scale tag die bay isA k) =>
    let s0 := { s with msgs := Tbl.del s.msgs id }
    let l := s.loom die bay tag
    match s.loomServer die l with
    | none => some s0
    | some srv =>
      let g := l.row bay
      let p := l.col bay / 2
      let off := if isA then l.asbase + 256 * (g + l.rows * (k % 8)) else l.bsbase + 4 * (p + 8 * (k % 8))
      let n := if isA then 256 else 4
      let r := s0.mxRead die srv tag (off / 128 * 128) (if isA then 3 else 1)
      if s0.badAt tag (.spad die srv off) n then some (r.2.2.loomError die srv tag 5 k) else
      let v := scaleCodes (n / 4) ((r.1.drop (off % 128)).take n)
      let bays := if isA then (List.range l.cols).map (fun c => (l.orgy + g) * 64 + l.orgx + c)
        else ([2 * p, 2 * p + 1].filter (fun c => decide (c < l.cols))).flatMap (fun c =>
          (List.range l.rows).map (fun h => (l.orgy + h) * 64 + l.orgx + c))
      some (bays.foldl (fun s b => s.modLoom die b tag (fun l => { l with scales := l.scales ++ [(isA, k, v)] })) r.2.2)
  | _ => none

/-- OPERAND_TIMEOUT (R270): the oldest MXRUN has waited longer than its limit for a fragment, from its start, or for its neighbour to accept
one, from its sending. -/
def State.operandTimeout (s : State) (die bay tag : Nat) : Option State :=
  let l := s.loom die bay tag
  match l.queue.findIdx? (fun e => match e.op with | .run _ _ _ _ => true | _ => false) with
  | none => none
  | some i =>
    match l.queue[i]? with
    | some ⟨.run k _ _ _, some c, a, b⟩ =>
      let late (n : Nat) := decide (n + 2 ^ l.oplim < s.clock)
      if s.loomLive die bay tag && (((a.isNone || b.isNone) && late c) || (s.unacceptedSince die bay tag k).any late) then
        some (s.mxFail die bay tag i k 3)
      else none
    | _ => none

/-- SCALE_TIMEOUT (R270). -/
def State.scaleTimeout (s : State) (die bay tag : Nat) : Option State :=
  let l := s.loom die bay tag
  match l.queue with
  | ⟨.prom k _, some c, _, _⟩ :: _ =>
    if s.loomLive die bay tag && (l.scalesOf k).isNone && decide (c + 2 ^ l.oplim < s.clock) then some (s.mxFail die bay tag 0 k 4) else none
  | _ => none

/-- R268, FORK.seq: the beater of an active loom posts a job for its bay's sequencer, which begins at once if it is idle. -/
def execForkSeq (a b : RegZ) (h : BitVec 5) (g : Guard) (s : State) : Out :=
  s.issue (.forkSeq a b h g) .none .any g (fun s => s.coreOnly (.forkSeq a b h g) (fun s =>
    let i := Instr.forkSeq a b h g
    let u := s.unitOf s.cur
    let tag := s.me.tag
    let w := lo64 (regz s.me a)
    let n := lo64 (regz s.me b)
    let off := bits w 17 5 * 32
    let l := s.loom u.die u.bay tag
    if (s.handleOf s.cur h.toNat).isSome then s.raise 0x4C (w64 h.toNat)
    else if !l.act || s.slotOf s.cur != some 13 then s.raise 0x48 (wordOf i)
    else if bits w 63 18 != 0 || bits w 4 0 != 0 || n == 0 || decide (1024 < n.toNat) then s.raise 0x01 (wordOf i)
    else
      match s.rangeTrap u.die u.bay tag off (32 * n.toNat) with
      | some c => s.raise c (w64 off)
      | none =>
        let id := s.nextId
        let c : Card := { Card.init .seq tag u.die 0 with src := w64 off, len := n.toNat, bay := u.bay }
        let s1 := ({ s.setCard id c with nextId := id + 1 }).postCard id s.me.ord u.die
        let s2 := if l.seq.isNone then (match Tbl.find s1.cards id with | some c1 => s1.seqStart id c1 | none => s1) else s1
        (s2.bindHandle s.cur h.toNat id).waitOn s.cur (.reply nothing)))

/-- The sequencer stops with an error completion (R268). -/
def State.seqStop (s : State) (id : Nat) : State :=
  match Tbl.find s.cards id with
  | none => s
  | some c => s.setCard id { c with stopped := true, code := 1 }

/-- A SEMW step of the sequencer returns (R267): what follows it comes after what the bay's semaphores hand on. -/
def State.seqSee (s : State) (id : Nat) (o : OrderState) : State :=
  match Tbl.find s.cards id with
  | none => s
  | some c => s.setCard id { c with ord := c.ord.see o }

/-- The sequencer goes on to its next step. -/
def State.seqAdvance (s : State) (die bay tag : Nat) : State :=
  s.modLoom die bay tag (fun l => { l with seq := l.seq.map (fun j => { j with at_ := j.at_ + 1, parked := none }) })

/-- SEQUENCER_STEP (R268): the next step of the list, as the instruction it stands for. -/
def State.sequencerStep (s : State) (die bay tag : Nat) : Option State :=
  let l := s.loom die bay tag
  match l.seq with
  | none => none
  | some j =>
    match Tbl.find s.cards j.card with
    | none => none
    | some c =>
      if !s.loomLive die bay tag || c.stopped then none
      else if l.err || (!l.act && decide (j.at_ < j.count)) then some (s.seqStop j.card)
      else if j.count ≤ j.at_ then none
      else
        let off := j.off + 32 * j.at_
        let r := s.mxRead die bay tag (off / 128 * 128) 1
        let ws := wordsOf 4 ((r.1.drop (off % 128)).take 32)
        let w (i : Nat) := nth (0 : W64) ws i
        let op := bits (w 0) 3 0
        let sem := bits (w 0) 6 4
        let s1 := r.2.2
        if s.badAt tag (.spad die bay off) 32 || bits (w 0) 63 7 != 0 || w 3 != 0 || (decide (op < 8) && sem != 0) then some (s.seqStop j.card)
        else
          let enter (m : MxRes) : Option State := match m with
            | .trap _ _ => some (s.seqStop j.card)
            | .wait => none
            | .ok s2 => some (s2.seqAdvance die bay tag)
          if op = 1 then (if w 1 != 0 || w 2 != 0 then some (s.seqStop j.card) else enter (s1.mxZ die bay tag c.ord))
          else if op = 2 then enter (s1.mxRun die bay tag (w 1) (w 2) c.ord)
          else if op = 3 then (if w 2 != 0 then some (s.seqStop j.card) else enter (s1.mxProm die bay tag (w 1) c.ord))
          else if op = 4 then enter (s1.mxSt die bay tag (w 1) (w 2) c.ord)
          else if op = 8 then
            match s1.semTake die bay tag sem (if j.parked.isSome then j.arr else s1.nextId) with
            | some s2 => some ((s2.seqSee j.card l.handed).seqAdvance die bay tag)
            | none =>
              if j.parked.isSome then none
              else some ({ s1.modLoom die bay tag (fun l => { l with seq := some { j with parked := some sem, arr := s1.nextId } })
                           with nextId := s1.nextId + 1 })
          else if op = 9 then some ((s1.semSignal die bay tag sem c.ord).seqAdvance die bay tag)
          else some (s.seqStop j.card)

/-- LOOMST as it reads (Table 13-7). -/
def Loom.status (l : Loom) : W64 :=
  let c : BankState → Nat
    | .empty => 0
    | .running => 1
    | .full => 2
    | .promoting => 3
  pack [(b2n l.act, 63), (b2n l.seq.isSome, 62), (b2n l.err, 61), (l.ecode, 56), (b2n l.semovf, 55), (c (l.view 1), 50), (c (l.view 0), 48),
    (l.runk % 65536, 32), (l.promk % 65536, 16), (bits l.mxf 13 7, 7)]

/-- R268, SEQUENCER_STEP. -/
def execSequencerStep (die bay tag : Nat) (s : State) : Out := s.ifEnabled (s.sequencerStep die bay tag)

/-- R263, MXU_OP_START. -/
def execMxuOpStart (die bay tag : Nat) (s : State) : Out := s.ifEnabled (s.mxStart die bay tag)

/-- R264, MXU_OP_COMPLETE. -/
def execMxuOpComplete (die bay tag : Nat) (s : State) : Out := s.ifEnabled (s.mxComplete die bay tag)

/-- R255, R256, OPERAND_MESSAGE. -/
def execOperandMessage (id : Nat) (s : State) : Out := s.ifEnabled (s.operandMessage id)

/-- R260, SCALE_REQUEST. -/
def execScaleRequest (id : Nat) (s : State) : Out := s.ifEnabled (s.scaleRequest id)

/-- R270, OPERAND_TIMEOUT. -/
def execOperandTimeout (die bay tag : Nat) (s : State) : Out := s.ifEnabled (s.operandTimeout die bay tag)

/-- R270, SCALE_TIMEOUT. -/
def execScaleTimeout (die bay tag : Nat) (s : State) : Out := s.ifEnabled (s.scaleTimeout die bay tag)

end Sys2Proof.Machine
end

