-- ==== Sys2Proof/Machine/Buffers.lean ====
section
/-!
DEFINITION. Write buffers and RDC copies (spec 03, R68, R71, R82), and the releases that strands and engine jobs wait for (R74, R75,
R80, R83, R87, R89).
-/
namespace Sys2Proof.Machine

/-- The drain of an entry at its home (R68, R82): the line's times and stamp, and the draining die's vector. -/
def State.performEntry (s : State) (d h : Nat) (e : BufEntry) : State :=
  let n := e.line
  let t := (Tbl.get LineOrder.init s.lines n).rts + 1
  let note (s : State) := (s.setLineNo n ⟨t, t, e.stamp⟩).modDie d (fun k => { k with dd := k.dd.set h (Nat.max (k.dd.get h) t) })
  let s1 := match e.act with
    | .bytes l bs => note (s.writeAt e.tag l bs)
    | .deliver name reg v => s.deliverName e.tag name reg v note
  s1.land? e.land

/-- A strand whose buffered store or delivery is lost traps at its next turn, after what it waits for and any trap before it (R320). -/
def State.strandLost (s : State) (x : Nat) (va : W64) : State :=
  match Tbl.find s.strands x with
  | none => s
  | some t => if t.status = .stopped then s else s.setStrand x { t with lost := t.lost ++ [va] }

/-- A store of a drain is lost: the drain fails once the stores that it has made are performed or lost (R31, R320). -/
def State.drainLost (s : State) (id : Nat) : State :=
  match Tbl.find s.drains id with
  | none => s
  | some g => s.setDrain id { g with failed := true, parked := [], lost := g.lost + 1 }

/-- A foreign store whose link has failed is resolved by fail, with cause 0x18 (R320): its strand traps, its tile drain or its card ends with
an error. -/
def State.storeLost (s : State) (e : BufEntry) : State :=
  match e.src with
  | .none => s
  | .strand x va => s.strandLost x va
  | .engine id => (s.drainLost id).cardFail id none 3

/-- WRITE_BUFFER_DRAIN (R68): the oldest entry of a FIFO is performed at its home. Toward another device the entry stays until its
acknowledgement returns; over a link that has failed it is lost. -/
def State.bufferDrain (s : State) (d : Nat) (dest : Target) : Option State :=
  match dest with
  | .die h =>
    match s.fifo d dest with
    | [] => none
    | e :: rest => some (((s.setFifo d dest rest).performEntry d h e).drainAck e.src.id)
  | .dev v =>
    if (Tbl.get Link.init s.links v).failed then
      match s.fifo d dest with
      | [] => none
      | e :: rest => some ((s.setFifo d dest rest).storeLost e)
    else
      match (s.fifo d dest).findIdx? (fun e => !e.sent) with
      | none => none
      | some i => some (s.setFifo d dest ((s.fifo d dest).mapIdx (fun k e => if k = i then { e with sent := true } else e)))

/-- LINK_WRITE_ACK (R68): the oldest entry of a link FIFO that was performed leaves it. -/
def State.linkAck (s : State) (d dev : Nat) : Option State :=
  match s.fifo d (.dev dev) with
  | [] => none
  | e :: rest => if e.sent then some ((s.setFifo d (.dev dev) rest).drainAck e.src.id) else none

/-- RDC_EXPIRY (R71): a copy of a die leaves its RDC, at any time. -/
def State.rdcExpire (s : State) (d i : Nat) : Option State :=
  match (s.rdc.filter (fun c => c.die == d))[i]? with
  | none => none
  | some c => some { s with rdc := s.rdc.filter (fun k => !(k.die == d && k.line == c.line)) }

/-- DEVICE_RELEASE of a strand (R74): of a memory operation, a fence, a package-scope arrival or a posting. -/
def State.strandReleased (s : State) (x : Nat) : Option State :=
  let d := s.dieOf x
  match (s.strand x).wait with
  | .mem op =>
    if op.rel || !s.drained d (op.act.relScope == .dom) op.upto then none
    else some ((s.strandRelease x op.act.relScope).setWait x (.mem { op with rel := true }))
  | .fence _ acq sc scope upto => if s.drained d (scope == .dom) upto then some (s.fenceStep x acq sc scope) else none
  | .arrive die inst k dst upto => if s.drained d false upto then some (s.arriveEnter x die inst k dst) else none
  | .post k id upto => if s.drained d false upto then some (s.postRelease x k id) else none
  | _ => none

/-- R68, WRITE_BUFFER_DRAIN. -/
def execWriteBufferDrain (die : Nat) (dest : Target) (s : State) : Out := s.ifEnabled (s.bufferDrain die dest)

/-- R68, LINK_WRITE_ACK. -/
def execLinkWriteAck (die dev : Nat) (s : State) : Out := s.ifEnabled (s.linkAck die dev)

/-- R71, RDC_EXPIRY. -/
def execRdcExpiry (die i : Nat) (s : State) : Out := s.ifEnabled (s.rdcExpire die i)

/-- R74, DEVICE_RELEASE. -/
def execDeviceRelease (r : Releaser) (s : State) : Out :=
  match r with
  | .strand x => s.ifEnabled (s.strandReleased x)
  | .card id => s.ifEnabled (s.cardRelease id)
  | .fill id => s.ifEnabled (s.fillRelease id)
  | .drain id => s.ifEnabled (s.drainRelease id)
  | .launch id => s.ifEnabled (s.launchRelease id)

end Sys2Proof.Machine
end

