-- ==== Sys2Proof/Machine/Streams.lean ====
section
/-!
DEFINITION. Streams (spec 02, R55 to R59; spec 04, R94 to R96; spec 12, R235 to R238): major 0x27, pushes and the timeouts of pushes
and pops.
-/
namespace Sys2Proof.Machine

/-- A ring of a unit belongs to another resident tenant (R59). -/
def State.ringForeign (s : State) (u : UnitId) (tag k : Nat) : Bool :=
  (s.ring u tag k).st == .free && (s.coTenants u tag).any (fun o => (s.ring u o k).st != .free)

/-- Bits `hi` down to `lo` of a 128-bit operand. -/
def qbits (v : W128) (hi lo : Nat) : Nat := v.toNat / 2 ^ lo % 2 ^ (hi - lo + 1)

/-- The ring that SBIND.in opens from a descriptor image (R235, Table 2-9). -/
def openRing (v : W128) : Ring :=
  { st := .opened, pmask := BitVec.ofNat 16 (qbits v 125 110), eos := 0, log2n := qbits v 93 90, limexp := qbits v 89 85,
    head := 0, tail := 0, base := qbits v 17 4, stamps := [] }

/-- R235, R55: SBIND.in. -/
def execSbindIn (a : Src) (r : BitVec 3) (g : Guard) (s : State) : Out :=
  s.issue (.sbindIn a r g) .none .any g (fun s => s.src a (fun v s1 =>
    let u := s.unitOf s.cur
    let k := r.toNat
    let q := openRing v
    let off := q.base * 16
    let n := 16 * 2 ^ q.log2n
    if q.log2n < 1 || 12 < q.log2n || q.limexp < 10 || 30 < q.limexp then s.raise 0x01 (wordOf (.sbindIn a r g))
    else if s.ringForeign u s.me.tag k then s.raise 0x0C (w64 k)
    else if off % n != 0 || !inPart (s.spadPart s.me.tag u.die u.bay) off n then s.raise 0x0A (w64 off)
    else if (s.ring u s.me.tag k).st != .free || s.me.irv then s.raise 0x23 (w64 k)
    else
      ((s1.setRing u s.me.tag k (endStep q)).modStrand s.cur (fun t => { t with iring := k, irv := true })).retire nothing))

/-- R235, R236: SBIND.out; nothing is checked at the consumer until the first push. -/
def execSbindOut (a : Src) (r : BitVec 3) (g : Guard) (s : State) : Out :=
  s.issue (.sbindOut a r g) .none .any g (fun s => s.src a (fun v s1 =>
    let w := lo64 v
    let k := r.toNat
    if bits w 31 0 != 0 then s.raise 0x01 (wordOf (.sbindOut a r g))
    else if s.me.orv then s.raise 0x23 (w64 (256 + k))
    else (s1.modStrand s.cur (fun t => { t with oring := ⟨k, unitField w, bits w 35 32⟩, orv := true })).retire nothing))

/-- What QWAIT returns, none while it waits (R237). -/
def qwaitReply (d : Dst) (r : Ring) : Option Reply :=
  if r.st = .ended then some { result d 0 with flags := pack [(1, 60)] }
  else if r.head != r.tail then some (scalar d (w64 ((r.tail + 65536 - r.head) % 65536)))
  else none

/-- The test of a waiting QWAIT (R57, R237). -/
def State.qwaitTry (s : State) (x : Nat) (d : Dst) (k : Nat) : Option State :=
  let u := s.unitOf x
  let tag := (s.strand x).tag
  let r := endStep (s.ring u tag k)
  (qwaitReply d r).map (fun p => (s.setRing u tag k r).retireOf x false p)

/-- R237, QWAIT. -/
def execQwait (d : Dst) (r : BitVec 3) (lim : BitVec 5) (g : Guard) (s : State) : Out :=
  s.issue (.qwait d r lim g) .none .any g (fun s => s.dstBound d (fun s =>
    let u := s.unitOf s.cur
    let k := r.toNat
    let q := endStep (s.ring u s.me.tag k)
    if s.ringForeign u s.me.tag k then s.raise 0x0C (w64 k)
    else if q.st = .free then s.raise 0x23 (w64 k)
    else
      match qwaitReply d q with
      | some p => (s.setRing u s.me.tag k q).retire p
      | none => s.waitOn s.cur (.qwait d k lim.toNat)))

/-- The consumer of a strand's pushes is not of its partition (R59). -/
def State.consumerForeign (s : State) (x : Nat) : Bool :=
  let t := s.strand x
  t.oring.cons.dev == s.dev.num && !s.ownsBay t.tag t.oring.cons.u.die t.oring.cons.u.bay

/-- R238, R96, SEOS: the producer's EOS bit is set and the binding cleared; the strand leaves rotation until the reply.
A ring that is free or has ended stays as it is (the model's choice, log 120). -/
def execSeos (g : Guard) (s : State) : Out :=
  s.issue (.seos g) .none .any g (fun s =>
    let t := s.me
    let o := t.oring
    if !t.orv then s.raise 0x23 (w64 (256 + o.ring))
    else if s.consumerForeign s.cur || (o.cons.dev == s.dev.num && s.ringForeign o.cons.u t.tag o.ring) then s.raise 0x0C (w64 o.ring)
    else
      let q := s.ring o.cons.u t.tag o.ring
      let s1 := if o.cons.dev = s.dev.num && q.st = .opened then
        s.setRing o.cons.u t.tag o.ring (endStep { q with eos := setBit q.eos o.idx true }) else s
      (s1.modStrand s.cur (fun t => { t with orv := false })).waitOn s.cur (.reply nothing))

/-- A strand waits on ring `k` of its unit. -/
def waitsOnRing (w : Wait) (k : Nat) : Bool :=
  match w with
  | .pop r _ => r == k
  | .qwait _ r _ => r == k
  | _ => false

/-- R238, SCLOSE: the ring is free and its entries discarded; bindings to it are cleared, and waits on it trap. -/
def execSclose (r : BitVec 3) (g : Guard) (s : State) : Out :=
  s.issue (.sclose r g) .none .any g (fun s =>
    let u := s.unitOf s.cur
    let tag := s.me.tag
    let k := r.toNat
    if s.ringForeign u tag k then s.raise 0x0C (w64 k)
    else
      let q := s.ring u tag k
      let s1 := s.setRing u tag k { q with st := .free, eos := 0, head := 0, tail := 0, stamps := [] }
      let mine := (s1.strands.filter (fun e => e.2.tag == tag && decide (s.unitOf e.1 = u))).map (·.1)
      let s2 := mine.foldl (fun s y =>
        let s3 := if waitsOnRing (s.strand y).wait k then s.defer y 0x23 (w64 k) else s
        s3.modStrand y (fun t => if t.iring = k && t.irv then { t with irv := false } else t)) s1
      s2.retire nothing)

/-- A push performed at the consumer's ring (R94): the entry, its stamp and TAIL. -/
def State.pushEntry (s : State) (u : UnitId) (tag k : Nat) (q : Ring) (v : W128) (stamp : V4) : State :=
  let s1 := s.putBytes (s.spadAt tag u.die u.bay (q.entryOff q.tail)) (leBytes 16 v.toNat)
  s1.setRing u tag k { q with tail := (q.tail + 1) % 65536, stamps := Tbl.set q.stamps (q.tail % 2 ^ q.log2n) stamp }

/-- STREAM_PUSH (R56, R59, R94): none while the ring is full, or while the wait is withdrawn (R220). A ring that is not open, a producer that is not registered or one that
has posted its end is a protocol error (R56, R238). A push to another device is that device's (log 9). -/
def State.streamPush (s : State) (x : Nat) : Option State :=
  let t := s.strand x
  match t.wait with
  | .push r =>
    if !s.present x then none else
    let o := t.oring
    let done (s : State) := s.answer x { r with d := .wz }
    if o.cons.dev != s.dev.num then
      if s.linkDown (.foreign o.cons.dev 0) then some (s.defer x 0x18 (w64 o.ring)) else some (done (s.meteredLink t.tag (.dev o.cons.dev)))
    else if s.consumerForeign x || s.ringForeign o.cons.u t.tag o.ring then some (s.defer x 0x0C (w64 o.ring))
    else
      let q := endStep (s.ring o.cons.u t.tag o.ring)
      if q.st != .opened || !bit q.pmask o.idx || bit q.eos o.idx then some (s.defer x 0x22 (w64 o.ring))
      else if (q.tail + 65536 - q.head) % 65536 < 2 ^ q.log2n then some (done (s.pushEntry o.cons.u t.tag o.ring q r.v t.ord.rs))
      else none
  | _ => none

/-- STREAM_PUSH_TIMEOUT (R56): a push to a ring that stays full traps. -/
def State.streamPushTimeout (s : State) (x : Nat) : Option State :=
  let t := s.strand x
  match t.wait with
  | .push _ =>
    let q := s.ring t.oring.cons.u t.tag t.oring.ring
    if (s.streamPush x).isNone && s.expired x (2 ^ q.limexp) then some (s.defer x 0x21 (ringValue t.oring.ring q)) else none
  | _ => none

/-- The test of a wait for `n` entries of a ring (R57): it holds them, or every producer has posted its end (R58). -/
def State.popReady (s : State) (x k n : Nat) : Bool :=
  let r := endStep (s.ring (s.unitOf x) (s.strand x).tag k)
  r.st == .ended || decide (n ≤ (r.tail + 65536 - r.head) % 65536) || (r.st == .opened && r.pmask &&& ~~~r.eos == 0)

/-- STREAM_TIMEOUT (R57, R237): a pop or QWAIT on a ring that stays open and empty traps. -/
def State.streamTimeout (s : State) (x : Nat) : Option State :=
  let t := s.strand x
  let q (k : Nat) := s.ring (s.unitOf x) t.tag k
  match t.wait with
  | .pop k n => if !s.popReady x k n && s.expired x (2 ^ (q k).limexp) then some (s.defer x 0x21 (ringValue k (q k))) else none
  | .qwait _ k lim => if !s.popReady x k 1 && s.expired x (2 ^ lim) then some (s.defer x 0x21 (ringValue k (q k))) else none
  | _ => none

/-- R94, STREAM_PUSH. -/
def execStreamPush (x : Nat) (s : State) : Out := s.ifEnabled (s.streamPush x)

/-- R56, STREAM_PUSH_TIMEOUT. -/
def execStreamPushTimeout (x : Nat) (s : State) : Out := s.ifEnabled (s.streamPushTimeout x)

/-- R57, STREAM_TIMEOUT. -/
def execStreamTimeout (x : Nat) (s : State) : Out := s.ifEnabled (s.streamTimeout x)

end Sys2Proof.Machine
end

