-- ==== Sys2Proof/Machine/Reply.lean ====
section
/-!
DEFINITION. Replies to waiting strands (spec 06, R126, R136), the runtime's records and their resolution (spec 16, R314 to R316), and the
hang watchdog (R329).
-/
namespace Sys2Proof.Machine

/-- Retires an instruction that writes nothing. -/
def State.doneOf (s : State) (x : Nat) : State := s.retireReg x false nothing

/-- One step of the sweep of a query (R119): the next exit's count is read, or after the last one the word is returned. -/
def State.sweep (s : State) (x die inst : Nat) (quiet : Bool) (entered swept sum : Nat) (d : Dst) : State :=
  let i := s.inst die inst
  if swept < i.exits die then s.setWait x (.query die inst quiet entered (swept + 1) (sum + i.sweepCount die swept) d)
  else s.retireOf x false (scalar d (s.queryWord die inst quiet entered sum))

/-- A reply comes to a strand whether or not it holds its slot (R120, R137, R220): it is written into the saved context. -/
def Wait.anywhere : Wait → Bool
  | .query _ _ _ _ _ _ _ => true
  | .reply _ => true
  | _ => false

/-- OPERATION_REPLY (R126): the wait of a strand that holds its slot is tested, and the strand rejoins rotation if it has ended. An
instruction that has not issued issues again. -/
def State.operationReply (s : State) (x : Nat) : Option State :=
  let t := s.strand x
  let u := s.unitOf x
  if t.status != .waiting || !(s.present x || t.wait.anywhere) then none
  else
    match t.wait with
    | .none => none
    | .tile n => let st := (s.tile t.tag u.die u.bay n).st; if st == .empty || st == .ready then some (s.toReady x) else none
    | .pop k n => if s.popReady x k n then some (s.toReady x) else none
    | .mxq => if (s.loom u.die u.bay t.tag).queue.length < 8 then some (s.toReady x) else none
    | .mem _ => none
    | .push _ => none
    | .qwait d k _ => s.qwaitTry x d k
    | .fence _ _ _ _ _ => none
    | .waitp r _ => (s.waitpTry x r).map (·.doneOf x)
    | .mdlv _ _ _ _ _ _ _ => none
    | .mbx m v => (s.mbxTry x m v).map (·.doneOf x)
    | .mbr m d => (s.mbrTry x m).map (fun r => r.2.retireOf x false (result d r.1))
    | .mwait c n _ => (s.mwaitTry x c n t.arr).map (·.doneOf x)
    | .arrive _ _ _ _ _ => none
    | .token _ _ _ => none
    | .cwait die inst p _ => (s.cwaitTry x die inst p).map (·.doneOf x)
    | .query die inst q e n k d => some ((s.sweep x die inst q e n k d).creelTouch x)
    | .reap n d => (s.reapTry x n).map (fun r => r.2.retireOf x false (scalar d r.1))
    | .spawn15 e w d => (s.spawn15Try x e w).map (fun r => r.2.retireOf x false (scalar d r.1))
    | .svc => none
    | .svcdone v upto =>
      if s.accessesDone x upto then some ((s.svcDone u t.tag v).doneOf x) else none
    | .fe => none
    | .rdv h => (s.rdvTry x h).map (·.doneOf x)
    | .xwait ch id _ => (s.xwaitTry x ch id).map (·.doneOf x)
    | .semw n => (s.semwTry x n).map (·.doneOf x)
    | .tlbi _ _ _ => none
    | .settle inst p _ ovf => s.settleTry x inst p ovf
    | .sfu => none
    | .post _ _ _ => none
    | .mxoff => (s.mxoffTry x).map (·.doneOf x)
    | .mxperm d a m z tr => s.mxpermTry x d a m z tr
    | .trdmc _ => none
    | .reply r => some ((s.retireOf x false r).creelTouch x)

/-- A strand's reply has come in this cycle: it is in rotation from its first turn in a later one (R126). -/
def State.cameBack (s : State) (x : Nat) : State := s.modStrand x (fun t => { t with back := s.clock + 1 })

/-- R126, OPERATION_REPLY. -/
def execOperationReply (x : Nat) (s : State) : Out := s.ifEnabled ((s.operationReply x).map (·.cameBack x))

/-- TRAP_RECORD_WRITE (R314): a record that waits in the bay is written once the queue has room. -/
def State.recordWrite (s : State) (x : Nat) : Option State :=
  match (s.strand x).held with
  | none => none
  | some h =>
    if h.seq.isSome then none
    else
      let s1 := s.trapRecord x
      match (s1.strand x).held with
      | some k => if k.seq.isSome then some s1 else none
      | none => none

/-- R314, TRAP_RECORD_WRITE. -/
def execTrapRecordWrite (x : Nat) (s : State) : Out := s.ifEnabled (s.recordWrite x)

/-- The strand of a partition that a sequence number's record holds (R316). -/
def State.heldBy (s : State) (tag seq : Nat) : Option (Nat × Held) :=
  s.strands.findSome? (fun e => match e.2.held with
    | some h => if e.2.tag = tag ∧ h.seq = some seq then some (e.1, h) else none
    | none => none)

/-- A held strand goes on (R316): at its resume address, or, held by the watchdog, with its wait issued again and a fresh count. -/
def State.resumeHeld (s : State) (x : Nat) (h : Held) : State :=
  match (s.strand x).place with
  | .record u => (s.modStrand x (fun t => { t with status := .ready, held := none, pc := h.pc })).enterCreel x u
  | _ =>
    { s.modStrand x (fun t => { t with
        status := if t.wait = .none then .ready else .waiting, held := none, pc := h.pc, since := s.clock, arr := s.nextId, hang := 0,
        hangAt := s.clock }) with nextId := s.nextId + 1 }

/-- XTR_RESUME (R316). -/
def State.xtrResume (s : State) (tag seq : Nat) : Option State := (s.heldBy tag seq).map (fun r => s.resumeHeld r.1 r.2)

/-- XTR_STOP (R316): the strand stops with the exit word of its cause; a creel overflow's packet is discarded. -/
def State.xtrStop (s : State) (tag seq : Nat) : Option State :=
  match s.heldBy tag seq with
  | none => none
  | some (x, h) =>
    let s1 := s.modStrand x (fun t => { t with held := none })
    match (s.strand x).place with
    | .record u =>
      let s2 := s1.freeStrand x
      some (match (s.strand x).launch with
        | none => s2
        | some id => ((s1.noteStop x id).freeStrand x).shareCheck id u.die u.bay)
    | _ => some (s1.stopStrand x (w64 (2 ^ 63 + h.cause)))

/-- R316, XTR_RESUME. -/
def execXtrResume (tag seq : Nat) (s : State) : Out := s.ifEnabled (s.xtrResume tag seq)

/-- R316, XTR_STOP. -/
def execXtrStop (tag seq : Nat) (s : State) : Out := s.ifEnabled (s.xtrStop tag seq)

/-- WATCHDOG_EXPIRY (R329): the strand is held with a record of its waiting word. Its wait is kept with it, to be issued again or, for a
parked antitoken and an SVC request, to go on. -/
def State.watchdog (s : State) (x : Nat) : Option State :=
  let t := s.strand x
  let r := (s.part t.tag).wdctl
  if !bit r 63 || !s.hangCounts x || decide (s.hangTotal x < 2 ^ bits r 5 0) then none
  else
    let s1 := s.deliver x 3 0 t.word t.pc
    some (s1.modStrand x (fun k => { k with wait := t.wait }))

/-- R329, WATCHDOG_EXPIRY. -/
def execWatchdogExpiry (x : Nat) (s : State) : Out := s.ifEnabled (s.watchdog x)

end Sys2Proof.Machine
end

