-- ==== Sys2Proof/Machine/Lists.lean ====
section
/-!
DEFINITION. Command queues and their interpreters, fence counters and launches (spec 15, R292 to R298; spec 07, R139 to R141). Each
entry is read again whenever its queue is chosen, until it completes.
-/
namespace Sys2Proof.Machine

/-- Die of a queue's interpreter (Table 15-1). -/
def CmdQueue.die (c : CmdQueue) : Nat := bits c.cfg 12 11

/-- Order state of a die's interpreter, which performs the entries of every queue of the die (R3, R87, R294). -/
def State.listOrd (s : State) (die : Nat) : OrderState := (s.die die).listOrd

/-- Sets the order state of a die's interpreter. -/
def State.setListOrd (s : State) (die : Nat) (o : OrderState) : State := s.modDie die (fun d => { d with listOrd := o })

/-- Priority level of a queue. -/
def CmdQueue.prio (c : CmdQueue) : Nat := bits c.cfg 4 0

/-- The interpreter walks the queue (R296), it is not parked, and it has an entry to perform (Table 15-1). -/
def CmdQueue.live (c : CmdQueue) : Bool :=
  bit c.cfg 63 && !bit c.st 63 && c.parked.isNone && !(c.stack.isEmpty && c.pc == c.end_)

/-- A queue is walked now (R296): its interpreter is a scheduler's, and schedulers are enabled from stage 2 on (Table 17-1). -/
def State.walked (s : State) (tag q : Nat) : Bool := decide (3 ≤ s.dev.stage) && (s.queue tag q).live

/-- A list error (R296): PC stays at the failing entry. -/
def State.listError (s : State) (tag q code : Nat) : State :=
  (s.modQueue tag q (fun c => { c with
    st := setBit (setBits c.st 62 56 code) 63 true, cfg := setBit c.cfg 63 false, failed := false, upto := none })).emit
    (.listError tag q code)

/-- The queue goes on at an address. -/
def State.listGoto (s : State) (tag q : Nat) (pc : W64) : State := s.modQueue tag q (fun c => { c with pc := pc, upto := none })

/-- The queue goes on with the next entry. -/
def State.listNext (s : State) (tag q : Nat) : State := s.listGoto tag q ((s.queue tag q).pc + 32)

/-- The walk request of an interpreter (R30): hosted at bay 0 of its die, unit 5, the queue number as slot. -/
def CmdQueue.req (c : CmdQueue) (tag q : Nat) (acc : AccKind) (va : W64) : WalkReq :=
  { who := .queue tag q, acc := acc, va := va, die := c.die, bay := 0, sp := false, unit := 5, slot := q }

/-- What an access of an interpreter comes to: a value, a walk that it waits for, or list error 0x02. -/
inductive ListRes (α : Type) where
  | ok (v : α) (s : State)
  | wait (s : State)
  | bad

/-- Translates an aligned address of the paged region for an interpreter (R292, Table 15-3). -/
def State.listXlate (s : State) (tag q : Nat) (va : W64) (align : Nat) (acc : AccKind) : ListRes XLoc :=
  let c := s.queue tag q
  if c.failed || !canonical va || inWindow va || va.toNat % align != 0 then .bad
  else
    let r := s.engineXlate (coreOf c.die 0) tag va align acc
    match r.1 with
    | .ok l => if s.linkDown l.loc then .bad else .ok l r.2
    | .miss => .wait (r.2.askWalk tag (c.req tag q acc va))
    | .trap _ => .bad

/-- Bytes as an interpreter reads them at their home (R292): those of another device, and poisoned ones, are free (log 9, log 2). -/
def State.listBytes (s : State) (tag : Nat) (l : Loc) (n : Nat) : List Byte × State :=
  match l with
  | .foreign _ _ => s.freeBytes n
  | _ => if s.badAt tag l n then s.freeBytes n else (s.bytesAt tag l n, s)

/-- Reads `n` bytes, aligned to `n`, that take no order step (R292, R294). -/
def State.listRead (s : State) (tag q : Nat) (va : W64) (n : Nat) : ListRes (List W64) :=
  match s.listXlate tag q va n .load with
  | .ok l s1 =>
    let r := s1.listBytes tag l.loc n
    .ok (wordsOf (n / 8) r.1) r.2
  | .wait s1 => .wait s1
  | .bad => .bad

/-- Goes on with a value, waits, or stops the queue with list error 0x02. -/
def ListRes.andThen {α : Type} (r : ListRes α) (s : State) (tag q : Nat) (k : α → State → Option State) : Option State :=
  match r with
  | .ok v s1 => k v s1
  | .wait s1 => some s1
  | .bad => some (s.listError tag q 2)

/-- The OP of an entry (R293). -/
def opOf (ws : List W64) : Nat := bits (nth 0 ws 0) 63 56

/-- Bits of an entry that Table 15-2 does not name are zero: those of word 0 outside a mask, and words after the first `n`. -/
def entryClean (ws : List W64) (mask : W64) (n : Nat) : Bool :=
  (nth (0 : W64) ws 0 &&& ~~~(mask ||| 0xFF00000000000000#64)) == 0 && (ws.drop (n + 1)).all (fun w => w == 0)

/-- Performs the queue's next entry where it has an OP (R293). -/
def State.listStep (s : State) (tag q op : Nat) (mask : W64) (n : Nat) (k : List W64 → State → Option State) : Option State :=
  let c := s.queue tag q
  if !s.walked tag q then none
  else
    (s.listRead tag q c.pc 32).andThen s tag q (fun ws s1 =>
      if opOf ws != op then none
      else if !entryClean ws mask n then some (s1.listError tag q 1)
      else k ws s1)

/-- WAITFC (R295): once the counter has reached V, the stamps of its increments that the interpreter has not applied are applied. -/
def State.listWaitfc (s : State) (tag q : Nat) : Option State :=
  s.listStep tag q 2 0x3F#64 1 (fun ws s =>
    let n := bits (nth 0 ws 0) 5 0
    let f := Tbl.get FenceCtr.init (s.part tag).fcs n
    let c := s.queue tag q
    if decide (f.v.toNat < (nth (0 : W64) ws 1).toNat) then none
    else
      let r := s.applyStamps (s.listOrd c.die) c.die (f.stamps.drop (Tbl.get 0 c.applied n))
      some (((r.2.setListOrd c.die r.1).modQueue tag q (fun c => { c with applied := Tbl.set c.applied n f.stamps.length })).listNext tag q))

/-- SIGFC (Table 15-2): an increment that carries no completion's stamp. -/
def State.listSigfc (s : State) (tag q : Nat) : Option State :=
  s.listStep tag q 3 0x3F#64 1 (fun ws s =>
    let n := bits (nth 0 ws 0) 5 0
    some ((s.modPart tag (fun p =>
      let f := Tbl.get FenceCtr.init p.fcs n
      { p with fcs := Tbl.set p.fcs n { f with v := f.v + nth 0 ws 1 } })).listNext tag q))

/-- The condition of a SKIPIF (Table 15-2). -/
def skipHolds (cond : Nat) (x y : W64) : Bool :=
  match cond with
  | 0 => x == y
  | 1 => x != y
  | 2 => decide (x.toNat < y.toNat)
  | _ => decide (y.toNat ≤ x.toNat)

/-- SKIPIF (R294): the word is read at its home as an acquire at device scope. -/
def State.listSkipif (s : State) (tag q : Nat) : Option State :=
  s.listStep tag q 4 0x7#64 3 (fun ws s =>
    let cond := bits (nth 0 ws 0) 2 0
    if 3 < cond then some (s.listError tag q 1)
    else
      (s.listXlate tag q (nth 0 ws 1) 8 .load).andThen s tag q (fun l s1 =>
        let c := s1.queue tag q
        match s1.acquireLoad (s1.listOrd c.die) c.die tag l 8 with
        | none => none
        | some (r, s2) =>
          let a := s2.applyStamp r.ord c.die .dev (s1.lineAt l.loc).stamp
          let f := if r.bad then a.2.freeBytes 8 else (r.bs, a.2)
          let skip := skipHolds cond (w64 (leNat f.1) &&& nth 0 ws 3) (nth 0 ws 2)
          some ((f.2.setListOrd c.die a.1).listGoto tag q (c.pc + (if skip then 64 else 32)))))

/-- JUMP (Table 15-2). -/
def State.listJump (s : State) (tag q : Nat) : Option State :=
  s.listStep tag q 5 0 1 (fun ws s => some (s.listGoto tag q (nth 0 ws 1)))

/-- Sets a queue's return stack, and with it DEPTH (Table 15-1). -/
def CmdQueue.setStack (c : CmdQueue) (l : List W64) : CmdQueue := { c with stack := l, st := setBits c.st 2 0 l.length }

/-- CALL (Table 15-2). -/
def State.listCall (s : State) (tag q : Nat) : Option State :=
  s.listStep tag q 6 0 1 (fun ws s =>
    let c := s.queue tag q
    if 4 ≤ c.stack.length then some (s.listError tag q 3)
    else some ((s.modQueue tag q (fun c => c.setStack ((c.pc + 32) :: c.stack))).listGoto tag q (nth 0 ws 1)))

/-- RET (Table 15-2). -/
def State.listRet (s : State) (tag q : Nat) : Option State :=
  s.listStep tag q 7 0 0 (fun _ s =>
    match (s.queue tag q).stack with
    | [] => some (s.listError tag q 3)
    | a :: rest => some ((s.modQueue tag q (fun c => c.setStack rest)).listGoto tag q a))

/-- The wait of an interpreter's device-scope release (R74): goes on once the die's entries present at its first try have drained; for a
word that the entry then changes at its home, those of the FIFO toward it too (R73). -/
def State.listRelease (s : State) (tag q : Nat) (word : Option Loc) (k : State → Option State) : Option State :=
  let c := s.queue tag q
  let ready (n : Nat) : Bool := s.drained c.die false n && word.all (fun l => s.fifoDrained c.die l n)
  match c.upto with
  | some n => if ready n then k s else none
  | none => if ready s.serial then k s else some (s.modQueue tag q (fun c => { c with upto := some s.serial }))

/-- The read-modify-write of a PATCH at its home (R73, R294), by the interpreter's order state after its release. -/
def State.patchAt (s : State) (tag q : Nat) (l : XLoc) (y m : W64) : State :=
  let c := s.queue tag q
  let o := s.releaseBy (s.listOrd c.die) c.die
  let st := (s.lineAt l.loc).stamp
  let r := s.listBytes tag l.loc 8
  let new := (w64 (leNat r.1) &&& ~~~m) ||| (y &&& m)
  let t := r.2.atomicTimes o c.die l.loc true
  let s1 := (t.2.writeAt tag l.loc (leBytes 8 new.toNat)).rdcFill c.die l
  let a := s1.applyStamp t.1 c.die .dev st
  a.2.setListOrd c.die a.1

/-- PATCH (R294). -/
def State.listPatch (s : State) (tag q : Nat) : Option State :=
  s.listStep tag q 8 0 3 (fun ws s =>
    (s.listXlate tag q (nth 0 ws 1) 8 .atomic).andThen s tag q (fun l s1 =>
      s1.listRelease tag q (some l.loc) (fun s2 =>
        if !(s2.buffered (s2.queue tag q).die l.loc).isEmpty then none
        else some ((s2.patchAt tag q l (nth 0 ws 2) (nth 0 ws 3)).listNext tag q))))

/-- The fence counter of an entry's FCEN and FC (Table 15-2). -/
def entryFc (w : W64) : Option Nat := if bit w 6 then some (bits w 5 0) else none

/-- JOB (R299, R87): the interpreter posts the card; its own order state does not change (R294). -/
def State.listJob (s : State) (tag q : Nat) : Option State :=
  s.listStep tag q 9 0x7F#64 1 (fun ws s =>
    (s.listRead tag q (nth 0 ws 1) 128).andThen s tag q (fun cs s1 =>
      let c := cardOf tag cs
      if !cardOk cs || (c.kind != .copy && !s1.ownsBay tag c.die c.pbay) then some (s1.listError tag q 6)
      else
        let i := s1.queue tag q
        let put (s : State) (o : OrderState) : State :=
          let id := s.nextId
          (({ s.setCard id { c with fc := entryFc (nth 0 ws 0) } with nextId := id + 1 }).postCard id o i.die).listNext tag q
        if c.die = i.die then some (put s1 (s1.listOrd i.die))
        else s1.listRelease tag q none (fun s2 => some (put s2 (s2.releaseBy (s2.listOrd i.die) i.die)))))

/-- Bays of a rectangle, by bay index, in row order. -/
def rectBays (row col rows cols : Nat) : List Nat :=
  (List.range rows).flatMap (fun r => (List.range cols).map (fun c => (row + r) * 64 + (col + c)))

/-- Dies of a mask. -/
def maskDies (m : Nat) : List Nat := (List.range 4).filter (fun d => m / 2 ^ d % 2 == 1)

/-- The bays of a launch header (Table 15-4), by package number. -/
def headerBays (h : List W64) : List Nat :=
  let w := nth (0 : W64) h 3
  (maskDies (bits w 28 25)).flatMap (fun d => (rectBays (bits w 24 20) (bits w 19 14) (bits w 6 0) (bits w 13 7)).map (bayNo d))

/-- A launch header keeps Table 15-4 (R297). -/
def State.headerOk (s : State) (tag : Nat) (h : List W64) : Bool :=
  let w (i : Nat) := nth (0 : W64) h i
  codeAddress (w 0) && codeAddress (w 1) && bits (w 2) 63 36 == 0 && decide (widSum (w 2) ≤ 64) && bits (w 3) 63 29 == 0 &&
  bits (w 3) 28 25 != 0 && w 6 == 0 && w 7 == 0 &&
  decide (1 ≤ bits (w 3) 6 0) && decide (bits (w 3) 6 0 ≤ 32) && decide (1 ≤ bits (w 3) 13 7) && decide (bits (w 3) 13 7 ≤ 64) &&
  decide (bits (w 3) 24 20 + bits (w 3) 6 0 ≤ 32) && decide (bits (w 3) 19 14 + bits (w 3) 13 7 ≤ 64) &&
  (headerBays h).all (fun n => s.ownsBay tag (n / 2048) (n % 2048))

/-- Cells along an axis of a field descriptor (Table 7-1). -/
def fieldG (f : List W64) (axis : Nat) : Nat :=
  let w := nth (0 : W64) f 0
  match axis with
  | 0 => bits w 61 56
  | 1 => bits w 55 50
  | _ => bits w 49 44

/-- Origin along an axis of a field descriptor. -/
def fieldO (f : List W64) (axis : Nat) : Int :=
  match axis with
  | 0 => q16 (bits (nth 0 f 1) 63 32)
  | 1 => q16 (bits (nth 0 f 1) 31 0)
  | _ => q16 (bits (nth 0 f 2) 63 32)

/-- Cell extent along an axis of a field descriptor. -/
def fieldE (f : List W64) (axis : Nat) : Int :=
  match axis with
  | 0 => q16 (bits (nth 0 f 3) 63 32)
  | 1 => q16 (bits (nth 0 f 3) 31 0)
  | _ => q16 (bits (nth 0 f 4) 63 32)

/-- Number of cells of a field. -/
def fieldCells (f : List W64) : Nat := fieldG f 0 * fieldG f 1 * fieldG f 2

/-- Die of a field. -/
def fieldDie (f : List W64) : Nat := bits (nth 0 f 0) 25 24

/-- Bays of a field's rectangle, in the order of its cells (R140). -/
def fieldRect (f : List W64) : List Nat :=
  let w := nth (0 : W64) f 0
  let cols := bits w 32 26
  rectBays (bits w 43 39) (bits w 38 33) ((fieldCells f + cols - 1) / cols) cols

/-- Spare bays that a field lists. -/
def fieldSpares (f : List W64) : List Nat :=
  (List.range (bits (nth 0 f 6) 39 37)).map (fun i => bits (nth 0 f 7) (16 * i + 10) (16 * i))

/-- Fields of a descriptor in range (R141, Table 7-1): a negative H is refused with them (the model's choice, log 74). -/
def fieldRanges (f : List W64) : Bool :=
  let w (i : Nat) := nth (0 : W64) f i
  let axes := if bit (w 0) 62 then [0, 1, 2] else [0, 1]
  bit (w 0) 63 && bits (w 0) 23 0 == 0 && bits (w 2) 31 0 == 0 && bits (w 5) 2 0 == 0 && bits (w 6) 2 0 == 0 &&
  [0, 1, 2, 3].all (fun i => bits (w 7) (16 * i + 15) (16 * i + 11) == 0) &&
  (bit (w 0) 62 || fieldG f 2 == 1) && [0, 1, 2].all (fun a => fieldG f a != 0 && decide (0 < fieldE f a)) &&
  decide (1 ≤ bits (w 0) 32 26) && decide (bits (w 0) 32 26 ≤ 64) && decide (0 ≤ q16 (bits (w 4) 31 0)) &&
  bits (w 5) 17 8 != 0 && bits (w 6) 49 40 != 0 && decide (10 ≤ bits (w 5) 7 3) && decide (bits (w 5) 7 3 ≤ 30) &&
  decide (bits (w 6) 39 37 ≤ 4) && bits (w 6) 26 3 != 0 &&
  axes.all (fun a => decide (fieldO f a + fieldG f a * fieldE f a < 2 ^ 31))

/-- No element of a list stands in it twice. -/
def distinct : List Nat → Bool
  | [] => true
  | a :: l => !l.contains a && distinct l

/-- The two banks of a field's cell table and of its halo table lie in the tenant's half on a bay and do not overlap (R141). -/
def State.fieldTables (s : State) (tag die bay : Nat) (f : List W64) : Bool :=
  let cell := bits (nth 0 f 5) 31 18 * 16
  let cn := bits (nth 0 f 5) 17 8 * 64
  let halo := bits (nth 0 f 6) 63 50 * 16
  let hn := bits (nth 0 f 6) 49 40 * 64
  inPart (s.spadPart tag die bay) cell cn && inPart (s.spadPart tag die bay) halo hn && !overlaps cell (cell + cn) halo (halo + hn)

/-- A field descriptor passes the checks of R141. -/
def State.fieldOk (s : State) (tag : Nat) (f : List W64) : Bool :=
  let w := nth (0 : W64) f 0
  let d := fieldDie f
  let bi := bits (nth 0 f 6) 36 27
  let rect := fieldRect f
  let sp := fieldSpares f
  let i := s.inst (s.instDie d bi) bi
  fieldRanges f && decide (bits w 43 39 + rect.length / bits w 32 26 ≤ 32) && decide (bits w 38 33 + bits w 32 26 ≤ 64) &&
  distinct sp && sp.all (fun b => !rect.contains b) &&
  (rect ++ sp).all (fun b => s.ownsBay tag d b && s.fieldTables tag d b f &&
    !s.fields.any (fun e => e.2.live && e.2.die == d && e.2.bays.any (fun c => c.bay == b))) &&
  (bits i.w0 57 53 == tag || tag == 31)

/-- A point of a field's grid. -/
def gridPoint (f : List W64) (i j k : Nat) : P3 :=
  ⟨fieldO f 0 + i * fieldE f 0, fieldO f 1 + j * fieldE f 1, fieldO f 2 + k * fieldE f 2⟩

/-- A bay of a field with no box. -/
def FieldBay.bare (bay : Nat) : FieldBay :=
  { bay := bay, boxed := false, lo := ⟨0, 0, 0⟩, hi := ⟨0, 0, 0⟩, ovf := false, hovf := false, nospare := false, pin := false,
    cnt0 := 0, cnt1 := 0, hcnt0 := 0, hcnt1 := 0 }

/-- Bay `n` of a field's rectangle at launch (R140). -/
def fieldBayAt (f : List W64) (n bay : Nat) : FieldBay :=
  if n < fieldCells f then
    let gx := fieldG f 0
    let gy := fieldG f 1
    let i := n % gx
    let j := n / gx % gy
    let k := n / (gx * gy)
    { FieldBay.bare bay with boxed := true, lo := gridPoint f i j k, hi := gridPoint f (i + 1) (j + 1) (k + 1) }
  else FieldBay.bare bay

/-- The field of a descriptor at launch (R139, R140). -/
def fieldStart (tag : Nat) (f : List W64) : Field :=
  let rect := fieldRect f
  { live := true, tag := tag, die := fieldDie f, desc := f,
    bays := (List.range rect.length).map (fun n => fieldBayAt f n (nth 0 rect n)) ++ (fieldSpares f).map FieldBay.bare,
    spares := fieldSpares f, splits := [], phase := 0 }

/-- A field becomes active (R141): its settle barrier's instance is written. -/
def State.fieldActivate (s : State) (id tag : Nat) (f : List W64) : State :=
  let d := fieldDie f
  let bi := bits (nth 0 f 6) 36 27
  let own := bits (s.inst (s.instDie d bi) bi).w0 57 53
  let s1 := s.descriptorPut d bi (pack [(1, 63), (1, 61), (5, 58), (own, 53)]) 0 (w64 (bits (nth 0 f 6) 26 3))
  { s1 with fields := Tbl.set s1.fields id (fieldStart tag f) }

/-- Bays of a launch that belong to islands which the tenant does not run on now hold the launch back (R298, R304). -/
def State.mayRun (s : State) (tag : Nat) (bays : List Nat) : Bool :=
  bays.all (fun n =>
    let i := s.island (islandOf (n / 2048) (n % 2048))
    i.started && !i.failed && i.running == some tag)

/-- The launch of a checked header (R298): one packet to each of its bays. -/
def State.launchStart (s : State) (tag q : Nat) (w0 hdr : W64) (h : List W64) (f : Option (List W64)) : State :=
  let c := s.queue tag q
  let id := s.nextId
  let bays := headerBays h
  let l : Launch :=
    { tag := tag, prio := c.prio, die := c.die, fc := entryFc w0, entry := nth 0 h 0, tvec := nth 0 h 1,
      wid := (nth (0 : W64) h 2).setWidth 36, arg := nth 0 h 4, hdr := hdr, ord := s.listOrd c.die, left := bays, toStart := bays,
      field := f.map (fun _ => id), landed := [], acc := .zero, dies := [], upto := none }
  let s1 := { s with nextId := id + 1 }
  let s2 := match f with
    | some d => s1.fieldActivate id tag d
    | none => s1
  let s3 := { s2 with launches := Tbl.set s2.launches id l }
  (bays.foldl (fun s n => s.addMsg (.launch id (n / 2048) (n % 2048))) s3).listNext tag q

/-- The bays of a field, by package number. -/
def fieldBays (f : List W64) : List Nat := (fieldRect f ++ fieldSpares f).map (bayNo (fieldDie f))

/-- LAUNCH (R297, R298, R139): the header and its field descriptor are checked before anything starts. -/
def State.listLaunch (s : State) (tag q : Nat) : Option State :=
  s.listStep tag q 1 0x7F#64 1 (fun ws s =>
    let hdr := nth 0 ws 1
    (s.listRead tag q hdr 64).andThen s tag q (fun h s1 =>
      if !s1.headerOk tag h then some (s1.listError tag q 4)
      else if nth (0 : W64) h 5 == 0 then
        if s1.mayRun tag (headerBays h) then some (s1.launchStart tag q (nth 0 ws 0) hdr h none) else none
      else
        (s1.listRead tag q (nth 0 h 5) 64).andThen s1 tag q (fun f s2 =>
          if !s2.fieldOk tag f then some (s2.listError tag q 5)
          else if s2.mayRun tag (headerBays h ++ fieldBays f)
          then some (s2.launchStart tag q (nth 0 ws 0) hdr h (some f)) else none)))

/-- The head strand that a launch packet starts (R298, R130). -/
def headStrand (id : Nat) (l : Launch) (n : Nat) (o : OrderState) : Strand :=
  { Strand.init with
    tag := l.tag, status := .ready,
    regs := ((Strand.init.regs.set 0 (w128 n)).set 1 (zext128 l.arg)).set 2 (zext128 l.hdr),
    pc := l.entry, gen := 65536, ord := o, wid := l.wid, tvec := l.tvec, launch := some id }

/-- Order state of a head on a die (R298): the interpreter's. On another die than the interpreter's it arrives there (R81), and what the
interpreter knows is applied, so that PATCH is visible to the kernels that a list launches (R294). -/
def State.headOrd (s : State) (l : Launch) (die : Nat) : OrderState × State :=
  if die = l.die then (l.ord, s)
  else
    let r := s.arriveOrd l.ord l.die die
    r.2.applyStamp r.1 die .dev (l.ord.know l.die)

/-- LAUNCH_PACKET (R298): the packet waits until the tenant's slot 0 is free, and starts the head there. -/
def State.launchPacket (s : State) (id : Nat) : Option State :=
  match Tbl.find s.msgs id with
  | some (.launch lid die bay) =>
    match Tbl.find s.launches lid with
    | none => some { s with msgs := Tbl.del s.msgs id }
    | some l =>
      let u := coreOf die bay
      if s.tenantOf u 0 != some l.tag || (s.inSlot u l.tag 0).isSome then none
      else
        let n := bayNo die bay
        let r := s.headOrd l die
        let s1 : State := { r.2 with msgs := Tbl.del r.2.msgs id,
                                     launches := Tbl.set r.2.launches lid { l with toStart := setDel l.toStart n } }
        let x := s1.nextId
        some ((s1.addStrand (headStrand lid l n r.1)).takeSlot x u 0)
  | _ => none

/-- The step of a queue's next entry: its instruction, a walk it waits for, or a list error (R293). -/
inductive ListPlan where
  | idle
  | wait (s : State)
  | entry (op : Nat)

/-- What the next entry of a queue is. -/
def State.listPlan (s : State) (tag q : Nat) : ListPlan :=
  let c := s.queue tag q
  if !s.walked tag q then .idle
  else
    match s.listRead tag q c.pc 32 with
    | .ok ws s1 => if opOf ws = 0 || 9 < opOf ws then .wait (s1.listError tag q 1) else .entry (opOf ws)
    | .wait s1 => .wait s1
    | .bad => .wait (s.listError tag q 2)

/-- R298, LAUNCH. -/
def execLaunch (tag q : Nat) (s : State) : Out := s.ifEnabled (s.listLaunch tag q)

/-- R295, WAITFC. -/
def execWaitfc (tag q : Nat) (s : State) : Out := s.ifEnabled (s.listWaitfc tag q)

/-- R293, SIGFC. -/
def execSigfc (tag q : Nat) (s : State) : Out := s.ifEnabled (s.listSigfc tag q)

/-- R294, SKIPIF. -/
def execSkipif (tag q : Nat) (s : State) : Out := s.ifEnabled (s.listSkipif tag q)

/-- R293, JUMP. -/
def execJump (tag q : Nat) (s : State) : Out := s.ifEnabled (s.listJump tag q)

/-- R293, CALL. -/
def execCall (tag q : Nat) (s : State) : Out := s.ifEnabled (s.listCall tag q)

/-- R293, RET. -/
def execRet (tag q : Nat) (s : State) : Out := s.ifEnabled (s.listRet tag q)

/-- R294, PATCH. -/
def execPatch (tag q : Nat) (s : State) : Out := s.ifEnabled (s.listPatch tag q)

/-- R299, LIST_JOB. -/
def execListJob (tag q : Nat) (s : State) : Out := s.ifEnabled (s.listJob tag q)

/-- R298, LAUNCH_PACKET. -/
def execLaunchPacket (id : Nat) (s : State) : Out := s.ifEnabled (s.launchPacket id)

end Sys2Proof.Machine
end

