-- ==== Sys2Proof/Machine/Sched.lean ====
section
/-!
DEFINITION. Scheduling of islands among tenants (spec 15, R303 to R305) and pre-emption (spec 16, R322 to R325): budgets, the serving
rule, hand-overs, and the exchange of scratchpad and weight-buffer ranges.
-/
namespace Sys2Proof.Machine

/-- Core cycles in a microsecond of the scheduler clock (R6: core cycles run at 4 GHz). -/
def cyclesPerUs : Nat := 4000

/-- Tags of an island's tenant list (R321). -/
def State.tenantsOf (s : State) (isl : Nat) : List Nat := (tenantEntries (s.island isl).cfg).map (·.2.2)

/-- A tenant's share of an island (R303). -/
def State.share (s : State) (isl tag : Nat) : Rat :=
  let w (v : Nat) : Nat := bits (s.part v).vdsch 15 0
  let sum : Nat := ((s.tenantsOf isl).map w).foldl (· + ·) 0
  (w tag : Rat) / (sum : Rat)

/-- A tenant's effective depth on an island, in µs (R303). -/
def State.depth (s : State) (isl tag : Nat) : Rat := min (bits (s.part tag).vdsch 31 16 : Rat) (2000 * s.share isl tag)

/-- A tenant's slice, in µs (Table 15-6). -/
def State.slice (s : State) (tag : Nat) : Nat := bits (s.part tag).vdsch 47 32

/-- A tenant's budget on an island now, in µs (R304): it falls while the tenant is served. -/
def State.budget (s : State) (isl tag : Nat) : Rat :=
  let i := s.island isl
  let us : Rat := ((s.clock - i.budgetAt : Nat) : Rat) / (cyclesPerUs : Rat)
  let b := Tbl.get (s.depth isl tag) i.budgets tag
  let up := min (s.depth isl tag) (b + us * (s.share isl tag - (if i.running = some tag then 1 else 0)))
  max (-(s.slice tag : Rat)) up

/-- Notes an island's budgets, before what they depend on changes. -/
def State.budgetSettle (s : State) (isl : Nat) : State :=
  s.modIsland isl (fun i => { i with
    budgets := (s.tenantsOf isl).foldl (fun t v => Tbl.set t v (s.budget isl v)) i.budgets, budgetAt := s.clock })

/-- The bays that the launch of a queue's next entry waits for, where it is a LAUNCH with a valid header (R304): its own, and those of its
field (R141). -/
def State.waitingLaunch (s : State) (tag q : Nat) : List Nat :=
  let c := s.queue tag q
  if !s.walked tag q then []
  else
    match s.listRead tag q c.pc 32 with
    | .ok ws s1 =>
      if opOf ws != 1 || !entryClean ws 0x7F#64 1 then []
      else
        match s1.listRead tag q (nth 0 ws 1) 64 with
        | .ok h s2 =>
          if !s.headerOk tag h then []
          else if nth (0 : W64) h 5 == 0 then headerBays h
          else
            match s2.listRead tag q (nth 0 h 5) 64 with
            | .ok f _ => if s.fieldOk tag f then headerBays h ++ fieldBays f else headerBays h
            | _ => headerBays h
        | _ => []
    | _ => []

/-- Bays that a launch in progress uses (R298, R352): its own, its field's, and a spare of the field once a strand has landed there. -/
def State.launchBays (s : State) (l : Launch) : List Nat :=
  l.left ++ l.landed ++ (match l.field.bind (fun k => Tbl.find s.fields k) with
    | some f => (f.bays.filter (fun b => !(fieldSpares f.desc).contains b.bay)).map (fun b => bayNo f.die b.bay)
    | none => [])

/-- A package bay lies on an island. -/
def onIsland (isl n : Nat) : Bool := islandOf (n / 2048) (n % 2048) == isl

/-- The lowest of some numbers. -/
def lowest : List Nat → Option Nat
  | [] => none
  | a :: l => match lowest l with
    | none => some a
    | some b => some (Nat.min a b)

/-- The lowest level at which a tenant is ready on an island (R304): a launch that waits for it, or one in progress there. -/
def State.readyLevel (s : State) (isl tag : Nat) : Option Nat :=
  let queued := ((s.part tag).queues.filter (fun e => (s.waitingLaunch tag e.1).any (onIsland isl))).map (fun e => e.2.prio)
  let running := (s.launches.filter (fun e => e.2.tag == tag && (s.launchBays e.2).any (onIsland isl))).map (fun e => e.2.prio)
  lowest (queued ++ running)

/-- The next tag of a round robin in ascending order (R304). -/
def roundRobin (last : Nat) (ts : List Nat) : Option Nat :=
  match lowest (ts.filter (fun v => decide (last < v))) with
  | some v => some v
  | none => lowest ts

/-- The serving rule of an island (R304): the tenant it would choose, and its level. -/
def State.serve (s : State) (isl : Nat) : Option (Nat × Nat) :=
  let rs := (s.tenantsOf isl).filterMap (fun v => (s.readyLevel isl v).map (fun l => (v, l)))
  let el := rs.filter (fun r => decide (0 < s.budget isl r.1))
  let cand := if el.isEmpty then rs else el
  match lowest (cand.map (·.2)) with
  | none => none
  | some l => (roundRobin (s.island isl).last ((cand.filter (fun r => r.2 == l)).map (·.1))).map (fun v => (v, l))

/-- The tenant that the island is handed to at once (R304): the resident has no work left, or the rule would choose a lower level; or the
one a slice's end or an exhausted budget has chosen. -/
def State.yieldsTo (s : State) (isl : Nat) : Option Nat :=
  let i := s.island isl
  match i.running, s.serve isl with
  | none, some (v, _) => some v
  | some r, some (v, l) =>
    if v = r then none
    else match s.readyLevel isl r with
    | none => some v
    | some m => if l < m || i.next == some v then some v else none
  | _, none => none

/-- SLICE_EXPIRY (R304): the rule is applied; with no rival, a new slice begins. -/
def State.sliceExpiry (s : State) (isl : Nat) : Option State :=
  let i := s.island isl
  match i.running with
  | none => none
  | some r =>
    if s.clock < i.sliceAt + s.slice r * cyclesPerUs then none
    else
      match s.serve isl with
      | some (v, l) =>
        if v = r then some (s.modIsland isl (fun i => { i with sliceAt := s.clock, next := none }))
        else if s.readyLevel isl r = some l then some (s.modIsland isl (fun i => { i with next := some v }))
        else none
      | none => some (s.modIsland isl (fun i => { i with sliceAt := s.clock, next := none }))

/-- BUDGET_EXHAUSTED (R304): the resident yields where a rival is eligible at its level or lower. -/
def State.budgetExhausted (s : State) (isl : Nat) : Option State :=
  match (s.island isl).running with
  | none => none
  | some r =>
    if 0 < s.budget isl r then none
    else
      match s.serve isl, s.readyLevel isl r with
      | some (v, l), some m =>
        if v != r && decide (0 < s.budget isl v) && decide (l ≤ m) then some (s.modIsland isl (fun i => { i with next := some v }))
        else some (s.budgetSettle isl)
      | _, _ => some (s.budgetSettle isl)

/-- The tenant that an incoming one displaces (R324): the resident of the same half, or with SHARE = 0 the resident. -/
def State.displaced (s : State) (isl tag : Nat) : Option Nat :=
  let i := s.island isl
  if i.resident.contains tag then none
  else if !bit i.cfg 63 then i.resident.head?
  else
    let half (v : Nat) := ((tenantEntries i.cfg).find? (fun e => e.2.2 == v)).map (·.2.1)
    i.resident.find? (fun v => half v == half tag)

/-- The tenant that a hand-over brings in displaces one in the shadow bank, or none (R324): its contexts and ranges are exchanged while the
running tenant, that of the other half, keeps running, and the hand-over comes after. -/
def State.ahead (s : State) (isl tag : Nat) : Bool :=
  let i := s.island isl
  bit i.cfg 63 && i.running.isSome && !i.resident.contains tag && s.displaced isl tag != i.running

/-- A multicast fill that its tenant has started is landed, or is parked on a fault (R232): every start is accepted, what was sent has landed,
and where a line is still to be sent the one that comes next is parked, or the fill has failed. -/
def Fill.still (f : Fill) : Bool :=
  !f.multi ||
  (f.open_ && f.packets.isEmpty && f.sent.all (fun l => f.read.contains l) &&
    (f.failed || f.sent.length == f.lines || f.parked.any (fun r => !r.freed)))

/-- A tenant may be evicted from an island (R232): each multicast fill that it has started there is landed or parked. -/
def State.fillsStill (s : State) (isl tag : Nat) : Bool :=
  s.fills.all (fun e => e.2.tag != tag || islandOf e.2.die e.2.bay != isl || e.2.still)

/-- A key of a tenant's bay state lies on an island. -/
def tenOn (isl tag key : Nat) : Bool := key % 32 == tag && onIsland isl (key / 32)

/-- A strand of a tenant lies in a slot or a creel of an island. -/
def strandOn (isl tag : Nat) (t : Strand) : Bool :=
  t.tag == tag && (match t.place with
    | .slot u _ => islandOf u.die u.bay == isl
    | .creel u => islandOf u.die u.bay == isl
    | _ => false)

/-- When a strand's tenant leaves its place, at a hand-over that begins now: a slot in its own cycle (R323). -/
def State.leavesAt (s : State) (t : Strand) : Nat :=
  match t.place with
  | .slot u n => s.changeAt u n s.clock
  | _ => s.clock

/-- The waits and the MXUs of a tenant that leaves an island's slots stand still, each from its slot's change on (R220, R323, R325), and its
parked LDX and STX are withdrawn from the park tables. Strands of spindle programs run on (R325). -/
def State.tenantLeaves (s : State) (isl tag : Nat) : State :=
  let mine := s.strands.filter (fun e => strandOn isl tag e.2 && e.2.status == .waiting && e.2.card.isNone)
  let s1 := mine.foldl (fun s e => s.withdrawPark e.1) s
  { s1 with
    strands := s1.strands.map (fun e =>
      if mine.any (fun m => m.1 == e.1) && e.2.susp.isNone then (e.1, { e.2 with susp := some (s.leavesAt e.2) }) else e),
    tens := s1.tens.map (fun e =>
      if tenOn isl tag e.1 && e.2.loom.frozen.isNone then (e.1, { e.2 with loom := { e.2.loom with frozen := some s.clock } }) else e) }

/-- An MXU goes on: what it counts from moves by the time it stood still (R325). -/
def Loom.thaw (l : Loom) (now : Nat) : Loom :=
  match l.frozen with
  | none => l
  | some c =>
    { l with frozen := none, queue := l.queue.map (fun e => { e with start := e.start.map (fun n => n + (now - c)) }) }

/-- The operand messages that a bay has sent and no receiver has accepted are sent again (R325). -/
def State.resendOperands (s : State) (die bay tag : Nat) : State :=
  { s with msgs := s.msgs.map (fun m => match m.2 with
      | .operand t d b isA k ident bs _ =>
        if t == tag && d == die && b == (if isA then bay + 1 else bay + 64) then (m.1, .operand t d b isA k ident bs s.clock) else m
      | _ => m) }

/-- A tenant's strands in the slots of a bay resume, each from its slot's change on, and its MXU, whose operand messages are sent again (R220,
R319, R323, R325): a withdrawn wait is issued again at its strand's turn. Those in a creel resume when they take a slot. -/
def State.tenantResumes (s : State) (die bay tag : Nat) : State :=
  let s1 := { s with strands := s.strands.map (fun (e : Nat × Strand) =>
    match e.2.place with
    | .slot u n =>
      if u.die == die && u.bay == bay && e.2.tag == tag && e.2.card.isNone then
        (e.1, resumeSlot e.2 (Nat.max s.clock (s.changeAt u n (s.island (islandOf die bay)).handAt)))
      else e
    | _ => e) }
  (s1.resendOperands die bay tag).modTen die bay tag (fun b => { b with loom := b.loom.thaw s.clock })

/-- Bays of an island where a tenant's range is loaded. -/
def State.loadedBays (s : State) (isl tag : Nat) : List Nat :=
  (s.tens.filter (fun e => tenOn isl tag e.1 && e.2.loaded)).map (fun e => e.1 / 32)

/-- A tenant's range is loaded on every bay of an island. -/
def State.allLoaded (s : State) (isl tag : Nat) : Bool :=
  (islandBays isl).all (fun b => (s.ten (isl / 16) b tag).loaded)

/-- Core cycles from a hand-over's start until every slot has changed tenant, on the spindles too (R323). -/
def handCycles : Nat := 18

/-- A hand-over of an island to a tenant may begin (R323, R324): the one before it is complete and its ranges are loaded, schedulers are
enabled (Table 17-1), an exchange that comes ahead of it is complete, and the tenant it displaces may be evicted (R232). -/
def State.handReady (s : State) (isl tag : Nat) : Bool :=
  let i := s.island isl
  let busy := match i.running with
    | some r => decide (s.clock < i.handAt + handCycles) || !s.allLoaded isl r
    | none => false
  decide (3 ≤ s.dev.stage) && i.started && !i.failed && s.yieldsTo isl == some tag && !busy &&
    !s.ahead isl tag && (!i.resident.contains tag || s.allLoaded isl tag) && (s.displaced isl tag).all (fun v => s.fillsStill isl v)

/-- HAND_OVER (R323, R324): each slot changes tenant at its first turn from this cycle on. -/
def State.handOver (s : State) (isl tag : Nat) : Option State :=
  let i := s.island isl
  if !s.handReady isl tag then none
  else
    let out := s.displaced isl tag
    let s1 := (s.budgetSettle isl).hangSettle (fun t => (match t.place with | .slot u _ => islandOf u.die u.bay == isl | _ => false))
    let s2 := match i.running with
      | some r => s1.tenantLeaves isl r
      | none => s1
    let s3 := s2.modIsland isl (fun i => { i with
      resident := (i.resident.filter (fun v => some v != out && v != tag)) ++ [tag], running := some tag, prev := i.running,
      handAt := s.clock, sliceAt := s.clock, last := tag, next := none })
    let s4 := (s3.loadedBays isl tag).foldl (fun s n => s.tenantResumes (n / 2048) (n % 2048) tag) s3
    some (s4.applyResolved tag)

/-- Moves what is listed in a range of numbers to another range, which is left with nothing else. -/
def moveTbl {α : Type} (t : Tbl α) (from_ dest n : Nat) : Tbl α :=
  let mv := t.filter (fun e => decide (from_ ≤ e.1) && decide (e.1 < from_ + n))
  let rest := t.filter (fun e => !(decide (from_ ≤ e.1) && decide (e.1 < from_ + n)) && !(decide (dest ≤ e.1) && decide (e.1 < dest + n)))
  mv.foldl (fun t e => Tbl.set t (e.1 - from_ + dest) e.2) rest

/-- Moves the numbers of a set that lie in a range to another range, which is left with nothing else. -/
def moveSet (t : List Nat) (from_ dest n : Nat) : List Nat :=
  let mv := t.filter (fun e => decide (from_ ≤ e) && decide (e < from_ + n))
  let rest := t.filter (fun e => !(decide (from_ ≤ e) && decide (e < from_ + n)) && !(decide (dest ≤ e) && decide (e < dest + n)))
  mv.foldl (fun t e => setAdd t (e - from_ + dest)) rest

/-- Moves `n` bytes from a memory key to another, with their full/empty bits and poison marks (R39, R318). -/
def State.moveBytes (s : State) (from_ dest n : Nat) : State :=
  { s with mem := moveTbl s.mem from_ dest n, full := moveSet s.full (from_ / 8) (dest / 8) (n / 8),
           poison := moveSet s.poison (from_ / 8) (dest / 8) (n / 8) }

/-- Where line `j` of a bay's part of a partition's save area lies now (R324): at SVA, 512 KiB a bay. -/
def State.savePlace (s : State) (die bay tag j : Nat) : Option XLoc :=
  s.placeNow tag (w64 ((bits (s.part tag).sva 55 16) * 65536 + bayNo die bay * 524288 + 128 * j)) die

/-- Bay state has streamed to a bay's part of the save area (R324): the layout is firmware's, so what each line of it holds is free (log 11);
with paging disabled it names no memory. -/
def State.saveWrite (s : State) (die bay tag : Nat) : State :=
  if !s.pagingOn tag then s
  else
    (List.range 4096).foldl (fun s j =>
      match s.savePlace die bay tag j with
      | some ⟨.vault d b o, _, _, _, _⟩ =>
        let l : Loc := .vault d b o
        let r := s.freeBytes 128
        (r.2.writeAt tag l r.1).storeTimes l ((s.lineAt l).rts + 1) (s.lineAt l).stamp
      | _ => s) s

/-- Streams a tenant's ranges of a bay out to its save area, or back from it (R324). -/
def State.streamRange (s : State) (die bay tag : Nat) (out : Bool) : State :=
  let p := s.spadPart tag die bay
  let w := s.wbufPart tag die bay
  let a := spadKey die bay p.1
  let b := savedKey tag die bay p.1
  let c := wbufKey die bay w.1
  let d := savedWKey tag die bay w.1
  let s1 := if out then ((s.saveWrite die bay tag).moveBytes a b p.2).moveBytes c d w.2 else (s.moveBytes b a p.2).moveBytes d c w.2
  s1.modTen die bay tag (fun t => { t with loaded := !out })

/-- Makes a tenant resident on an island in the place of the one it displaces (R324). -/
def State.makeResident (s : State) (isl tag : Nat) : State :=
  let out := s.displaced isl tag
  s.modIsland isl (fun i => { i with resident := (i.resident.filter (fun v => some v != out && v != tag)) ++ [tag] })

/-- Tenants whose range lies on a bay though they are no longer resident on its island. -/
def State.goneOn (s : State) (die bay : Nat) : List Nat :=
  let i := s.island (islandOf die bay)
  (s.tens.filter (fun e => e.1 / 32 == bayNo die bay && e.2.loaded && !i.resident.contains (e.1 % 32))).map (fun e => e.1 % 32)

/-- The ranges of a bay are exchanged (R324): those of displaced tenants leave, and the incoming tenant's is loaded. -/
def State.exchange (s : State) (die bay tag : Nat) : State :=
  let s1 := (s.goneOn die bay).foldl (fun s v => s.streamRange die bay v true) s
  let s2 := s1.streamRange die bay tag false
  if (s.island (islandOf die bay)).running = some tag then s2.tenantResumes die bay tag else s2

/-- RANGE_LOADED (R324): the displaced tenant's range leaves the bay, and the incoming tenant's takes its place; ahead of the hand-over where
the running tenant is not the displaced one. -/
def State.rangeLoaded (s : State) (die bay tag : Nat) : Option State :=
  let isl := islandOf die bay
  let i := s.island isl
  let first := s.ahead isl tag && s.yieldsTo isl == some tag && decide (3 ≤ s.dev.stage) && (s.displaced isl tag).all (fun v => s.fillsStill isl v)
  if !(first || i.resident.contains tag) || (s.ten die bay tag).loaded || decide (s.clock < i.handAt + handCycles) then none
  else
    let s1 := if first then s.makeResident isl tag else s
    if (s1.goneOn die bay).all (fun v => s1.fillsStill isl v) then some (s1.exchange die bay tag) else none

/-- Removes what a range of numbers lists. -/
def dropTbl {α : Type} (t : Tbl α) (a n : Nat) : Tbl α := t.filter (fun e => !(decide (a ≤ e.1) && decide (e.1 < a + n)))

/-- Removes the numbers of a range. -/
def dropSet (t : List Nat) (a n : Nat) : List Nat := t.filter (fun e => !(decide (a ≤ e) && decide (e < a + n)))

/-- `n` bytes from a memory key become zero, empty and not poisoned (R43). -/
def State.scrub (s : State) (a n : Nat) : State :=
  { s with mem := dropTbl s.mem a n, full := dropSet s.full (a / 8) (n / 8), poison := dropSet s.poison (a / 8) (n / 8) }

/-- Zeroes a tenant's ranges of a bay, in the bay and in its save area. -/
def State.scrubBay (s : State) (die bay tag : Nat) : State :=
  let p := s.spadPart tag die bay
  let w := s.wbufPart tag die bay
  let s1 := if (s.ten die bay tag).loaded then (s.scrub (spadKey die bay p.1) p.2).scrub (wbufKey die bay w.1) w.2 else s
  (s1.scrub (savedKey tag die bay 0) 0x40000).scrub (savedWKey tag die bay 0) 0x10000

/-- A memory key lies in a tenant's save areas of some bays (R324; log 11). -/
def inSaved (tag : Nat) (p : Nat → Bool) (k : Nat) : Bool :=
  (decide (savedKey tag 0 0 0 ≤ k) && decide (k < savedKey tag 0 0 0 + 2 ^ 31) && p ((k - savedKey tag 0 0 0) / 2 ^ 18)) ||
  (decide (savedWKey tag 0 0 0 ≤ k) && decide (k < savedWKey tag 0 0 0 + 2 ^ 29) && p ((k - savedWKey tag 0 0 0) / 2 ^ 16))

/-- A tenant's save areas of some bays become empty, those of bays where its range has never been loaded too (R43, R327). -/
def State.scrubSaved (s : State) (tag : Nat) (p : Nat → Bool) : State :=
  { s with mem := s.mem.filter (fun e => !inSaved tag p e.1), full := s.full.filter (fun w => !inSaved tag p (8 * w)),
           poison := s.poison.filter (fun w => !inSaved tag p (8 * w)) }

/-- A partition is created on an island, listed there anew: its words on the island's bays become zero and empty (R43), and its budget there
begins at its full value (R304). -/
def State.createOn (s : State) (isl tag : Nat) : State :=
  ((((s.tens.filter (fun e => tenOn isl tag e.1)).map (fun e => e.1 / 32)).foldl (fun s n => s.scrubBay (n / 2048) (n % 2048) tag) s).scrubSaved
    tag (onIsland isl)).modIsland isl (fun i => { i with budgets := Tbl.del i.budgets tag })

/-- R304, SLICE_EXPIRY. -/
def execSliceExpiry (isl : Nat) (s : State) : Out := s.ifEnabled (s.sliceExpiry isl)

/-- R304, BUDGET_EXHAUSTED. -/
def execBudgetExhausted (isl : Nat) (s : State) : Out := s.ifEnabled (s.budgetExhausted isl)

/-- R323, HAND_OVER. -/
def execHandOver (isl tag : Nat) (s : State) : Out := s.ifEnabled (s.handOver isl tag)

/-- R324, RANGE_LOADED. -/
def execRangeLoaded (die bay tag : Nat) (s : State) : Out := s.ifEnabled (s.rangeLoaded die bay tag)

end Sys2Proof.Machine
end

