-- ==== Sys2Proof/Machine/Registers.lean ====
section
/-!
DEFINITION. Writes to control space (spec 01, R22, R23, R32 and Table 1-10), with the access rules of each register. A write that traps
its writer is reported to it; bits of reserved fields are not kept (R7).
-/
namespace Sys2Proof.Machine

/-- The writer of a refused write is told the cause, with the register's offset as value (log 33). -/
def State.refuse (s : State) (cause off : Nat) : State := s.emit (.refused cause (w64 off))

/-- Some strand of a partition is resident (R22, R319): its tenant is, on the strand's island. -/
def State.hasStrands (s : State) (tag : Nat) : Bool := s.strands.any (fun e => e.2.tag == tag && s.residentAt e.1)

/-- The part of a register that a write of this part names, with zero elsewhere (R32). That a 4-byte write of a write-only register takes the
other half as zero is the model's choice (log 111). -/
def writtenPart (p : WPart) (v : W64) : W64 := mergePart p 0 v

/-- XTB, XSG, XFM, XFQ and XTQ keep R23: a placement other than 3 and no reserved bit set. `plc` is the placement's low bit, `keep` the bits
that are not reserved. -/
def structOk (v : W64) (plc : Nat) (mask : W64) : Bool := bits v (plc + 1) plc != 3 && (v &&& ~~~mask) == 0

/-- Bits of XTB that are not reserved (Table 1-7). -/
def xtbMask : W64 := 0xC000003FFFFF0001#64

/-- Bits of XSG that are not reserved. -/
def xsgMask : W64 := 0xC000003FFFFFF000#64

/-- Bits of XFM that are not reserved. -/
def xfmMask : W64 := 0xC000003FFFFF0000#64

/-- Bits of XFQ that are not reserved. -/
def xfqMask : W64 := 0xFC00003FFFFFFFE0#64

/-- Bits of XTQ that are not reserved (Table 16-2). -/
def xtqMask : W64 := 0xFC00003FFFFFFFC0#64

/-- Writes ISLCFG (R321): by tag 31 while no tenant is resident, with partition tags no two of which are equal. -/
def State.writeIslcfg (s : State) (isl off : Nat) (v : W64) : State :=
  let i := s.island isl
  let cfg := v &&& 0x80000000DFDFDFDF#64
  let tags := (tenantEntries cfg).map (·.2.2)
  if !i.resident.isEmpty || tags.any (fun t => decide (19 < t)) || !distinct tags then s.refuse 0x04 off
  else
    let left := (s.tens.filter (fun e => onIsland isl (e.1 / 32) && e.2.loaded)).map (·.1)
    let s1 := left.foldl (fun s k => s.streamRange (k / 32 / 2048) (k / 32 % 2048) (k % 32) true) (s.budgetSettle isl)
    let new := tags.filter (fun t => !(tenantEntries i.cfg).any (fun e => e.2.2 == t))
    (new.foldl (fun s t => s.createOn isl t) s1).modIsland isl (fun i => { i with cfg := cfg })

/-- Writes SCSRV (R261): while no tenant is resident on the cluster's island. -/
def State.writeScsrv (s : State) (die c off : Nat) (v : W64) : State :=
  if !(s.island (islandOf die (clusterBay c 0))).resident.isEmpty then s.refuse 0x04 off
  else s.modCluster die c (fun k => { k with scsrv := v &&& 0x800000000000001F#64 })

/-- RASLOG after a write (Table 17-3): each bit written as 1 is cleared, SPARED stays. -/
def rasWrite (old w : W64) : W64 := old &&& ~~~(w &&& 0xFFFFFFFFFFFFF03F#64)

/-- An XFR write (R31): replay, fail, or nothing. A write of one half names ACT or FID only, the other is taken as 0 (log 111). -/
def State.writeXfr (s : State) (tag : Nat) (w : W64) : State :=
  let fid := bits w 31 0
  match bits w 63 62 with
  | 1 => (s.xfrReplay tag fid).getD s
  | 2 => (s.xfrFail tag fid).getD s
  | _ => s

/-- An XTR write (R316): resume, stop, or nothing. -/
def State.writeXtr (s : State) (tag : Nat) (w : W64) : State :=
  let seq := bits w 31 0
  match bits w 63 62 with
  | 1 => (s.xtrResume tag seq).getD s
  | 2 => (s.xtrStop tag seq).getD s
  | _ => s

/-- Notes the budgets of every island that lists a tenant, before its register changes. -/
def State.budgetsOf (s : State) (tag : Nat) : State :=
  (s.islands.filter (fun e => (tenantEntries e.2.cfg).any (fun t => t.2.2 == tag))).foldl (fun s e => s.budgetSettle e.1) s

/-- Writes a register of a partition's block, at its offset in the block (Tables 1-7, 2-5, 6-8, 15-6, 16-2, 16-7). -/
def State.writePart (s : State) (tag reg off : Nat) (v : W64) (p : WPart) : State :=
  let t := s.part tag
  let busy := s.hasStrands tag
  let put (ok : Bool) (f : Part → Part) : State := if ok then s.modPart tag f else s.refuse 0x04 off
  let new (old : W64) := mergePart p old v
  let low (old : W32) : W32 := (mergePart p (old.setWidth 64) v).setWidth 32
  match reg with
  | 0x000 => put (!busy && structOk (new t.xtb) 62 xtbMask) (fun k => { k with xtb := new t.xtb })
  | 0x008 => put (!busy && structOk (new t.xsg) 62 xsgMask) (fun k => { k with xsg := new t.xsg })
  | 0x010 => put (!busy && structOk (new t.xfm) 62 xfmMask) (fun k => { k with xfm := new t.xfm })
  | 0x018 => put ((!busy || t.xfqh == t.xfqt) && structOk (new t.xfq) 58 xfqMask) (fun k => { k with xfq := new t.xfq })
  | 0x020 => put true (fun k => { k with xfqh := low t.xfqh })
  | 0x028 => put (!busy) id
  | 0x030 => s.writeXfr tag (writtenPart p v)
  | 0x040 => put true (fun k => { k with fectl := new t.fectl &&& 0xF0FFFFFF#64 })
  | 0x048 => put (!busy) (fun k => { k with crvlt := new t.crvlt &&& 0x00FFFFFFFFFFFFFF#64 })
  | 0x050 =>
    let w := new t.wdctl
    put (!busy && decide (20 ≤ bits w 5 0) && decide (bits w 5 0 ≤ 40)) (fun k => { k with wdctl := w &&& 0x800000000000003F#64 })
  | 0x058 => put (!busy) (fun k => { k with sva := new t.sva })
  | 0x060 => put ((!busy || t.xtqh == t.xtqt) && structOk (new t.xtq) 58 xtqMask) (fun k => { k with xtq := new t.xtq })
  | 0x068 => put true (fun k => { k with xtqh := low t.xtqh })
  | 0x078 => s.writeXtr tag (writtenPart p v)
  | 0x080 =>
    let w := new t.vdsch
    if bits w 15 0 = 0 then s.refuse 0x04 off
    else (s.budgetsOf tag).modPart tag (fun k => { k with vdsch := w &&& 0x0000FFFFFFFFFFFF#64 })
  | _ => s

/-- Writes QCFG (Table 15-1): EN at any time, the other fields under R22. Another die's interpreter has applied none of the
increments that WAITFC applies (R295; log 40). -/
def State.writeQcfg (s : State) (tag q off : Nat) (v : W64) (p : WPart) : State :=
  let c := s.queue tag q
  let w := mergePart p c.cfg v &&& 0x800000000000181F#64
  if 23 < bits w 4 0 || (s.hasStrands tag && (bits w 12 11 != c.die || bits w 4 0 != c.prio)) then s.refuse 0x04 off
  else s.modQueue tag q (fun c => { c with cfg := w, upto := none, applied := if bits w 12 11 = c.die then c.applied else [] })

/-- Writes a command-queue register (Table 15-1, R292, R296). -/
def State.writeQueue (s : State) (tag q reg off : Nat) (v : W64) (p : WPart) : State :=
  let c := s.queue tag q
  let busy := s.hasStrands tag
  match reg with
  | 0x00 => s.writeQcfg tag q off v p
  | 0x08 =>
    if busy then s.refuse 0x04 off
    else if bit c.cfg 63 then s
    else s.modQueue tag q (fun c => { c with pc := mergePart p c.pc v, failed := false })
  | 0x10 => s.modQueue tag q (fun c => { c with end_ := mergePart p c.end_ v })
  | 0x18 => if busy then s.refuse 0x04 off
    else s.modQueue tag q (fun c => { c with st := c.st &&& ~~~(writtenPart p v &&& 0x8000000000000000#64) })
  | _ => s

/-- Writes a fence counter (R295). -/
def State.writeFc (s : State) (tag n : Nat) (v : W64) (p : WPart) : State :=
  s.modPart tag (fun k =>
    let f := Tbl.get FenceCtr.init k.fcs n
    { k with fcs := Tbl.set k.fcs n { f with v := mergePart p f.v v } })

/-- Clears flags of FSTAT on a bay's latest field (Table 7-2, R354). -/
def State.writeFstat (s : State) (die bay : Nat) (w : W64) : State :=
  match s.fields.reverse.find? (fun e => e.2.die == die && e.2.bays.any (fun b => b.bay == bay)) with
  | none => s
  | some (id, f) =>
    let clr (b : FieldBay) : FieldBay :=
      { b with ovf := b.ovf && !bit w 63, hovf := b.hovf && !bit w 62, nospare := b.nospare && !bit w 61, pin := b.pin && !bit w 60 }
    { s with fields := Tbl.set s.fields id { f with bays := f.bays.map (fun b => if b.bay = bay then clr b else b) } }

/-- Writes DBGC of a unit (Table 10-6): HEN, and the halted slots that RES names resume. -/
def State.writeDbgc (s : State) (u : UnitId) (v : W64) (p : WPart) : State :=
  let w := writtenPart p v
  let hen := (mergePart p ((s.unit u).hen.setWidth 64) v).setWidth 16
  (s.dbgcResume u (BitVec.ofNat 16 (bits w 31 16))).modUnit u (fun c => { c with hen := hen })

/-- Writes a register of a bay's block (Table 1-10); a spindle's registers lie from 0x8000 up. -/
def State.writeBay (s : State) (die bay reg : Nat) (v : W64) (p : WPart) : State :=
  let u := coreOf die bay
  let x := spOf die bay
  let orph (u : UnitId) : State := s.modUnit u (fun c => { c with orph := (mergePart p (w64 c.orph) v).toNat % 2 ^ 32 })
  match reg with
  | 0x000 => s.modUnit u (fun c => { c with crcfg := mergePart p c.crcfg v &&& crcfgMask })
  | 0x008 => orph u
  | 0x010 => s.writeDbgc u v p
  | 0x018 => s.feControl die bay true (writtenPart p v)
  | 0x020 => s.feControl die bay false (writtenPart p v)
  | 0x040 => s.writeFstat die bay (writtenPart p v)
  | 0x8008 => orph x
  | 0x8010 => s.writeDbgc x v p
  | _ => s

/-- The number under which a spare bay that serves no index keeps its registers: beyond the bays of die 3. -/
def spareNo (die c : Nat) : Nat := 2048 + 64 * die + c

/-- A write to an offset of a die's control space (Table 1-10) by tag 31. -/
def State.writeDieSpace (s : State) (die off : Nat) (v : W64) (p : WPart) : State :=
  if off = 0 then s.modDie die (fun d => { d with rdcctl := mergePart p d.rdcctl v &&& 0x1FFFF#64 })
  else if off = 8 then s.modDie die (fun d => { d with raslog := rasWrite d.raslog (writtenPart p v) })
  else if 0x10000 ≤ off ∧ off < 0x11000 then
    let isl := die * 16 + (off - 0x10000) / 256
    if off % 256 = 0 then s.writeIslcfg isl off (mergePart p (s.island isl).cfg v) else s
  else if 0x20000 ≤ off ∧ off < 0x24000 then
    let c := (off - 0x20000) / 256
    if off % 256 = 0 then s.writeScsrv die c off (mergePart p (s.cluster die c).scsrv v) else s
  else if 0x100000000 ≤ off ∧ off < 0x108000000 then
    s.writeBay die ((off - 0x100000000) / 65536) ((off - 0x100000000) % 65536) v p
  else if 0x108000000 ≤ off ∧ off < 0x108400000 then
    s.writeBay 3 (spareNo die ((off - 0x108000000) / 65536)) ((off - 0x108000000) % 65536) v p
  else s

/-- A write to a partition's block, at its offset in the block. -/
def State.writeBlock (s : State) (tag reg off : Nat) (v : W64) (p : WPart) : State :=
  if 0x400 ≤ reg ∧ reg < 0x600 then s.writeFc tag ((reg - 0x400) / 8) v p
  else if 0x800 ≤ reg ∧ reg < 0xA00 then s.writeQueue tag ((reg - 0x800) / 64) ((reg - 0x800) % 64) off v p
  else s.writePart tag reg off v p

/-- REGISTER_WRITE (R32): a write by firmware or the host (tag 31), or by a virtual function (its own tag), which reaches its partition's
block and the counter descriptors only, from stage 2 on (Table 17-1). A write to an unassigned offset is ignored. -/
def State.registerWrite (s : State) (writer die off : Nat) (v : W64) (p : WPart) : State :=
  if off % 8 != 0 || (writer != 31 && decide (s.dev.stage < 3)) then s
  else if 0x100000 ≤ off ∧ off < 0x240000 then
    let tag := (off - 0x100000) / 65536
    if writer = 31 ∨ writer = tag then s.writeBlock tag ((off - 0x100000) % 65536) off v p else s.refuse 0x04 off
  else if 0x2000000 ≤ off ∧ off < 0x2008000 then
    let i := (off - 0x2000000) / 32
    let w := (off - 0x2000000) % 32 / 8
    s.descriptorWrite writer die i w v p
  else if writer = 31 then s.writeDieSpace die off v p
  else s.refuse 0x04 off

/-- What a read of a partition's block returns, at an offset in the block (Tables 1-7, 2-5, 6-8, 15-6, 16-2, 16-7): write-only registers read
as zero (R7). -/
def Part.read (k : Part) (reg : Nat) : W64 :=
  match reg with
  | 0x000 => k.xtb
  | 0x008 => k.xsg
  | 0x010 => k.xfm
  | 0x018 => k.xfq
  | 0x020 => k.xfqh.setWidth 64
  | 0x028 => k.xfqt.setWidth 64
  | 0x040 => k.fectl
  | 0x048 => k.crvlt
  | 0x050 => k.wdctl
  | 0x058 => k.sva
  | 0x060 => k.xtq
  | 0x068 => k.xtqh.setWidth 64
  | 0x070 => k.xtqt.setWidth 64
  | 0x080 => k.vdsch
  | _ => 0

/-- What a read of a command queue's registers returns (Table 15-1). -/
def CmdQueue.read (c : CmdQueue) (reg : Nat) : W64 :=
  match reg with
  | 0x00 => c.cfg
  | 0x08 => c.pc
  | 0x10 => c.end_
  | 0x18 => c.st
  | _ => 0

/-- What a read of a partition's block returns (R32). -/
def State.readBlock (s : State) (tag reg : Nat) : W64 :=
  if 0x400 ≤ reg ∧ reg < 0x600 then (Tbl.get FenceCtr.init (s.part tag).fcs ((reg - 0x400) / 8)).v
  else if 0x800 ≤ reg ∧ reg < 0xA00 then (s.queue tag ((reg - 0x800) / 64)).read ((reg - 0x800) % 64)
  else (s.part tag).read reg

/-- The loom state that a bay's LOOMST and SEMCNT show: that of the tenant which the island runs (R322; log 110). -/
def State.shownTen (s : State) (die bay : Nat) : TenBay :=
  match (s.island (islandOf die bay)).running with
  | some tag => s.ten die bay tag
  | none => TenBay.init

/-- SEMCNT as it reads (Table 13-7). -/
def TenBay.semWord (b : TenBay) : W64 := pack ((List.range 8).map (fun i => (Tbl.get 0 b.sems i, 8 * i)))

/-- What a read of a bay's FSTAT or of its box returns: its latest field's (Tables 7-2, 7-3), as of one bay, zero where it has had none. -/
def State.fieldWord (s : State) (die bay : Nat) (w : Field → FieldBay → W64) : W64 :=
  match s.fields.reverse.find? (fun e => e.2.die == die && e.2.bays.any (fun b => b.bay == bay)) with
  | none => 0
  | some (_, f) => match f.bayRec bay with
    | some b => w f b
    | none => 0

/-- What a read of a bay's block returns (Table 1-10). -/
def State.readBay (s : State) (die bay reg : Nat) : W64 :=
  let u := coreOf die bay
  let x := spOf die bay
  match reg with
  | 0x000 => (s.unit u).crcfg
  | 0x008 => w64 (s.unit u).orph
  | 0x010 => s.dbgc u
  | 0x028 => (s.shownTen die bay).loom.status
  | 0x030 => (s.shownTen die bay).semWord
  | 0x040 => s.fieldWord die bay Field.fstat
  | 0x048 => s.fieldWord die bay (fun f b => f.fbox b 0)
  | 0x050 => s.fieldWord die bay (fun f b => f.fbox b 1)
  | 0x058 => s.fieldWord die bay (fun f b => f.fbox b 2)
  | 0x8008 => w64 (s.unit x).orph
  | 0x8010 => s.dbgc x
  | _ => 0

/-- A descriptor word of a counter instance (Table 5-3). -/
def Instance.read (i : Instance) (w : Nat) : W64 :=
  match w with
  | 0 => i.w0
  | 1 => i.w1
  | 2 => i.w2
  | _ => 0

/-- What a read of an 8-byte-aligned offset of a die's control space returns (R32, Table 1-10); an unassigned one reads as zero. -/
def State.controlWord (s : State) (die off : Nat) : W64 :=
  if off = 0 then (s.die die).rdcctl
  else if off = 8 then (s.die die).raslog
  else if 0x10000 ≤ off ∧ off < 0x11000 then
    if off % 256 = 0 then (s.island (die * 16 + (off - 0x10000) / 256)).cfg else 0
  else if 0x20000 ≤ off ∧ off < 0x24000 then
    if off % 256 = 0 then (s.cluster die ((off - 0x20000) / 256)).scsrv else 0
  else if 0x100000 ≤ off ∧ off < 0x240000 then s.readBlock ((off - 0x100000) / 65536) ((off - 0x100000) % 65536)
  else if 0x2000000 ≤ off ∧ off < 0x2008000 then (s.inst die ((off - 0x2000000) / 32)).read ((off - 0x2000000) % 32 / 8)
  else if 0x100000000 ≤ off ∧ off < 0x108000000 then
    s.readBay die ((off - 0x100000000) / 65536) ((off - 0x100000000) % 65536)
  else if 0x108000000 ≤ off ∧ off < 0x108400000 then
    s.readBay 3 (spareNo die ((off - 0x108000000) / 65536)) ((off - 0x108000000) % 65536)
  else 0

/-- What a read of control space returns (R32): the register, or either half of it. It changes nothing. -/
def State.controlRead (s : State) (die off : Nat) (p : WPart) : W64 :=
  let v := s.controlWord die off
  match p with
  | .full => v
  | .low => v &&& 0xFFFFFFFF#64
  | .high => v >>> 32

/-- R32, REGISTER_WRITE. -/
def execRegisterWrite (writer die off : Nat) (v : W64) (p : WPart) (s : State) : Out :=
  s.ifEnabled (some (s.registerWrite writer die off v p))

end Sys2Proof.Machine
end

