-- ==== Sys2Proof/Machine/Chip.lean ====
section
/-!
DEFINITION. Partition reset (spec 16, R327, R328; spec 22, R356, R357) and the device in its system (spec 17): staged start, links,
maintenance, attestation, meters and the RAS log.
-/
namespace Sys2Proof.Machine

/-- The entries of a FIFO up to the last one of a partition, and the rest (R327). -/
def splitFifo (tag : Nat) : List BufEntry → List BufEntry × List BufEntry
  | [] => ([], [])
  | e :: es =>
    let r := splitFifo tag es
    if e.tag = tag ∨ !r.1.isEmpty then (e :: r.1, r.2) else ([], e :: es)

/-- The write-buffer entries of a partition are performed at their homes, and with them the entries before them (R68, R327). -/
def State.drainTag (s : State) (tag : Nat) : State :=
  let remote := [0, 1, 2, 3].foldl (fun s d => [0, 1, 2, 3].foldl (fun s h =>
    let r := splitFifo tag (s.fifo d (.die h))
    r.1.foldl (fun s e => (s.performEntry d h e).drainAck e.src.id) (s.setFifo d (.die h) r.2)) s) s
  remote.lbuf.foldl (fun s p =>
    let d := p.1 / 16384
    let r := splitFifo tag (s.fifo d (.dev (p.1 % 16384)))
    r.1.foldl (fun s e => s.drainAck e.src.id) (s.setFifo d (.dev (p.1 % 16384)) r.2)) remote

/-- The end of a walk, taken at once (R357): it reads the entries that it still has to read. -/
def State.walkOut (s : State) (die : Nat) (w : Walk) : Nat → WalkResult
  | 0 => .bad 1 0
  | n + 1 =>
    match w.result with
    | some r => r
    | none =>
      let pte := w64 (leNat (s.bytesAt 31 (place w.plc w.tdie w.off die) 8))
      match s.judgeEntry w.level pte with
      | some r => r
      | none => s.walkOut die (w.follow w.level pte) n

/-- Every entry of a die's FIFO toward another die is performed (R68). -/
def State.drainFifo (s : State) (d h : Nat) : State :=
  (s.fifo d (.die h)).foldl (fun s e => (s.performEntry d h e).drainAck e.src.id) (s.setFifo d (.die h) [])

/-- An access that a strand has sent is performed at its home, both its halves where it has two (R34), after the release and the buffer entries
that it waits for (R73, R327). -/
def State.finishAccess (s : State) (x : Nat) : State :=
  let s1 := (s.strandReleased x).getD s
  let s2 := match (s1.memOp x).bind (·.loc) with
    | some l => match l.loc.target (s1.dieOf x) with
      | some (.die h) => s1.drainFifo (s1.dieOf x) h
      | _ => s1
    | none => s1
  let s3 := (s2.homeAccess x).getD s2
  (s3.homeAccess x).getD s3

/-- A walk of a partition under reset runs to its end (R357): a strand's access that it permits is performed, an isolation fault interrupts the
host (R24), and no record is written. -/
def State.finishWalk (s : State) (die : Nat) (w : Walk) : State :=
  let res := s.walkOut die (if w.active then w else s.walkTop w) 5
  let verdicts := w.reqs.map (fun r => (r, s.refusal w.tag r res))
  let s1 := match res with
    | .leaf l pte => verdicts.foldl (fun s v => match v.1.who, v.2 with
        | .strand x, none => (s.completeReq l pte v.1).finishAccess x
        | _, _ => s) s
    | .bad _ _ => s
  match (verdicts.filter (fun v => v.2 == some 8)).map (·.1) with
  | [] => s1
  | r :: rs => s1.emit (.faultIsolation (faultRec r (requesters (r :: rs)).length 8 0 0) w.tag)

/-- The deliveries of a partition on their way are performed (R82, R327). -/
def State.finishDeliveries (s : State) (tag : Nat) : State :=
  (s.msgs.filter (fun m => match m.2 with
    | .deliver t _ _ _ _ _ _ _ => t == tag
    | _ => false)).foldl (fun s m => (s.messageDelivery m.1).getD s) s

/-- Every request of a partition is performed or answered (Table 16-6, step 1): its walks, its strands' accesses, its deliveries, and the
entries of its write buffers. -/
def State.finishRequests (s : State) (tag : Nat) : State :=
  let s1 := s.drainTag tag
  let s2 := s1.dies.foldl (fun s e => (e.2.walks.filter (fun w => w.tag == tag)).foldl (fun s w => s.finishWalk e.1 w) s) s1
  let s3 := (s2.strands.filter (fun e => e.2.tag == tag && (e.2.status == .waiting || e.2.split.isSome))).foldl (fun s e => s.finishAccess e.1) s2
  (s3.finishDeliveries tag).drainTag tag

/-- A message of a partition. -/
def Msg.ofTag (s : State) (tag : Nat) (m : Msg) : Bool :=
  match m with
  | .deliver t _ _ _ _ _ _ _ => t == tag
  | .migrate x _ _ => (s.strand x).tag == tag
  | .launch id _ _ => (Tbl.find s.launches id).any (fun l => l.tag == tag)
  | .operand t _ _ _ _ _ _ _ => t == tag
  | .scale t _ _ _ _ => t == tag
  | .fe t _ _ _ _ _ _ => t == tag

/-- A copy channel after a partition's cards are discarded: it goes on with the lowest card that is left (R291, R300). -/
def State.chanSkip (s : State) (k : Nat) : State :=
  let left := s.cards.filter (fun e => e.2.kind == .copy && e.2.posted && e.2.cs.isNone && e.2.channel == k)
  s.modChan k (fun c => match left with
    | [] => { c with wm := c.next }
    | e :: _ => { c with wm := e.2.xid })

/-- Step 1 of a reset (Table 16-6): what is under way is performed or answered, strands stop, queues stop, and jobs are discarded. Reads that
wait for an entry of a fill-merge table take those that the tag leaves free (R328, R345). -/
def State.resetDrain (s : State) (tag : Nat) : State :=
  let mine := (s.strands.filter (fun e => e.2.tag == tag)).map (·.1)
  let gone (x : Nat) : Bool := mine.contains x
  let chans := (s.cards.filter (fun e => e.2.tag == tag && e.2.kind == .copy)).map (fun e => e.2.channel)
  let s1 := s.finishRequests tag
  let msgs := s1.msgs.filter (fun e => !Msg.ofTag s1 tag e.2)
  let held := s1.dies.map (fun e => (e.1, (s1.part tag).heldRecs.filter (fun r => r.1 == e.1)))
  let s2 : State := { s1 with
    msgs := msgs, strands := s1.strands.filter (fun e => e.2.tag != tag), cards := s1.cards.filter (fun e => e.2.tag != tag),
    fills := s1.fills.filter (fun e => e.2.tag != tag), drains := s1.drains.filter (fun e => e.2.tag != tag),
    launches := s1.launches.filter (fun e => e.2.tag != tag),
    fields := s1.fields.map (fun e => if e.2.tag == tag then (e.1, { e.2 with live := false }) else e),
    clusters := s1.clusters.map (fun e => (e.1, { e.2 with
      asn := e.2.asn.filter (fun a => (Tbl.find s1.cards a.card).all (fun c => c.tag != tag)) })),
    units := s1.units.map (fun e => (e.1, ({ e.2 with
      sfuq := e.2.sfuq.filter (fun q => !gone q.x), park := e.2.park.filter (fun p => !gone p.x),
      merge := e.2.merge.filter (fun m => m.tag != tag),
      mergeWait := e.2.mergeWait.filter (fun m => m.tag != tag) } : CoreUnit).refill)),
    dies := s1.dies.map (fun e => (e.1, { e.2 with
      walks := e.2.walks.filter (fun w => w.tag != tag), held := e.2.held.filter (fun r => r.1 != tag),
      heldCount := e.2.heldCount - (Tbl.get [] held e.1).length })) }
  let s3 := s2.modPart tag (fun p => { p with
    queues := p.queues.map (fun e => (e.1, { e.2 with
      cfg := setBit e.2.cfg 63 false, upto := none, failed := false, parked := none, applied := [] })),
    parked := [], heldRecs := [], resolved := [] })
  chans.foldl (fun s k => s.chanSkip k) s3

/-- Step 3 of a reset (R121): every instance that the partition owns is drained and left with V = 0. -/
def State.resetCounters (s : State) (tag : Nat) : State :=
  (s.insts.filter (fun e => bits e.2.w0 57 53 == tag)).foldl (fun s e =>
    let i := s.inst (e.1 / 1024) (e.1 % 1024)
    s.reconfigure (e.1 / 1024) (e.1 % 1024) (setBit i.w0 63 false) i.w1 i.w2) s

/-- Step 4 of a reset (Table 16-6): bay state, ranges, save areas, translations, fence counters and queue pointers. The partition is
resident nowhere; the time for which an island has served it is charged (R304). -/
def State.resetScrub (s : State) (tag : Nat) : State :=
  let bays := (s.tens.filter (fun e => e.1 % 32 == tag)).map (fun e => e.1 / 32)
  let s0 := (s.islands.filter (fun e => e.2.running == some tag)).foldl (fun s e => s.budgetSettle e.1) s
  let s1 := (bays.foldl (fun s n => s.scrubBay (n / 2048) (n % 2048) tag) s0).scrubSaved tag (fun _ => true)
  let other (v : Option Nat) : Option Nat := if v = some tag then none else v
  let s2 : State := { s1 with
    tens := s1.tens.filter (fun e => e.1 % 32 != tag),
    units := s1.units.map (fun e => (e.1, { e.2 with
      tlb := e.2.tlb.filter (fun t => t.tag != tag), segs := e.2.segs.filter (fun t => t.tag != tag) })),
    clusters := s1.clusters.map (fun e => (e.1, { e.2 with
      tlb := e.2.tlb.filter (fun t => t.tag != tag), wcache := e.2.wcache.filter (fun t => t.tag != tag) })),
    islands := s1.islands.map (fun e => (e.1, { e.2 with
      resident := e.2.resident.filter (fun v => v != tag), running := other e.2.running, prev := other e.2.prev, next := other e.2.next })) }
  s2.modPart tag (fun p => { p with fcs := [], xfqh := 0, xfqt := 0, xtqh := 0, xtqt := 0 })

/-- A bit of a partition's frame map (R24), by the 1 GiB region of the package; `rd` is the reader's die. -/
def State.frameBit (s : State) (tag region rd : Nat) : Bool :=
  let r := (s.part tag).xfm
  bit (s.structWord (bits r 63 62) (bits r 37 36) (bits r 35 16 * 65536 + region / 64 * 8) rd) (region % 64)

/-- The 1 GiB regions of the package in which a vault line may be named, one for each placement mode (Table 1-5). -/
def lineRegions (d b v : Nat) : List Nat :=
  [(v * 2 ^ 13 + ((d * 2048 + b) ^^^ fold 13 v)) / 2 ^ 23, d * 64 + (v * 2 ^ 11 + (b ^^^ fold 11 v)) / 2 ^ 23, d * 64 + b / 32]

/-- A partition can reach a line (R61): a vault line through its frame map, or one of its half of a scratchpad or of
its strands' register windows, a spindle's among them (R82). -/
def State.reaches (s : State) (tag line : Nat) : Bool :=
  if line < 2 ^ 31 then
    let d := line / 2 ^ 29
    s.pagingOn tag && (lineRegions d (line / 2 ^ 18 % 2048) (line % 2 ^ 18)).any (fun r => s.frameBit tag r d)
  else if line < 2 ^ 32 then
    let n := (line - 2 ^ 31) / 2 ^ 11
    s.ownsBay tag (n / 2048) (n % 2048) && inPart (s.spadPart tag (n / 2048) (n % 2048)) (line % 2 ^ 11 * 128) 128
  else
    let w := if line < 2 ^ 50 then line else line - 2 ^ 50
    let n := (w - 2 ^ 41) / 64
    decide (2 ^ 41 ≤ w) && decide (n < 8192) && s.ownsBay tag (n / 2048) (n % 2048)

/-- The lines that a partition can reach have times 0 and no stamp after its reset (R61). Their RDC copies, whose times are of before, expire
(R71): no read after one of a newer value finds them (R72, R78). -/
def State.resetLines (s : State) (tag : Nat) : State :=
  { s with lines := s.lines.filter (fun e => !s.reaches tag e.1), rdc := s.rdc.filter (fun c => !s.reaches tag c.line) }

/-- PARTITION_RESET (R327): the five steps of Table 16-6. The purge of step 2 is the removal of the tag's messages and fill-merge entries. -/
def State.partitionReset (s : State) (tag : Nat) : Option State :=
  if 19 < tag then none
  else some (((((s.resetDrain tag).resetCounters tag).resetScrub tag).resetLines tag).emit (.resetDone tag))

/-- PF0_RESET (R330): every partition, one after another, and then firmware's state: its strands and the attestation session (log 41). -/
def State.pf0Reset (s : State) : State :=
  let s1 := (List.range 20).foldl (fun s t => (s.partitionReset t).getD s) s
  { s1 with strands := s1.strands.filter (fun e => e.2.tag != 31), dev := { s1.dev with algs := false } }

/-- POWER_GOOD (R332): stage 0 begins, with the device number and the domain that the management controller's configuration gives (R331). -/
def State.powerGood (s : State) (num : BitVec 14) (domain : List Nat) : Option State :=
  if s.dev.stage != 0 then none
  else some { s with dev := { s.dev with stage := 1, powerAt := s.clock, conf := (num.toNat, domain) } }

/-- Stage 1 begins (Table 17-1): firmware assigns the device number (R331; log 6). -/
def State.stageOne (s : State) : State := { s with dev := { s.dev with stage := 2, num := s.dev.conf.1 } }

/-- Stage 2 begins (Table 17-1): virtual functions, schedulers and the scale-up ports are enabled. A device whose number is already in use in
the domain does not enable its ports, and raises a device event (R331). -/
def State.stageTwo (s : State) : State :=
  let c := s.dev.conf
  if c.2.contains c.1 then ({ s with dev := { s.dev with stage := 3 } } : State).emit (.deviceEvent c.1)
  else { s with dev := { s.dev with stage := 3, domain := c.2 } }

/-- What a configuration read of a virtual function gets (R332): Configuration Request Retry Status, or its answer. -/
inductive ConfigRead where
  | retry | answered
deriving DecidableEq, Repr

/-- A configuration read of a virtual function (R332): retried before stage 2. -/
def State.vfConfigRead (s : State) : ConfigRead := if s.dev.stage < 3 then .retry else .answered

/-- An island has started or has failed. -/
def Island.done (i : Island) : Bool := i.started || i.failed

/-- ISLAND_START (R332): in ascending number, each at least 20 µs after the one before; the last one ends stage 1. -/
def State.islandStart (s : State) (isl : Nat) (pass : Bool) : Option State :=
  let i := s.island isl
  let before := isl == 0 || ((s.island (isl - 1)).done && decide ((s.island (isl - 1)).at_ + 20 * cyclesPerUs ≤ s.clock))
  if !(s.dev.stage == 1 || s.dev.stage == 2) || decide (63 < isl) || i.done || !before then none
  else
    let s1 := s.modIsland isl (fun i => { i with
      started := pass, failed := !pass, at_ := s.clock, handAt := s.clock, sliceAt := s.clock, budgetAt := s.clock })
    let s2 := if isl = 0 then s1.stageOne else s1
    some (if isl = 63 then s2.stageTwo else s2)

/-- LINK_RETRAIN (R320): requests whose reply was lost are issued again; the other device answers a repeated one from its record. -/
def State.linkRetrain (s : State) (dev : Nat) : Option State :=
  if !s.dev.domain.contains dev || (Tbl.get Link.init s.links dev).failed then none
  else some { s with lbuf := s.lbuf.map (fun p => if p.1 % 16384 = dev then (p.1, p.2.map (fun e => { e with sent := false })) else p) }

/-- LINK_FAILURE (R320): the link is failed, which resolves what is outstanding on it by fail when it is next tried. -/
def State.linkFailure (s : State) (dev : Nat) : Option State :=
  let l := Tbl.get Link.init s.links dev
  if !s.dev.domain.contains dev || l.failed then none
  else some ({ s with links := Tbl.set s.links dev { l with failed := true } }.emit (.deviceEvent dev))

/-- The place that a GPA of this device names (Tables 1-2, 1-3): a vault byte in PKG placement, a scratchpad byte, or a byte of a register
window (log 42). -/
def State.gpaLoc (s : State) (g : W64) : Option Loc :=
  if bits g 63 50 != s.dev.num then none
  else if bits g 47 46 = 0 then some (place 0 (bits g 49 48) (bits g 35 0) 0)
  else if bits g 47 46 = 1 then some (.spad (bits g 49 48) (bits g 28 18) (bits g 17 0))
  else if bits g 47 46 = 2 && decide (bits g 8 4 < 24) then
    some (.rwin (bits g 49 48) (bits g 28 18) (bits g 12 9) (bits g 8 4) (bits g 3 0))
  else none

/-- The partition for which a request from another device acts: for a register window the one that owns the slot, else firmware (log 42). -/
def State.requestTag (s : State) (l : Loc) : Nat :=
  match l with
  | .rwin d b k _ _ => (s.tenantOf (coreOf d b) k).getD 31
  | _ => 31

/-- A foreign request performed here, and its answer: a load, a store or an atomic at the home. A store replaces the line's stamp (R68) by one
whose entries are another device's, which are ignored here (R76; log 9). -/
def State.foreignDo (s : State) (r : ForeignReq) (l : Loc) : W128 × State :=
  let tag := s.requestTag l
  let old := leNat (s.bytesAt tag l r.size)
  match r.kind with
  | .load => (w128 old, s.homeTouch l)
  | .store v => (0, s.homePut tag l (leBytes r.size v.toNat) .zero)
  | .atomic op v =>
    let n := atomicNew op r.size old v.toNat
    (w128 old, if n.2 then s.homePut tag l (leBytes r.size n.1) (s.lineAt l).stamp else s.homeTouch l)

/-- FOREIGN_REQUEST (R320): performed once; a repeated one is answered from the record of its first answer. -/
def State.foreignRequest (s : State) (r : ForeignReq) : Option State :=
  let k := Tbl.get Link.init s.links r.dev
  if !s.dev.domain.contains r.dev || k.failed || decide (16 < r.size) || decide (128 < (r.gpa.toNat % 128) + r.size) then none
  else if (Tbl.find k.answers r.seq).isSome then some s
  else
    match s.gpaLoc r.gpa with
    | none => none
    | some l =>
      let a := s.foreignDo r l
      some { a.2 with links := Tbl.set a.2.links r.dev { k with answers := Tbl.set k.answers r.seq a.1 } }

/-- Some lane of the package is out (R335). -/
def State.anyLaneOut (s : State) : Bool := s.dies.any (fun e => e.2.laneOut || e.2.hostLaneOut)

/-- LANE_RECALIBRATION (R335): a lane goes out while no other is, and returns. -/
def State.laneRecal (s : State) (die : Nat) (host out : Bool) : Option State :=
  let d := s.die die
  let set (s : State) : State := s.modDie die (fun d => if host then { d with hostLaneOut := out } else { d with laneOut := out })
  if out then (if s.anyLaneOut then none else some ((set s).rasAdd die 19 12))
  else if (if host then d.hostLaneOut else d.laneOut) then some (set s) else none

/-- An island is emptied by eviction (R324, R334): its tenants' waits stand still and their ranges go to their save areas. -/
def State.evict (s : State) (isl : Nat) : State :=
  let i := s.island isl
  let s1 := (s.budgetSettle isl).hangSettle (fun t => (match t.place with | .slot u _ => islandOf u.die u.bay == isl | _ => false))
  let s2 := match i.running with
    | some r => s1.tenantLeaves isl r
    | none => s1
  let left := (s2.tens.filter (fun e => onIsland isl (e.1 / 32) && e.2.loaded)).map (·.1)
  let s3 := left.foldl (fun s k => s.streamRange (k / 32 / 2048) (k / 32 % 2048) (k % 32) true) s2
  s3.modIsland isl (fun i => { i with resident := [], running := none, prev := none, next := none })

/-- An island may be emptied (R232, R334): each multicast fill that a resident has started there is landed or parked. -/
def State.mayEvict (s : State) (isl : Nat) : Bool := (s.island isl).resident.all (fun v => s.fillsStill isl v)

/-- An island that fails is emptied and stays clamped, and no tenant runs there (R326, R334). -/
def State.islandFail (s : State) (isl : Nat) : State := (s.evict isl).modIsland isl (fun i => { i with failed := true })

/-- ISLAND_UPDATE (R334): the island is emptied, updated and self-tested, and returns to its tenant lists or stays clamped. -/
def State.islandUpdate (s : State) (isl : Nat) (pass : Bool) : Option State :=
  let i := s.island isl
  if !i.runs || !s.mayEvict isl then none
  else
    let s1 := (s.evict isl).modIsland isl (fun i => { i with updated := i.updated + 1 })
    some (if pass then s1 else s1.islandFail isl)

/-- BAY_SPARING (R336), of a bay of an island that runs: the bay's tenants are evicted, and the cluster's spare takes the index of the failed bay; a second failure marks the
island failed. The vault is copied within the step, so that an access to the slice comes before the copy or waits until after it (log 112). -/
def State.baySparing (s : State) (die bay : Nat) : Option State :=
  let c := clusterOf bay
  let isl := islandOf die bay
  if 2047 < bay || !(s.island isl).runs || !s.mayEvict isl then none
  else if (s.cluster die c).spareUsed then some (s.islandFail isl)
  else some (((s.evict isl).modCluster die c (fun k => { k with spareUsed := true, spareFor := some bay })).rasAdd die 11 6)

/-- UNCORRECTABLE_ERROR (R50): the line is poisoned, and the error is counted as one that was not consumed until it is (Table 17-3; log 43). The
line after the vault's last stands for the bay's instruction cache, whose error poisons nothing and is counted (R317; log 43). -/
def State.uncorrectable (s : State) (die bay line : Nat) : Option State :=
  if 2047 < bay ∨ 262144 < line then none
  else if line = 262144 then some (s.rasAdd die 47 40)
  else
    let k := vaultKey die bay (128 * line)
    let s1 := { s with poison := (fromUp (k / 8) 16).foldl setAdd s.poison, errs := Tbl.set s.errs (k / 128) (setAdd (Tbl.get [] s.errs (k / 128)) (k / 128)) }
    some (if (Tbl.find s.errs (k / 128)).isSome then s1 else s1.rasAdd die 47 40)

/-- An answer of the security processor with `n` free bytes after the bytes that are known (R337; log 12). -/
def State.spdm (s : State) (known : List Byte) (n : Nat) : Option State :=
  if s.dev.stage = 0 then none
  else
    let r := s.freeBytes n
    some (r.2.emit (.spdm (known ++ r.1)))

/-- NEGOTIATE_ALGORITHMS (R337): P-521 and SHA-512 are the only ones offered. -/
def State.negotiate (s : State) (p521 sha512 : Bool) : Option State :=
  ({ s with dev := { s.dev with algs := p521 && sha512 } }).spdm [BitVec.ofNat 8 (b2n p521), BitVec.ofNat 8 (b2n sha512)] 0

/-- The ISLCFG of every island, as they are measured (R337). -/
def State.islcfgBytes (s : State) : List Byte := (List.range 64).flatMap (fun i => leBytes 8 (s.island i).cfg.toNat)

/-- A unit reports `n` of what it has counted for a meter, which adds an amount to it. -/
def State.report (s : State) (tag meter n amount : Nat) : State :=
  (s.modPart tag (fun p => { p with owed := setNth p.owed meter (nth 0 p.owed meter - n) })).meterAdd tag meter amount

/-- METER_INCREMENT (R338): meter 5 counts issues that have not been reported. Of an MXRUN that has not been reported, meters 0 to 4 count
MAC-cycles; of an access, meters 6 and 7 bytes; of an issue or an MXRUN, meter 8 energy: how much is not stated (log 94). -/
def State.meterIncrement (s : State) (tag meter amount : Nat) : Option State :=
  let due := nth 0 (s.part tag).owed meter
  if 8 < meter then none
  else if meter = 5 then (if due < amount then none else some (s.report tag meter amount amount))
  else if due = 0 then none else some (s.report tag meter 1 amount)

/-- Bytes 0 to 127 of a meter snapshot (Table 17-2). -/
def State.snapshotBytes (s : State) (tag : Nat) (nonce : BitVec 256) : List Byte :=
  leBytes 8 (1 + tag % 32 * 2 ^ 8 + 9 * 2 ^ 16) ++ leBytes 32 nonce.toNat ++ leBytes 8 (s.part tag).snaps ++
  leBytes 8 ((s.clock - s.dev.powerAt) / cyclesPerUs) ++ ((s.part tag).meters.take 9).flatMap (fun m => leBytes 8 m)

/-- METER_SNAPSHOT (R339): the record, whose signature is free (log 12). -/
def State.meterSnapshot (s : State) (tag : Nat) (nonce : BitVec 256) : Option State :=
  if s.dev.stage = 0 then none
  else
    let r := s.freeBytes 132
    some ((r.2.emit (.meter (s.snapshotBytes tag nonce ++ r.1))).modPart tag (fun p => { p with snaps := p.snaps + 1 }))

/-- THERMAL_THROTTLE_EVENT (R329, R340): throttling of a bay begins or ends. -/
def State.thermal (s : State) (die bay : Nat) (begins : Bool) : Option State :=
  if (s.unit (coreOf die bay)).throttled = begins then none
  else
    let s1 := s.hangSettle (fun t => (match t.place with | .slot u _ => u.die == die && u.bay == bay | _ => false))
    let set (s : State) (u : UnitId) : State := s.modUnit u (fun c => { c with throttled := begins })
    let s2 := set (set s1 (coreOf die bay)) (spOf die bay)
    some (if begins then s2.rasAdd die 5 0 else s2)

/-- R327, PARTITION_RESET. -/
def execPartitionReset (tag : Nat) (s : State) : Out := s.ifEnabled (s.partitionReset tag)

/-- R330, PF0_RESET. -/
def execPf0Reset (s : State) : Out := s.ifEnabled (some s.pf0Reset)

/-- R332, POWER_GOOD. -/
def execPowerGood (num : BitVec 14) (domain : List Nat) (s : State) : Out := s.ifEnabled (s.powerGood num domain)

/-- R332, ISLAND_START. -/
def execIslandStart (isl : Nat) (pass : Bool) (s : State) : Out := s.ifEnabled (s.islandStart isl pass)

/-- R320, LINK_RETRAIN. -/
def execLinkRetrain (dev : Nat) (s : State) : Out := s.ifEnabled (s.linkRetrain dev)

/-- R320, LINK_FAILURE. -/
def execLinkFailure (dev : Nat) (s : State) : Out := s.ifEnabled (s.linkFailure dev)

/-- R320, FOREIGN_REQUEST. -/
def execForeignRequest (r : ForeignReq) (s : State) : Out := s.ifEnabled (s.foreignRequest r)

/-- R335, LANE_RECALIBRATION. -/
def execLaneRecalibration (die : Nat) (host out : Bool) (s : State) : Out := s.ifEnabled (s.laneRecal die host out)

/-- R336, BAY_SPARING. -/
def execBaySparing (die bay : Nat) (s : State) : Out := s.ifEnabled (s.baySparing die bay)

/-- R334, ISLAND_UPDATE. -/
def execIslandUpdate (isl : Nat) (pass : Bool) (s : State) : Out := s.ifEnabled (s.islandUpdate isl pass)

/-- R50, UNCORRECTABLE_ERROR. -/
def execUncorrectableError (die bay line : Nat) (s : State) : Out := s.ifEnabled (s.uncorrectable die bay line)

/-- R337, GET_VERSION: version 1.2. -/
def execGetVersion (s : State) : Out := s.ifEnabled (s.spdm [0x12] 0)

/-- R337, GET_CAPABILITIES: the capability flags are not stated. -/
def execGetCapabilities (s : State) : Out := s.ifEnabled (s.spdm [] 4)

/-- R337, NEGOTIATE_ALGORITHMS. -/
def execNegotiateAlgorithms (p521 sha512 : Bool) (s : State) : Out := s.ifEnabled (s.negotiate p521 sha512)

/-- R337, GET_DIGESTS: a SHA-512 digest of the certificate chain. -/
def execGetDigests (s : State) : Out := s.ifEnabled (s.spdm [] 64)

/-- R337, GET_CERTIFICATE: the bytes of the chain asked for. -/
def execGetCertificate (_off len : Nat) (s : State) : Out := s.ifEnabled (s.spdm [] len)

/-- R337, CHALLENGE: the nonce, signed. -/
def execChallenge (nonce : BitVec 256) (s : State) : Out := s.ifEnabled (s.spdm (leBytes 32 nonce.toNat) 132)

/-- R337, GET_MEASUREMENTS: the nonce, every ISLCFG, and digests of boot ROM, firmware image and fuses, signed. -/
def execGetMeasurements (nonce : BitVec 256) (s : State) : Out :=
  s.ifEnabled (s.spdm (leBytes 32 nonce.toNat ++ s.islcfgBytes) (3 * 64 + 132))

/-- R338, METER_INCREMENT. -/
def execMeterIncrement (tag meter amount : Nat) (s : State) : Out := s.ifEnabled (s.meterIncrement tag meter amount)

/-- R339, METER_SNAPSHOT. -/
def execMeterSnapshot (tag : Nat) (nonce : BitVec 256) (s : State) : Out := s.ifEnabled (s.meterSnapshot tag nonce)

/-- R329, R340, THERMAL_THROTTLE_EVENT. -/
def execThermalThrottleEvent (die bay : Nat) (begins : Bool) (s : State) : Out := s.ifEnabled (s.thermal die bay begins)

/-- R50, R340, CORRECTED_ERROR. -/
def execCorrectedError (die : Nat) (s : State) : Out := s.ifEnabled (some (s.rasAdd die 63 48))

/-- R320, R340, FLIT_RETRY. -/
def execFlitRetry (die : Nat) (s : State) : Out := s.ifEnabled (some (s.rasAdd die 31 20))

end Sys2Proof.Machine
end

