-- ==== Sys2Proof/Machine/Integer.lean ====
section
/-!
DEFINITION. Integer, predicate and branch instructions (spec 10, R174 to R184): majors 0x01 to 0x0A and 0x10 to 0x12. Division is in
Special.lean.
-/
namespace Sys2Proof.Machine

/-- Leading zero bits (R175). -/
def clz64 (x : W64) : Nat := if x = 0 then 64 else 63 - Nat.log2 x.toNat

/-- Trailing zero bits (R175). -/
def ctz64 (x : W64) : Nat := ((List.range 64).find? (fun i => bit x i)).getD 64

/-- One bits (R175). -/
def popc64 (x : W64) : Nat := ((List.range 64).filter (fun i => bit x i)).length

/-- A scalar operation on two sources (R174, R175). -/
def alu2 (i : Instr) (d : Dst) (a b : Src) (g : Guard) (f : W64 → W64 → W64) (s : State) : Out :=
  s.issue i .none .any g (fun s => s.ops2 d a b (fun x y s1 => s1.retire (scalar d (f (lo64 x) (lo64 y)))))

/-- A scalar operation on one source (R174, R175, R177). -/
def alu1 (i : Instr) (d : Dst) (a : Src) (g : Guard) (f : W64 → W64) (s : State) : Out :=
  s.issue i .none .any g (fun s => s.ops1 d a (fun x s1 => s1.retire (scalar d (f (lo64 x)))))

/-- A scalar operation with an immediate that IMM may widen (R176): `f` takes the strand at issue and the source. -/
def aluImm (i : Instr) (d : Dst) (a : Src) (g : Guard) (f : Strand → W64 → W64) (s : State) : Out :=
  s.issue i .imm .any g (fun s => s.ops1 d a (fun x s1 => s1.retire (scalar d (f s.me (lo64 x)))))

/-- A predicate operation on the predicate word (R182). -/
def predOp (i : Instr) (pd : PReg) (g : Guard) (f : W32 → Bool) (s : State) : Out :=
  s.issue i .none .any g (fun s => s.retire (predResult (setPred s.me.preds pd.val (f s.me.preds))))

/-- The address `n` words on from the issuing instruction (R183). -/
def branchTo (s : State) (disp : BitVec 21) : W64 := s.me.pc + 4 * disp.signExtend 64

/-- R175, ADD. -/
def execAdd (d : Dst) (a b : Src) (g : Guard) (s : State) : Out :=
  alu2 (.add d a b g) d a b g (fun x y => x + y) s

/-- R175, SUB. -/
def execSub (d : Dst) (a b : Src) (g : Guard) (s : State) : Out :=
  alu2 (.sub d a b g) d a b g (fun x y => x - y) s

/-- R175, AND. -/
def execAnd (d : Dst) (a b : Src) (g : Guard) (s : State) : Out :=
  alu2 (.and d a b g) d a b g (fun x y => x &&& y) s

/-- R175, OR. -/
def execOr (d : Dst) (a b : Src) (g : Guard) (s : State) : Out :=
  alu2 (.or d a b g) d a b g (fun x y => x ||| y) s

/-- R175, XOR. -/
def execXor (d : Dst) (a b : Src) (g : Guard) (s : State) : Out :=
  alu2 (.xor d a b g) d a b g (fun x y => x ^^^ y) s

/-- R175, ANDN. -/
def execAndn (d : Dst) (a b : Src) (g : Guard) (s : State) : Out :=
  alu2 (.andn d a b g) d a b g (fun x y => x &&& ~~~y) s

/-- R175, SHL. -/
def execShl (d : Dst) (a b : Src) (g : Guard) (s : State) : Out :=
  alu2 (.shl d a b g) d a b g (fun x y => x <<< (y.toNat % 64)) s

/-- R175, SHR. -/
def execShr (d : Dst) (a b : Src) (g : Guard) (s : State) : Out :=
  alu2 (.shr d a b g) d a b g (fun x y => x >>> (y.toNat % 64)) s

/-- R175, SAR. -/
def execSar (d : Dst) (a b : Src) (g : Guard) (s : State) : Out :=
  alu2 (.sar d a b g) d a b g (fun x y => x.sshiftRight (y.toNat % 64)) s

/-- R175, MUL. -/
def execMul (d : Dst) (a b : Src) (g : Guard) (s : State) : Out :=
  alu2 (.mul d a b g) d a b g (fun x y => x * y) s

/-- R175, MULH. -/
def execMulh (d : Dst) (a b : Src) (g : Guard) (s : State) : Out :=
  alu2 (.mulh d a b g) d a b g (fun x y => (x.signExtend 128 * y.signExtend 128).extractLsb' 64 64) s

/-- R175, MULHU. -/
def execMulhu (d : Dst) (a b : Src) (g : Guard) (s : State) : Out :=
  alu2 (.mulhu d a b g) d a b g (fun x y => (x.setWidth 128 * y.setWidth 128).extractLsb' 64 64) s

/-- R175, MIN. -/
def execMin (d : Dst) (a b : Src) (g : Guard) (s : State) : Out :=
  alu2 (.min d a b g) d a b g (fun x y => if x.slt y then x else y) s

/-- R175, MAX. -/
def execMax (d : Dst) (a b : Src) (g : Guard) (s : State) : Out :=
  alu2 (.max d a b g) d a b g (fun x y => if y.slt x then x else y) s

/-- R175, MINU. -/
def execMinu (d : Dst) (a b : Src) (g : Guard) (s : State) : Out :=
  alu2 (.minu d a b g) d a b g (fun x y => if x.ult y then x else y) s

/-- R175, MAXU. -/
def execMaxu (d : Dst) (a b : Src) (g : Guard) (s : State) : Out :=
  alu2 (.maxu d a b g) d a b g (fun x y => if y.ult x then x else y) s

/-- R175, CLZ. -/
def execClz (d : Dst) (a : Src) (g : Guard) (s : State) : Out :=
  alu1 (.clz d a g) d a g (fun x => w64 (clz64 x)) s

/-- R175, CTZ. -/
def execCtz (d : Dst) (a : Src) (g : Guard) (s : State) : Out :=
  alu1 (.ctz d a g) d a g (fun x => w64 (ctz64 x)) s

/-- R175, POPC. -/
def execPopc (d : Dst) (a : Src) (g : Guard) (s : State) : Out :=
  alu1 (.popc d a g) d a g (fun x => w64 (popc64 x)) s

/-- R176, ADDI. -/
def execAddi (d : Dst) (a : Src) (imm : BitVec 11) (g : Guard) (s : State) : Out :=
  aluImm (.addi d a imm g) d a g (fun t x => x + immS t imm) s

/-- R176, ANDI. -/
def execAndi (d : Dst) (a : Src) (imm : BitVec 11) (g : Guard) (s : State) : Out :=
  aluImm (.andi d a imm g) d a g (fun t x => x &&& immU t imm) s

/-- R176, ORI. -/
def execOri (d : Dst) (a : Src) (imm : BitVec 11) (g : Guard) (s : State) : Out :=
  aluImm (.ori d a imm g) d a g (fun t x => x ||| immU t imm) s

/-- R176, XORI. -/
def execXori (d : Dst) (a : Src) (imm : BitVec 11) (g : Guard) (s : State) : Out :=
  aluImm (.xori d a imm g) d a g (fun t x => x ^^^ immU t imm) s

/-- R177, SHLI. -/
def execShli (d : Dst) (a : Src) (n : BitVec 6) (g : Guard) (s : State) : Out :=
  alu1 (.shli d a n g) d a g (fun x => x <<< n.toNat) s

/-- R177, SHRI. -/
def execShri (d : Dst) (a : Src) (n : BitVec 6) (g : Guard) (s : State) : Out :=
  alu1 (.shri d a n g) d a g (fun x => x >>> n.toNat) s

/-- R177, SARI. -/
def execSari (d : Dst) (a : Src) (n : BitVec 6) (g : Guard) (s : State) : Out :=
  alu1 (.sari d a n g) d a g (fun x => x.sshiftRight n.toNat) s

/-- R178: a sign-extended immediate, 38 bits under IMM. -/
def execMovi (d : Dst) (imm : BitVec 16) (g : Guard) (s : State) : Out :=
  s.issue (.movi d imm g) .imm .any g (fun s => s.dstBound d (fun s => s.retire (scalar d (immS s.me imm))))

/-- R180: compares two sources and combines the result into pd. -/
def execCmp (pd : PReg) (a b : Src) (comb : Combine) (cc : Cond) (g : Guard) (s : State) : Out :=
  s.issue (.cmp pd a b comb cc g) .none .any g (fun s => s.src2 a b (fun x y s1 =>
    let p := s1.me.preds
    s1.retire (predResult (setPred p pd.val (Combine.apply comb (predOf p pd.val) (Cond.holds cc (lo64 x) (lo64 y)))))))

/-- R181: compares a source with an immediate, extended as the condition is signed or not. -/
def execCmpi (pd : PReg) (a : Src) (cc : Cond) (imm : BitVec 7) (g : Guard) (s : State) : Out :=
  s.issue (.cmpi pd a cc imm g) .imm .any g (fun s => s.src a (fun x s1 =>
    let y := if condUnsigned cc then immU s.me imm else immS s.me imm
    s1.retire (predResult (setPred s1.me.preds pd.val (Cond.holds cc (lo64 x) y)))))

/-- R182, PAND. -/
def execPand (pd pa pb : PReg) (g : Guard) (s : State) : Out :=
  predOp (.pand pd pa pb g) pd g (fun p => predOf p pa.val && predOf p pb.val) s

/-- R182, POR. -/
def execPor (pd pa pb : PReg) (g : Guard) (s : State) : Out :=
  predOp (.por pd pa pb g) pd g (fun p => predOf p pa.val || predOf p pb.val) s

/-- R182, PXOR. -/
def execPxor (pd pa pb : PReg) (g : Guard) (s : State) : Out :=
  predOp (.pxor pd pa pb g) pd g (fun p => xor (predOf p pa.val) (predOf p pb.val)) s

/-- R182, PANDN. -/
def execPandn (pd pa pb : PReg) (g : Guard) (s : State) : Out :=
  predOp (.pandn pd pa pb g) pd g (fun p => predOf p pa.val && !predOf p pb.val) s

/-- R182, PNOT. -/
def execPnot (pd pa : PReg) (g : Guard) (s : State) : Out :=
  predOp (.pnot pd pa g) pd g (fun p => !predOf p pa.val) s

/-- R182, PANY. -/
def execPany (pd : PReg) (n : BitVec 5) (g : Guard) (s : State) : Out :=
  predOp (.pany pd n g) pd g (fun p => anyLane p n.toNat) s

/-- R182, PALL. -/
def execPall (pd : PReg) (n : BitVec 5) (g : Guard) (s : State) : Out :=
  predOp (.pall pd n g) pd g (fun p => allLanes p n.toNat) s

/-- R182, PRD: the predicate word, bit 0 reading 1. -/
def execPrd (d : Dst) (g : Guard) (s : State) : Out :=
  s.issue (.prd d g) .none .any g (fun s => s.dstBound d (fun s => s.retire (result d ((s.me.preds ||| 1).setWidth 128))))

/-- R182, PWR: p1 to p31 from bits 31:1. -/
def execPwr (a : Src) (g : Guard) (s : State) : Out :=
  s.issue (.pwr a g) .none .any g (fun s => s.src a (fun x s1 => s1.retire (predResult (x.setWidth 32))))

/-- R183, B. -/
def execB (disp : BitVec 21) (g : Guard) (s : State) : Out :=
  s.issue (.b disp g) .none .any g (fun s => s.retire { nothing with npc := some (branchTo s disp) })

/-- R183, BL: the return address goes to w22. -/
def execBl (disp : BitVec 21) (g : Guard) (s : State) : Out :=
  s.issue (.bl disp g) .none .any g (fun s =>
    s.retire { scalar (.w 22) (s.me.pc + 4) with npc := some (branchTo s disp) })

/-- R184, BR. -/
def execBr (a : Src) (g : Guard) (s : State) : Out :=
  s.issue (.br a g) .none .any g (fun s => s.src a (fun x s1 =>
    if bits (lo64 x) 1 0 != 0 then s.raise 0x09 (lo64 x) else s1.retire { nothing with npc := some (lo64 x) }))

/-- R184, BLR: the return address goes to wd after wa is read. -/
def execBlr (d : Dst) (a : Src) (g : Guard) (s : State) : Out :=
  s.issue (.blr d a g) .none .any g (fun s => s.ops1 d a (fun x s1 =>
    if bits (lo64 x) 1 0 != 0 then s.raise 0x09 (lo64 x)
    else s1.retire { scalar d (s1.me.pc + 4) with npc := some (lo64 x) }))

end Sys2Proof.Machine
end

