-- ==== Sys2Proof/Machine/Approx.lean ====
section
/-!
DEFINITION. The SFU's functions (R218, R219): exact special results, correct rounding where Table 11-10 requires it, and for the
approximate functions the undisclosed bits of Config.sfu wherever they lie within the bound. The exact function is enclosed by fixed-point
series with 1,300 fraction bits; bits of Config.sfu outside the bound are replaced by the nearest value (log 8).
-/
namespace Sys2Proof.Machine

/-- Fraction bits of the fixed-point numbers. -/
def fxP : Nat := 1300

/-- One, in fixed point. -/
def fxOne : Nat := 2 ^ fxP

/-- Product of fixed-point numbers. -/
def fxMul (a b : Nat) : Nat := a * b / fxOne

/-- Sum of y^k / k! from the term before the k-th, `n` terms more. -/
def expSeries (y : Nat) : Nat → Nat → Nat → Nat → Nat
  | 0, _, _, acc => acc
  | n + 1, k, t, acc => let t' := fxMul t y / k; expSeries y n (k + 1) t' (acc + t')

/-- Repeated squaring. -/
def fxSquares : Nat → Nat → Nat
  | 0, v => v
  | n + 1, v => fxSquares n (fxMul v v)

/-- e^y for y of 0 or more. -/
def fxExp (y : Nat) : Nat := fxSquares 10 (expSeries (y / 1024) 260 1 fxOne fxOne)

/-- Sum of y^(2k+1) / (2k+1), with the signs of `alt`, `n` terms. -/
def atanSeries (alt : Bool) (y2 : Nat) : Nat → Nat → Nat → Int → Int
  | 0, _, _, acc => acc
  | n + 1, k, t, acc =>
    let v : Int := (t / (2 * k + 1) : Nat)
    atanSeries alt y2 n (k + 1) (fxMul t y2) (if alt && k % 2 == 1 then acc - v else acc + v)

/-- arctan(1/q). -/
def fxAtanInv (q : Nat) : Int := let y := fxOne / q; atanSeries true (fxMul y y) 300 0 y 0

/-- π. -/
def fxPi : Nat := (16 * fxAtanInv 5 - 4 * fxAtanInv 239).toNat

/-- ln t for t from 1 to 2. -/
def fxLn (t : Nat) : Nat :=
  let y := (t - fxOne) * fxOne / (t + fxOne)
  (2 * atanSeries false (fxMul y y) 420 0 y 0).toNat

/-- ln 2. -/
def fxLn2 : Nat := fxLn (2 * fxOne)

/-- Sum of the sine series. -/
def sinSeries (y2 : Nat) : Nat → Nat → Nat → Int → Int
  | 0, _, _, acc => acc
  | n + 1, k, t, acc =>
    sinSeries y2 n (k + 1) (fxMul t y2 / ((2 * k + 2) * (2 * k + 3))) (if k % 2 = 1 then acc - (t : Int) else acc + (t : Int))

/-- sin(π r) for r from 0 to 1/2. -/
def fxSinPi (r : Nat) : Nat := let y := fxMul fxPi r; (sinSeries (fxMul y y) 160 0 y 0).toNat

/-- m × 2^e in fixed point, cut towards zero. -/
def toFx (m : Nat) (e : Int) : Nat :=
  let k := e + fxP
  m * 2 ^ k.toNat / 2 ^ (-k).toNat

/-- The exact result of an approximate function: an exact value of a sign and n / d, or a sign and an enclosure [lo, hi] × 2^e. -/
inductive Exact where
  | rat (neg : Bool) (n d : Nat)
  | range (neg : Bool) (lo hi : Nat) (e : Int)

/-- An enclosure around a fixed-point magnitude, times 2^k. -/
def around (neg : Bool) (v : Nat) (k : Int) : Exact :=
  let w := v / 2 ^ 1200 + 2 ^ 60
  .range neg (v - w) (v + w) (k - fxP)

/-- sin(π x) for x = ±m × 2^e, not a multiple of 1/2. -/
def sinExact (neg : Bool) (m : Nat) (e : Int) (half : Bool) : Exact :=
  let r := (toFx m e + (if half then fxOne / 2 else 0)) % (2 * fxOne)
  let up := decide (fxOne ≤ r)
  let r1 := r % fxOne
  let r2 := if fxOne < 2 * r1 then fxOne - r1 else r1
  around (xor (neg && !half) up) (fxSinPi r2) 0

/-- The approximate functions on a finite value ±m × 2^e with m above 0, apart from the exact results of Table 11-9. -/
def exactOf (op : SfuOp) (neg : Bool) (m : Nat) (e : Int) : Exact :=
  match op with
  | .rcp => .rat neg (2 ^ (-e).toNat) (m * 2 ^ e.toNat)
  | .rsq =>
    -- 1/√x = √(1/x): the root of 2^320 / m, times a power of two
    let k : Nat := 320 + (if e % 2 = 0 then 0 else 1)
    let x := 2 ^ k / m
    let r := isqrt x
    if r * r * m = 2 ^ k then .range false r r ((-e - k) / 2)
    else .range false r (r + 1) ((-e - k) / 2)
  | .exp2 =>
    let big := decide ((20000 : Int) ≤ e + (Nat.log2 m : Int)) || decide (20000 * 2 ^ (-e).toNat ≤ m * 2 ^ e.toNat)
    if big then (if neg then .range false 1 2 (-20000) else .range false 1 2 20000)
    else
      let x := toFx m e
      let n : Int := if neg then -((x / fxOne : Nat) : Int) - 1 else ((x / fxOne : Nat) : Int)
      let fr := if neg then fxOne - x % fxOne else x % fxOne
      around false (fxExp (fxMul fr fxLn2)) n
  | .log2 =>
    let k : Int := e + (Nat.log2 m : Int)
    let t := m * fxOne / 2 ^ Nat.log2 m
    let l : Int := ((fxLn t * fxOne / fxLn2 : Nat) : Int)
    let v := k * (fxOne : Int) + l
    around (decide (v < 0)) v.natAbs 0
  | .sin => sinExact neg m e false
  | .cos => sinExact neg m e true
  | .tanh =>
    let x := toFx m e
    if 600 * fxOne ≤ x then .range neg (fxOne - 1) fxOne (-(fxP : Int))
    else
      let v := fxExp (2 * x)
      around neg ((v - fxOne) * fxOne / (v + fxOne)) 0
  | .sigm =>
    let x := toFx m e
    if 800 * fxOne ≤ x then (if neg then .range false 1 (2 ^ 100) (-(fxP : Int)) else .range false (fxOne - 1) fxOne (-(fxP : Int)))
    else
      let v := fxExp x
      if neg then around false (fxOne * fxOne / (fxOne + v)) 0 else around false (v * fxOne / (fxOne + v)) 0
  | .div => .rat false 0 1
  | .divu => .rat false 0 1
  | .rem => .rat false 0 1
  | .remu => .rat false 0 1
  | .sqrt => .rat false 0 1
  | .fdiv => .rat false 0 1

/-- Bounds of Table 11-10 in half units in the last place. -/
def ulpBound (op : SfuOp) (f : FFmt) : Nat :=
  match op, f with
  | .rcp, .f64 => 2
  | .rcp, .f32 => 2
  | .rsq, .f64 => 2
  | .rsq, .f32 => 2
  | .exp2, .f64 => 4
  | .log2, .f64 => 4
  | .exp2, _ => 2
  | .log2, _ => 2
  | .sin, .f64 => 4
  | .sin, .f32 => 4
  | .cos, .f64 => 4
  | .cos, .f32 => 4
  | .sin, _ => 2
  | .cos, _ => 2
  | .tanh, .f64 => 6
  | .tanh, .f32 => 4
  | .sigm, .f64 => 6
  | .sigm, .f32 => 4
  | .tanh, _ => 2
  | .sigm, _ => 2
  | _, _ => 1

/-- |n/d − m × 2^k| is at most h half units 2^q. -/
def withinHalf (n d m : Nat) (k q : Int) (h : Nat) : Bool :=
  let lo := if k < q - 1 then k else q - 1
  -- everything times d and 2^-lo
  let a : Int := (n * 2 ^ (-lo).toNat : Nat)
  let s : Nat := d * 2 ^ lo.toNat
  let b : Int := ((m * 2 ^ (k - lo).toNat * s : Nat) : Int)
  let w : Nat := h * 2 ^ (q - 1 - lo).toNat * s
  decide ((a - b).natAbs ≤ w)

/-- The result of an approximate function in a format, with its flags (R219): NX where the result returned is not the exact value (R205),
UF where it is tiny besides (R204). -/
def approxResult (op : SfuOp) (lf : FFmt) (code : Nat) (x : Exact) : Nat × Flags :=
  let f := FP.ofLane lf
  let r := match x with
    | .rat neg n d => (neg, n, d, n, d)
    | .range neg lo hi e => (neg, lo * 2 ^ e.toNat, 2 ^ (-e).toNat, hi * 2 ^ e.toNat, 2 ^ (-e).toNat)
  let neg := r.1
  let n1 := r.2.1
  let d1 := r.2.2.1
  let n2 := r.2.2.2.1
  let d2 := r.2.2.2.2
  -- the middle of the enclosure, rounded
  let near := f.round .rne false neg (n1 * d2 + n2 * d1 + b2n (n1 * d2 + n2 * d1 == 0)) (2 * d1 * d2)
  let ex := ilog (n1 + b2n (n1 == 0)) d1
  let q := (if ex < f.emin then f.emin else ex) - f.fb
  let h := ulpBound op lf
  let c := Config.sfu op lf code % 2 ^ f.width
  let c1 := match f.val c with
    | .fin cn m e => if cn = neg ∧ 1 < h ∧ withinHalf n1 d1 m e q h ∧ withinHalf n2 d2 m e q h then c else near.1
    | .inf _ => near.1
    | .nan _ => near.1
  let exact := decide (n1 * d2 = n2 * d1) && !near.2.nx && c1 == near.1
  let fl : Flags := match f.val c1 with
    | .inf _ => { of := true, nx := true }
    | .fin _ m e => { nx := !exact, uf := !exact && (m == 0 || decide (ilog (m * 2 ^ e.toNat) (2 ^ (-e).toNat) < f.emin)) }
    | .nan _ => {}
  (c1, fl)

/-- The value ±m × 2^e is a multiple of 2^-k. -/
def multOf (m : Nat) (e : Int) (k : Nat) : Bool :=
  m * 2 ^ (e + k).toNat % 2 ^ (-(e + k)).toNat == 0

/-- ±m × 2^e times 2^k as a whole number, for a multiple of 2^-k. -/
def wholeOf (m : Nat) (e : Int) (k : Nat) : Nat := m * 2 ^ (e + k).toNat / 2 ^ (-(e + k)).toNat

/-- The code of ±1. -/
def FP.one (f : FP) (neg : Bool) : Nat := f.signBit neg + f.bias * 2 ^ f.fb

/-- One lane of an SFU function with one operand (Table 11-9, R219). -/
def sfuLane (op : SfuOp) (lf : FFmt) (rm : Rm) (code : Nat) : Nat × Flags :=
  let f := FP.ofLane lf
  match f.val code with
  | .nan sg => f.nanRes sg
  | .inf a =>
    match op with
    | .rcp => (f.zero a, {})
    | .rsq => if a then f.nanRes true else (f.zero false, {})
    | .sqrt => if a then f.nanRes true else (f.inf false, {})
    | .exp2 => (if a then f.zero false else f.inf false, {})
    | .log2 => if a then f.nanRes true else (f.inf false, {})
    | .sin => f.nanRes true
    | .cos => f.nanRes true
    | .tanh => (f.one a, {})
    | .sigm => (if a then f.zero false else f.one false, {})
    | .div => f.nanRes true
    | .divu => f.nanRes true
    | .rem => f.nanRes true
    | .remu => f.nanRes true
    | .fdiv => f.nanRes true
  | .fin a m e =>
    match op with
    | .rcp => if m = 0 then (f.inf a, { dz := true }) else approxResult op lf code (exactOf op a m e)
    | .rsq =>
      if m = 0 then (f.inf a, { dz := true })
      else if a then f.nanRes true
      else approxResult op lf code (exactOf op a m e)
    | .sqrt => f.sqrt rm (.fin a m e)
    | .exp2 =>
      if m = 0 then (f.one false, {})
      else if multOf m e 0 && decide (wholeOf m e 0 < 20000) then
        let k := wholeOf m e 0
        if a then f.round .rne false false 1 (2 ^ k) else f.round .rne false false (2 ^ k) 1
      else approxResult op lf code (exactOf op a m e)
    | .log2 =>
      if m = 0 then (f.inf true, { dz := true })
      else if a then f.nanRes true
      else if m = 2 ^ Nat.log2 m then
        f.roundInt .rne false (e + (Nat.log2 m : Int)) 0 false
      else approxResult op lf code (exactOf op a m e)
    | .sin =>
      if m = 0 then (f.zero a, {})
      else if multOf m e 0 then (f.zero a, {})
      else if multOf m e 1 then (f.one (xor a (wholeOf m e 1 % 4 == 3)), {})
      else approxResult op lf code (exactOf op a m e)
    | .cos =>
      if m = 0 then (f.one false, {})
      else if multOf m e 0 then (f.one (wholeOf m e 0 % 2 == 1), {})
      else if multOf m e 1 then (f.zero false, {})
      else approxResult op lf code (exactOf op a m e)
    | .tanh => if m = 0 then (f.zero a, {}) else approxResult op lf code (exactOf op a m e)
    | .sigm => if m = 0 then approxResult op lf code (.rat false 1 2) else approxResult op lf code (exactOf op a m e)
    | .div => f.nanRes true
    | .divu => f.nanRes true
    | .rem => f.nanRes true
    | .remu => f.nanRes true
    | .fdiv => f.nanRes true

end Sys2Proof.Machine
end

