-- ==== Sys2Proof/Machine/Special.lean ====
section
/-!
DEFINITION. Division and the special functions (spec 10, R179; spec 11, R218, R219) through the SFU queue and the spindle's divider
(spec 06, R137).
-/
namespace Sys2Proof.Machine

/-- Entries of an SFU queue (R137). -/
def sfuSize : Nat := 16

/-- The issuing strand's request joins the queue of its unit, and the strand leaves rotation (R126, R137). While the queue is full it has
not issued: `s0` is the state before its operands were popped. -/
def State.sfuPost (s s0 : State) (op : SfuOp) (f : FFmt) (a b : W128) (d : Dst) (rnd : Nat) : State :=
  let r : SfuReq := { x := s.cur, op := op, f := f, a := a, b := b, d := d, rnd := rnd }
  if sfuSize ≤ (s.unit (s.unitOf s.cur)).sfuq.length then s0
  else (s.modUnit (s.unitOf s.cur) (fun c => { c with sfuq := c.sfuq ++ [r] })).waitOn s.cur .sfu

/-- A division at issue (R179). -/
def divIssue (i : Instr) (op : SfuOp) (d : Dst) (a b : Src) (g : Guard) (s : State) : Out :=
  s.issue i .none .any g (fun s => s.ops2 d a b (fun x y s1 => s1.sfuPost s op .f64 x y d 0))

/-- A function of one source at issue (R218). -/
def sfuIssue (i : Instr) (op : SfuOp) (d : Dst) (a : Src) (f : FFmt) (g : Guard) (s : State) : Out :=
  s.issue i (.fmt false true false false) .any g (fun s => s.coreOnly i (fun s => s.ops1 d a (fun x s1 =>
    s1.sfuPost s op f x 0 d (fmtOf s.me).rnd)))

/-- The result of a division by a divisor that is not zero (R179). -/
def divResult (op : SfuOp) (x y : W64) : W64 :=
  match op with
  | .div => x.sdiv y
  | .divu => x.udiv y
  | .rem => x.srem y
  | _ => x.umod y

/-- A request is a division. -/
def SfuOp.divides : SfuOp → Bool
  | .div => true
  | .divu => true
  | .rem => true
  | .remu => true
  | _ => false

/-- Lanes of an SFU result with their flags together (R218, R219). -/
def sfuLanes (r : SfuReq) : List (Nat × Flags) :=
  let fp := FP.ofLane r.f
  let w := fp.width
  let at_ (v : W128) (i : Nat) := v.toNat / 2 ^ (w * i) % 2 ^ w
  (List.range (128 / w)).map (fun i =>
    if r.op = .fdiv then fp.div (rmOf .rne r.rnd) (fp.val (at_ r.a i)) (fp.val (at_ r.b i))
    else sfuLane r.op r.f (rmOf .rne r.rnd) (at_ r.a i))

/-- Packs lanes of `w` bits, lane 0 first. -/
def packLanes (w : Nat) : List Nat → Nat
  | [] => 0
  | x :: xs => x % 2 ^ w + 2 ^ w * packLanes w xs

/-- What a request returns. -/
def sfuReply (r : SfuReq) : Reply :=
  if r.op.divides then scalar r.d (divResult r.op (lo64 r.a) (lo64 r.b))
  else
    let ls := sfuLanes r
    { result r.d (w128 (packLanes (FP.ofLane r.f).width (ls.map (·.1)))) with
      flags := Flags.sts ((ls.map (·.2)).foldl Flags.or {}) }

/-- SFU_QUEUE_HEAD (R137): the oldest request of a unit is checked, and served or withdrawn. A division by zero traps at the strand's
next turn (R179). -/
def State.sfuHead (s : State) (u : UnitId) : Option State :=
  match (s.unit u).sfuq with
  | [] => none
  | r :: rest =>
    let s1 := s.modUnit u (fun c => { c with sfuq := rest })
    if (s1.strand r.x).wait != .sfu then some s1
    else if r.op.divides && lo64 r.b == 0 then some (s1.defer r.x 0x30 0)
    else some (s1.answer r.x (sfuReply r))

/-- R179, DIV. -/
def execDiv (d : Dst) (a b : Src) (g : Guard) (s : State) : Out := divIssue (.div d a b g) .div d a b g s

/-- R179, DIVU. -/
def execDivu (d : Dst) (a b : Src) (g : Guard) (s : State) : Out := divIssue (.divu d a b g) .divu d a b g s

/-- R179, REM. -/
def execRem (d : Dst) (a b : Src) (g : Guard) (s : State) : Out := divIssue (.rem d a b g) .rem d a b g s

/-- R179, REMU. -/
def execRemu (d : Dst) (a b : Src) (g : Guard) (s : State) : Out := divIssue (.remu d a b g) .remu d a b g s

/-- R218, FRCP. -/
def execFrcp (d : Dst) (a : Src) (f : FFmt) (g : Guard) (s : State) : Out := sfuIssue (.frcp d a f g) .rcp d a f g s

/-- R218, FRSQ. -/
def execFrsq (d : Dst) (a : Src) (f : FFmt) (g : Guard) (s : State) : Out := sfuIssue (.frsq d a f g) .rsq d a f g s

/-- R218, FSQRT. -/
def execFsqrt (d : Dst) (a : Src) (f : FFmt) (g : Guard) (s : State) : Out := sfuIssue (.fsqrt d a f g) .sqrt d a f g s

/-- R218, FEXP2. -/
def execFexp2 (d : Dst) (a : Src) (f : FFmt) (g : Guard) (s : State) : Out := sfuIssue (.fexp2 d a f g) .exp2 d a f g s

/-- R218, FLOG2. -/
def execFlog2 (d : Dst) (a : Src) (f : FFmt) (g : Guard) (s : State) : Out := sfuIssue (.flog2 d a f g) .log2 d a f g s

/-- R218, FSIN. -/
def execFsin (d : Dst) (a : Src) (f : FFmt) (g : Guard) (s : State) : Out := sfuIssue (.fsin d a f g) .sin d a f g s

/-- R218, FCOS. -/
def execFcos (d : Dst) (a : Src) (f : FFmt) (g : Guard) (s : State) : Out := sfuIssue (.fcos d a f g) .cos d a f g s

/-- R218, FTANH. -/
def execFtanh (d : Dst) (a : Src) (f : FFmt) (g : Guard) (s : State) : Out := sfuIssue (.ftanh d a f g) .tanh d a f g s

/-- R218, FSIGM. -/
def execFsigm (d : Dst) (a : Src) (f : FFmt) (g : Guard) (s : State) : Out := sfuIssue (.fsigm d a f g) .sigm d a f g s

/-- R218, FDIV. -/
def execFdiv (d : Dst) (a b : Src) (f : FFmt) (g : Guard) (s : State) : Out :=
  s.issue (.fdiv d a b f g) (.fmt false true false false) .any g (fun s => s.coreOnly (.fdiv d a b f g) (fun s => s.ops2 d a b (fun x y s1 =>
    s1.sfuPost s .fdiv f x y d (fmtOf s.me).rnd)))

/-- R137, SFU_QUEUE_HEAD. -/
def execSfuQueueHead (u : UnitId) (s : State) : Out := s.ifEnabled (s.sfuHead u)

end Sys2Proof.Machine
end

