-- ==== Sys2Proof/Machine/Vector.lean ====
section
/-!
DEFINITION. Vector instructions (spec 11, R207 to R217): majors 0x18, 0x19, 0x1A and 0x1B.
-/
namespace Sys2Proof.Machine

/-- Lane `i` of width `w` (R197, R207). -/
def lane (w : Nat) (v : W128) (i : Nat) : Nat := v.toNat / 2 ^ (w * i) % 2 ^ w

/-- A register from lanes of width `w`, lane 0 first. -/
def ofLanes (w : Nat) : List Nat → Nat
  | [] => 0
  | x :: xs => x % 2 ^ w + 2 ^ w * ofLanes w xs

/-- A lane as a signed number. -/
def laneInt (w x : Nat) : Int := if x < 2 ^ (w - 1) then (x : Int) else (x : Int) - (2 ^ w : Nat)

/-- A signed number as a lane. -/
def intLane (w : Nat) (v : Int) : Nat := (v % ((2 ^ w : Nat) : Int)).toNat

/-- Result lane `i` is written: its predicate, under MASK (R207). -/
def laneOn (t : Strand) (mask : Bool) (i : Nat) : Bool := !mask || bit t.preds (16 + i)

/-- The flags of the active lanes (R205). -/
def laneFlags (on : Nat → Bool) : Nat → List Flags → Flags
  | _, [] => {}
  | i, f :: fs => if on i then Flags.or f (laneFlags on (i + 1) fs) else laneFlags on (i + 1) fs

/-- Old contents of a destination, for the lanes that MASK leaves. What a masked push holds in them the spec does not state: free
values (log 17). -/
def State.oldValue (s : State) (d : Dst) (mask : Bool) : W128 × State :=
  match d with
  | .w i => (s.me.regs[i], s)
  | .wz => (0, s)
  | .qo => if mask then s.freeBits 128 else (0, s)

/-- Writes lanes of width `w` with their flags, as MASK confines them (R205, R207). -/
def State.retireLanes (s : State) (d : Dst) (mask : Bool) (w : Nat) (rs : List (Nat × Flags)) : State :=
  let on := laneOn s.me mask
  let o := s.oldValue d mask
  let v := ofLanes w ((List.range rs.length).map (fun i => if on i then (nth (0, {}) rs i).1 else lane w o.1 i))
  o.2.retire { result d (w128 v) with flags := Flags.sts (laneFlags on 0 (rs.map (·.2))) }

/-- Writes lane predicates with the flags of the lanes (R207, R210). -/
def State.retirePreds (s : State) (mask : Bool) (rs : List (Bool × Flags)) : State :=
  let on := laneOn s.me mask
  let p := s.me.preds
  let bs := (List.range rs.length).map (fun i => if on i then (nth (false, {}) rs i).1 else bit p (16 + i))
  s.retire { predResult (setLanePreds p 0 bs) with flags := Flags.sts (laneFlags on 0 (rs.map (·.2))) }

/-- Lane width of a floating-point format (Table 8-4). -/
def FFmt.bits (f : FFmt) : Nat := (FP.ofLane f).width

/-- Lane width of an integer width code (Table 8-4). -/
def IWidth.bits : IWidth → Nat
  | .i8 => 8
  | .i16 => 16
  | .i32 => 32
  | .i64 => 64

/-- The prefix that major 0x18 accepts (Table 8-7). -/
def pfx18 : Pfx := .fmt false true true false

/-- The prefix that major 0x1B, and 0x19 without saturation, accepts (Table 8-7). -/
def pfx19 : Pfx := .fmt false false true false

/-- Lanes 0 to n - 1 of two registers. -/
def zipLanes {α : Type} (w : Nat) (x y : W128) (f : Nat → Nat → α) : List α :=
  (List.range (128 / w)).map (fun i => f (lane w x i) (lane w y i))

/-- A floating-point operation on the lanes of two sources (R208). -/
def fp2 (i : Instr) (d : Dst) (a b : Src) (lf : FFmt) (g : Guard) (f : FP → Rm → Nat → Nat → Nat × Flags) (s : State) : Out :=
  s.issue i pfx18 .any g (fun s => s.ops2 d a b (fun x y s1 =>
    let p := fmtOf s.me
    let fp := FP.ofLane lf
    s1.retireLanes d p.mask (FFmt.bits lf) (zipLanes (FFmt.bits lf) x y (f fp (rmOf .rne p.rnd)))))

/-- A floating-point operation that also reads wd (R208). -/
def fp3 (i : Instr) (d : RegZ) (a b : Src) (lf : FFmt) (g : Guard) (f : FP → Rm → FVal → FVal → FVal → Nat × Flags) (s : State) :
    Out :=
  s.issue i pfx18 .any g (fun s => s.src2 a b (fun x y s1 =>
    let p := fmtOf s.me
    let fp := FP.ofLane lf
    let w := FFmt.bits lf
    let z := regz s.me d
    let r (i : Nat) := f fp (rmOf .rne p.rnd) (fp.val (lane w x i)) (fp.val (lane w y i)) (fp.val (lane w z i))
    s1.retireLanes (RegZ.dst d) p.mask w ((List.range (128 / w)).map r)))

/-- A floating-point operation on the lanes of one source (R208). -/
def fp1 (i : Instr) (d : Dst) (a : Src) (lf : FFmt) (g : Guard) (f : FP → Nat → Nat) (s : State) : Out :=
  s.issue i pfx18 .any g (fun s => s.ops1 d a (fun x s1 =>
    let fp := FP.ofLane lf
    let w := FFmt.bits lf
    s1.retireLanes d (fmtOf s.me).mask w ((List.range (128 / w)).map (fun i => (f fp (lane w x i), {})))))

/-- A floating-point compare (R210). -/
def fpCmp (i : Instr) (a b : Src) (lf : FFmt) (g : Guard) (f : FVal → FVal → Bool × Bool) (s : State) : Out :=
  s.issue i pfx18 .any g (fun s => s.src2 a b (fun x y s1 =>
    let fp := FP.ofLane lf
    s1.retirePreds (fmtOf s.me).mask (zipLanes (FFmt.bits lf) x y (fun cx cy =>
      let r := f (fp.val cx) (fp.val cy)
      (r.1, { nv := r.2 })))))

/-- The sum of a fixed tree (R211): neighbours are added, then their sums. -/
def treeSum (fp : FP) (rm : Rm) : Nat → List (Nat × Flags) → Nat × Flags
  | _, [] => (0, {})
  | _, [x] => x
  | 0, x :: _ => x
  | n + 1, l =>
    let pairs := (List.range (l.length / 2)).map (fun i =>
      let x := nth (0, {}) l (2 * i)
      let y := nth (0, {}) l (2 * i + 1)
      let r := fp.add rm (fp.val x.1) (fp.val y.1)
      (r.1, Flags.or (Flags.or x.2 y.2) r.2))
    treeSum fp rm n pairs

/-- An integer operation on lanes (R212). -/
def int2 (i : Instr) (pf : Pfx) (d : Dst) (a b : Src) (iw : IWidth) (g : Guard) (f : Bool → Nat → Nat → Nat → Nat × Flags) (s : State) :
    Out :=
  s.issue i pf .any g (fun s => s.ops2 d a b (fun x y s1 =>
    let p := fmtOf s.me
    let w := IWidth.bits iw
    s1.retireLanes d p.mask w (zipLanes w x y (f p.sat w))))

/-- An integer compare of lanes (R212). -/
def intCmp (i : Instr) (a b : Src) (iw : IWidth) (g : Guard) (f : Nat → Nat → Nat → Bool) (s : State) : Out :=
  s.issue i pfx19 .any g (fun s => s.src2 a b (fun x y s1 =>
    let w := IWidth.bits iw
    s1.retirePreds (fmtOf s.me).mask (zipLanes w x y (fun p q => (f w p q, {})))))

/-- A signed lane result, clamped with SAT (R212). -/
def satLane (sat : Bool) (w : Nat) (v : Int) : Nat × Flags :=
  let lo : Int := -((2 ^ (w - 1) : Nat) : Int)
  let hi : Int := ((2 ^ (w - 1) : Nat) : Int) - 1
  if sat && decide (v < lo) then (intLane w lo, { sat := true })
  else if sat && decide (hi < v) then (intLane w hi, { sat := true })
  else (intLane w v, {})

/-- Lanes of one source moved by their numbers (R217): `f n` gives result lane i from the lanes of wa. -/
def move1 (i : Instr) (d : Dst) (a : Src) (iw : IWidth) (g : Guard) (f : (Nat → Nat) → Nat → Nat) (s : State) : Out :=
  s.issue i pfx19 .any g (fun s => s.ops1 d a (fun x s1 =>
    let w := IWidth.bits iw
    s1.retireLanes d (fmtOf s.me).mask w ((List.range (128 / w)).map (fun i => (f (lane w x) i, {})))))

/-- Lanes of two sources moved by their numbers (R217); `f` also takes the strand at issue. -/
def move2 (i : Instr) (d : Dst) (a b : Src) (iw : IWidth) (g : Guard) (f : Strand → (Nat → Nat) → (Nat → Nat) → Nat → Nat)
    (s : State) : Out :=
  s.issue i pfx19 .any g (fun s => s.ops2 d a b (fun x y s1 =>
    let w := IWidth.bits iw
    s1.retireLanes d (fmtOf s.me).mask w ((List.range (128 / w)).map (fun i => (f s.me (lane w x) (lane w y) i, {})))))

/-- An integer type of CVT: width and signedness (R162); a reserved code, which only an RFT can leave pending, stands for one that
the spec does not name (log 44). -/
def intType (n : Nat) : Nat × Bool :=
  match if n ≤ 8 then n else Config.reservedInt n % 9 with
  | 1 => (8, true)
  | 2 => (16, true)
  | 4 => (64, true)
  | 5 => (8, false)
  | 6 => (16, false)
  | 7 => (32, false)
  | 8 => (64, false)
  | _ => (32, true)

/-- The format of a CVT code, none for the integer code (Table 8-4). -/
def CvtTy.fp : CvtTy → Option FP
  | .f64 => some fp64
  | .f32 => some fp32
  | .f16 => some fp16
  | .bf16 => some bf16
  | .e4m3 => some e4m3
  | .e5m2 => some e5m2
  | .e2m1 => some e2m1
  | .int => none

/-- Element width of a CVT code under FMTC. -/
def CvtTy.bits (c : CvtTy) (ty : Nat) : Nat :=
  match CvtTy.fp c with
  | some f => f.width
  | none => (intType ty).1

/-- Converts one element (R213 to R216). -/
def convertLane (fr dest : CvtTy) (p : Fmt) (c : Nat) : Nat × Flags :=
  let w := (intType p.ty).1
  let sg := (intType p.ty).2
  match CvtTy.fp fr, CvtTy.fp dest with
  | some f, some t => t.convert (rmOf .rne p.rnd) p.sat (f.val c)
  | some f, none =>
    let lo : Int := if sg then -((2 ^ (w - 1) : Nat) : Int) else 0
    let hi : Int := if sg then ((2 ^ (w - 1) : Nat) : Int) - 1 else ((2 ^ w : Nat) : Int) - 1
    let r := toInteger (rmOf .rtz p.rnd) lo hi (f.val c)
    (intLane w r.1, r.2)
  | none, some t => t.roundInt (rmOf .rne p.rnd) p.sat (if sg then laneInt w c else (c : Int)) 0 false
  | none, none => (0, {})

/-- R208, VADD. -/
def execVadd (d : Dst) (a b : Src) (f : FFmt) (g : Guard) (s : State) : Out :=
  fp2 (.vadd d a b f g) d a b f g (fun fp rm x y => fp.add rm (fp.val x) (fp.val y)) s

/-- R208, VSUB. -/
def execVsub (d : Dst) (a b : Src) (f : FFmt) (g : Guard) (s : State) : Out :=
  fp2 (.vsub d a b f g) d a b f g (fun fp rm x y => fp.add rm (fp.val x) (fp.val y).neg) s

/-- R208, VMUL. -/
def execVmul (d : Dst) (a b : Src) (f : FFmt) (g : Guard) (s : State) : Out :=
  fp2 (.vmul d a b f g) d a b f g (fun fp rm x y => fp.mul rm (fp.val x) (fp.val y)) s

/-- R208, VFMA: x × y + z, one rounding. -/
def execVfma (d : RegZ) (a b : Src) (f : FFmt) (g : Guard) (s : State) : Out :=
  fp3 (.vfma d a b f g) d a b f g (fun fp rm x y z => fp.fma rm x y z) s

/-- R208, VFMS: z − x × y, one rounding. -/
def execVfms (d : RegZ) (a b : Src) (f : FFmt) (g : Guard) (s : State) : Out :=
  fp3 (.vfms d a b f g) d a b f g (fun fp rm x y z => fp.fma rm x.neg y z) s

/-- R209, VMIN. -/
def execVmin (d : Dst) (a b : Src) (f : FFmt) (g : Guard) (s : State) : Out :=
  fp2 (.vmin d a b f g) d a b f g (fun fp _ x y => fp.minmax false x y) s

/-- R209, VMAX. -/
def execVmax (d : Dst) (a b : Src) (f : FFmt) (g : Guard) (s : State) : Out :=
  fp2 (.vmax d a b f g) d a b f g (fun fp _ x y => fp.minmax true x y) s

/-- R208, VABS: the sign bit cleared. -/
def execVabs (d : Dst) (a : Src) (f : FFmt) (g : Guard) (s : State) : Out :=
  fp1 (.vabs d a f g) d a f g (fun fp x => x % 2 ^ (fp.width - 1)) s

/-- R208, VNEG: the sign bit inverted. -/
def execVneg (d : Dst) (a : Src) (f : FFmt) (g : Guard) (s : State) : Out :=
  fp1 (.vneg d a f g) d a f g (fun fp x => x ^^^ 2 ^ (fp.width - 1)) s

/-- R210, VCMPEQ. -/
def execVcmpeq (a b : Src) (f : FFmt) (g : Guard) (s : State) : Out :=
  fpCmp (.vcmpeq a b f g) a b f g (fun x y => (FVal.cmp x y == some .eq, x.sig || y.sig)) s

/-- R210, VCMPLT. -/
def execVcmplt (a b : Src) (f : FFmt) (g : Guard) (s : State) : Out :=
  fpCmp (.vcmplt a b f g) a b f g (fun x y => (FVal.cmp x y == some .lt, x.isNan || y.isNan)) s

/-- R210, VCMPLE. -/
def execVcmple (a b : Src) (f : FFmt) (g : Guard) (s : State) : Out :=
  fpCmp (.vcmple a b f g) a b f g (fun x y => (FVal.cmp x y == some .lt || FVal.cmp x y == some .eq, x.isNan || y.isNan)) s

/-- R210, VCMPUN. -/
def execVcmpun (a b : Src) (f : FFmt) (g : Guard) (s : State) : Out :=
  fpCmp (.vcmpun a b f g) a b f g (fun x y => (x.isNan || y.isNan, x.sig || y.sig)) s

/-- R211, VRSUM: the sum in lane 0, zero in the others; its flags with lane 0 only. -/
def execVrsum (d : Dst) (a : Src) (f : FFmt) (g : Guard) (s : State) : Out :=
  s.issue (.vrsum d a f g) pfx18 .any g (fun s => s.ops1 d a (fun x s1 =>
    let p := fmtOf s.me
    let w := FFmt.bits f
    let n := 128 / w
    let sum := treeSum (FP.ofLane f) (rmOf .rne p.rnd) 3 ((List.range n).map (fun i => (lane w x i, {})))
    s1.retireLanes d p.mask w (sum :: List.replicate (n - 1) (0, {}))))

/-- R212, VIADD, clamped with SAT. -/
def execViadd (d : Dst) (a b : Src) (w : IWidth) (g : Guard) (s : State) : Out :=
  int2 (.viadd d a b w g) (.fmt false false true true) d a b w g (fun sat w x y => satLane sat w (laneInt w x + laneInt w y)) s

/-- R212, VISUB, clamped with SAT. -/
def execVisub (d : Dst) (a b : Src) (w : IWidth) (g : Guard) (s : State) : Out :=
  int2 (.visub d a b w g) (.fmt false false true true) d a b w g (fun sat w x y => satLane sat w (laneInt w x - laneInt w y)) s

/-- R212, VIMUL: the low bits. -/
def execVimul (d : Dst) (a b : Src) (w : IWidth) (g : Guard) (s : State) : Out :=
  int2 (.vimul d a b w g) pfx19 d a b w g (fun _ w x y => (x * y % 2 ^ w, {})) s

/-- R212, VIMIN. -/
def execVimin (d : Dst) (a b : Src) (w : IWidth) (g : Guard) (s : State) : Out :=
  int2 (.vimin d a b w g) pfx19 d a b w g (fun _ w x y => (if laneInt w x < laneInt w y then x else y, {})) s

/-- R212, VIMAX. -/
def execVimax (d : Dst) (a b : Src) (w : IWidth) (g : Guard) (s : State) : Out :=
  int2 (.vimax d a b w g) pfx19 d a b w g (fun _ w x y => (if laneInt w y < laneInt w x then x else y, {})) s

/-- R212, VIMINU. -/
def execViminu (d : Dst) (a b : Src) (w : IWidth) (g : Guard) (s : State) : Out :=
  int2 (.viminu d a b w g) pfx19 d a b w g (fun _ _ x y => (Nat.min x y, {})) s

/-- R212, VIMAXU. -/
def execVimaxu (d : Dst) (a b : Src) (w : IWidth) (g : Guard) (s : State) : Out :=
  int2 (.vimaxu d a b w g) pfx19 d a b w g (fun _ _ x y => (Nat.max x y, {})) s

/-- R212, VAND. -/
def execVand (d : Dst) (a b : Src) (w : IWidth) (g : Guard) (s : State) : Out :=
  int2 (.vand d a b w g) pfx19 d a b w g (fun _ _ x y => (x &&& y, {})) s

/-- R212, VOR. -/
def execVor (d : Dst) (a b : Src) (w : IWidth) (g : Guard) (s : State) : Out :=
  int2 (.vor d a b w g) pfx19 d a b w g (fun _ _ x y => (x ||| y, {})) s

/-- R212, VXOR. -/
def execVxor (d : Dst) (a b : Src) (w : IWidth) (g : Guard) (s : State) : Out :=
  int2 (.vxor d a b w g) pfx19 d a b w g (fun _ _ x y => (x ^^^ y, {})) s

/-- R212, VSHL by the low bits of the lane of wb. -/
def execVshl (d : Dst) (a b : Src) (w : IWidth) (g : Guard) (s : State) : Out :=
  int2 (.vshl d a b w g) pfx19 d a b w g (fun _ w x y => (x * 2 ^ (y % w) % 2 ^ w, {})) s

/-- R212, VSHR. -/
def execVshr (d : Dst) (a b : Src) (w : IWidth) (g : Guard) (s : State) : Out :=
  int2 (.vshr d a b w g) pfx19 d a b w g (fun _ w x y => (x / 2 ^ (y % w), {})) s

/-- R212, VSAR. -/
def execVsar (d : Dst) (a b : Src) (w : IWidth) (g : Guard) (s : State) : Out :=
  int2 (.vsar d a b w g) pfx19 d a b w g (fun _ w x y => (intLane w (laneInt w x / ((2 ^ (y % w) : Nat) : Int)), {})) s

/-- R212, VICMPEQ. -/
def execVicmpeq (a b : Src) (w : IWidth) (g : Guard) (s : State) : Out :=
  intCmp (.vicmpeq a b w g) a b w g (fun _ x y => x == y) s

/-- R212, VICMPLT. -/
def execVicmplt (a b : Src) (w : IWidth) (g : Guard) (s : State) : Out :=
  intCmp (.vicmplt a b w g) a b w g (fun w x y => decide (laneInt w x < laneInt w y)) s

/-- R212, VICMPLTU. -/
def execVicmpltu (a b : Src) (w : IWidth) (g : Guard) (s : State) : Out :=
  intCmp (.vicmpltu a b w g) a b w g (fun _ x y => decide (x < y)) s

/-- R213 to R216, CVT: bits above the result lanes are cleared, or kept under MASK. -/
def execCvt (d : Dst) (a : Src) (fr dest : CvtTy) (g : Guard) (s : State) : Out :=
  s.issue (.cvt d a fr dest g) (.fmt (fr == .int || dest == .int) true true true) .any g (fun s => s.ops1 d a (fun x s1 =>
    let p := fmtOf s.me
    let fw := CvtTy.bits fr p.ty
    let tw := CvtTy.bits dest p.ty
    let n := 128 / Nat.max fw tw
    let rs := (List.range n).map (fun i => convertLane fr dest p (lane fw x i))
    let on := laneOn s1.me p.mask
    let o := s1.oldValue d p.mask
    let low := ofLanes tw ((List.range n).map (fun i => if on i then (nth (0, {}) rs i).1 else lane tw o.1 i))
    let high := if p.mask then o.1.toNat / 2 ^ (n * tw) else 0
    o.2.retire { result d (w128 (low + high * 2 ^ (n * tw))) with flags := Flags.sts (laneFlags on 0 (rs.map (·.2))) }))

/-- R217, VSHUF: lane i is lane (lane i of wb) of wa, zero past the last. -/
def execVshuf (d : Dst) (a b : Src) (w : IWidth) (g : Guard) (s : State) : Out :=
  move2 (.vshuf d a b w g) d a b w g (fun _ x y i => if y i < IWidth.lanes w then x (y i) else 0) s

/-- R217, VSPLAT: lane 0 everywhere. -/
def execVsplat (d : Dst) (a : Src) (w : IWidth) (g : Guard) (s : State) : Out :=
  move1 (.vsplat d a w g) d a w g (fun x _ => x 0) s

/-- R217, VSEL: by the lane predicates as they are at issue. -/
def execVsel (d : Dst) (a b : Src) (w : IWidth) (g : Guard) (s : State) : Out :=
  move2 (.vsel d a b w g) d a b w g (fun t x y i => if bit t.preds (16 + i) then x i else y i) s

/-- R217, VEXT: lane n in lane 0, zero elsewhere. -/
def execVext (d : Dst) (a : Src) (n : BitVec 5) (w : IWidth) (g : Guard) (s : State) : Out :=
  move1 (.vext d a n w g) d a w g (fun x i => if i = 0 then x n.toNat else 0) s

/-- R217, VINS: lane 0 of wa in lane n of wd. -/
def execVins (d : RegZ) (a : Src) (n : BitVec 5) (w : IWidth) (g : Guard) (s : State) : Out :=
  s.issue (.vins d a n w g) pfx19 .any g (fun s => s.src a (fun x s1 =>
    let k := IWidth.bits w
    let z := regz s.me d
    s1.retireLanes (RegZ.dst d) (fmtOf s.me).mask k
      ((List.range (128 / k)).map (fun i => (if i = n.toNat then lane k x 0 else lane k z i, {})))))

/-- R217, VROT: lanes rotated down by n. -/
def execVrot (d : Dst) (a : Src) (n : BitVec 5) (w : IWidth) (g : Guard) (s : State) : Out :=
  move1 (.vrot d a n w g) d a w g (fun x i => x ((i + n.toNat) % IWidth.lanes w)) s

/-- R217, VZIPL: the low halves interleaved. -/
def execVzipl (d : Dst) (a b : Src) (w : IWidth) (g : Guard) (s : State) : Out :=
  move2 (.vzipl d a b w g) d a b w g (fun _ x y i => if i % 2 = 0 then x (i / 2) else y (i / 2)) s

/-- R217, VZIPH: the high halves interleaved. -/
def execVziph (d : Dst) (a b : Src) (w : IWidth) (g : Guard) (s : State) : Out :=
  move2 (.vziph d a b w g) d a b w g (fun _ x y i =>
    if i % 2 = 0 then x (IWidth.lanes w / 2 + i / 2) else y (IWidth.lanes w / 2 + i / 2)) s

end Sys2Proof.Machine
end

