-- ==== Sys2Proof/Machine/Dispatch.lean ====
section
/-!
DEFINITION. The dispatch: one arm per instruction and step, each a direct call of its meaning.
-/
namespace Sys2Proof.Machine

/-- The meaning of an instruction or step. -/
def exec (i : Instr) (s : State) : Host.Outcome State Fault Refusal :=
  match i with
  | .add d a b g => Sys2Proof.Machine.execAdd d a b g s
  | .sub d a b g => Sys2Proof.Machine.execSub d a b g s
  | .and d a b g => Sys2Proof.Machine.execAnd d a b g s
  | .or d a b g => Sys2Proof.Machine.execOr d a b g s
  | .xor d a b g => Sys2Proof.Machine.execXor d a b g s
  | .andn d a b g => Sys2Proof.Machine.execAndn d a b g s
  | .shl d a b g => Sys2Proof.Machine.execShl d a b g s
  | .shr d a b g => Sys2Proof.Machine.execShr d a b g s
  | .sar d a b g => Sys2Proof.Machine.execSar d a b g s
  | .mul d a b g => Sys2Proof.Machine.execMul d a b g s
  | .mulh d a b g => Sys2Proof.Machine.execMulh d a b g s
  | .mulhu d a b g => Sys2Proof.Machine.execMulhu d a b g s
  | .min d a b g => Sys2Proof.Machine.execMin d a b g s
  | .max d a b g => Sys2Proof.Machine.execMax d a b g s
  | .minu d a b g => Sys2Proof.Machine.execMinu d a b g s
  | .maxu d a b g => Sys2Proof.Machine.execMaxu d a b g s
  | .clz d a g => Sys2Proof.Machine.execClz d a g s
  | .ctz d a g => Sys2Proof.Machine.execCtz d a g s
  | .popc d a g => Sys2Proof.Machine.execPopc d a g s
  | .addi d a imm g => Sys2Proof.Machine.execAddi d a imm g s
  | .andi d a imm g => Sys2Proof.Machine.execAndi d a imm g s
  | .ori d a imm g => Sys2Proof.Machine.execOri d a imm g s
  | .xori d a imm g => Sys2Proof.Machine.execXori d a imm g s
  | .shli d a n g => Sys2Proof.Machine.execShli d a n g s
  | .shri d a n g => Sys2Proof.Machine.execShri d a n g s
  | .sari d a n g => Sys2Proof.Machine.execSari d a n g s
  | .cmp pd a b comb cc g => Sys2Proof.Machine.execCmp pd a b comb cc g s
  | .cmpi pd a cc imm g => Sys2Proof.Machine.execCmpi pd a cc imm g s
  | .pand pd pa pb g => Sys2Proof.Machine.execPand pd pa pb g s
  | .por pd pa pb g => Sys2Proof.Machine.execPor pd pa pb g s
  | .pxor pd pa pb g => Sys2Proof.Machine.execPxor pd pa pb g s
  | .pandn pd pa pb g => Sys2Proof.Machine.execPandn pd pa pb g s
  | .pnot pd pa g => Sys2Proof.Machine.execPnot pd pa g s
  | .pany pd n g => Sys2Proof.Machine.execPany pd n g s
  | .pall pd n g => Sys2Proof.Machine.execPall pd n g s
  | .prd d g => Sys2Proof.Machine.execPrd d g s
  | .pwr a g => Sys2Proof.Machine.execPwr a g s
  | .movi d imm g => Sys2Proof.Machine.execMovi d imm g s
  | .div d a b g => Sys2Proof.Machine.execDiv d a b g s
  | .divu d a b g => Sys2Proof.Machine.execDivu d a b g s
  | .rem d a b g => Sys2Proof.Machine.execRem d a b g s
  | .remu d a b g => Sys2Proof.Machine.execRemu d a b g s
  | .b disp g => Sys2Proof.Machine.execB disp g s
  | .bl disp g => Sys2Proof.Machine.execBl disp g s
  | .br a g => Sys2Proof.Machine.execBr a g s
  | .blr d a g => Sys2Proof.Machine.execBlr d a g s
  | .trap n g => Sys2Proof.Machine.execTrap n g s
  | .svc n g => Sys2Proof.Machine.execSvc n g s
  | .rft g => Sys2Proof.Machine.execRft g s
  | .halt g => Sys2Proof.Machine.execHalt g s
  | .yield g => Sys2Proof.Machine.execYield g s
  | .nop g => Sys2Proof.Machine.execNop g s
  | .csrr d csr g => Sys2Proof.Machine.execCsrr d csr g s
  | .csrw csr a g => Sys2Proof.Machine.execCsrw csr a g s
  | .tlbi a b g => Sys2Proof.Machine.execTlbi a b g s
  | .vadd d a b f g => Sys2Proof.Machine.execVadd d a b f g s
  | .vsub d a b f g => Sys2Proof.Machine.execVsub d a b f g s
  | .vmul d a b f g => Sys2Proof.Machine.execVmul d a b f g s
  | .vfma d a b f g => Sys2Proof.Machine.execVfma d a b f g s
  | .vfms d a b f g => Sys2Proof.Machine.execVfms d a b f g s
  | .vmin d a b f g => Sys2Proof.Machine.execVmin d a b f g s
  | .vmax d a b f g => Sys2Proof.Machine.execVmax d a b f g s
  | .vabs d a f g => Sys2Proof.Machine.execVabs d a f g s
  | .vneg d a f g => Sys2Proof.Machine.execVneg d a f g s
  | .vcmpeq a b f g => Sys2Proof.Machine.execVcmpeq a b f g s
  | .vcmplt a b f g => Sys2Proof.Machine.execVcmplt a b f g s
  | .vcmple a b f g => Sys2Proof.Machine.execVcmple a b f g s
  | .vcmpun a b f g => Sys2Proof.Machine.execVcmpun a b f g s
  | .vrsum d a f g => Sys2Proof.Machine.execVrsum d a f g s
  | .viadd d a b w g => Sys2Proof.Machine.execViadd d a b w g s
  | .visub d a b w g => Sys2Proof.Machine.execVisub d a b w g s
  | .vimul d a b w g => Sys2Proof.Machine.execVimul d a b w g s
  | .vimin d a b w g => Sys2Proof.Machine.execVimin d a b w g s
  | .vimax d a b w g => Sys2Proof.Machine.execVimax d a b w g s
  | .viminu d a b w g => Sys2Proof.Machine.execViminu d a b w g s
  | .vimaxu d a b w g => Sys2Proof.Machine.execVimaxu d a b w g s
  | .vand d a b w g => Sys2Proof.Machine.execVand d a b w g s
  | .vor d a b w g => Sys2Proof.Machine.execVor d a b w g s
  | .vxor d a b w g => Sys2Proof.Machine.execVxor d a b w g s
  | .vshl d a b w g => Sys2Proof.Machine.execVshl d a b w g s
  | .vshr d a b w g => Sys2Proof.Machine.execVshr d a b w g s
  | .vsar d a b w g => Sys2Proof.Machine.execVsar d a b w g s
  | .vicmpeq a b w g => Sys2Proof.Machine.execVicmpeq a b w g s
  | .vicmplt a b w g => Sys2Proof.Machine.execVicmplt a b w g s
  | .vicmpltu a b w g => Sys2Proof.Machine.execVicmpltu a b w g s
  | .cvt d a fr dest g => Sys2Proof.Machine.execCvt d a fr dest g s
  | .vshuf d a b w g => Sys2Proof.Machine.execVshuf d a b w g s
  | .vsplat d a w g => Sys2Proof.Machine.execVsplat d a w g s
  | .vsel d a b w g => Sys2Proof.Machine.execVsel d a b w g s
  | .vext d a n w g => Sys2Proof.Machine.execVext d a n w g s
  | .vins d a n w g => Sys2Proof.Machine.execVins d a n w g s
  | .vrot d a n w g => Sys2Proof.Machine.execVrot d a n w g s
  | .vzipl d a b w g => Sys2Proof.Machine.execVzipl d a b w g s
  | .vziph d a b w g => Sys2Proof.Machine.execVziph d a b w g s
  | .frcp d a f g => Sys2Proof.Machine.execFrcp d a f g s
  | .frsq d a f g => Sys2Proof.Machine.execFrsq d a f g s
  | .fsqrt d a f g => Sys2Proof.Machine.execFsqrt d a f g s
  | .fexp2 d a f g => Sys2Proof.Machine.execFexp2 d a f g s
  | .flog2 d a f g => Sys2Proof.Machine.execFlog2 d a f g s
  | .fsin d a f g => Sys2Proof.Machine.execFsin d a f g s
  | .fcos d a f g => Sys2Proof.Machine.execFcos d a f g s
  | .ftanh d a f g => Sys2Proof.Machine.execFtanh d a f g s
  | .fsigm d a f g => Sys2Proof.Machine.execFsigm d a f g s
  | .fdiv d a b f g => Sys2Proof.Machine.execFdiv d a b f g s
  | .ld d base off k g => Sys2Proof.Machine.execLd d base off k g s
  | .st a base off k g => Sys2Proof.Machine.execSt a base off k g s
  | .ldx d base off sc g => Sys2Proof.Machine.execLdx d base off sc g s
  | .stx a base off sc g => Sys2Proof.Machine.execStx a base off sc g s
  | .aadd base b o sc z g => Sys2Proof.Machine.execAadd base b o sc z g s
  | .aand base b o sc z g => Sys2Proof.Machine.execAand base b o sc z g s
  | .aor base b o sc z g => Sys2Proof.Machine.execAor base b o sc z g s
  | .axor base b o sc z g => Sys2Proof.Machine.execAxor base b o sc z g s
  | .amin base b o sc z g => Sys2Proof.Machine.execAmin base b o sc z g s
  | .amax base b o sc z g => Sys2Proof.Machine.execAmax base b o sc z g s
  | .aminu base b o sc z g => Sys2Proof.Machine.execAminu base b o sc z g s
  | .amaxu base b o sc z g => Sys2Proof.Machine.execAmaxu base b o sc z g s
  | .aswp base b o sc z g => Sys2Proof.Machine.execAswp base b o sc z g s
  | .acas base b o sc z g => Sys2Proof.Machine.execAcas base b o sc z g s
  | .afadd base b o sc z g => Sys2Proof.Machine.execAfadd base b o sc z g s
  | .ldo base b o sc z g => Sys2Proof.Machine.execLdo base b o sc z g s
  | .sto base b o sc z g => Sys2Proof.Machine.execSto base b o sc z g s
  | .fenceAcq sc g => Sys2Proof.Machine.execFenceAcq sc g s
  | .fenceRel sc g => Sys2Proof.Machine.execFenceRel sc g s
  | .fenceAr sc g => Sys2Proof.Machine.execFenceAr sc g s
  | .fenceSc sc g => Sys2Proof.Machine.execFenceSc sc g s
  | .tdef a t g => Sys2Proof.Machine.execTdef a t g s
  | .trd a t g => Sys2Proof.Machine.execTrd a t g s
  | .trdMc a b t g => Sys2Proof.Machine.execTrdMc a b t g s
  | .twr a t g => Sys2Proof.Machine.execTwr a t g s
  | .trel t g => Sys2Proof.Machine.execTrel t g s
  | .tstat d t g => Sys2Proof.Machine.execTstat d t g s
  | .sbindIn a r g => Sys2Proof.Machine.execSbindIn a r g s
  | .sbindOut a r g => Sys2Proof.Machine.execSbindOut a r g s
  | .qwait d r lim g => Sys2Proof.Machine.execQwait d r lim g s
  | .seos g => Sys2Proof.Machine.execSeos g s
  | .sclose r g => Sys2Proof.Machine.execSclose r g s
  | .dlv a b n g => Sys2Proof.Machine.execDlv a b n g s
  | .mdlv a b n g => Sys2Proof.Machine.execMdlv a b n g s
  | .waitp a lim g => Sys2Proof.Machine.execWaitp a lim g s
  | .clrp a g => Sys2Proof.Machine.execClrp a g s
  | .mbx a m g => Sys2Proof.Machine.execMbx a m g s
  | .mbr d m g => Sys2Proof.Machine.execMbr d m g s
  | .mwait a c l g => Sys2Proof.Machine.execMwait a c l g s
  | .cnti d a g => Sys2Proof.Machine.execCnti d a g s
  | .cntd d a g => Sys2Proof.Machine.execCntd d a g s
  | .cbar d a g => Sys2Proof.Machine.execCbar d a g s
  | .cwait a b g => Sys2Proof.Machine.execCwait a b g s
  | .cqry d a g => Sys2Proof.Machine.execCqry d a g s
  | .spawnBound d a b g => Sys2Proof.Machine.execSpawnBound d a b g s
  | .spawnFollow d a b g => Sys2Proof.Machine.execSpawnFollow d a b g s
  | .spawnPos d a b g => Sys2Proof.Machine.execSpawnPos d a b g s
  | .spawnShuttle d a b g => Sys2Proof.Machine.execSpawnShuttle d a b g s
  | .reap d a g => Sys2Proof.Machine.execReap d a g s
  | .stop a g => Sys2Proof.Machine.execStop a g s
  | .migr a g => Sys2Proof.Machine.execMigr a g s
  | .widf d a k g => Sys2Proof.Machine.execWidf d a k g s
  | .slotid d g => Sys2Proof.Machine.execSlotid d g s
  | .posr d g => Sys2Proof.Machine.execPosr d g s
  | .nbrFirst d a g => Sys2Proof.Machine.execNbrFirst d a g s
  | .nbrNext d g => Sys2Proof.Machine.execNbrNext d g s
  | .settle g => Sys2Proof.Machine.execSettle g s
  | .fmap d a g => Sys2Proof.Machine.execFmap d a g s
  | .forkSeq a b h g => Sys2Proof.Machine.execForkSeq a b h g s
  | .forkLoad a b h g => Sys2Proof.Machine.execForkLoad a b h g s
  | .forkStore a b h g => Sys2Proof.Machine.execForkStore a b h g s
  | .forkCopy a b h g => Sys2Proof.Machine.execForkCopy a b h g s
  | .rdv h g => Sys2Proof.Machine.execRdv h g s
  | .job a g => Sys2Proof.Machine.execJob a g s
  | .xid a b g => Sys2Proof.Machine.execXid a b g s
  | .xwait a b g => Sys2Proof.Machine.execXwait a b g s
  | .mxcfg a g => Sys2Proof.Machine.execMxcfg a g s
  | .mxz g => Sys2Proof.Machine.execMxz g s
  | .mxrun a b g => Sys2Proof.Machine.execMxrun a b g s
  | .mxprom a g => Sys2Proof.Machine.execMxprom a g s
  | .mxst a b g => Sys2Proof.Machine.execMxst a b g s
  | .mxperm d a b g => Sys2Proof.Machine.execMxperm d a b g s
  | .semw sem g => Sys2Proof.Machine.execSemw sem g s
  | .sems sem g => Sys2Proof.Machine.execSems sem g s
  | .asn a b h g => Sys2Proof.Machine.execAsn a b h g s
  | .imm v => Sys2Proof.Machine.execImm v s
  | .fmt sat mask rnd ty => Sys2Proof.Machine.execFmt sat mask rnd ty s
  | .hintBranchTarget o => Sys2Proof.Machine.execHintBranchTarget o s
  | .hintNoBorrow o => Sys2Proof.Machine.execHintNoBorrow o s
  | .hint o code => Sys2Proof.Machine.execHint o code s
  | .deferredTrap x => Sys2Proof.Machine.execDeferredTrap x s
  | .trapRecordWrite x => Sys2Proof.Machine.execTrapRecordWrite x s
  | .xtrResume tag seq => Sys2Proof.Machine.execXtrResume tag seq s
  | .xtrStop tag seq => Sys2Proof.Machine.execXtrStop tag seq s
  | .dbgcResume u slots => Sys2Proof.Machine.execDbgcResume u slots s
  | .svcq u tag d => Sys2Proof.Machine.execSvcq u tag d s
  | .svcdone u tag v => Sys2Proof.Machine.execSvcdone u tag v s
  | .fefill die bay v => Sys2Proof.Machine.execFefill die bay v s
  | .feempty die bay v => Sys2Proof.Machine.execFeempty die bay v s
  | .registerWrite writer die off v part => Sys2Proof.Machine.execRegisterWrite writer die off v part s
  | .counterDescriptorWrite writer die inst word v part => Sys2Proof.Machine.execCounterDescriptorWrite writer die inst word v part s
  | .xfrReplay tag fid => Sys2Proof.Machine.execXfrReplay tag fid s
  | .xfrFail tag fid => Sys2Proof.Machine.execXfrFail tag fid s
  | .missQueueEntry die idx => Sys2Proof.Machine.execMissQueueEntry die idx s
  | .walkTableRead die idx => Sys2Proof.Machine.execWalkTableRead die idx s
  | .walkEnd die idx => Sys2Proof.Machine.execWalkEnd die idx s
  | .faultRecordDeferredWrite tag => Sys2Proof.Machine.execFaultRecordDeferredWrite tag s
  | .tlbiComplete x => Sys2Proof.Machine.execTlbiComplete x s
  | .writeBufferDrain die dest => Sys2Proof.Machine.execWriteBufferDrain die dest s
  | .linkWriteAck die dev => Sys2Proof.Machine.execLinkWriteAck die dev s
  | .rdcExpiry die idx => Sys2Proof.Machine.execRdcExpiry die idx s
  | .homeAccess x => Sys2Proof.Machine.execHomeAccess x s
  | .deviceRelease r => Sys2Proof.Machine.execDeviceRelease r s
  | .streamModeEnd u k => Sys2Proof.Machine.execStreamModeEnd u k s
  | .parkTableTimeout die bay idx => Sys2Proof.Machine.execParkTableTimeout die bay idx s
  | .retryReissue x => Sys2Proof.Machine.execRetryReissue x s
  | .fillRead id line => Sys2Proof.Machine.execFillRead id line s
  | .fillReadStep die bay idx => Sys2Proof.Machine.execFillReadStep die bay idx s
  | .tileLanding id idx => Sys2Proof.Machine.execTileLanding id idx s
  | .multicastStartAccept id idx => Sys2Proof.Machine.execMulticastStartAccept id idx s
  | .tileDrainStore id line => Sys2Proof.Machine.execTileDrainStore id line s
  | .tileDrainReady id => Sys2Proof.Machine.execTileDrainReady id s
  | .streamPush x => Sys2Proof.Machine.execStreamPush x s
  | .streamPushTimeout x => Sys2Proof.Machine.execStreamPushTimeout x s
  | .streamTimeout x => Sys2Proof.Machine.execStreamTimeout x s
  | .heddleStep die inst idx => Sys2Proof.Machine.execHeddleStep die inst idx s
  | .exitStep die inst idx => Sys2Proof.Machine.execExitStep die inst idx s
  | .barrierTimeout x => Sys2Proof.Machine.execBarrierTimeout x s
  | .migrationDepart x => Sys2Proof.Machine.execMigrationDepart x s
  | .migrationLanding id => Sys2Proof.Machine.execMigrationLanding id s
  | .creelQuantumEnd x => Sys2Proof.Machine.execCreelQuantumEnd x s
  | .messageDelivery id => Sys2Proof.Machine.execMessageDelivery id s
  | .mdlvSlotDelivery x slot => Sys2Proof.Machine.execMdlvSlotDelivery x slot s
  | .presenceWaitTimeout x => Sys2Proof.Machine.execPresenceWaitTimeout x s
  | .mailboxCountTimeout x => Sys2Proof.Machine.execMailboxCountTimeout x s
  | .sfuQueueHead u => Sys2Proof.Machine.execSfuQueueHead u s
  | .operationReply x => Sys2Proof.Machine.execOperationReply x s
  | .watchdogExpiry x => Sys2Proof.Machine.execWatchdogExpiry x s
  | .jobStart id => Sys2Proof.Machine.execJobStart id s
  | .jobElement id idx => Sys2Proof.Machine.execJobElement id idx s
  | .jobCompletion id => Sys2Proof.Machine.execJobCompletion id s
  | .packetLanding id idx => Sys2Proof.Machine.execPacketLanding id idx s
  | .programStrandStart id => Sys2Proof.Machine.execProgramStrandStart id s
  | .sequencerStep die bay tag => Sys2Proof.Machine.execSequencerStep die bay tag s
  | .mxuOpStart die bay tag => Sys2Proof.Machine.execMxuOpStart die bay tag s
  | .mxuOpComplete die bay tag => Sys2Proof.Machine.execMxuOpComplete die bay tag s
  | .operandMessage id => Sys2Proof.Machine.execOperandMessage id s
  | .scaleRequest id => Sys2Proof.Machine.execScaleRequest id s
  | .operandTimeout die bay tag => Sys2Proof.Machine.execOperandTimeout die bay tag s
  | .scaleTimeout die bay tag => Sys2Proof.Machine.execScaleTimeout die bay tag s
  | .asnStart die cluster => Sys2Proof.Machine.execAsnStart die cluster s
  | .asnRound die cluster => Sys2Proof.Machine.execAsnRound die cluster s
  | .transferWaitTimeout x => Sys2Proof.Machine.execTransferWaitTimeout x s
  | .launch tag q => Sys2Proof.Machine.execLaunch tag q s
  | .waitfc tag q => Sys2Proof.Machine.execWaitfc tag q s
  | .sigfc tag q => Sys2Proof.Machine.execSigfc tag q s
  | .skipif tag q => Sys2Proof.Machine.execSkipif tag q s
  | .jump tag q => Sys2Proof.Machine.execJump tag q s
  | .call tag q => Sys2Proof.Machine.execCall tag q s
  | .ret tag q => Sys2Proof.Machine.execRet tag q s
  | .patch tag q => Sys2Proof.Machine.execPatch tag q s
  | .listJob tag q => Sys2Proof.Machine.execListJob tag q s
  | .launchPacket id => Sys2Proof.Machine.execLaunchPacket id s
  | .sliceExpiry island => Sys2Proof.Machine.execSliceExpiry island s
  | .handOver island tag => Sys2Proof.Machine.execHandOver island tag s
  | .rangeLoaded die bay tag => Sys2Proof.Machine.execRangeLoaded die bay tag s
  | .partitionReset tag => Sys2Proof.Machine.execPartitionReset tag s
  | .pf0Reset => Sys2Proof.Machine.execPf0Reset s
  | .powerGood dev domain => Sys2Proof.Machine.execPowerGood dev domain s
  | .islandStart island pass => Sys2Proof.Machine.execIslandStart island pass s
  | .linkRetrain dev => Sys2Proof.Machine.execLinkRetrain dev s
  | .linkFailure dev => Sys2Proof.Machine.execLinkFailure dev s
  | .foreignRequest r => Sys2Proof.Machine.execForeignRequest r s
  | .laneRecalibration die host out => Sys2Proof.Machine.execLaneRecalibration die host out s
  | .baySparing die bay => Sys2Proof.Machine.execBaySparing die bay s
  | .islandUpdate island pass => Sys2Proof.Machine.execIslandUpdate island pass s
  | .uncorrectableError die bay line => Sys2Proof.Machine.execUncorrectableError die bay line s
  | .getVersion => Sys2Proof.Machine.execGetVersion s
  | .getCapabilities => Sys2Proof.Machine.execGetCapabilities s
  | .negotiateAlgorithms p521 sha512 => Sys2Proof.Machine.execNegotiateAlgorithms p521 sha512 s
  | .getDigests => Sys2Proof.Machine.execGetDigests s
  | .getCertificate off len => Sys2Proof.Machine.execGetCertificate off len s
  | .challenge nonce => Sys2Proof.Machine.execChallenge nonce s
  | .getMeasurements nonce => Sys2Proof.Machine.execGetMeasurements nonce s
  | .meterIncrement tag meter amount => Sys2Proof.Machine.execMeterIncrement tag meter amount s
  | .meterSnapshot tag nonce => Sys2Proof.Machine.execMeterSnapshot tag nonce s
  | .illegalInstruction w => Sys2Proof.Machine.execIllegalInstruction w s
  | .budgetExhausted island => Sys2Proof.Machine.execBudgetExhausted island s
  | .thermalThrottleEvent die bay begins => Sys2Proof.Machine.execThermalThrottleEvent die bay begins s
  | .correctedError die => Sys2Proof.Machine.execCorrectedError die s
  | .flitRetry die => Sys2Proof.Machine.execFlitRetry die s

end Sys2Proof.Machine
end

