-- ==== Sys2Proof/Machine/Place.lean ====
section
/-!
DEFINITION. Where a word is placed so that the next step fetches and runs it: a strand on bay 0 of die 0 that a launch has started,
in a slot whose role admits the word (Table 6-6), with its code page in the bay TLB (log 18).
-/
namespace Sys2Proof.Machine

/-- A slot that may issue a word: 13 for the loom, 15 for the shuttle, 0 for the head and the system instructions, else 1
(Table 6-6). -/
def slotFor (w : Nat) : Nat :=
  let mj := w / 2 ^ 26
  if mj = 0x2E || mj = 0x2F then 13
  else if (mj = 0x26 && w / 2 ^ 13 % 8 == 2) || (mj = 0x29 && w / 2 ^ 13 % 8 == 1) then 15
  else if mj = 0x2B && decide (w / 2 ^ 8 % 8 ≤ 1) then 0
  else 1

/-- The leaf of the code page: 64 KiB at offset 0 of bay 0's vault, bay-linear, executable (Table 1-4). -/
def codeLeaf : W64 := pack [(1, 63), (1, 62), (2, 60), (1, 56)]

/-- The strand that runs the placed word: tenant 0, in its slot, at address 0. -/
def placedStrand (s : State) (n : Nat) : Strand :=
  { Strand.init with place := .slot UnitId.zero n, status := .ready, nslot := n, gen := 1, quantum := s.clock }

/-- Places a word: it is stored at the first bytes of bay 0's vault, tenant 0's paging is enabled, a strand of it stands at the word, and the
next choice is the strand's turn. -/
def State.placeWord (s : State) (w : W32) : State :=
  let n := slotFor w.toNat
  let wait := (n + 16 - s.cycle 0 0 % 16) % 16
  let s1 := s.putBytes 0 (wordBytes w)
  let s2 := s1.setStrand s.nextId (placedStrand s n)
  let s3 := s2.modUnit UnitId.zero (fun u => { u with tlb := [⟨0, 3, 0, codeLeaf⟩], lastTurn := 0 })
  let s4 := s3.modTen 0 0 0 (fun t => { t with loaded := true })
  let s5 := s4.modIsland 0 (fun i => { i with started := true, resident := [0], running := some 0, prev := some 0, cfg := 0x80#64 })
  let s6 := s5.modPart 0 (fun p => { p with xtb := setBit p.xtb 0 true })
  { s6 with nextId := s.nextId + 1, agenda := [⟨wait, .turn UnitId.zero n true⟩], dev := { s6.dev with stage := 3 } }

end Sys2Proof.Machine
end

