-- ==== Sys2Proof/Machine/Lending.lean ====
section
/-!
DEFINITION. What the lending of turns looks at (spec 06, R125, R127, Table 6-4): which instructions may borrow a turn, when their
results are written, and the registers and predicates they read and write.
-/
namespace Sys2Proof.Machine

/-- An instruction as lending sees it: whether its major may borrow, its result latency in core cycles, the registers (0 to 23) and
predicates (32 up) that it reads and writes, and whether it names qi or qo. -/
structure IssueInfo where
  lends  : Bool
  lat    : Nat
  reads  : List Nat
  writes : List Nat
  ring   : Bool
deriving DecidableEq, Repr

/-- The register a source reads. -/
def srcReg : Src → List Nat
  | .w i => [i.val]
  | .wz => []
  | .qi => []

/-- The register a destination writes. -/
def dstReg : Dst → List Nat
  | .w i => [i.val]
  | .wz => []
  | .qo => []

/-- The register of a field that is a register or wz. -/
def regzReg : RegZ → List Nat
  | .w i => [i.val]
  | .wz => []

/-- The predicate a guard reads. -/
def guardRead (g : Guard) : List Nat := [32 + g.p.val]

/-- Lending's view of an instruction (R127, Table 6-4). A latency that Table 6-4 does not give is the longest that R125 admits. An
instruction that is not listed, or whose latency is 0 here, leaves rotation or writes no register, and never borrows. -/
def issueInfo : Instr → IssueInfo
  | .add d a b g => ⟨true, 2, srcReg a ++ srcReg b ++ guardRead g, dstReg d, d == .qo || a == .qi || b == .qi⟩
  | .sub d a b g => ⟨true, 2, srcReg a ++ srcReg b ++ guardRead g, dstReg d, d == .qo || a == .qi || b == .qi⟩
  | .and d a b g => ⟨true, 2, srcReg a ++ srcReg b ++ guardRead g, dstReg d, d == .qo || a == .qi || b == .qi⟩
  | .or d a b g => ⟨true, 2, srcReg a ++ srcReg b ++ guardRead g, dstReg d, d == .qo || a == .qi || b == .qi⟩
  | .xor d a b g => ⟨true, 2, srcReg a ++ srcReg b ++ guardRead g, dstReg d, d == .qo || a == .qi || b == .qi⟩
  | .andn d a b g => ⟨true, 2, srcReg a ++ srcReg b ++ guardRead g, dstReg d, d == .qo || a == .qi || b == .qi⟩
  | .shl d a b g => ⟨true, 2, srcReg a ++ srcReg b ++ guardRead g, dstReg d, d == .qo || a == .qi || b == .qi⟩
  | .shr d a b g => ⟨true, 2, srcReg a ++ srcReg b ++ guardRead g, dstReg d, d == .qo || a == .qi || b == .qi⟩
  | .sar d a b g => ⟨true, 2, srcReg a ++ srcReg b ++ guardRead g, dstReg d, d == .qo || a == .qi || b == .qi⟩
  | .mul d a b g => ⟨true, 2, srcReg a ++ srcReg b ++ guardRead g, dstReg d, d == .qo || a == .qi || b == .qi⟩
  | .mulh d a b g => ⟨true, 2, srcReg a ++ srcReg b ++ guardRead g, dstReg d, d == .qo || a == .qi || b == .qi⟩
  | .mulhu d a b g => ⟨true, 2, srcReg a ++ srcReg b ++ guardRead g, dstReg d, d == .qo || a == .qi || b == .qi⟩
  | .min d a b g => ⟨true, 2, srcReg a ++ srcReg b ++ guardRead g, dstReg d, d == .qo || a == .qi || b == .qi⟩
  | .max d a b g => ⟨true, 2, srcReg a ++ srcReg b ++ guardRead g, dstReg d, d == .qo || a == .qi || b == .qi⟩
  | .minu d a b g => ⟨true, 2, srcReg a ++ srcReg b ++ guardRead g, dstReg d, d == .qo || a == .qi || b == .qi⟩
  | .maxu d a b g => ⟨true, 2, srcReg a ++ srcReg b ++ guardRead g, dstReg d, d == .qo || a == .qi || b == .qi⟩
  | .clz d a g => ⟨true, 2, srcReg a ++ guardRead g, dstReg d, d == .qo || a == .qi⟩
  | .ctz d a g => ⟨true, 2, srcReg a ++ guardRead g, dstReg d, d == .qo || a == .qi⟩
  | .popc d a g => ⟨true, 2, srcReg a ++ guardRead g, dstReg d, d == .qo || a == .qi⟩
  | .addi d a _ g => ⟨true, 2, srcReg a ++ guardRead g, dstReg d, d == .qo || a == .qi⟩
  | .andi d a _ g => ⟨true, 2, srcReg a ++ guardRead g, dstReg d, d == .qo || a == .qi⟩
  | .ori d a _ g => ⟨true, 2, srcReg a ++ guardRead g, dstReg d, d == .qo || a == .qi⟩
  | .xori d a _ g => ⟨true, 2, srcReg a ++ guardRead g, dstReg d, d == .qo || a == .qi⟩
  | .shli d a _ g => ⟨true, 2, srcReg a ++ guardRead g, dstReg d, d == .qo || a == .qi⟩
  | .shri d a _ g => ⟨true, 2, srcReg a ++ guardRead g, dstReg d, d == .qo || a == .qi⟩
  | .sari d a _ g => ⟨true, 2, srcReg a ++ guardRead g, dstReg d, d == .qo || a == .qi⟩
  | .cmp pd a b comb _ g => ⟨true, 2, (if comb = .set then [] else [32 + pd.val]) ++ srcReg a ++ srcReg b ++ guardRead g, [32 + pd.val], a == .qi || b == .qi⟩
  | .cmpi pd a _ _ g => ⟨true, 2, srcReg a ++ guardRead g, [32 + pd.val], a == .qi⟩
  | .pand pd pa pb g => ⟨true, 2, [32 + pa.val] ++ [32 + pb.val] ++ guardRead g, [32 + pd.val], false⟩
  | .por pd pa pb g => ⟨true, 2, [32 + pa.val] ++ [32 + pb.val] ++ guardRead g, [32 + pd.val], false⟩
  | .pxor pd pa pb g => ⟨true, 2, [32 + pa.val] ++ [32 + pb.val] ++ guardRead g, [32 + pd.val], false⟩
  | .pandn pd pa pb g => ⟨true, 2, [32 + pa.val] ++ [32 + pb.val] ++ guardRead g, [32 + pd.val], false⟩
  | .pnot pd pa g => ⟨true, 2, [32 + pa.val] ++ guardRead g, [32 + pd.val], false⟩
  | .pany pd n g => ⟨true, 2, fromUp 48 n.toNat ++ guardRead g, [32 + pd.val], false⟩
  | .pall pd n g => ⟨true, 2, fromUp 48 n.toNat ++ guardRead g, [32 + pd.val], false⟩
  | .prd d g => ⟨true, 2, fromUp 33 31 ++ guardRead g, dstReg d, d == .qo⟩
  | .pwr a g => ⟨true, 2, srcReg a ++ guardRead g, fromUp 33 31, a == .qi⟩
  | .movi d _ g => ⟨true, 2, guardRead g, dstReg d, d == .qo⟩
  | .bl _ _ => ⟨false, 15, [], [22], false⟩
  | .br a _ => ⟨false, 0, [], [], a == .qi⟩
  | .blr d a _ => ⟨false, 15, [], dstReg d, d == .qo || a == .qi⟩
  | .csrr d _ _ => ⟨false, 15, [], dstReg d, d == .qo⟩
  | .vadd d a b f g => ⟨true, (if f = .f64 then 12 else 8), srcReg a ++ srcReg b ++ guardRead g, dstReg d, d == .qo || a == .qi || b == .qi⟩
  | .vsub d a b f g => ⟨true, (if f = .f64 then 12 else 8), srcReg a ++ srcReg b ++ guardRead g, dstReg d, d == .qo || a == .qi || b == .qi⟩
  | .vmul d a b f g => ⟨true, (if f = .f64 then 12 else 8), srcReg a ++ srcReg b ++ guardRead g, dstReg d, d == .qo || a == .qi || b == .qi⟩
  | .vfma d a b f g => ⟨true, (if f = .f64 then 12 else 8), regzReg d ++ srcReg a ++ srcReg b ++ guardRead g, regzReg d, a == .qi || b == .qi⟩
  | .vfms d a b f g => ⟨true, (if f = .f64 then 12 else 8), regzReg d ++ srcReg a ++ srcReg b ++ guardRead g, regzReg d, a == .qi || b == .qi⟩
  | .vmin d a b f g => ⟨true, (if f = .f64 then 12 else 8), srcReg a ++ srcReg b ++ guardRead g, dstReg d, d == .qo || a == .qi || b == .qi⟩
  | .vmax d a b f g => ⟨true, (if f = .f64 then 12 else 8), srcReg a ++ srcReg b ++ guardRead g, dstReg d, d == .qo || a == .qi || b == .qi⟩
  | .vabs d a f g => ⟨true, (if f = .f64 then 12 else 8), srcReg a ++ guardRead g, dstReg d, d == .qo || a == .qi⟩
  | .vneg d a f g => ⟨true, (if f = .f64 then 12 else 8), srcReg a ++ guardRead g, dstReg d, d == .qo || a == .qi⟩
  | .vcmpeq a b f g => ⟨true, (if f = .f64 then 12 else 8), srcReg a ++ srcReg b ++ guardRead g, fromUp 48 16, a == .qi || b == .qi⟩
  | .vcmplt a b f g => ⟨true, (if f = .f64 then 12 else 8), srcReg a ++ srcReg b ++ guardRead g, fromUp 48 16, a == .qi || b == .qi⟩
  | .vcmple a b f g => ⟨true, (if f = .f64 then 12 else 8), srcReg a ++ srcReg b ++ guardRead g, fromUp 48 16, a == .qi || b == .qi⟩
  | .vcmpun a b f g => ⟨true, (if f = .f64 then 12 else 8), srcReg a ++ srcReg b ++ guardRead g, fromUp 48 16, a == .qi || b == .qi⟩
  | .vrsum d a f g => ⟨true, (if f = .f64 then 12 else 8), srcReg a ++ guardRead g, dstReg d, d == .qo || a == .qi⟩
  | .viadd d a b _ g => ⟨true, 4, srcReg a ++ srcReg b ++ guardRead g, dstReg d, d == .qo || a == .qi || b == .qi⟩
  | .visub d a b _ g => ⟨true, 4, srcReg a ++ srcReg b ++ guardRead g, dstReg d, d == .qo || a == .qi || b == .qi⟩
  | .vimul d a b _ g => ⟨true, 4, srcReg a ++ srcReg b ++ guardRead g, dstReg d, d == .qo || a == .qi || b == .qi⟩
  | .vimin d a b _ g => ⟨true, 4, srcReg a ++ srcReg b ++ guardRead g, dstReg d, d == .qo || a == .qi || b == .qi⟩
  | .vimax d a b _ g => ⟨true, 4, srcReg a ++ srcReg b ++ guardRead g, dstReg d, d == .qo || a == .qi || b == .qi⟩
  | .viminu d a b _ g => ⟨true, 4, srcReg a ++ srcReg b ++ guardRead g, dstReg d, d == .qo || a == .qi || b == .qi⟩
  | .vimaxu d a b _ g => ⟨true, 4, srcReg a ++ srcReg b ++ guardRead g, dstReg d, d == .qo || a == .qi || b == .qi⟩
  | .vand d a b _ g => ⟨true, 4, srcReg a ++ srcReg b ++ guardRead g, dstReg d, d == .qo || a == .qi || b == .qi⟩
  | .vor d a b _ g => ⟨true, 4, srcReg a ++ srcReg b ++ guardRead g, dstReg d, d == .qo || a == .qi || b == .qi⟩
  | .vxor d a b _ g => ⟨true, 4, srcReg a ++ srcReg b ++ guardRead g, dstReg d, d == .qo || a == .qi || b == .qi⟩
  | .vshl d a b _ g => ⟨true, 4, srcReg a ++ srcReg b ++ guardRead g, dstReg d, d == .qo || a == .qi || b == .qi⟩
  | .vshr d a b _ g => ⟨true, 4, srcReg a ++ srcReg b ++ guardRead g, dstReg d, d == .qo || a == .qi || b == .qi⟩
  | .vsar d a b _ g => ⟨true, 4, srcReg a ++ srcReg b ++ guardRead g, dstReg d, d == .qo || a == .qi || b == .qi⟩
  | .vicmpeq a b _ g => ⟨true, 4, srcReg a ++ srcReg b ++ guardRead g, fromUp 48 16, a == .qi || b == .qi⟩
  | .vicmplt a b _ g => ⟨true, 4, srcReg a ++ srcReg b ++ guardRead g, fromUp 48 16, a == .qi || b == .qi⟩
  | .vicmpltu a b _ g => ⟨true, 4, srcReg a ++ srcReg b ++ guardRead g, fromUp 48 16, a == .qi || b == .qi⟩
  | .cvt d a _ _ _ => ⟨false, 6, [], dstReg d, d == .qo || a == .qi⟩
  | .vshuf d a b _ g => ⟨true, 4, srcReg a ++ srcReg b ++ guardRead g, dstReg d, d == .qo || a == .qi || b == .qi⟩
  | .vsplat d a _ g => ⟨true, 4, srcReg a ++ guardRead g, dstReg d, d == .qo || a == .qi⟩
  | .vsel d a b _ g => ⟨true, 4, srcReg a ++ srcReg b ++ fromUp 48 16 ++ guardRead g, dstReg d, d == .qo || a == .qi || b == .qi⟩
  | .vext d a _ _ g => ⟨true, 4, srcReg a ++ guardRead g, dstReg d, d == .qo || a == .qi⟩
  | .vins d a _ _ g => ⟨true, 4, regzReg d ++ srcReg a ++ guardRead g, regzReg d, a == .qi⟩
  | .vrot d a _ _ g => ⟨true, 4, srcReg a ++ guardRead g, dstReg d, d == .qo || a == .qi⟩
  | .vzipl d a b _ g => ⟨true, 4, srcReg a ++ srcReg b ++ guardRead g, dstReg d, d == .qo || a == .qi || b == .qi⟩
  | .vziph d a b _ g => ⟨true, 4, srcReg a ++ srcReg b ++ guardRead g, dstReg d, d == .qo || a == .qi || b == .qi⟩
  | .ld d _ _ _ _ => ⟨false, 10, [], dstReg d, false⟩
  | .tstat d _ _ => ⟨false, 15, [], dstReg d, false⟩
  | .widf d _ _ _ => ⟨false, 2, [], dstReg d, false⟩
  | .slotid d _ => ⟨false, 2, [], dstReg d, false⟩
  | .div d a b _ => ⟨false, 0, [], [], d == .qo || a == .qi || b == .qi⟩
  | .divu d a b _ => ⟨false, 0, [], [], d == .qo || a == .qi || b == .qi⟩
  | .rem d a b _ => ⟨false, 0, [], [], d == .qo || a == .qi || b == .qi⟩
  | .remu d a b _ => ⟨false, 0, [], [], d == .qo || a == .qi || b == .qi⟩
  | .frcp d a _ _ => ⟨false, 0, [], [], d == .qo || a == .qi⟩
  | .frsq d a _ _ => ⟨false, 0, [], [], d == .qo || a == .qi⟩
  | .fsqrt d a _ _ => ⟨false, 0, [], [], d == .qo || a == .qi⟩
  | .fexp2 d a _ _ => ⟨false, 0, [], [], d == .qo || a == .qi⟩
  | .flog2 d a _ _ => ⟨false, 0, [], [], d == .qo || a == .qi⟩
  | .fsin d a _ _ => ⟨false, 0, [], [], d == .qo || a == .qi⟩
  | .fcos d a _ _ => ⟨false, 0, [], [], d == .qo || a == .qi⟩
  | .ftanh d a _ _ => ⟨false, 0, [], [], d == .qo || a == .qi⟩
  | .fsigm d a _ _ => ⟨false, 0, [], [], d == .qo || a == .qi⟩
  | .fdiv d a b _ _ => ⟨false, 0, [], [], d == .qo || a == .qi || b == .qi⟩
  | _ => ⟨false, 0, [], [], false⟩

/-- A register or predicate of a strand is not yet written (R125). -/
def pendingWrite (t : Strand) (now k : Nat) : Bool := t.writing.any (fun w => w.1 == k && decide (now < w.2))

/-- The strand's writes under way after an instruction issued at `now` (R125). -/
def writingAfter (t : Strand) (i : Instr) (now : Nat) : List (Nat × Nat) :=
  let n := issueInfo i
  (t.writing.filter (fun w => decide (now < w.2))) ++ n.writes.map (fun k => (k, now + n.lat))

/-- A ready strand may borrow a turn for instruction `i` (R127); `togo` is the number of cycles until its own next turn. -/
def mayBorrow (t : Strand) (i : Instr) (now togo : Nat) : Bool :=
  let n := issueInfo i
  n.lends && !n.ring && !t.ppx && !(n.reads.any (pendingWrite t now)) && decide (n.lat < togo) && !t.borrowed && t.noBorrow == 0

end Sys2Proof.Machine
end

