-- ==== Sys2Proof/Machine/Turn.lean ====
section
/-!
DEFINITION. What the next step is (spec 03, R66; spec 06, R124 to R127): the choice of a turn, a queue entry or a step of the device;
the fetch of an instruction (R150), lending, and what a turn leaves behind.
-/
namespace Sys2Proof.Machine

/-- What a choice comes to: nothing but what the state already holds, a step of the device, or an instruction issued by `State.cur`. -/
inductive Plan where
  | stay (s : State)
  | event (i : Instr) (s : State)
  | issue (i : Instr) (s : State)

/-- What a fetch gives: a word, a trap, or a miss in the translation caches. -/
inductive Fetch where
  | word (w : W32) (s : State)
  | trap (cause : Nat) (value : W64) (s : State)
  | miss

/-- The fetch of a strand's next word (R150, R317): from the paged region only, through leaves with X = 1. A fetch consumes a poisoned word
and leaves its mark (R318). -/
def State.fetch (s : State) (x : Nat) : Fetch :=
  let t := s.strand x
  if !canonical t.pc then .trap 0x08 t.pc s
  else if inWindow t.pc then .trap 0x0A t.pc s
  else
    let r := s.paged (s.unitOf x) t.tag t.pc .fetch
    match r.1 with
    | .miss => .miss
    | .trap c => .trap c t.pc s
    | .ok l =>
      match l.loc with
      | .foreign v _ =>
        if (Tbl.get Link.init r.2.links v).failed then .trap 0x18 t.pc s else
        let f := r.2.freeBits 32
        .word f.1 f.2
      | k => if s.badAt t.tag k 4 then .trap 0x40 t.pc (s.errSeen k) else .word (BitVec.ofNat 32 (leNat (s.bytesAt t.tag k 4))) r.2

/-- The instruction of a word; a word that stands for none is the step ILLEGAL_INSTRUCTION (R159). -/
def instrOf (w : W32) : Instr :=
  match decode w with
  | .ok i => i
  | .error _ => .illegalInstruction w

/-- A wait that was withdrawn is issued again (R120, R220): a wait on a phase is checked as any request is (R106), against the instance that
its number names now. -/
def State.reissue (s : State) (x : Nat) : State :=
  let s1 := { (s.modStrand x (fun t => { resumeWait t s.clock with status := .waiting, arr := s.nextId })) with nextId := s.nextId + 1 }
  let checked (die inst : Nat) (k : State) : State := match s.instCheck (s.strand x).tag die inst (some true) with
    | some c => s1.raise c (w64 inst)
    | none => k
  match (s.strand x).wait with
  | .cwait _ inst p lim =>
    let die := s.instDie (s.dieOf x) inst
    checked die inst (s1.setWait x (.cwait die inst p lim))
  | .settle inst _ _ _ => checked (s.dieOf x) inst s1
  | _ => s1

/-- The deliveries of a strand that are on their way are performed, in the order in which it posted them (R66, R82). -/
def State.deliverAll (s : State) (x : Nat) : State :=
  (s.msgs.filter (fun m => m.2.deliveryOf x)).foldl (fun s m => (s.messageDelivery m.1).getD s) s

/-- An instruction that takes part in the order, or may (R66): one of majors 0x20 up, SVC and CSRW, or one that names qi or qo. -/
def ordered (i : Instr) : Bool :=
  decide (0x20 ≤ (wordOf i).toNat / 2 ^ 26) || (issueInfo i).ring ||
  (match i with
   | .svc _ _ => true
   | .csrw _ _ _ => true
   | _ => false)

/-- The owner's issue in its own turn: a deferred trap, a withdrawn wait, a departure, or the next instruction (R133, R150, R187, R220).
A delivery of the strand's that is on its way is performed before its later operations in the order (R66, R82; log 107). -/
def State.ownTurn (s : State) (x : Nat) : Plan :=
  let s0 := { (s.modStrand x (fun t => { t with borrowed := false, noBorrow := t.noBorrow - 1 })) with cur := x, lent := false }
  if (s.strand x).pend.isSome then .event (.deferredTrap x) s0
  else if (s.strand x).wait != .none then .stay (s0.reissue x)
  else if !(s.strand x).lost.isEmpty then .event (.deferredTrap x) s0
  else if (s.strand x).departs then .event (.migrationDepart x) (s0.deliverAll x)
  else
    match s0.fetch x with
    | .word w s1 => .issue (instrOf w) (if ordered (instrOf w) then s1.deliverAll x else s1)
    | .trap c v s1 => .stay (s1.raise c v)
    | .miss =>
      if s0.recordRoom (s0.unitOf x) then
        .stay (s0.waitWalk x (newOp .fetch (s.strand x).pc 4 0 .wz true s.serial))
      else .stay s0

/-- A strand's reply has come in its unit's present cycle: its turn of this cycle does not follow it (R126). -/
def State.backNow (s : State) (x : Nat) : Bool :=
  let u := s.unitOf x
  let now (t : Nat) := if u.sp then (t - (s.island (islandOf u.die u.bay)).at_) / 2 else t
  decide ((s.strand x).back ≠ 0) && now ((s.strand x).back - 1) == now s.clock

/-- The slots a turn is offered to, in order (R127). -/
def offered (owner : Nat) : List Nat := (List.range 15).map (fun k => (owner + 15 - k) % 16)

/-- The strand of slot `n` if it may borrow a turn now, with its instruction and the state after its fetch (R127). The head never
borrows (Table 6-6). -/
def State.borrower (s : State) (u : UnitId) (tag owner n : Nat) : Option (Instr × Nat × State) :=
  match s.inSlot u tag n with
  | none => none
  | some y =>
    let s := s.finishSplit y
    let t := s.strand y
    if n = 0 || t.status != .ready || s.backNow y || !s.present y || t.pend.isSome || !t.lost.isEmpty || t.wait != .none || t.leaving.isSome then none
    else
      match s.fetch y with
      | .word w s1 =>
        let i := instrOf w
        if mayBorrow t i s.clock ((n + 16 - owner) % 16) then some (i, y, s1) else none
      | _ => none

/-- A turn that its owner cannot use may be lent (R127), on a compute core: whether it is, the choice says. -/
def State.lendTurn (s : State) (u : UnitId) (tag owner : Nat) (lend : Bool) : Plan :=
  if u.sp || !lend then .stay s
  else
    match (offered owner).findSome? (fun n => s.borrower u tag owner n) with
    | none => .stay s
    | some (i, y, s1) => .issue i { s1 with cur := y, lent := true }

/-- The strand of a spindle program that takes a slot's turn from the tenant that owns it now (R325): another tenant's, ready, where the owner
has no strand there that is ready, and none to enter. That the two share the slot's turns so is the model's choice (log 109). -/
def State.runsOn (s : State) (u : UnitId) (n : Nat) : Option Nat :=
  let mine := s.tenantOf u n
  let wants := mine.any (fun tag => match s.inSlot u tag n with
    | some x => s.present x && (s.strand x).status == .ready
    | none => !(s.creelOf u tag).isEmpty)
  if wants then none
  else (s.strands.find? (fun e => e.2.place == .slot u n && e.2.card.isSome && some e.2.tag != mine && e.2.status == .ready)).map (·.1)

/-- The turn of a slot in the unit's present cycle (R124). A strand whose reply came in this cycle is in rotation from its next turn (R126).
A marked resident whose creel quantum has ended goes to the creel before it departs (the model's choice, log 126). -/
def State.turn (s : State) (u : UnitId) (n : Nat) (lend : Bool) : Plan :=
  let m := if u.sp then 8 else 16
  let c := s.unitCycle u
  if decide (m ≤ n) || c % m != n || (s.unit u).lastTurn == c + 1 || !(s.island (islandOf u.die u.bay)).runs then .stay s
  else
    let s1 := s.modUnit u (fun k => { k with lastTurn := c + 1 })
    match s1.runsOn u n, s1.tenantOf u n with
    | some x, _ => if s1.backNow x then .stay s1 else (s1.finishSplit x).ownTurn x
    | none, none => .stay s1
    | none, some tag =>
      match s1.inSlot u tag n with
      | none =>
        if (s1.slotChoices u tag).contains n && !(s1.creelOf u tag).isEmpty && (s1.ten u.die u.bay tag).loaded
        then .stay (s1.creelTake u tag n) else s1.lendTurn u tag n lend
      | some x =>
        let s2 := s1.finishSplit x
        if !s2.present x then .stay s1
        else if s2.quantumOver x && !s2.keptInPlace x then .event (.creelQuantumEnd x) s2
        else
          let s3 := s2.requantum x
          match (s3.strand x).status with
          | .ready => if s3.backNow x then s3.lendTurn u tag n lend else s3.ownTurn x
          | .waiting => s3.lendTurn u tag n lend
          | .parked => s3.lendTurn u tag n lend
          | .stopped => .stay s3
          | .halted => .stay s3

/-- The instruction of a turn that began in state `t` has issued (R338): it does not wait to issue, no record was wanting (R29), and it does not
go to another unit to issue there (R133). -/
def hasIssued (i : Instr) (t s : State) : Bool :=
  let a := t.me
  let b := s.strand t.cur
  !(b.status == .waiting && !b.wait.issued) && !(decide (0x20 ≤ (wordOf i).toNat / 2 ^ 26) && decide (b = a)) &&
  !(a.leaving.isNone && b.leaving.isSome && b.pc == a.pc)

/-- A turn's end, from its state `t` before the instruction: the issue and its energy are to be counted (R338), the borrower has borrowed, and the results under
way are noted (R125, R127). A strand whose launch is complete is no more. -/
def settleTurn (i : Instr) (t s : State) : State :=
  let done := hasIssued i t s
  let s := if done then (s.owe t.me.tag 5 1).owe t.me.tag 8 1 else s
  let s1 := if (Tbl.find s.strands s.cur).isSome then s.modStrand s.cur (fun t => { t with
    borrowed := s.lent, word := wordOf i, writing := if t.status = .ready && t.pend.isNone then (if done then writingAfter t i s.clock else t.writing) else [] }) else s
  { s1 with lent := false }

/-- Steps that a choice may name (R66): those of the device and of the outside world. Instructions issue in turns only, and traps,
departures and swaps are taken in turns (R131, R133, R187). -/
def spontaneous : Instr → Bool
  | .trapRecordWrite _ => true
  | .xtrResume _ _ => true
  | .xtrStop _ _ => true
  | .dbgcResume _ _ => true
  | .fefill _ _ _ => true
  | .feempty _ _ _ => true
  | .registerWrite _ _ _ _ _ => true
  | .counterDescriptorWrite _ _ _ _ _ _ => true
  | .xfrReplay _ _ => true
  | .xfrFail _ _ => true
  | .missQueueEntry _ _ => true
  | .walkTableRead _ _ => true
  | .walkEnd _ _ => true
  | .faultRecordDeferredWrite _ => true
  | .tlbiComplete _ => true
  | .writeBufferDrain _ _ => true
  | .linkWriteAck _ _ => true
  | .rdcExpiry _ _ => true
  | .homeAccess _ => true
  | .deviceRelease _ => true
  | .streamModeEnd _ _ => true
  | .parkTableTimeout _ _ _ => true
  | .retryReissue _ => true
  | .fillRead _ _ => true
  | .fillReadStep _ _ _ => true
  | .tileLanding _ _ => true
  | .multicastStartAccept _ _ => true
  | .tileDrainStore _ _ => true
  | .tileDrainReady _ => true
  | .streamPush _ => true
  | .streamPushTimeout _ => true
  | .streamTimeout _ => true
  | .heddleStep _ _ _ => true
  | .exitStep _ _ _ => true
  | .barrierTimeout _ => true
  | .migrationLanding _ => true
  | .messageDelivery _ => true
  | .mdlvSlotDelivery _ _ => true
  | .presenceWaitTimeout _ => true
  | .mailboxCountTimeout _ => true
  | .sfuQueueHead _ => true
  | .operationReply _ => true
  | .watchdogExpiry _ => true
  | .jobStart _ => true
  | .jobElement _ _ => true
  | .jobCompletion _ => true
  | .packetLanding _ _ => true
  | .programStrandStart _ => true
  | .sequencerStep _ _ _ => true
  | .mxuOpStart _ _ _ => true
  | .mxuOpComplete _ _ _ => true
  | .operandMessage _ => true
  | .scaleRequest _ => true
  | .operandTimeout _ _ _ => true
  | .scaleTimeout _ _ _ => true
  | .asnStart _ _ => true
  | .asnRound _ _ => true
  | .transferWaitTimeout _ => true
  | .launch _ _ => true
  | .waitfc _ _ => true
  | .sigfc _ _ => true
  | .skipif _ _ => true
  | .jump _ _ => true
  | .call _ _ => true
  | .ret _ _ => true
  | .patch _ _ => true
  | .listJob _ _ => true
  | .launchPacket _ => true
  | .sliceExpiry _ => true
  | .handOver _ _ => true
  | .rangeLoaded _ _ _ => true
  | .partitionReset _ => true
  | .pf0Reset => true
  | .powerGood _ _ => true
  | .islandStart _ _ => true
  | .linkRetrain _ => true
  | .linkFailure _ => true
  | .foreignRequest _ => true
  | .laneRecalibration _ _ _ => true
  | .baySparing _ _ => true
  | .islandUpdate _ _ => true
  | .uncorrectableError _ _ _ => true
  | .getVersion => true
  | .getCapabilities => true
  | .negotiateAlgorithms _ _ => true
  | .getDigests => true
  | .getCertificate _ _ => true
  | .challenge _ => true
  | .getMeasurements _ => true
  | .meterIncrement _ _ _ => true
  | .meterSnapshot _ _ => true
  | .budgetExhausted _ => true
  | .thermalThrottleEvent _ _ _ => true
  | .correctedError _ => true
  | .flitRetry _ => true
  | _ => false

/-- The next choice: the head of the agenda, or a free one where it is empty (R66; log 1). -/
def State.nextChoice (s : State) : Choice × State :=
  match s.agenda with
  | c :: rest => (c, { s with agenda := rest })
  | [] => (Config.choose s.freeCtr, { s with freeCtr := s.freeCtr + 1 })

/-- The next entry of a command queue (R293): its step, or a list error. -/
def State.interp (s : State) (tag q : Nat) : Plan :=
  match s.listPlan tag q with
  | .idle => .stay s
  | .wait s1 => .stay s1
  | .entry 1 => .event (.launch tag q) s
  | .entry 2 => .event (.waitfc tag q) s
  | .entry 3 => .event (.sigfc tag q) s
  | .entry 4 => .event (.skipif tag q) s
  | .entry 5 => .event (.jump tag q) s
  | .entry 6 => .event (.call tag q) s
  | .entry 7 => .event (.ret tag q) s
  | .entry 8 => .event (.patch tag q) s
  | .entry _ => .event (.listJob tag q) s

/-- Core cycles until the next turn of slot `n` of a unit, 0 for one in the present cycle that is not taken yet (R124). -/
def State.untilTurn (s : State) (u : UnitId) (n : Nat) : Nat :=
  let m := if u.sp then 8 else 16
  let c := s.unitCycle u
  let k := if c % m = n then (if (s.unit u).lastTurn = c + 1 then m else 0) else (n + m - c % m) % m
  if u.sp then 2 * k - s.cycle u.die u.bay % 2 else k

/-- The earliest turn of a ready strand within the next `dt` core cycles (R124): how far off it is, its unit and its slot. -/
def State.dueTurn (s : State) (dt : Nat) : Option (Nat × UnitId × Nat) :=
  s.strands.foldl (fun b e =>
    match e.2.place with
    | .slot u n =>
      let k := s.untilTurn u n
      if e.2.status == .ready && !s.backNow e.1 && s.present e.1 && (s.island (islandOf u.die u.bay)).runs && decide (k < dt) &&
        b.all (fun d => decide (k < d.1)) then some (k, u, n) else b
    | _ => b) none

/-- What a choice comes to, its cycles later. A strand that is ready issues in each of its turns (R124): the clock passes none of them, and
the choice waits for it. -/
def State.plan (s : State) (c : Choice) : Plan :=
  match s.dueTurn c.dt with
  | some (k, u, n) =>
    ({ s with clock := s.clock + k, agenda := { c with dt := c.dt - k } :: s.agenda } : State).turn u n false
  | none =>
    let s1 := { s with clock := s.clock + c.dt }
    match c.act with
    | .turn u n lend => s1.turn u n lend
    | .interp tag q => s1.interp tag q
    | .event i => if spontaneous i then .event i s1 else .stay s1

end Sys2Proof.Machine
end

