-- ==== Sys2Proof/Machine/Step.lean ====
section
/-!
DEFINITION. One step of the machine, and the placing of an instruction where the next step fetches.
-/
namespace Sys2Proof.Machine

/-- One step (R66): the next choice is taken, and the step or instruction it comes to is performed. -/
def step (s : State) : Host.Outcome State Fault Refusal :=
  let c := s.nextChoice
  match c.2.plan c.1 with
  | .stay t => .next t
  | .event i t => exec i t
  | .issue i t =>
    match exec i t with
    | .next u => .next (settleTurn i t u)
    | .fault f => .fault f
    | .refused r => .refused r

/-- The state with an instruction stored where the next step fetches: the bits above `nbits` are zero. -/
def State.withFetchWord (s : State) (nbits w : Nat) : State :=
  s.placeWord (BitVec.ofNat 32 (w % 2 ^ nbits))

end Sys2Proof.Machine
end

