-- ==== Sys2Proof/Certificates/Slice0/Obligations.lean ====
section
/-!
DEFINITION. The statements for the provers (Obligations.*), over a vocabulary of their own in Sys2Proof.Claims: what it is to issue, to
read an operand and to take a prefix, and the results of the spec's tables in the arithmetic of numbers.
-/
namespace Sys2Proof.Claims
open Sys2Proof.Machine

/-- The guard field of an instruction word, where it has one (R153). -/
def guardOf : Instr → Option Guard
  | .add _ _ _ g => some g
  | .sub _ _ _ g => some g
  | .and _ _ _ g => some g
  | .or _ _ _ g => some g
  | .xor _ _ _ g => some g
  | .andn _ _ _ g => some g
  | .shl _ _ _ g => some g
  | .shr _ _ _ g => some g
  | .sar _ _ _ g => some g
  | .mul _ _ _ g => some g
  | .mulh _ _ _ g => some g
  | .mulhu _ _ _ g => some g
  | .min _ _ _ g => some g
  | .max _ _ _ g => some g
  | .minu _ _ _ g => some g
  | .maxu _ _ _ g => some g
  | .clz _ _ g => some g
  | .ctz _ _ g => some g
  | .popc _ _ g => some g
  | .addi _ _ _ g => some g
  | .andi _ _ _ g => some g
  | .ori _ _ _ g => some g
  | .xori _ _ _ g => some g
  | .shli _ _ _ g => some g
  | .shri _ _ _ g => some g
  | .sari _ _ _ g => some g
  | .cmp _ _ _ _ _ g => some g
  | .cmpi _ _ _ _ g => some g
  | .pand _ _ _ g => some g
  | .por _ _ _ g => some g
  | .pxor _ _ _ g => some g
  | .pandn _ _ _ g => some g
  | .pnot _ _ g => some g
  | .pany _ _ g => some g
  | .pall _ _ g => some g
  | .prd _ g => some g
  | .pwr _ g => some g
  | .movi _ _ g => some g
  | .div _ _ _ g => some g
  | .divu _ _ _ g => some g
  | .rem _ _ _ g => some g
  | .remu _ _ _ g => some g
  | .b _ g => some g
  | .bl _ g => some g
  | .br _ g => some g
  | .blr _ _ g => some g
  | .trap _ g => some g
  | .svc _ g => some g
  | .rft g => some g
  | .halt g => some g
  | .yield g => some g
  | .nop g => some g
  | .csrr _ _ g => some g
  | .csrw _ _ g => some g
  | .tlbi _ _ g => some g
  | .vadd _ _ _ _ g => some g
  | .vsub _ _ _ _ g => some g
  | .vmul _ _ _ _ g => some g
  | .vfma _ _ _ _ g => some g
  | .vfms _ _ _ _ g => some g
  | .vmin _ _ _ _ g => some g
  | .vmax _ _ _ _ g => some g
  | .vabs _ _ _ g => some g
  | .vneg _ _ _ g => some g
  | .vcmpeq _ _ _ g => some g
  | .vcmplt _ _ _ g => some g
  | .vcmple _ _ _ g => some g
  | .vcmpun _ _ _ g => some g
  | .vrsum _ _ _ g => some g
  | .viadd _ _ _ _ g => some g
  | .visub _ _ _ _ g => some g
  | .vimul _ _ _ _ g => some g
  | .vimin _ _ _ _ g => some g
  | .vimax _ _ _ _ g => some g
  | .viminu _ _ _ _ g => some g
  | .vimaxu _ _ _ _ g => some g
  | .vand _ _ _ _ g => some g
  | .vor _ _ _ _ g => some g
  | .vxor _ _ _ _ g => some g
  | .vshl _ _ _ _ g => some g
  | .vshr _ _ _ _ g => some g
  | .vsar _ _ _ _ g => some g
  | .vicmpeq _ _ _ g => some g
  | .vicmplt _ _ _ g => some g
  | .vicmpltu _ _ _ g => some g
  | .cvt _ _ _ _ g => some g
  | .vshuf _ _ _ _ g => some g
  | .vsplat _ _ _ g => some g
  | .vsel _ _ _ _ g => some g
  | .vext _ _ _ _ g => some g
  | .vins _ _ _ _ g => some g
  | .vrot _ _ _ _ g => some g
  | .vzipl _ _ _ _ g => some g
  | .vziph _ _ _ _ g => some g
  | .frcp _ _ _ g => some g
  | .frsq _ _ _ g => some g
  | .fsqrt _ _ _ g => some g
  | .fexp2 _ _ _ g => some g
  | .flog2 _ _ _ g => some g
  | .fsin _ _ _ g => some g
  | .fcos _ _ _ g => some g
  | .ftanh _ _ _ g => some g
  | .fsigm _ _ _ g => some g
  | .fdiv _ _ _ _ g => some g
  | .ld _ _ _ _ g => some g
  | .st _ _ _ _ g => some g
  | .ldx _ _ _ _ g => some g
  | .stx _ _ _ _ g => some g
  | .aadd _ _ _ _ _ g => some g
  | .aand _ _ _ _ _ g => some g
  | .aor _ _ _ _ _ g => some g
  | .axor _ _ _ _ _ g => some g
  | .amin _ _ _ _ _ g => some g
  | .amax _ _ _ _ _ g => some g
  | .aminu _ _ _ _ _ g => some g
  | .amaxu _ _ _ _ _ g => some g
  | .aswp _ _ _ _ _ g => some g
  | .acas _ _ _ _ _ g => some g
  | .afadd _ _ _ _ _ g => some g
  | .ldo _ _ _ _ _ g => some g
  | .sto _ _ _ _ _ g => some g
  | .fenceAcq _ g => some g
  | .fenceRel _ g => some g
  | .fenceAr _ g => some g
  | .fenceSc _ g => some g
  | .tdef _ _ g => some g
  | .trd _ _ g => some g
  | .trdMc _ _ _ g => some g
  | .twr _ _ g => some g
  | .trel _ g => some g
  | .tstat _ _ g => some g
  | .sbindIn _ _ g => some g
  | .sbindOut _ _ g => some g
  | .qwait _ _ _ g => some g
  | .seos g => some g
  | .sclose _ g => some g
  | .dlv _ _ _ g => some g
  | .mdlv _ _ _ g => some g
  | .waitp _ _ g => some g
  | .clrp _ g => some g
  | .mbx _ _ g => some g
  | .mbr _ _ g => some g
  | .mwait _ _ _ g => some g
  | .cnti _ _ g => some g
  | .cntd _ _ g => some g
  | .cbar _ _ g => some g
  | .cwait _ _ g => some g
  | .cqry _ _ g => some g
  | .spawnBound _ _ _ g => some g
  | .spawnFollow _ _ _ g => some g
  | .spawnPos _ _ _ g => some g
  | .spawnShuttle _ _ _ g => some g
  | .reap _ _ g => some g
  | .stop _ g => some g
  | .migr _ g => some g
  | .widf _ _ _ g => some g
  | .slotid _ g => some g
  | .posr _ g => some g
  | .nbrFirst _ _ g => some g
  | .nbrNext _ g => some g
  | .settle g => some g
  | .fmap _ _ g => some g
  | .forkSeq _ _ _ g => some g
  | .forkLoad _ _ _ g => some g
  | .forkStore _ _ _ g => some g
  | .forkCopy _ _ _ g => some g
  | .rdv _ g => some g
  | .job _ g => some g
  | .xid _ _ g => some g
  | .xwait _ _ g => some g
  | .mxcfg _ g => some g
  | .mxz g => some g
  | .mxrun _ _ g => some g
  | .mxprom _ g => some g
  | .mxst _ _ g => some g
  | .mxperm _ _ _ g => some g
  | .semw _ g => some g
  | .sems _ g => some g
  | .asn _ _ _ g => some g
  | _ => none

/-- Predicate `n` as a program reads it: p0 is 1 (R35). -/
def pred (p : W32) (n : Nat) : Prop := n = 0 ∨ p.getLsbD n = true

/-- The guard of the issuing strand lets the instruction execute (R153). -/
def GuardOn (s : State) (g : Guard) : Prop := pred s.me.preds g.p.val ↔ g.neg = false

/-- No prefix is pending for the issuing strand (R161, R162). -/
def NoPrefix (s : State) : Prop := s.me.sts.getLsbD 63 = false

/-- An IMM with the payload `h` is pending (R161). -/
def ImmPending (s : State) (h : Nat) : Prop :=
  s.me.sts.getLsbD 63 = true ∧ s.me.sts.getLsbD 62 = false ∧ h = s.me.sts.toNat / 2 ^ 32 % 2 ^ 22

/-- An FMT with the fields `f` is pending (R162). -/
def FmtPending (s : State) (f : Fmt) : Prop :=
  s.me.sts.getLsbD 63 = true ∧ s.me.sts.getLsbD 62 = true ∧ f.ty = s.me.sts.toNat / 2 ^ 32 % 16 ∧ f.rnd = s.me.sts.toNat / 2 ^ 36 % 8 ∧
  f.mask = s.me.sts.getLsbD 39 ∧ f.sat = s.me.sts.getLsbD 40

/-- No prefix is pending and `f` is zero, or an FMT with the fields `f` is pending. -/
def Formatted (s : State) (f : Fmt) : Prop := (NoPrefix s ∧ f = ⟨0, 0, false, false⟩) ∨ FmtPending s f

/-- Majors 0x02 to 0x05, 0x08, 0x0A and 0x20 to 0x23 take IMM (R161). -/
def takesImm : Instr → Bool
  | .addi _ _ _ _ | .andi _ _ _ _ | .ori _ _ _ _ | .xori _ _ _ _ | .cmpi _ _ _ _ _ | .movi _ _ _ => true
  | .ld _ _ _ _ _ | .st _ _ _ _ _ | .ldx _ _ _ _ _ | .stx _ _ _ _ _ => true
  | _ => false

/-- Majors that take FMT, with the fields FMTC, RND, MASK and SAT that each takes when it is not zero (Table 8-7). -/
def takesFmt : Instr → Option (Bool × Bool × Bool × Bool)
  | .vadd _ _ _ _ _ | .vsub _ _ _ _ _ | .vmul _ _ _ _ _ | .vfma _ _ _ _ _ | .vfms _ _ _ _ _ | .vmin _ _ _ _ _ | .vmax _ _ _ _ _ => some (false, true, true, false)
  | .vabs _ _ _ _ | .vneg _ _ _ _ | .vcmpeq _ _ _ _ | .vcmplt _ _ _ _ | .vcmple _ _ _ _ | .vcmpun _ _ _ _ | .vrsum _ _ _ _ => some (false, true, true, false)
  | .viadd _ _ _ _ _ | .visub _ _ _ _ _ => some (false, false, true, true)
  | .vimul _ _ _ _ _ | .vimin _ _ _ _ _ | .vimax _ _ _ _ _ | .viminu _ _ _ _ _ | .vimaxu _ _ _ _ _ => some (false, false, true, false)
  | .vand _ _ _ _ _ | .vor _ _ _ _ _ | .vxor _ _ _ _ _ | .vshl _ _ _ _ _ | .vshr _ _ _ _ _ | .vsar _ _ _ _ _ => some (false, false, true, false)
  | .vicmpeq _ _ _ _ | .vicmplt _ _ _ _ | .vicmpltu _ _ _ _ => some (false, false, true, false)
  | .cvt _ _ fr dest _ => some (fr == .int || dest == .int, true, true, true)
  | .vshuf _ _ _ _ _ | .vsplat _ _ _ _ | .vsel _ _ _ _ _ | .vext _ _ _ _ _ | .vins _ _ _ _ _ => some (false, false, true, false)
  | .vrot _ _ _ _ _ | .vzipl _ _ _ _ _ | .vziph _ _ _ _ _ => some (false, false, true, false)
  | .frcp _ _ _ _ | .frsq _ _ _ _ | .fsqrt _ _ _ _ | .fexp2 _ _ _ _ | .flog2 _ _ _ _ | .fsin _ _ _ _ | .fcos _ _ _ _ => some (false, true, false, false)
  | .ftanh _ _ _ _ | .fsigm _ _ _ _ | .fdiv _ _ _ _ _ => some (false, true, false, false)
  | _ => none

/-- The pending prefix, if there is one, is one that the instruction takes (R161, R162, Table 8-7). -/
def PrefixTaken (i : Instr) (s : State) : Prop :=
  NoPrefix s ∨ (takesImm i = true ∧ ∃ h, ImmPending s h) ∨
  ∃ t f, takesFmt i = some t ∧ FmtPending s f ∧ (f.ty = 0 ∨ t.1 = true) ∧ (f.rnd = 0 ∨ t.2.1 = true) ∧
    (f.mask = false ∨ t.2.2.1 = true) ∧ (f.sat = false ∨ t.2.2.2 = true)

/-- The slots of a compute core that may issue an instruction, where its role restricts them (Table 6-6). -/
def slotsOf : Instr → Option (List Nat)
  | .spawnBound _ _ _ _ | .spawnFollow _ _ _ _ | .spawnPos _ _ _ _ | .spawnShuttle _ _ _ _ | .reap _ _ _ => some [0]
  | .mxcfg _ _ | .mxz _ | .mxrun _ _ _ | .mxprom _ _ | .mxst _ _ _ | .mxperm _ _ _ _ => some [13]
  | .semw _ _ | .sems _ _ => some [13, 14]
  | .trdMc _ _ _ _ | .mbr _ _ _ => some [15]
  | _ => none

/-- The issuing strand is on a spindle. -/
def OnSpindle (s : State) : Prop := (s.unitOf s.cur).sp = true

/-- The slot-role check passes (R128): on a spindle, or in one of the slots. -/
def RoleHolds (i : Instr) (s : State) : Prop :=
  OnSpindle s ∨ ∀ l, slotsOf i = some l → ∃ n ∈ l, s.slotOf s.cur = some n

/-- STS without a pending prefix: PPX, PCLS and PAY zero (Table 10-3). -/
def unprefixed (sts : W64) : W64 := sts &&& 0x3FC00000FFFFFFFF#64

/-- A strand whose instruction traps after its issue: the prefix that the instruction took is pending again (R165). -/
def prefixed (t : Strand) : Strand := { t with sts := t.sts ||| t.pfx, pfx := 0 }

/-- The state with only the issuing strand changed. -/
def upd (s : State) (f : Strand → Strand) : State := { s with strands := Tbl.set s.strands s.cur (f s.me) }

/-- The instruction has issued and waits: the prefix pending for it is taken (R161, R162) and kept with the wait. -/
def carried (s : State) : State :=
  if s.me.sts.getLsbD 63 = true then upd s (fun t => { t with sts := unprefixed t.sts, pfx := t.sts &&& 0xC03FFFFF00000000#64 }) else s

/-- The instruction retires with the reply: at once, or when its result for qo is pushed (R38). -/
def retires (s : State) (r : Reply) : State := if r.d = .qo then carried (s.retire r) else s.retire r

/-- The instruction issues with no prefix pending and its guard true. -/
def Issues (s : State) (g : Guard) : Prop := NoPrefix s ∧ GuardOn s g

/-- Reading a source: a register, zero for wz, and for qi one entry of the bound ring (R35, R38, Table 2-3). -/
inductive Reads : State → Src → W128 → State → Prop where
  | reg (s : State) (i : Fin 24) : Reads s (.w i) s.me.regs[i] s
  | zero (s : State) : Reads s .wz 0 s
  | pop (s s' : State) (v : W128) : s.popOne s.cur = .val v none s' → Reads s .qi v s'

/-- Reading two sources, field a first (R38). -/
def Reads2 (s : State) (a b : Src) (x y : W128) (s' : State) : Prop := ∃ s1, Reads s a x s1 ∧ Reads s1 b y s'

/-- A destination of qo needs a bound output ring (R38). -/
def Bound (s : State) (d : Dst) : Prop := d = .qo → s.me.orv = true

/-- A count of a die's RASLOG, of `n` bits from bit `lo` up, has risen by one, or stands at its maximum (R340, Table 17-3). -/
def counted (s : State) (die lo n : Nat) : State :=
  s.modDie die (fun e => { e with raslog := if e.raslog.toNat / 2 ^ lo % 2 ^ n = 2 ^ n - 1 then e.raslog else e.raslog + .ofNat 64 (2 ^ lo) })

end Sys2Proof.Claims

open Sys2Proof Sys2Proof.Machine in
/-- R154: an instruction whose guard is false passes the prefix and role checks, steps to the next word and consumes its prefix; it
writes no register, predicate or memory, pops and pushes nothing, takes no order step and raises no trap. -/
def Sys2Proof.Claims.FalseGuard : Prop :=
  ∀ (i : Instr) (g : Guard) (s : State), Claims.guardOf i = some g → Claims.PrefixTaken i s → Claims.RoleHolds i s → ¬ Claims.GuardOn s g →
    exec i s = .next (Claims.upd s (fun t =>
      { t with sts := Claims.unprefixed t.sts, pfx := 0, pc := t.pc + 4, status := .ready, wait := .none }))

open Sys2Proof Sys2Proof.Machine in
/-- R161, R162, R164 check 2: a word that does not take the pending prefix traps as an illegal prefix (0x02), whatever its guard and
its slot; the trap finds no prefix pending. -/
def Sys2Proof.Claims.PrefixRefused : Prop :=
  ∀ (i : Instr) (g : Guard) (s : State), Claims.guardOf i = some g → ¬ Claims.PrefixTaken i s →
    exec i s = .next ((Claims.upd s (fun t => { t with sts := Claims.unprefixed t.sts })).raise 0x02 (wordOf i))

open Sys2Proof Sys2Proof.Machine in
/-- R128, R164 check 3: on a compute core, an instruction issued from a slot that its role excludes traps as a slot-role violation
(0x03), whatever its guard, and its prefix is cleared. -/
def Sys2Proof.Claims.SlotRoleRefused : Prop :=
  ∀ (i : Instr) (g : Guard) (s : State), Claims.guardOf i = some g → Claims.PrefixTaken i s → ¬ Claims.RoleHolds i s →
    exec i s = .next ((Claims.upd s (fun t => { t with sts := Claims.unprefixed t.sts })).raise 0x03 (wordOf i))

open Sys2Proof Sys2Proof.Machine in
/-- R159, R164: a word that stands for no instruction traps as illegal (0x01) with the word, with its pending prefix cleared. -/
def Sys2Proof.Claims.IllegalWord : Prop :=
  ∀ (s : State) (w : W32), exec (.illegalInstruction w) s =
    .next ((Claims.upd s (fun t => { t with sts := Claims.unprefixed t.sts })).raise 0x01 (w.setWidth 64))

open Sys2Proof Sys2Proof.Machine in
/-- R154, with R128, R159, R161, R162 and R164: an instruction whose guard is false passes the checks that come before the guard, each with the
pending prefix cleared: an illegal word (0x01), a prefix that the word does not take (0x02), a slot whose role excludes it (0x03); it then
steps to the next word, consumes its prefix, and does nothing else. -/
def Obligations.FalseGuardDoesNothing : Prop :=
  Claims.FalseGuard ∧ Claims.IllegalWord ∧ Claims.PrefixRefused ∧ Claims.SlotRoleRefused

namespace Sys2Proof.Claims
open Sys2Proof.Machine

/-- A point lies in the box of a bay on every axis that the field has (R142). -/
def inside (f : Machine.Field) (b : FieldBay) (p : P3) : Prop :=
  b.lo.x ≤ p.x ∧ p.x < b.hi.x ∧ b.lo.y ≤ p.y ∧ p.y < b.hi.y ∧
  ((nth 0 f.desc 0).getLsbD 62 = true → b.lo.z ≤ p.z ∧ p.z < b.hi.z)

/-- The coordinates that a value of w23 holds: lanes 0 to 2 as signed numbers (R142). -/
def coords (v : W128) : P3 :=
  ⟨(v.setWidth 32).toInt, ((v >>> 32).setWidth 32).toInt, ((v >>> 64).setWidth 32).toInt⟩

/-- A strand after an instruction retires with its result in a register or discarded (R8, R125, R161). -/
def writtenBack (t : Strand) (r : Reply) : Strand :=
  { t with
    regs := (match r.d with | .w i => t.regs.set i r.v | _ => t.regs)
    preds := (match r.preds with | some p => p ||| 1 | none => t.preds)
    sts := unprefixed t.sts ||| r.flags
    pfx := 0
    pc := r.npc.getD (t.pc + 4)
    status := .ready
    wait := .none }

/-- A ring whose producers have all posted their end and that is empty is ended (R58, R96). -/
def ended (r : Ring) : Ring := { r with st := if r.st = .opened ∧ r.head = r.tail ∧ r.pmask &&& ~~~r.eos = 0 then .ended else r.st }

/-- Scratchpad offset of entry `n` of a ring (R55, Table 2-9). -/
def entryAt (r : Ring) (n : Nat) : Nat := 16 * r.base + 16 * (n % 2 ^ r.log2n)

end Sys2Proof.Claims

open Sys2Proof Sys2Proof.Machine in
/-- The write-back of an instruction (R8, R35, R38, R161): a result for a register or wz changes nothing but the issuing strand's
destination register, predicate word, flags, pending prefix, pc and status; a result for qo leaves the strand waiting to push it.
A position-bound strand's w23 is stated apart. -/
def Sys2Proof.Claims.WriteBack : Prop :=
  ∀ (s : State) (r : Reply),
    (r.d ≠ .qo → (r.d = .w 23 → s.me.kind ≠ .pos) → s.retire r = Claims.upd s (fun t => Claims.writtenBack t r)) ∧
    (r.d = .qo → s.retire r =
      { Claims.upd s (fun t => { t with status := .waiting, wait := .push r, since := s.clock, arr := s.nextId, hang := 0, hangAt := s.clock })
        with nextId := s.nextId + 1 })

open Sys2Proof Sys2Proof.Machine in
/-- R142, R143: an instruction that writes w23 of a position-bound strand. Inside the host's box the write completes; in another
bay's box it completes and the strand is marked to depart for that bay, unless a ring is bound (0x23); outside the domain it
traps with the attempted lanes 0 and 1 (0x38). -/
def Sys2Proof.Claims.CoordinateWrite : Prop :=
  ∀ (s : State) (r : Reply) (n : Nat) (f : Machine.Field) (b : FieldBay), r.d = .w 23 → s.me.kind = .pos →
    s.fieldAt s.me.tag (s.unitOf s.cur).die (s.unitOf s.cur).bay = some (n, f) →
    ((∀ c ∈ f.bays, ¬ Claims.inside f c (Claims.coords r.v)) → s.retire r = s.raise 0x38 (lo64 r.v)) ∧
    (b ∈ f.bays → Claims.inside f b (Claims.coords r.v) → (∀ c ∈ f.bays, Claims.inside f c (Claims.coords r.v) → c = b) →
      (b.bay = (s.unitOf s.cur).bay → s.retire r = Claims.upd s (fun t => { Claims.writtenBack t r with leaving := none })) ∧
      (b.bay ≠ (s.unitOf s.cur).bay → s.me.irv = false → s.me.orv = false →
        s.retire r = Claims.upd s (fun t => { Claims.writtenBack t r with
          leaving := some ⟨⟨(s.unitOf s.cur).die, b.bay, false⟩, s.serial⟩ })) ∧
      (b.bay ≠ (s.unitOf s.cur).bay → s.me.irv = true → s.retire r = s.raise 0x23 (BitVec.ofNat 64 s.me.iring)) ∧
      (b.bay ≠ (s.unitOf s.cur).bay → s.me.irv = false → s.me.orv = true →
        s.retire r = s.raise 0x23 (BitVec.ofNat 64 (256 + s.me.oring.ring))))

open Sys2Proof Sys2Proof.Machine in
/-- R55, R58, R95, R96: a pop through qi. A ring with entries yields the entry at HEAD, which advances, and joins its stamp into pa;
no byte of memory changes. An ended ring yields zero and sets SEND. -/
def Sys2Proof.Claims.RingPop : Prop :=
  ∀ (s : State) (x : Nat) (t : Strand) (u : UnitId) (r : Ring), t = s.strand x → u = s.unitOf x → r = s.ring u t.tag t.iring → t.irv = true →
    (r.st = .opened → r.head ≠ r.tail → s.badAt t.tag (.spad u.die u.bay (Claims.entryAt r r.head)) 16 = false →
      ∃ s', s.popOne x = .val (BitVec.ofNat 128 (leNat (s.bytesAt t.tag (.spad u.die u.bay (Claims.entryAt r r.head)) 16))) none s' ∧
        s'.ring u t.tag t.iring = Claims.ended { r with head := (r.head + 1) % 65536 } ∧ s'.mem = s.mem ∧ s'.full = s.full ∧
        (s'.strand x).ord.pa = (t.ord.pa.vmax (s.lineAt (.spad u.die u.bay (Claims.entryAt r r.head))).stamp).vmax
          (Tbl.get V4.zero r.stamps (r.head % 2 ^ r.log2n)) ∧
        (s'.strand x).regs = t.regs ∧ (s'.strand x).sts = t.sts ∧ (s'.strand x).pc = t.pc ∧
        ∀ y, y ≠ x → s'.strand y = s.strand y) ∧
    ((Claims.ended r).st = .ended →
      ∃ s', s.popOne x = .val 0 none s' ∧ s'.mem = s.mem ∧ s'.ring u t.tag t.iring = Claims.ended r ∧
        s'.strand x = { t with sts := t.sts ||| 0x1000000000000000#64 } ∧ ∀ y, y ≠ x → s'.strand y = s.strand y)

open Sys2Proof Sys2Proof.Machine in
/-- R37, R38, R57, R318: where reading or writing a ring stops an instruction. With no ring bound to the side it is a stream-binding
error (0x23; bit 8 says qo); on an open ring with no entry the instruction does not issue and waits for one; a poisoned entry is a
poison trap (0x40) with its offset, and the read consumes the mark of the entry. In each case nothing is popped, whatever the instruction would have done with the
value; two pops of one instruction are made together or not at all (log 16). -/
def Sys2Proof.Claims.RingOperandStops : Prop :=
  ∀ (s : State) (u : UnitId) (r : Ring) (k : W128 → State → State) (k2 : W128 → W128 → State → State) (j : State → State),
    u = s.unitOf s.cur → r = s.ring u s.me.tag s.me.iring →
    (s.me.orv = false → s.dstBound .qo j = s.raise 0x23 (BitVec.ofNat 64 (256 + s.me.oring.ring))) ∧
    (s.me.irv = false → s.src .qi k = s.raise 0x23 (BitVec.ofNat 64 s.me.iring)) ∧
    (s.me.irv = true → r.st = .opened → r.head = r.tail → r.pmask &&& ~~~r.eos ≠ 0 →
      s.src .qi k = s.waitOn s.cur (.pop s.me.iring 1) ∧ s.src2 .qi .qi k2 = s.waitOn s.cur (.pop s.me.iring 2)) ∧
    (∀ v s1, s.popOne s.cur = .val v none s1 → s1.popOne s1.cur = .wait → s.src2 .qi .qi k2 = s.waitOn s.cur (.pop s.me.iring 2)) ∧
    (s.me.irv = true → r.st = .opened → r.head ≠ r.tail → s.badAt s.me.tag (.spad u.die u.bay (Claims.entryAt r r.head)) 16 = true →
      s.src .qi k = (s.eat u.die s.me.tag (.spad u.die u.bay (Claims.entryAt r r.head)) 16).raise 0x40
        (BitVec.ofNat 64 (Claims.entryAt r r.head))) ∧
    (∀ die tag l n, (s.eat die tag l n).badAt tag l n = false ∧ (s.eat die tag l n).mem = s.mem ∧ (s.eat die tag l n).strands = s.strands)

open Sys2Proof Sys2Proof.Machine in
/-- R187, R188: a trap taken in user mode by a strand with a handler: w20 and w21 hold the resume address and STS, and the cause and
its value; STS loses its pending prefix and gains HM; the pc is TVEC. Presence bits, order state and everything else are as before; consumed
poison (0x40) is counted on the die (R318). A creel overflow (0x26) holds no slot and has no handler (R314). -/
def Obligations.HandlerEntry : Prop :=
  ∀ (s : State) (x c : Nat) (v pc : W64), (s.strand x).sts.getLsbD 61 = false → (s.strand x).tvec ≠ 0 → c ≠ 0x26 →
    s.takeTrap x c v pc = { (if c = 0x40 then Claims.counted s (s.unitOf x).die 32 8 else s) with strands := Tbl.set s.strands x (
      { s.strand x with
        regs := ((s.strand x).regs.set 20 ((s.strand x).sts ++ pc)).set 21 (v ++ BitVec.ofNat 64 c)
        sts := Claims.unprefixed (s.strand x).sts ||| 0x2000000000000000#64
        pc := (s.strand x).tvec, status := .ready, wait := .none, pend := none }) }

open Sys2Proof Sys2Proof.Machine in
/-- R187, R314: a trap in handler mode, or of a strand without a handler, is delivered to the runtime: the strand is halted with its
context intact, w20 and w21 included, and held with what its record says. No other strand and no register of a program changes. -/
def Sys2Proof.Claims.TrapToRuntime : Prop :=
  ∀ (s : State) (x c : Nat) (v pc : W64), (s.strand x).sts.getLsbD 61 = true ∨ (s.strand x).tvec = 0 →
    ∃ seq, ((s.takeTrap x c v pc).strand x).held =
        some { seq := seq, evt := 1, cause := c, value := v, pc := pc, sts := (s.strand x).sts, cycle := BitVec.ofNat 64 (s.unitCycle (s.unitOf x)),
               upto := s.serial } ∧
      ((s.takeTrap x c v pc).strand x).status = .halted ∧
      ((s.takeTrap x c v pc).strand x).regs = (s.strand x).regs ∧ ((s.takeTrap x c v pc).strand x).sts = (s.strand x).sts ∧
      ((s.takeTrap x c v pc).strand x).pc = (s.strand x).pc ∧ ((s.takeTrap x c v pc).strand x).preds = (s.strand x).preds ∧
      ((s.takeTrap x c v pc).strand x).ord = (s.strand x).ord ∧
      ∀ y, y ≠ x → (s.takeTrap x c v pc).strand y = s.strand y

open Sys2Proof Sys2Proof.Machine in
/-- R187, R313: a trap of the issuing instruction is taken at once in its own turn, resuming at the instruction; in a borrowed turn it
is kept, and DEFERRED_TRAP takes it at the strand's own turn. -/
def Sys2Proof.Claims.TrapAtItsTurn : Prop :=
  ∀ (s : State) (x c : Nat) (v : W64),
    (s.lent = false → s.raise c v = s.takeTrap s.cur c v s.me.pc) ∧
    (s.lent = true → s.raise c v = Claims.upd s (fun t => { Claims.prefixed t with status := .ready, wait := .none, pend := some (c, v) })) ∧
    ((s.strand x).pend = some (c, v) → (s.strand x).status = .ready →
      exec (.deferredTrap x) s = .next ((s.setStrand x { s.strand x with pend := none }).takeTrap x c v (s.strand x).pc)) ∧
    ((s.strand x).pend = none → (s.strand x).lost = [] → exec (.deferredTrap x) s = .next s)

open Sys2Proof Sys2Proof.Machine in
/-- R190, R185: RFT. In handler mode STS and the pc come from w20, with HM and the reserved bits zero; in user mode it is a privilege
violation (0x04), and an unaligned address in w20 an alignment error (0x09) with that address. -/
def Sys2Proof.Claims.ReturnFromHandler : Prop :=
  ∀ (s : State) (g : Guard), Claims.Issues s g →
    (s.me.sts.getLsbD 61 = true → (lo64 s.me.regs[20]).toNat % 4 = 0 →
      exec (.rft g) s = .next (Claims.upd s (fun t => { t with
        sts := hi64 t.regs[20] &&& 0xD03FFFFF00003F80#64, pc := lo64 t.regs[20] }))) ∧
    (s.me.sts.getLsbD 61 = true → (lo64 s.me.regs[20]).toNat % 4 ≠ 0 → exec (.rft g) s = .next (s.raise 0x09 (lo64 s.me.regs[20]))) ∧
    (s.me.sts.getLsbD 61 = false → exec (.rft g) s = .next (s.raise 0x04 (wordOf (.rft g))))

open Sys2Proof Sys2Proof.Machine in
/-- R191, R192: TRAP raises cause 0x32 with n, resuming at the next word; it is never lent a turn (R127). HALT in a slot whose DBGC.HEN bit is set
steps to the next word and halts the strand; with the bit clear it is a breakpoint (0x31). -/
def Sys2Proof.Claims.TrapAndHalt : Prop :=
  ∀ (s : State) (n : BitVec 15) (g : Guard) (slot : Nat), Claims.Issues s g → s.slotOf s.cur = some slot →
    (s.lent = false → exec (.trap n g) s = .next (s.takeTrap s.cur 0x32 (n.setWidth 64) (s.me.pc + 4))) ∧
    (∀ t now togo, mayBorrow t (.trap n g) now togo = false) ∧
    ((s.unit (s.unitOf s.cur)).hen.getLsbD slot = true →
      exec (.halt g) s = .next (Claims.upd s (fun t => { t with
        sts := Claims.unprefixed t.sts, pfx := 0, pc := t.pc + 4, status := .halted, wait := .none }))) ∧
    ((s.unit (s.unitOf s.cur)).hen.getLsbD slot = false → exec (.halt g) s = .next (s.raise 0x31 0))

open Sys2Proof Sys2Proof.Machine in
/-- R8, R35, R38, R142, R143, R161: what retiring an instruction writes, to a register, to the output ring, and to w23 of a position-bound strand.
Choices of the model that it rests on: log 22. -/
def Obligations.WriteBackResult : Prop :=
  Claims.WriteBack ∧ Claims.CoordinateWrite

open Sys2Proof Sys2Proof.Machine in
/-- R37, R38, R55, R57, R58, R95, R96, R318: reading qi and writing qo: what a pop does, and where it stops or waits.
Choices of the model that it rests on: log 16, 39, 45. -/
def Obligations.RingOperands : Prop :=
  Claims.RingPop ∧ Claims.RingOperandStops

open Sys2Proof Sys2Proof.Machine in
/-- R187, R313, R314: a trap that no handler takes is delivered to the runtime; the issuing instruction's trap is taken at once in its own turn
and at the strand's next own turn when the turn is borrowed.
Choices of the model that it rests on: log 104. -/
def Obligations.TrapDelivery : Prop :=
  Claims.TrapToRuntime ∧ Claims.TrapAtItsTurn

open Sys2Proof Sys2Proof.Machine in
/-- R185, R190 to R192: RFT, TRAP and HALT. -/
def Obligations.HandlerReturnTrapAndHalt : Prop :=
  Claims.ReturnFromHandler ∧ Claims.TrapAndHalt

namespace Sys2Proof.Claims
open Sys2Proof.Machine

/-- The two-source operations of major 0x01 on 64-bit numbers (R175). -/
def alu2 (d : Dst) (a b : Src) (g : Guard) : List (Instr × (W64 → W64 → W64)) :=
  [(.add d a b g, fun x y => .ofNat 64 (x.toNat + y.toNat)),
   (.sub d a b g, fun x y => .ofInt 64 (x.toInt - y.toInt)),
   (.and d a b g, fun x y => .ofNat 64 (x.toNat &&& y.toNat)),
   (.or d a b g, fun x y => .ofNat 64 (x.toNat ||| y.toNat)),
   (.xor d a b g, fun x y => .ofNat 64 (x.toNat ^^^ y.toNat)),
   (.andn d a b g, fun x y => .ofNat 64 (x.toNat &&& (2 ^ 64 - 1 - y.toNat))),
   (.shl d a b g, fun x y => .ofNat 64 (x.toNat * 2 ^ (y.toNat % 64))),
   (.shr d a b g, fun x y => .ofNat 64 (x.toNat / 2 ^ (y.toNat % 64))),
   (.sar d a b g, fun x y => .ofInt 64 (x.toInt / 2 ^ (y.toNat % 64))),
   (.mul d a b g, fun x y => .ofNat 64 (x.toNat * y.toNat)),
   (.mulh d a b g, fun x y => .ofInt 64 (x.toInt * y.toInt / 2 ^ 64)),
   (.mulhu d a b g, fun x y => .ofNat 64 (x.toNat * y.toNat / 2 ^ 64)),
   (.min d a b g, fun x y => .ofInt 64 (Min.min x.toInt y.toInt)),
   (.max d a b g, fun x y => .ofInt 64 (Max.max x.toInt y.toInt)),
   (.minu d a b g, fun x y => .ofNat 64 (Min.min x.toNat y.toNat)),
   (.maxu d a b g, fun x y => .ofNat 64 (Max.max x.toNat y.toNat))]

/-- `n` is the count of leading zero bits of `x` (R175). -/
def leadingZeros (x : W64) (n : Nat) : Prop := n ≤ 64 ∧ x.toNat < 2 ^ (64 - n) ∧ (n < 64 → 2 ^ (63 - n) ≤ x.toNat)

/-- `n` is the count of trailing zero bits of `x` (R175). -/
def trailingZeros (x : W64) (n : Nat) : Prop := n ≤ 64 ∧ x.toNat % 2 ^ n = 0 ∧ (n < 64 → x.getLsbD n = true)

/-- The one-source operations of majors 0x01 and 0x06 and their results (R175, R177). -/
def alu1 (d : Dst) (a : Src) (n : BitVec 6) (g : Guard) : List (Instr × (W64 → W64 → Prop)) :=
  [(.clz d a g, fun x r => leadingZeros x r.toNat),
   (.ctz d a g, fun x r => trailingZeros x r.toNat),
   (.popc d a g, fun x r => r.toNat = ((List.range 64).map (fun i => if x.getLsbD i then 1 else 0)).sum),
   (.shli d a n g, fun x r => r = .ofNat 64 (x.toNat * 2 ^ n.toNat)),
   (.shri d a n g, fun x r => r = .ofNat 64 (x.toNat / 2 ^ n.toNat)),
   (.sari d a n g, fun x r => r = .ofInt 64 (x.toInt / 2 ^ n.toNat))]

/-- The value of an immediate field of `w` bits alone or under IMM, unsigned (Table 8-2). -/
def zimm (s : State) {w : Nat} (v : BitVec w) (n : Nat) : Prop :=
  (NoPrefix s ∧ n = v.toNat) ∨ ∃ h, ImmPending s h ∧ n = h * 2 ^ w + v.toNat

/-- The value of an immediate field of `w` bits alone or under IMM, signed (Table 8-2). -/
def simm (s : State) {w : Nat} (v : BitVec w) (n : Int) : Prop :=
  (NoPrefix s ∧ n = v.toInt) ∨ ∃ h, ImmPending s h ∧ n = ((BitVec.ofNat 22 h) ++ v).toInt

/-- A condition of CMP and CMPI on two numbers of 64 bits (Table 8-4, R180). -/
def condition (c : Cond) (x y : W64) : Prop :=
  match c with
  | .eq => x = y
  | .ne => x ≠ y
  | .lt => x.toInt < y.toInt
  | .le => x.toInt ≤ y.toInt
  | .gt => x.toInt > y.toInt
  | .ge => x.toInt ≥ y.toInt
  | .ltu => x.toNat < y.toNat
  | .leu => x.toNat ≤ y.toNat
  | .gtu => x.toNat > y.toNat
  | .geu => x.toNat ≥ y.toNat

/-- The issuing strand moves on with predicate `pd` holding `v` and every other one as it was; p0 stays 1 (R35). -/
def SetsPred (s : State) (pd : Nat) (v : Prop) (t : State) : Prop :=
  ∃ p : W32, t = upd s (fun k => { k with preds := p, sts := unprefixed k.sts, pfx := 0, pc := k.pc + 4, status := .ready, wait := .none }) ∧
    ∀ n < 32, pred p n ↔ if n = pd ∧ n ≠ 0 then v else pred s.me.preds n

/-- Predicate logic and what each instruction sets its predicate to (Table 10-2). -/
def predLogic (pd pa pb : PReg) (n : BitVec 5) (g : Guard) : List (Instr × (W32 → Prop)) :=
  [(.pand pd pa pb g, fun p => pred p pa.val ∧ pred p pb.val),
   (.por pd pa pb g, fun p => pred p pa.val ∨ pred p pb.val),
   (.pxor pd pa pb g, fun p => ¬ (pred p pa.val ↔ pred p pb.val)),
   (.pandn pd pa pb g, fun p => pred p pa.val ∧ ¬ pred p pb.val),
   (.pnot pd pa g, fun p => ¬ pred p pa.val),
   (.pany pd n g, fun p => ∃ i, 16 ≤ i ∧ i ≤ 15 + n.toNat ∧ pred p i),
   (.pall pd n g, fun p => ∀ i, 16 ≤ i → i ≤ 15 + n.toNat → pred p i)]

/-- Division as R179 writes it: quotients toward zero, remainders with the sign of the dividend. -/
def divisions (d : Dst) (a b : Src) (g : Guard) : List (Instr × SfuOp × (W64 → W64 → W64)) :=
  [(.div d a b g, .div, fun x y => .ofInt 64 (x.toInt.tdiv y.toInt)),
   (.divu d a b g, .divu, fun x y => .ofNat 64 (x.toNat / y.toNat)),
   (.rem d a b g, .rem, fun x y => .ofInt 64 (x.toInt - y.toInt * x.toInt.tdiv y.toInt)),
   (.remu d a b g, .remu, fun x y => .ofNat 64 (x.toNat % y.toNat))]

end Sys2Proof.Claims

open Sys2Proof Sys2Proof.Machine in
/-- R174, R175: ADD to MAXU read bits 63:0 of their sources and write the 64-bit result, with bits 127:64 zero; no flag and no
predicate changes. -/
def Sys2Proof.Claims.ScalarTwoSourceResult : Prop :=
  ∀ (s s' : State) (d : Dst) (a b : Src) (g : Guard) (x y : W128), Claims.Issues s g → Claims.Bound s d → Claims.Reads2 s a b x y s' →
    ∀ i f, (i, f) ∈ Claims.alu2 d a b g →
      exec i s = .next (s'.retire (Reply.mk d (zext128 (f (lo64 x) (lo64 y))) none 0 none))

open Sys2Proof Sys2Proof.Machine in
/-- R175, R177: CLZ, CTZ, POPC, SHLI, SHRI and SARI. -/
def Sys2Proof.Claims.ScalarOneSourceResult : Prop :=
  ∀ (s s' : State) (d : Dst) (a : Src) (n : BitVec 6) (g : Guard) (x : W128), Claims.Issues s g → Claims.Bound s d → Claims.Reads s a x s' →
    ∀ i f, (i, f) ∈ Claims.alu1 d a n g → ∃ r, f (lo64 x) r ∧
      exec i s = .next (s'.retire (Reply.mk d (zext128 r) none 0 none))

open Sys2Proof Sys2Proof.Machine in
/-- R152, R176, R178: ADDI and MOVI take a signed immediate and ANDI, ORI and XORI an unsigned one, alone or widened by a pending IMM,
which they consume. -/
def Sys2Proof.Claims.ScalarImmediateResult : Prop :=
  ∀ (s s' : State) (d : Dst) (a : Src) (v : BitVec 11) (w : BitVec 16) (g : Guard) (x : W128), Claims.GuardOn s g → Claims.Bound s d →
    Claims.Reads s a x s' →
    (∀ n, Claims.simm s v n → exec (.addi d a v g) s =
      .next (Claims.retires s' (Reply.mk d (zext128 (.ofInt 64 ((lo64 x).toInt + n))) none 0 none))) ∧
    (∀ n, Claims.simm s w n → exec (.movi d w g) s =
      .next (Claims.retires s (Reply.mk d (zext128 (.ofInt 64 n)) none 0 none))) ∧
    (∀ n, Claims.zimm s v n →
      exec (.andi d a v g) s =
        .next (Claims.retires s' (Reply.mk d (zext128 (.ofNat 64 ((lo64 x).toNat &&& n))) none 0 none)) ∧
      exec (.ori d a v g) s =
        .next (Claims.retires s' (Reply.mk d (zext128 (.ofNat 64 ((lo64 x).toNat ||| n))) none 0 none)) ∧
      exec (.xori d a v g) s =
        .next (Claims.retires s' (Reply.mk d (zext128 (.ofNat 64 ((lo64 x).toNat ^^^ n))) none 0 none)))

open Sys2Proof Sys2Proof.Machine in
/-- R180, R181: CMP combines the condition's result into pd; CMPI sets pd, its immediate extended as the condition is signed or not.
A write to p0 is discarded; nothing else but the pc changes. -/
def Sys2Proof.Claims.CompareResult : Prop :=
  ∀ (s s' : State) (pd : PReg) (a b : Src) (cc : Cond) (g : Guard) (x y : W128), Claims.GuardOn s g →
    (Claims.NoPrefix s → Claims.Reads2 s a b x y s' →
      ∃ t1 t2 t3, exec (.cmp pd a b .set cc g) s = .next t1 ∧ Claims.SetsPred s' pd.val (Claims.condition cc (lo64 x) (lo64 y)) t1 ∧
        exec (.cmp pd a b .and cc g) s = .next t2 ∧
        Claims.SetsPred s' pd.val (Claims.pred s'.me.preds pd.val ∧ Claims.condition cc (lo64 x) (lo64 y)) t2 ∧
        exec (.cmp pd a b .or cc g) s = .next t3 ∧
        Claims.SetsPred s' pd.val (Claims.pred s'.me.preds pd.val ∨ Claims.condition cc (lo64 x) (lo64 y)) t3) ∧
    (∀ (v : BitVec 7), Claims.Reads s a x s' →
      (∀ n, cc ∈ [.eq, .ne, .lt, .le, .gt, .ge] → Claims.simm s v n →
        ∃ t, exec (.cmpi pd a cc v g) s = .next t ∧ Claims.SetsPred s' pd.val (Claims.condition cc (lo64 x) (.ofInt 64 n)) t) ∧
      (∀ n, cc ∈ [.ltu, .leu, .gtu, .geu] → Claims.zimm s v n →
        ∃ t, exec (.cmpi pd a cc v g) s = .next t ∧ Claims.SetsPred s' pd.val (Claims.condition cc (lo64 x) (.ofNat 64 n)) t))

open Sys2Proof Sys2Proof.Machine in
/-- R182, Table 10-2: predicate logic, and PRD and PWR. -/
def Sys2Proof.Claims.PredicateLogicResult : Prop :=
  ∀ (s s' : State) (pd pa pb : PReg) (n : BitVec 5) (d : Dst) (a : Src) (g : Guard) (x : W128), Claims.Issues s g →
    (∀ i f, (i, f) ∈ Claims.predLogic pd pa pb n g → ∃ t, exec i s = .next t ∧ Claims.SetsPred s pd.val (f s.me.preds) t) ∧
    (Claims.Bound s d → ∃ v : W128, (∀ k, v.getLsbD k = true ↔ k < 32 ∧ Claims.pred s.me.preds k) ∧
      exec (.prd d g) s = .next (s.retire (Reply.mk d (v) none 0 none))) ∧
    (Claims.Reads s a x s' → ∃ p : W32, (∀ k < 32, Claims.pred p k ↔ k = 0 ∨ x.getLsbD k = true) ∧
      exec (.pwr a g) s = .next (Claims.upd s' (fun t =>
        { t with preds := p, sts := Claims.unprefixed t.sts, pfx := 0, pc := t.pc + 4, status := .ready, wait := .none })))

open Sys2Proof Sys2Proof.Machine in
/-- R183, R184: branches. B and BL go to their own address plus four times the signed displacement; BR and BLR to the address read, which
must be a multiple of 4 (0x09 with that address; nothing written or popped); BL and BLR write the address of the next word. -/
def Obligations.BranchResult : Prop :=
  ∀ (s s' : State) (k : BitVec 21) (d : Dst) (a : Src) (g : Guard) (x : W128), Claims.Issues s g →
    exec (.b k g) s = .next (s.retire (Reply.mk .wz (0) none 0 (some (s.me.pc + .ofInt 64 (4 * k.toInt))))) ∧
    exec (.bl k g) s = .next (s.retire (Reply.mk (.w 22) (zext128 (s.me.pc + 4)) none 0 (some (s.me.pc + .ofInt 64 (4 * k.toInt))))) ∧
    (Claims.Reads s a x s' → (lo64 x).toNat % 4 = 0 →
      exec (.br a g) s = .next (s'.retire (Reply.mk .wz (0) none 0 (some (lo64 x)))) ∧
      (Claims.Bound s d → exec (.blr d a g) s =
        .next (s'.retire (Reply.mk d (zext128 (s.me.pc + 4)) none 0 (some (lo64 x)))))) ∧
    (Claims.Reads s a x s' → (lo64 x).toNat % 4 ≠ 0 →
      exec (.br a g) s = .next (s.raise 0x09 (lo64 x)) ∧ (Claims.Bound s d → exec (.blr d a g) s = .next (s.raise 0x09 (lo64 x))))

open Sys2Proof Sys2Proof.Machine in
/-- R137, R179: a division leaves rotation with its operands in the unit's queue; when the request is at the head, SFU_QUEUE_HEAD
returns the result, or for a zero divisor withdraws it, and the strand traps (0x30) at its next turn with nothing written. While the
16 entries of the queue are taken the division has not issued: nothing is popped and nothing changes.
Choices of the model that it rests on: log 51. -/
def Obligations.DivisionResult : Prop :=
  ∀ (s s' : State) (d : Dst) (a b : Src) (g : Guard) (x y : W128), Claims.Issues s g → Claims.Bound s d → Claims.Reads2 s a b x y s' →
    ∀ i op f, (i, op, f) ∈ Claims.divisions d a b g →
      ((s'.unit (s'.unitOf s.cur)).sfuq.length < 16 → exec i s = .next ((s'.modUnit (s'.unitOf s.cur) (fun c =>
        { c with sfuq := c.sfuq ++ [SfuReq.mk s.cur op .f64 x y d 0] })).waitOn s.cur .sfu)) ∧
      (16 ≤ (s'.unit (s'.unitOf s.cur)).sfuq.length → exec i s = .next s) ∧
      ∀ (t : State) (u : UnitId) (n : Nat) (more : List SfuReq),
        (t.unit u).sfuq = SfuReq.mk n op .f64 x y d 0 :: more → (t.strand n).wait = .sfu →
        (lo64 y ≠ 0 → exec (.sfuQueueHead u) t = .next ((t.modUnit u (fun c => { c with sfuq := more })).setStrand n
          { t.strand n with wait := .reply (Reply.mk d (zext128 (f (lo64 x) (lo64 y))) none 0 none) })) ∧
        (lo64 y = 0 → exec (.sfuQueueHead u) t = .next ((t.modUnit u (fun c => { c with sfuq := more })).setStrand n
          { Claims.prefixed (t.strand n) with status := .ready, wait := .none, pend := some (0x30, 0) }))

open Sys2Proof Sys2Proof.Machine in
/-- R152, R174 to R178: the results of the scalar integer instructions, of two sources, of one, and of a source and an immediate.
Choices of the model that it rests on: log 22. -/
def Obligations.ScalarResult : Prop :=
  Claims.ScalarTwoSourceResult ∧ Claims.ScalarOneSourceResult ∧ Claims.ScalarImmediateResult

open Sys2Proof Sys2Proof.Machine in
/-- R180 to R182, Table 10-2: what compares and predicate logic write.
Choices of the model that it rests on: log 22. -/
def Obligations.PredicateResult : Prop :=
  Claims.CompareResult ∧ Claims.PredicateLogicResult

namespace Sys2Proof.Claims
open Sys2Proof.Machine

/-- The issuing strand moves on to the next word, with no prefix pending. -/
def next (t : Strand) : Strand := { t with sts := unprefixed t.sts, pfx := 0, pc := t.pc + 4, status := .ready, wait := .none }

/-- The issuing strand is in slot `n` of a compute core. -/
def InSlot (s : State) (n : Nat) : Prop := (s.unitOf s.cur).sp = false ∧ s.slotOf s.cur = some n

/-- The word of an SVC queue entry (Table 10-7). -/
def svcWord (e : SvcEntry) : W64 := .ofNat 64 (2 ^ 63 + e.slot * 2 ^ 48 + e.gen * 2 ^ 32 + e.n)

/-- Control and status registers that CSRR reads, with their values for the issuing strand; SVCQ is stated apart (Table 10-4). -/
def csrs (s : State) : List (Nat × W64) :=
  [(0x000, s.me.sts),
   (0x001, .ofNat 64 (s.unitCycle (s.unitOf s.cur))),
   (0x002, .ofNat 64 s.me.tag),
   (0x003, s.me.tvec),
   (0x043, s.dbgc (s.unitOf s.cur)),
   (0x046, .ofNat 64 (s.unit (s.unitOf s.cur)).orph)]

end Sys2Proof.Claims

open Sys2Proof Sys2Proof.Machine in
/-- R160 to R163, R164 check 2: IMM and FMT set PPX, their class and their payload and step to the next word; a hint steps to the next
word, and code 0x02 asks for no borrowed turn in the next 16. With a prefix pending each is an illegal prefix (0x02), which clears it. -/
def Sys2Proof.Claims.PrefixAndHintWords : Prop :=
  ∀ (s : State) (v : BitVec 22) (sat mask : Bool) (rnd : BitVec 3) (ty : BitVec 4) (o : BitVec 16) (k : BitVec 8),
    (Claims.NoPrefix s →
      exec (.imm v) s = .next (Claims.upd s (fun t => { t with
        sts := Claims.unprefixed t.sts ||| .ofNat 64 (2 ^ 63 + v.toNat * 2 ^ 32), pc := t.pc + 4 })) ∧
      exec (.fmt sat mask rnd ty) s = .next (Claims.upd s (fun t => { t with
        sts := Claims.unprefixed t.sts ||| .ofNat 64 (2 ^ 63 + 2 ^ 62 + (b2n sat * 256 + b2n mask * 128 + rnd.toNat * 16 + ty.toNat) * 2 ^ 32)
        pc := t.pc + 4 })) ∧
      exec (.hintBranchTarget o) s = .next (Claims.upd s (fun t => { t with pc := t.pc + 4 })) ∧
      exec (.hintNoBorrow o) s = .next (Claims.upd s (fun t => { t with noBorrow := 16, pc := t.pc + 4 })) ∧
      exec (.hint o k) s = .next (Claims.upd s (fun t => { t with pc := t.pc + 4 }))) ∧
    (¬ Claims.NoPrefix s → ∀ i ∈ [.imm v, .fmt sat mask rnd ty, .hintBranchTarget o, .hintNoBorrow o, .hint o k],
      exec i s = .next ((Claims.upd s (fun t => { t with sts := Claims.unprefixed t.sts })).raise 0x02 (wordOf i)))

open Sys2Proof Sys2Proof.Machine in
/-- R194: NOP only steps to the next word. YIELD does no more where the creel is empty or the strand holds a ring; of a worker that
holds nothing that keeps it in place, with a strand in the creel, it ends the slot's quantum. -/
def Sys2Proof.Claims.NopAndYield : Prop :=
  ∀ (s : State) (g : Guard) (n : Nat), Claims.Issues s g →
    exec (.nop g) s = .next (Claims.upd s Claims.next) ∧
    ((s.creelOf (s.unitOf s.cur) s.me.tag = [] ∨ s.me.irv = true ∨ s.me.orv = true) → exec (.yield g) s = .next (Claims.upd s Claims.next)) ∧
    (s.creelOf (s.unitOf s.cur) s.me.tag ≠ [] → s.me.place = .slot (s.unitOf s.cur) n → (s.unitOf s.cur).sp = false → 1 ≤ n → n ≤ 12 →
      s.me.irv = false → s.me.orv = false → s.handlesAt (s.unitOf s.cur) s.me.tag n = [] → s.me.wait ≠ .svc →
      exec (.yield g) s = .next (Claims.upd s (fun t => { Claims.next t with yielded := true })))

open Sys2Proof Sys2Proof.Machine in
/-- R193: SVC from a worker appends its slot, generation and n to the bay's SVC queue, which holds one entry of a slot, and waits; from slot 0
or a spindle it is a privilege violation (0x04). SVCQ returns the oldest entry and removes it, or 0; SVCDONE resumes a caller whose slot and generation it
names, at the word after its SVC, and otherwise does nothing; the head's CSRW of SVCDONE does so once its earlier accesses are performed, and
waits for them until then. -/
def Sys2Proof.Claims.SvcAndItsQueue : Prop :=
  ∀ (s : State) (g : Guard) (k : BitVec 15) (n : Nat) (u : UnitId) (tag : Nat) (d : Dst),
    (Claims.Issues s g → Claims.InSlot s n → n ≠ 0 → exec (.svc k g) s =
      .next ((s.modTen (s.unitOf s.cur).die (s.unitOf s.cur).bay s.me.tag (fun t => { t with
        svcq := t.svcq.filter (fun e => e.slot != n) ++ [⟨n, s.me.gen, k.toNat⟩] })).waitOn
        s.cur .svc)) ∧
    (Claims.Issues s g → (Claims.InSlot s 0 ∨ Claims.OnSpindle s) → exec (.svc k g) s = .next (s.raise 0x04 (wordOf (.svc k g)))) ∧
    ((s.ten u.die u.bay tag).svcq = [] → exec (.svcq u tag d) s = .next (s.retire (.mk d 0 none 0 none))) ∧
    (∀ e rest, (s.ten u.die u.bay tag).svcq = e :: rest → e.slot < 16 → e.gen < 65536 → e.n < 32768 → exec (.svcq u tag d) s =
      .next ((s.modTen u.die u.bay tag (fun t => { t with svcq := rest })).retire (.mk d (zext128 (Claims.svcWord e)) none 0 none))) ∧
    (∀ (x : Nat) (gen slot : Nat), slot < 16 → gen < 65536 → s.inSlot u tag slot = some x →
      ((s.strand x).gen = gen → (s.strand x).wait = .svc → exec (.svcdone u tag (.ofNat 64 (slot * 2 ^ 48 + gen * 2 ^ 32))) s =
        .next (s.setStrand x { s.strand x with wait := .reply (.mk .wz 0 none 0 none) })) ∧
      ((s.strand x).gen ≠ gen ∨ (s.strand x).wait ≠ .svc → exec (.svcdone u tag (.ofNat 64 (slot * 2 ^ 48 + gen * 2 ^ 32))) s = .next s)) ∧
    (∀ (a : Src) (v : W128) (s1 : State) (gen slot y : Nat), Claims.Issues s g → Claims.InSlot s 0 → Claims.Reads s a v s1 → slot < 16 →
      gen < 65536 → lo64 v = .ofNat 64 (slot * 2 ^ 48 + gen * 2 ^ 32) → s1.inSlot (s.unitOf s.cur) s.me.tag slot = some y → y ≠ s.cur →
      (s1.strand y).gen = gen → (s1.strand y).wait = .svc →
      (s.accessesDone s.cur s.serial = true → exec (.csrw 0x045 a g) s =
        .next ((s1.setStrand y { s1.strand y with wait := .reply (.mk .wz 0 none 0 none) }).retire (.mk .wz 0 none 0 none))) ∧
      (s.accessesDone s.cur s.serial = false → exec (.csrw 0x045 a g) s = .next (s1.waitOn s.cur (.svcdone (lo64 v) s.serial)))) ∧
    (s.accessesDone s.cur s.serial = true ↔ (∀ m ∈ s.msgs, ∀ p q a b e f h, m.2 ≠ .deliver p q a b s.cur e f h) ∧
      s.drained (s.dieOf s.cur) true s.serial = true)

open Sys2Proof Sys2Proof.Machine in
/-- R185, R186, Table 10-4: CSRR writes a register's value zero-extended (STS without a pending prefix); CSRW of STS changes only SEND
and bits 13:7. A number that the unit does not have, a read of a write-only register or a write of a read-only one is illegal (0x01), and
CRCFG or SVCQ from a slot other than 0 a privilege violation (0x04). -/
def Sys2Proof.Claims.CsrAccess : Prop :=
  ∀ (s s' : State) (g : Guard) (d : Dst) (a : Src) (x : W128) (c : BitVec 10), Claims.Issues s g →
    (∀ n v, (n, v) ∈ Claims.csrs s → (n = 0x043 → ¬ Claims.OnSpindle s) → c = .ofNat 10 n → Claims.Bound s d →
      exec (.csrr d c g) s = .next (s.retire (.mk d (zext128 v) none 0 none))) ∧
    (Claims.InSlot s 0 → Claims.Bound s d → exec (.csrr d 0x042 g) s =
      .next (s.retire (.mk d (zext128 (s.unit (s.unitOf s.cur)).crcfg) none 0 none))) ∧
    (Claims.Reads s a x s' → exec (.csrw 0x000 a g) s = .next (Claims.upd s' (fun t => { Claims.next t with
      sts := (Claims.unprefixed t.sts &&& 0xEFFFFFFFFFFFC07F#64) ||| (lo64 x &&& 0x1000000000003F80#64) }))) ∧
    ((c = 0x040 ∨ c = 0x041 ∨ c = 0x045 ∨ (4 ≤ c.toNat ∧ c.toNat < 0x040) ∨ 0x047 ≤ c.toNat) → exec (.csrr d c g) s = .next (s.raise 0x01 (wordOf (.csrr d c g)))) ∧
    ((c = 0x001 ∨ c = 0x002 ∨ c = 0x003 ∨ c = 0x043 ∨ c = 0x044 ∨ (4 ≤ c.toNat ∧ c.toNat < 0x040) ∨ 0x047 ≤ c.toNat) →
      exec (.csrw c a g) s = .next (s.raise 0x01 (wordOf (.csrw c a g)))) ∧
    (∀ n, Claims.InSlot s n → n ≠ 0 → (c = 0x042 ∨ c = 0x044) → exec (.csrr d c g) s = .next (s.raise 0x04 (wordOf (.csrr d c g)))) ∧
    (∀ n, Claims.InSlot s n → n ≠ 0 → (c = 0x042 ∨ c = 0x045 ∨ c = 0x046) →
      exec (.csrw c a g) s = .next (s.raise 0x04 (wordOf (.csrw c a g))))

open Sys2Proof Sys2Proof.Machine in
/-- R27, R196: TLBI from slot 0 invalidates the covered translations, restarts the covered walks and waits; TLBI_COMPLETE lets it go on
once no covered access is pending, and takes with it what was cached meanwhile. A count of 0 completes at once; mode 3, a reserved
bit or a count in mode 1 or 2 is illegal (0x01); a non-canonical address in mode 0 traps (0x08). Firmware (tag 31) may issue it anywhere;
any other slot, and a spindle, traps (0x04), whatever the operands. -/
def Sys2Proof.Claims.TlbiResult : Prop :=
  ∀ (s : State) (g : Guard) (a b : Src), Claims.Issues s g →
    ((Claims.OnSpindle s ∨ ∃ n, Claims.InSlot s n ∧ n ≠ 0) → s.me.tag ≠ 31 → exec (.tlbi a b g) s = .next (s.raise 0x04 (wordOf (.tlbi a b g)))) ∧
    ∀ (s' : State) (x y : W128) (mode rest count : Nat), mode < 4 → rest < 2 ^ 30 → count < 2 ^ 32 →
    (lo64 y).toNat = mode * 2 ^ 62 + rest * 2 ^ 32 + count → Claims.Reads2 s a b x y s' → (Claims.InSlot s 0 ∨ s.me.tag = 31) →
      (mode = 3 ∨ rest ≠ 0 ∨ (mode ≠ 0 ∧ count ≠ 0) → exec (.tlbi a b g) s = .next (s.raise 0x01 (wordOf (.tlbi a b g)))) ∧
      (rest = 0 →
      ((mode = 3 ∨ (mode ≠ 0 ∧ count ≠ 0)) → exec (.tlbi a b g) s = .next (s.raise 0x01 (wordOf (.tlbi a b g)))) ∧
      (mode = 0 → 2 ^ 56 ≤ (lo64 x).toNat → exec (.tlbi a b g) s = .next (s.raise 0x08 (lo64 x))) ∧
      (mode = 0 → (lo64 x).toNat < 2 ^ 56 → count = 0 → exec (.tlbi a b g) s = .next (s'.retire (.mk .wz 0 none 0 none))) ∧
      ((mode = 0 ∧ (lo64 x).toNat < 2 ^ 56 ∧ count ≠ 0) ∨ ((mode = 1 ∨ mode = 2) ∧ count = 0) →
        ∀ c, c = Cover.mk s.me.tag mode ((lo64 x).toNat / 65536 * 65536) ((lo64 x).toNat / 65536 * 65536 + count * 65536) →
        exec (.tlbi a b g) s = .next (((s'.invalidate c).restartWalks c).waitOn s.cur (.tlbi mode (lo64 x).toNat count)) ∧
        ∀ (t : State) (n : Nat), (t.strand n).wait = .tlbi mode (lo64 x).toNat count → (t.strand n).tag = s.me.tag →
          t.coveredPending c (t.strand n).arr = false →
          exec (.tlbiComplete n) t = .next ((t.invalidate c).setStrand n { t.strand n with wait := .reply (.mk .wz 0 none 0 none) })))

open Sys2Proof Sys2Proof.Machine in
/-- R25, R27, R196: after an invalidation no cache of the package holds a covered translation: no TLB entry and no walk-cache entry on a
covered path, and in mode 2 no segment entry of the partition. Memory and strands are as before. -/
def Sys2Proof.Claims.InvalidationIsComplete : Prop :=
  ∀ (s : State) (c : Cover),
    (∀ e ∈ (s.invalidate c).units, (∀ t ∈ e.2.tlb, c.pages t.tag (t.page * 2 ^ levelShift t.level) (2 ^ levelShift t.level) = false) ∧
      (c.mode = 2 → ∀ g ∈ e.2.segs, g.tag ≠ c.tag)) ∧
    (∀ e ∈ (s.invalidate c).clusters, (∀ t ∈ e.2.tlb, c.pages t.tag (t.page * 2 ^ levelShift t.level) (2 ^ levelShift t.level) = false) ∧
      (∀ w ∈ e.2.wcache, c.pages w.tag (w.idx * 2 ^ levelShift w.level) (2 ^ levelShift w.level) = false)) ∧
    (s.invalidate c).mem = s.mem ∧ (s.invalidate c).strands = s.strands

open Sys2Proof Sys2Proof.Machine in
/-- R160 to R163, R194: words that change nothing but the strand's next word: prefixes, hints, NOP and YIELD.
Choices of the model that it rests on: log 22. -/
def Obligations.PrefixHintNopAndYield : Prop :=
  Claims.PrefixAndHintWords ∧ Claims.NopAndYield

open Sys2Proof Sys2Proof.Machine in
/-- R185, R186, R193: control and status registers, and requests to the bay runtime.
Choices of the model that it rests on: log 50. -/
def Obligations.CsrAndSvc : Prop :=
  Claims.CsrAccess ∧ Claims.SvcAndItsQueue

open Sys2Proof Sys2Proof.Machine in
/-- R25, R27, R196: TLBI, its completion, and what an invalidation leaves in no cache.
Choices of the model that it rests on: log 53. -/
def Obligations.TlbiAndInvalidation : Prop :=
  Claims.TlbiResult ∧ Claims.InvalidationIsComplete

namespace Sys2Proof.Claims
open Sys2Proof.Machine

/-- Result lane `i` is written: always without MASK, else where its predicate p(16 + i) is 1 (R207). -/
def active (t : Strand) (f : Fmt) (i : Nat) : Prop := f.mask = true → pred t.preds (16 + i)

/-- The rounding mode of an RND code; 0 is nearest-even (R162, R202). -/
def mode : Nat → Option Rm
  | 0 => some .rne
  | 1 => some .rne
  | 2 => some .rtz
  | 3 => some .rup
  | 4 => some .rdn
  | _ => none

/-- `fl` are the flags that the active lanes of `n` raise together (R205). -/
def FlagsOf (t : Strand) (f : Fmt) (n : Nat) (r : Nat → Flags) (fl : W64) : Prop :=
  ∀ k < 64, fl.getLsbD k = true ↔ ∃ i < n, active t f i ∧ (r i).sts.getLsbD k = true

/-- What a masked result leaves in its other lanes: the register's old ones; in a masked push the spec states none, and they are one
free value (log 17). -/
def OldLanes (s : State) (d : Dst) (f : Fmt) (old : W128) (o : State) : Prop :=
  (∀ i, d = .w i → old = s.me.regs[i] ∧ o = s) ∧ (d = .wz → o = s) ∧ (d = .qo → f.mask = false → o = s) ∧
  (d = .qo → f.mask = true → o = { s with freeCtr := s.freeCtr + 1 })

/-- The instruction retires with lane `i` of width `w` holding `r i`, under the mask, and with the flags of its active lanes (R205,
R207). -/
def Lanes (s : State) (d : Dst) (f : Fmt) (w : Nat) (r : Nat → Nat × Flags) (t : State) : Prop :=
  ∃ (v old : W128) (fl : W64) (o : State), OldLanes s d f old o ∧ t = retires o (Reply.mk d v none fl none) ∧
    FlagsOf s.me f (128 / w) (fun i => (r i).2) fl ∧
    (∀ i < 128 / w, active s.me f i → lane w v i = (r i).1 % 2 ^ w) ∧ (∀ i < 128 / w, ¬ active s.me f i → lane w v i = lane w old i)

/-- The compare retires with p(16 + i) holding `r i` for every active lane, and no register written (R207, R210). -/
def LanePreds (s : State) (f : Fmt) (n : Nat) (r : Nat → Prop) (nv : Nat → Bool) (t : State) : Prop :=
  ∃ (p : W32) (fl : W64), t = s.retire (Reply.mk .wz 0 (some p) fl none) ∧
    FlagsOf s.me f n (fun i => { nv := nv i }) fl ∧
    (∀ k < 32, (k < 16 ∨ 16 + n ≤ k) → (pred p k ↔ pred s.me.preds k)) ∧
    ∀ i < n, (active s.me f i → (pred p (16 + i) ↔ r i)) ∧ (¬ active s.me f i → (pred p (16 + i) ↔ pred s.me.preds (16 + i)))

/-- Floating-point operations of two sources: their value for the codes of a lane (R208, R209). -/
def vfp2 (d : Dst) (a b : Src) (lf : FFmt) (g : Guard) : List (Instr × (FP → Rm → Nat → Nat → Nat × Flags)) :=
  [(.vadd d a b lf g, fun f rm x y => f.add rm (f.val x) (f.val y)),
   (.vsub d a b lf g, fun f rm x y => f.add rm (f.val x) (f.val y).neg),
   (.vmul d a b lf g, fun f rm x y => f.mul rm (f.val x) (f.val y)),
   (.vmin d a b lf g, fun f _ x y => f.minmax false x y),
   (.vmax d a b lf g, fun f _ x y => f.minmax true x y)]

/-- Floating-point compares: the predicate and the NV flag of a lane (R210, Table 11-6). -/
def vfpCmp (a b : Src) (lf : FFmt) (g : Guard) : List (Instr × (FVal → FVal → Prop) × (FVal → FVal → Bool)) :=
  [(.vcmpeq a b lf g, fun x y => FVal.cmp x y = some .eq, fun x y => x.sig || y.sig),
   (.vcmplt a b lf g, fun x y => FVal.cmp x y = some .lt, fun x y => x.isNan || y.isNan),
   (.vcmple a b lf g, fun x y => FVal.cmp x y = some .lt ∨ FVal.cmp x y = some .eq, fun x y => x.isNan || y.isNan),
   (.vcmpun a b lf g, fun x y => x.isNan = true ∨ y.isNan = true, fun x y => x.sig || y.sig)]

/-- A signed lane result, kept in range by SAT, which sets its flag (R212). -/
def clamped (sat : Bool) (w : Nat) (v : Int) : Nat × Flags :=
  let c := max (-(2 ^ (w - 1) : Int)) (min ((2 ^ (w - 1) : Int) - 1) v)
  if sat ∧ c ≠ v then (intLane w c, { sat := true }) else (intLane w v, {})

/-- Integer operations of two sources on lanes of `w` bits (R212). -/
def vint2 (d : Dst) (a b : Src) (iw : IWidth) (g : Guard) : List (Instr × (Bool → Nat → Nat → Nat → Nat × Flags)) :=
  [(.viadd d a b iw g, fun sat w x y => clamped sat w (laneInt w x + laneInt w y)),
   (.visub d a b iw g, fun sat w x y => clamped sat w (laneInt w x - laneInt w y)),
   (.vimul d a b iw g, fun _ w x y => (intLane w (laneInt w x * laneInt w y), {})),
   (.vimin d a b iw g, fun _ w x y => (intLane w (min (laneInt w x) (laneInt w y)), {})),
   (.vimax d a b iw g, fun _ w x y => (intLane w (max (laneInt w x) (laneInt w y)), {})),
   (.viminu d a b iw g, fun _ _ x y => (min x y, {})),
   (.vimaxu d a b iw g, fun _ _ x y => (max x y, {})),
   (.vand d a b iw g, fun _ _ x y => (x &&& y, {})),
   (.vor d a b iw g, fun _ _ x y => (x ||| y, {})),
   (.vxor d a b iw g, fun _ _ x y => (x ^^^ y, {})),
   (.vshl d a b iw g, fun _ w x y => (x * 2 ^ (y % w) % 2 ^ w, {})),
   (.vshr d a b iw g, fun _ w x y => (x / 2 ^ (y % w), {})),
   (.vsar d a b iw g, fun _ w x y => (intLane w (laneInt w x / 2 ^ (y % w)), {}))]

/-- Integer compares of lanes (R212). -/
def vintCmp (a b : Src) (iw : IWidth) (g : Guard) : List (Instr × (Nat → Nat → Nat → Prop)) :=
  [(.vicmpeq a b iw g, fun _ x y => x = y),
   (.vicmplt a b iw g, fun w x y => laneInt w x < laneInt w y),
   (.vicmpltu a b iw g, fun _ x y => x < y)]

/-- Lane moves of two sources, from the lanes of wa and wb and the strand at issue; `n` is the lane count (R217, Table 11-8). -/
def vmove2 (d : Dst) (a b : Src) (iw : IWidth) (g : Guard) : List (Instr × (Strand → Nat → (Nat → Nat) → (Nat → Nat) → Nat → Nat → Prop)) :=
  [(.vshuf d a b iw g, fun _ n x y i r => (y i < n → r = x (y i)) ∧ (n ≤ y i → r = 0)),
   (.vsel d a b iw g, fun t _ x y i r => (pred t.preds (16 + i) → r = x i) ∧ (¬ pred t.preds (16 + i) → r = y i)),
   (.vzipl d a b iw g, fun _ _ x y i r => ∀ k, (i = 2 * k → r = x k) ∧ (i = 2 * k + 1 → r = y k)),
   (.vziph d a b iw g, fun _ n x y i r => ∀ k, (i = 2 * k → r = x (n / 2 + k)) ∧ (i = 2 * k + 1 → r = y (n / 2 + k)))]

/-- Lane moves of one source with a lane number `m` below the lane count (R217, Table 11-8). -/
def vmove1 (d : Dst) (a : Src) (m : BitVec 5) (iw : IWidth) (g : Guard) : List (Instr × (Nat → (Nat → Nat) → Nat → Nat)) :=
  [(.vsplat d a iw g, fun _ x _ => x 0),
   (.vext d a m iw g, fun _ x i => if i = 0 then x m.toNat else 0),
   (.vrot d a m iw g, fun n x i => x ((i + m.toNat) % n))]

/-- Types of CVT's integer side (R162): width and whether signed; 0 is int32. -/
def cvtInt : Nat → Option (Nat × Bool)
  | 0 => some (32, true)
  | 1 => some (8, true)
  | 2 => some (16, true)
  | 3 => some (32, true)
  | 4 => some (64, true)
  | 5 => some (8, false)
  | 6 => some (16, false)
  | 7 => some (32, false)
  | 8 => some (64, false)
  | _ => none

/-- The conversions: source width, destination width and the value of an element (R213 to R216). -/
inductive Converts (f : Fmt) (nearest cut : Rm) : CvtTy → CvtTy → Nat → Nat → (Nat → Nat × Flags) → Prop where
  | float (fr dest : CvtTy) (x y : FP) : fr ≠ dest → CvtTy.fp fr = some x → CvtTy.fp dest = some y →
      Converts f nearest cut fr dest x.width y.width (fun c => y.convert nearest f.sat (x.val c))
  | toInt (fr : CvtTy) (x : FP) (w : Nat) (signed : Bool) : CvtTy.fp fr = some x → cvtInt f.ty = some (w, signed) →
      Converts f nearest cut fr .int x.width w (fun c =>
        let r := toInteger cut (if signed then -(2 ^ (w - 1)) else 0) (if signed then 2 ^ (w - 1) - 1 else 2 ^ w - 1) (x.val c)
        (intLane w r.1, r.2))
  | ofInt (dest : CvtTy) (y : FP) (w : Nat) (signed : Bool) : CvtTy.fp dest = some y → cvtInt f.ty = some (w, signed) →
      Converts f nearest cut .int dest w y.width (fun c =>
        y.roundInt nearest f.sat (if signed then laneInt w c else c) 0 false)

/-- Magnitude of a code of a format, its exponent taken without bound (R198, R203). -/
def mag (f : FP) (c : Nat) : ℚ :=
  if c < 2 ^ f.fb then c * (2 : ℚ) ^ (f.emin - f.fb)
  else (2 ^ f.fb + c % 2 ^ f.fb : ℕ) * (2 : ℚ) ^ ((c / 2 ^ f.fb : ℕ) - (f.bias : ℤ) - f.fb)

/-- The code `c` is the magnitude `q` of a number of the given sign rounded once, its exponent taken without bound (R202). -/
def Rounds (f : FP) (rm : Rm) (neg : Bool) (q : ℚ) (c : Nat) : Prop :=
  let down := mag f c ≤ q ∧ q < mag f (c + 1)
  let up := q ≤ mag f c ∧ (0 < c → mag f (c - 1) < q)
  match rm with
  | .rtz => down
  | .rup => if neg then down else up
  | .rdn => if neg then up else down
  | .rne => 2 * q ≤ mag f c + mag f (c + 1) ∧ (2 * q = mag f c + mag f (c + 1) → c % 2 = 0) ∧
      (0 < c → mag f (c - 1) + mag f c ≤ 2 * q ∧ (mag f (c - 1) + mag f c = 2 * q → c % 2 = 0))

/-- A finite value as a rational. -/
def rat : FVal → ℚ
  | .fin n m e => (if n then -1 else 1) * m * (2 : ℚ) ^ e
  | _ => 0

/-- A finite value, and one that is not zero. -/
def finite : FVal → Prop
  | .fin _ _ _ => True
  | _ => False

/-- The result is an exact value that is not zero, rounded once (R202), with the flags of that rounding. -/
def OnceRounded (f : FP) (rm : Rm) (q : ℚ) (r : Nat × Flags) : Prop :=
  ∃ n d : ℕ, 0 < n ∧ 0 < d ∧ (n : ℚ) / d = |q| ∧ r = f.round rm false (decide (q < 0)) n d

/-- SFU functions of one source (R218, Table 11-9). -/
def sfu1 (d : Dst) (a : Src) (lf : FFmt) (g : Guard) : List (Instr × SfuOp) :=
  [(.frcp d a lf g, .rcp), (.frsq d a lf g, .rsq), (.fsqrt d a lf g, .sqrt), (.fexp2 d a lf g, .exp2), (.flog2 d a lf g, .log2),
   (.fsin d a lf g, .sin), (.fcos d a lf g, .cos), (.ftanh d a lf g, .tanh), (.fsigm d a lf g, .sigm)]

/-- One lane of an SFU request (R218): FDIV of two codes, or a function of one. -/
def sfuValue (op : SfuOp) (lf : FFmt) (rm : Rm) (x y : Nat) : Nat × Flags :=
  if op = .fdiv then (FP.ofLane lf).div rm ((FP.ofLane lf).val x) ((FP.ofLane lf).val y) else sfuLane op lf rm x

/-- What SFU_QUEUE_HEAD returns to the strand of a request that is no division: each lane's value, all flags together. -/
def Served (u : UnitId) (op : SfuOp) (lf : FFmt) (x y : W128) (d : Dst) (rnd : Nat) (rm : Rm) : Prop :=
  ∀ (t : State) (n : Nat) (more : List SfuReq), (t.unit u).sfuq = SfuReq.mk n op lf x y d rnd :: more → (t.strand n).wait = .sfu →
    ∃ (v : W128) (fl : W64), exec (.sfuQueueHead u) t = .next ((t.modUnit u (fun c => { c with sfuq := more })).setStrand n
        { t.strand n with wait := .reply (Reply.mk d v none fl none) }) ∧
      (∀ i < 128 / FFmt.bits lf, lane (FFmt.bits lf) v i =
        (sfuValue op lf rm (lane (FFmt.bits lf) x i) (lane (FFmt.bits lf) y i)).1 % 2 ^ FFmt.bits lf) ∧
      ∀ k < 64, fl.getLsbD k = true ↔ ∃ i < 128 / FFmt.bits lf,
        (sfuValue op lf rm (lane (FFmt.bits lf) x i) (lane (FFmt.bits lf) y i)).2.sts.getLsbD k = true

/-- Instructions that a spindle does not run (R133, R220, R271, R280, R306, Table 12-1). -/
def notOnSpindle : Instr → Bool
  | .frcp _ _ _ _ | .frsq _ _ _ _ | .fsqrt _ _ _ _ | .fexp2 _ _ _ _ | .flog2 _ _ _ _ | .fsin _ _ _ _ | .fcos _ _ _ _ => true
  | .ftanh _ _ _ _ | .fsigm _ _ _ _ | .fdiv _ _ _ _ _ => true
  | .tdef _ _ _ | .trd _ _ _ | .trdMc _ _ _ _ | .twr _ _ _ | .trel _ _ | .tstat _ _ _ => true
  | .mbx _ _ _ | .mbr _ _ _ | .mwait _ _ _ _ => true
  | .spawnBound _ _ _ _ | .spawnFollow _ _ _ _ | .spawnPos _ _ _ _ | .spawnShuttle _ _ _ _ | .reap _ _ _ => true
  | .posr _ _ | .nbrFirst _ _ _ | .nbrNext _ _ | .settle _ | .fmap _ _ _ => true
  | .forkSeq _ _ _ _ | .forkLoad _ _ _ _ | .forkStore _ _ _ _ | .forkCopy _ _ _ _ | .rdv _ _ => true
  | .mxcfg _ _ | .mxz _ | .mxrun _ _ _ | .mxprom _ _ | .mxst _ _ _ | .mxperm _ _ _ _ | .semw _ _ | .sems _ _ => true
  | .asn _ _ _ _ => true
  | _ => false

end Sys2Proof.Claims

open Sys2Proof Sys2Proof.Machine in
/-- R205, R207 to R209: VADD, VSUB, VMUL, VMIN and VMAX write each active lane's result; VFMA and VFMS also read wd. -/
def Sys2Proof.Claims.VectorFloatResult : Prop :=
  ∀ (s s' : State) (d : Dst) (z : RegZ) (a b : Src) (lf : FFmt) (g : Guard) (f : Fmt) (rm : Rm) (x y : W128),
    Claims.GuardOn s g → Claims.Formatted s f → f.ty = 0 → f.sat = false → Claims.mode f.rnd = some rm → Claims.Reads2 s a b x y s' →
    (Claims.Bound s d → ∀ i op, (i, op) ∈ Claims.vfp2 d a b lf g → ∃ t, exec i s = .next t ∧
      Claims.Lanes s' d f (FFmt.bits lf) (fun k => op (FP.ofLane lf) rm (lane (FFmt.bits lf) x k) (lane (FFmt.bits lf) y k)) t) ∧
    ∀ (vx vy vz : Nat → FVal), (∀ k, vx k = (FP.ofLane lf).val (lane (FFmt.bits lf) x k)) →
      (∀ k, vy k = (FP.ofLane lf).val (lane (FFmt.bits lf) y k)) →
      (∀ k, vz k = (FP.ofLane lf).val (lane (FFmt.bits lf) (regz s.me z) k)) →
      ∃ t1 t2, exec (.vfma z a b lf g) s = .next t1 ∧ exec (.vfms z a b lf g) s = .next t2 ∧
        Claims.Lanes s' (RegZ.dst z) f (FFmt.bits lf) (fun k => (FP.ofLane lf).fma rm (vx k) (vy k) (vz k)) t1 ∧
        Claims.Lanes s' (RegZ.dst z) f (FFmt.bits lf) (fun k => (FP.ofLane lf).fma rm (vx k).neg (vy k) (vz k)) t2

open Sys2Proof Sys2Proof.Machine in
/-- R208, R211: VABS clears and VNEG inverts the sign bit, with no flag; VRSUM writes the sum of the fixed tree to lane 0, each addition
rounded, and zero elsewhere, its flags with lane 0 only. -/
def Sys2Proof.Claims.VectorFloatOneSource : Prop :=
  ∀ (s s' : State) (d : Dst) (a : Src) (lf : FFmt) (g : Guard) (f : Fmt) (rm : Rm) (x : W128),
    Claims.GuardOn s g → Claims.Formatted s f → f.ty = 0 → f.sat = false → Claims.mode f.rnd = some rm → Claims.Bound s d →
    Claims.Reads s a x s' → ∀ w l, w = FFmt.bits lf → l = lane w x →
    (∃ t, exec (.vabs d a lf g) s = .next t ∧ Claims.Lanes s' d f w (fun k => (l k % 2 ^ (w - 1), {})) t) ∧
    (∃ t, exec (.vneg d a lf g) s = .next t ∧
      Claims.Lanes s' d f w (fun k => (if l k < 2 ^ (w - 1) then l k + 2 ^ (w - 1) else l k - 2 ^ (w - 1), {})) t) ∧
    ∀ (add : Nat × Flags → Nat × Flags → Nat × Flags),
      (∀ p q, add p q = (((FP.ofLane lf).add rm ((FP.ofLane lf).val p.1) ((FP.ofLane lf).val q.1)).1,
        Flags.or (Flags.or p.2 q.2) ((FP.ofLane lf).add rm ((FP.ofLane lf).val p.1) ((FP.ofLane lf).val q.1)).2)) →
      ∃ t, exec (.vrsum d a lf g) s = .next t ∧ Claims.Lanes s' d f w (fun k => if k ≠ 0 then (0, {}) else
        let e := fun j => (l j, ({} : Flags))
        match w with
        | 64 => add (e 0) (e 1)
        | 32 => add (add (e 0) (e 1)) (add (e 2) (e 3))
        | _ => add (add (add (e 0) (e 1)) (add (e 2) (e 3))) (add (add (e 4) (e 5)) (add (e 6) (e 7)))) t

open Sys2Proof Sys2Proof.Machine in
/-- R210, R212: the floating-point and integer compares set p(16 + i) of every active lane and write no register. -/
def Sys2Proof.Claims.VectorCompares : Prop :=
  ∀ (s s' : State) (a b : Src) (lf : FFmt) (iw : IWidth) (g : Guard) (f : Fmt) (x y : W128),
    Claims.GuardOn s g → Claims.Formatted s f → f.ty = 0 → f.sat = false → Claims.Reads2 s a b x y s' →
    (∀ i p nv, (i, p, nv) ∈ Claims.vfpCmp a b lf g → ∃ t, exec i s = .next t ∧ ∀ (w : Nat) (vx vy : Nat → FVal), w = FFmt.bits lf →
      (∀ k, vx k = (FP.ofLane lf).val (lane w x k)) → (∀ k, vy k = (FP.ofLane lf).val (lane w y k)) →
      Claims.LanePreds s' f (128 / w) (fun k => p (vx k) (vy k)) (fun k => nv (vx k) (vy k)) t) ∧
    (f.rnd = 0 → ∀ i p, (i, p) ∈ Claims.vintCmp a b iw g → ∃ t, exec i s = .next t ∧ ∀ w, w = IWidth.bits iw →
      Claims.LanePreds s' f (128 / w) (fun k => p w (lane w x k) (lane w y k)) (fun _ => false) t)

open Sys2Proof Sys2Proof.Machine in
/-- R212: the integer operations on lanes; SAT clamps a signed sum or difference and sets its flag. -/
def Sys2Proof.Claims.VectorIntegerResult : Prop :=
  ∀ (s s' : State) (d : Dst) (a b : Src) (iw : IWidth) (g : Guard) (f : Fmt) (x y : W128),
    Claims.GuardOn s g → Claims.Formatted s f → f.ty = 0 → f.rnd = 0 → Claims.Bound s d → Claims.Reads2 s a b x y s' →
    ∀ i op, (i, op) ∈ Claims.vint2 d a b iw g → (f.sat = true → i = .viadd d a b iw g ∨ i = .visub d a b iw g) →
    ∃ t, exec i s = .next t ∧ ∀ w, w = IWidth.bits iw → Claims.Lanes s' d f w (fun k => op f.sat w (lane w x k) (lane w y k)) t

open Sys2Proof Sys2Proof.Machine in
/-- R217: the lane moves copy bits, under MASK, and change no flag; VINS keeps the other lanes of wd. -/
def Sys2Proof.Claims.LaneMoveResult : Prop :=
  ∀ (s s' s2 : State) (d : Dst) (z : RegZ) (a b : Src) (m : BitVec 5) (iw : IWidth) (g : Guard) (f : Fmt) (x y : W128) (w n : Nat),
    Claims.GuardOn s g → Claims.Formatted s f → f.ty = 0 → f.rnd = 0 → f.sat = false → w = IWidth.bits iw → n = 128 / w →
    (Claims.Bound s d → Claims.Reads2 s a b x y s2 → ∀ i p, (i, p) ∈ Claims.vmove2 d a b iw g →
      ∃ (t : State) (r : Nat → Nat), exec i s = .next t ∧ (∀ k < n, p s.me n (lane w x) (lane w y) k (r k)) ∧ Claims.Lanes s2 d f w (fun k => (r k, {})) t) ∧
    (m.toNat < n → Claims.Reads s a x s' →
      (Claims.Bound s d → ∀ i p, (i, p) ∈ Claims.vmove1 d a m iw g →
        ∃ t, exec i s = .next t ∧ Claims.Lanes s' d f w (fun k => (p n (lane w x) k, {})) t) ∧
      ∃ t, exec (.vins z a m iw g) s = .next t ∧
        Claims.Lanes s' (RegZ.dst z) f w (fun k => (if k = m.toNat then lane w x 0 else lane w (regz s.me z) k, {})) t)

open Sys2Proof Sys2Proof.Machine in
/-- R213 to R216: CVT converts the lowest elements, as many as the wider type has lanes; the bits above its results are zero, or the old
ones under MASK. -/
def Sys2Proof.Claims.ConversionResult : Prop :=
  ∀ (s s' : State) (d : Dst) (a : Src) (fr dest : CvtTy) (g : Guard) (f : Fmt) (nearest cut : Rm) (x : W128) (fw tw : Nat) (c : Nat → Nat × Flags),
    Claims.GuardOn s g → Claims.Formatted s f → (f.ty = 0 ∨ fr = .int ∨ dest = .int) → Claims.mode f.rnd = some nearest →
    cut = (if f.rnd = 0 then .rtz else nearest) → Claims.Bound s d → Claims.Reads s a x s' →
    Claims.Converts f nearest cut fr dest fw tw c →
    ∃ (v old : W128) (fl : W64) (o : State), exec (.cvt d a fr dest g) s = .next (Claims.retires o (Reply.mk d v none fl none)) ∧
      Claims.OldLanes s' d f old o ∧ Claims.FlagsOf s'.me f (128 / max fw tw) (fun i => (c (lane fw x i)).2) fl ∧
      (∀ i < 128 / max fw tw, Claims.active s'.me f i → lane tw v i = (c (lane fw x i)).1 % 2 ^ tw) ∧
      (∀ i < 128 / max fw tw, ¬ Claims.active s'.me f i → lane tw v i = lane tw old i) ∧
      v.toNat / 2 ^ (128 / max fw tw * tw) = if f.mask = true then old.toNat / 2 ^ (128 / max fw tw * tw) else 0

open Sys2Proof Sys2Proof.Machine in
/-- R202 to R204: the rounding that the floating-point results rest on. In every format and mode the result is the exact value rounded
once; a code past the largest finite value is an overflow and sets OF and NX; a tiny inexact result sets UF, an inexact one NX. -/
def Sys2Proof.Claims.RoundedOnce : Prop :=
  ∀ (f : FP) (rm : Rm) (sat neg : Bool) (n d : Nat), f ∈ [fp64, fp32, fp16, bf16, e5m2, e4m3, e2m1] → 0 < n → 0 < d →
    ∃ c, Claims.Rounds f rm neg (n / d) c ∧
      (c ≤ f.maxCode → f.round rm sat neg n d = (f.signBit neg + c,
        { nx := decide (Claims.mag f c ≠ n / d), uf := decide ((n / d : ℚ) < (2 : ℚ) ^ f.emin ∧ Claims.mag f c ≠ n / d) })) ∧
      (f.maxCode < c → (f.round rm sat neg n d).2 = { of := true, nx := true } ∧
        (f.round rm sat neg n d).1 =
          if rm = .rtz ∨ (rm = .rup ∧ neg = true) ∨ (rm = .rdn ∧ neg = false) then f.signBit neg + f.maxCode
          else match f.top, sat with
            | .ieee, false => f.inf neg
            | .e4m3, false => f.nan
            | _, _ => f.signBit neg + f.maxCode)

open Sys2Proof Sys2Proof.Machine in
/-- R197 to R199, Tables 11-1 and 11-2: what a code of a format stands for: a sign, a fraction with or without the hidden 1 times a power of
two, an infinity or a NaN, quiet or signalling. -/
def Sys2Proof.Claims.CodeValues : Prop :=
  ∀ (neg : Bool) (e m : Nat),
    (∀ f ∈ [fp64, fp32, fp16, bf16, e5m2], e < 2 ^ f.eb → m < 2 ^ f.fb →
      f.val (b2n neg * 2 ^ (f.eb + f.fb) + e * 2 ^ f.fb + m) =
        if e = 2 ^ f.eb - 1 then (if m = 0 then .inf neg else .nan (decide (m < 2 ^ (f.fb - 1))))
        else if e = 0 then .fin neg m (1 - (2 ^ (f.eb - 1) - 1) - f.fb)
        else .fin neg (2 ^ f.fb + m) (e - (2 ^ (f.eb - 1) - 1) - f.fb)) ∧
    (e < 16 → m < 8 → e4m3.val (b2n neg * 128 + e * 8 + m) =
      if e = 15 ∧ m = 7 then .nan false else if e = 0 then .fin neg m (-9) else .fin neg (8 + m) (e - 10)) ∧
    (e < 4 → m < 2 → e2m1.val (b2n neg * 8 + e * 2 + m) = if e = 0 then .fin neg m (-1) else .fin neg (2 + m) (e - 2)) ∧
    fp64.nan = 0x7FF8000000000000 ∧ fp32.nan = 0x7FC00000 ∧ fp16.nan = 0x7E00 ∧ bf16.nan = 0x7FC0 ∧ e5m2.nan = 0x7E ∧ e4m3.nan = 0x7F

open Sys2Proof Sys2Proof.Machine in
/-- R199, R202, R205, R208, R218, Table 11-3: addition, multiplication, fused multiply-add and division of values. A NaN operand gives the
canonical NaN, with NV if one signals; the invalid operations (∞ − ∞, 0 × ∞ even with a quiet NaN as addend, 0/0, ∞/∞) give it with NV; an
infinity otherwise stays one; an exact zero has its sign; a finite non-zero value over zero is an infinity with DZ; every other result is
the exact value rounded once. -/
def Sys2Proof.Claims.ArithmeticValues : Prop :=
  ∀ (f : FP) (rm : Rm) (x y z : FVal) (p q : Bool) (m n : Nat) (e k : Int), f ∈ [fp64, fp32, fp16, bf16] →
    (x.isNan = true ∨ y.isNan = true → ∀ nv, nv = (x.sig || y.sig) →
      f.add rm x y = (f.nan, { nv := nv }) ∧ f.mul rm x y = (f.nan, { nv := nv }) ∧ f.div rm x y = (f.nan, { nv := nv })) ∧
    (x.isNan = true ∨ y.isNan = true → f.fma rm x y z = (f.nan, { nv := x.sig || y.sig || z.sig })) ∧
    (z.isNan = true → f.fma rm (.fin p (m + 1) e) (.fin q n k) z = (f.nan, { nv := z.sig })) ∧
    (f.add rm (.inf p) (.inf p) = (f.inf p, {}) ∧ f.add rm (.inf p) (.inf (!p)) = (f.nan, { nv := true }) ∧
      f.add rm (.inf p) (.fin q n k) = (f.inf p, {}) ∧ f.add rm (.fin q n k) (.inf p) = (f.inf p, {})) ∧
    (f.mul rm (.inf p) (.inf q) = (f.inf (p != q), {}) ∧
      (0 < n → f.mul rm (.inf p) (.fin q n k) = (f.inf (p != q), {}) ∧ f.mul rm (.fin q n k) (.inf p) = (f.inf (p != q), {})) ∧
      f.mul rm (.inf p) (.fin q 0 k) = (f.nan, { nv := true }) ∧ f.mul rm (.fin q 0 k) (.inf p) = (f.nan, { nv := true })) ∧
    (f.fma rm (.inf p) (.fin q 0 k) z = (f.nan, { nv := true }) ∧ f.fma rm (.fin q 0 k) (.inf p) z = (f.nan, { nv := true }) ∧
      (0 < n → f.fma rm (.inf p) (.fin q n k) (.inf (p == q)) = (f.nan, { nv := true }) ∧
        f.fma rm (.inf p) (.fin q n k) (.inf (p != q)) = (f.inf (p != q), {})) ∧
      f.fma rm (.fin p m e) (.fin q n k) (.inf true) = (f.inf true, {}) ∧ f.fma rm (.fin p m e) (.fin q n k) (.inf false) = (f.inf false, {})) ∧
    (f.div rm (.inf p) (.inf q) = (f.nan, { nv := true }) ∧ f.div rm (.fin p 0 e) (.fin q 0 k) = (f.nan, { nv := true }) ∧
      (0 < m → f.div rm (.fin p m e) (.fin q 0 k) = (f.inf (p != q), { dz := true })) ∧
      f.div rm (.inf p) (.fin q n k) = (f.inf (p != q), {}) ∧ f.div rm (.fin p m e) (.inf q) = (f.signBit (p != q), {})) ∧
    (Claims.rat (.fin p m e) + Claims.rat (.fin q n k) = 0 →
      f.add rm (.fin p m e) (.fin q n k) = (f.signBit (if p = q then p else decide (rm = .rdn)), {})) ∧
    (m * n = 0 → f.mul rm (.fin p m e) (.fin q n k) = (f.signBit (p != q), {})) ∧
    (m = 0 → 0 < n → f.div rm (.fin p m e) (.fin q n k) = (f.signBit (p != q), {})) ∧
    (∀ a b : ℚ, a = Claims.rat (.fin p m e) → b = Claims.rat (.fin q n k) →
      (a + b ≠ 0 → Claims.OnceRounded f rm (a + b) (f.add rm (.fin p m e) (.fin q n k))) ∧
      (a * b ≠ 0 → Claims.OnceRounded f rm (a * b) (f.mul rm (.fin p m e) (.fin q n k))) ∧
      (a ≠ 0 → b ≠ 0 → Claims.OnceRounded f rm (a / b) (f.div rm (.fin p m e) (.fin q n k))) ∧
      (Claims.finite z → a * b + Claims.rat z ≠ 0 → Claims.OnceRounded f rm (a * b + Claims.rat z) (f.fma rm (.fin p m e) (.fin q n k) z)))

open Sys2Proof Sys2Proof.Machine in
/-- R209, R210, Table 11-6: the order of values, in which both zeros are equal and a NaN has no place, and the lesser and the greater of two
codes: of a number and a NaN the number, of two NaNs the canonical one, of the two zeros −0 as the lesser; the result is an operand's
pattern, with NV for a signalling NaN. -/
def Sys2Proof.Claims.OrderOfValues : Prop :=
  ∀ (f : FP) (x y : FVal) (c d : Nat) (isMax : Bool), f ∈ [fp64, fp32, fp16, bf16] →
    ((FVal.cmp x y = none ↔ x.isNan = true ∨ y.isNan = true) ∧
      (Claims.finite x → Claims.finite y → FVal.cmp x y = some (compare (Claims.rat x) (Claims.rat y))) ∧
      (Claims.finite x → FVal.cmp x (.inf false) = some .lt ∧ FVal.cmp x (.inf true) = some .gt ∧ FVal.cmp (.inf false) x = some .gt ∧
        FVal.cmp (.inf true) x = some .lt) ∧
      FVal.cmp (.inf true) (.inf false) = some .lt ∧ FVal.cmp (.inf false) (.inf true) = some .gt ∧
      ∀ p, FVal.cmp (.inf p) (.inf p) = some .eq) ∧
    (f.minmax isMax c d).2 = { nv := (f.val c).sig || (f.val d).sig } ∧
    ((f.val c).isNan = true → (f.val d).isNan = true → (f.minmax isMax c d).1 = f.nan) ∧
    ((f.val c).isNan = true → (f.val d).isNan = false → (f.minmax isMax c d).1 = d ∧ (f.minmax isMax d c).1 = d) ∧
    (FVal.cmp (f.val c) (f.val d) = some .lt → (f.minmax isMax c d).1 = (if isMax then d else c) ∧
      (f.minmax isMax d c).1 = (if isMax then d else c)) ∧
    (f.val c = .fin true 0 (f.emin - f.fb) → f.val d = .fin false 0 (f.emin - f.fb) →
      (f.minmax isMax c d).1 = (if isMax then d else c) ∧ (f.minmax isMax d c).1 = (if isMax then d else c))

open Sys2Proof Sys2Proof.Machine in
/-- R203, R214 to R216: conversions of special values. Between floating-point formats a NaN becomes the canonical one, with NV if it signals
(in E2M1 +0, with NV), an infinity stays one, or becomes in E4M3 the NaN or ±448 under SAT and in E2M1 ±6, with NV, and a zero keeps its
sign. To an integer a NaN gives 0 with NV, an infinity or a value out of range the limit with NV and SAT, another value the integer that
the mode rounds to, with NX where it differs. From an integer zero is +0. -/
def Sys2Proof.Claims.ConversionValues : Prop :=
  ∀ (f : FP) (rm : Rm) (sat neg : Bool) (m : Nat) (e lo hi : Int), f ∈ [fp64, fp32, fp16, bf16, e5m2, e4m3, e2m1] → lo ≤ 0 → 0 < hi →
    (∀ sig, f.convert rm sat (.nan sig) = if f = e2m1 then (0, { nv := true }) else (f.nan, { nv := sig })) ∧
    (f ≠ e4m3 → f ≠ e2m1 → f.convert rm sat (.inf neg) = (f.inf neg, {})) ∧
    e4m3.convert rm sat (.inf neg) = (if sat then b2n neg * 128 + 0x7E else 0x7F, { nv := true }) ∧
    e2m1.convert rm sat (.inf neg) = (b2n neg * 8 + 7, { nv := true }) ∧
    f.convert rm sat (.fin neg 0 e) = (f.signBit neg, {}) ∧
    (0 < m → ∃ n d : ℕ, 0 < n ∧ 0 < d ∧ (n : ℚ) / d = m * (2 : ℚ) ^ e ∧ f.convert rm sat (.fin neg m e) = f.round rm sat neg n d) ∧
    f.roundInt rm sat 0 0 false = (0, {}) ∧
    (∀ i : Int, i ≠ 0 → f.roundInt rm sat i 0 false = f.round rm sat (decide (i < 0)) i.natAbs 1) ∧
    (∀ sig, toInteger rm lo hi (.nan sig) = (0, { nv := true })) ∧
    toInteger rm lo hi (.inf neg) = (if neg then lo else hi, { nv := true, sat := true }) ∧
    ∃ i : Int,
      (match rm with
        | .rtz => |(i : ℚ)| ≤ |Claims.rat (.fin neg m e)| ∧ |Claims.rat (.fin neg m e)| < |(i : ℚ)| + 1 ∧ 0 ≤ i * Claims.rat (.fin neg m e)
        | .rup => Claims.rat (.fin neg m e) ≤ i ∧ (i : ℚ) < Claims.rat (.fin neg m e) + 1
        | .rdn => (i : ℚ) ≤ Claims.rat (.fin neg m e) ∧ Claims.rat (.fin neg m e) < i + 1
        | .rne => 2 * |Claims.rat (.fin neg m e) - i| ≤ 1 ∧ (2 * |Claims.rat (.fin neg m e) - i| = 1 → i % 2 = 0)) ∧
      toInteger rm lo hi (.fin neg m e) =
        if i < lo then (lo, { nv := true, sat := true }) else if hi < i then (hi, { nv := true, sat := true })
        else (i, { nx := decide ((i : ℚ) ≠ Claims.rat (.fin neg m e)) })

open Sys2Proof Sys2Proof.Machine in
/-- R218, Table 11-9: the special results of the SFU's functions of one operand: of NaNs, infinities and zeros, of operands outside the
domain, and the results that are exact: whole powers and logarithms of two, and the sine and cosine of multiples of a half. -/
def Sys2Proof.Claims.SpecialFunctionValues : Prop :=
  ∀ (lf : FFmt) (rm : Rm) (c : Nat) (f : FP) (v : FVal) (op : SfuOp), f = FP.ofLane lf → v = f.val c →
    op ∈ [.rcp, .rsq, .sqrt, .exp2, .log2, .sin, .cos, .tanh, .sigm] → ∀ r, r = sfuLane op lf rm c → ∀ one, one = f.bias * 2 ^ f.fb →
    (∀ sig, v = .nan sig → r = (f.nan, { nv := sig })) ∧
    (∀ neg, v = .inf neg →
      (op = .rcp → r = (f.signBit neg, {})) ∧
      (op = .rsq → r = if neg then (f.nan, { nv := true }) else (0, {})) ∧
      (op = .sqrt ∨ op = .log2 → r = if neg then (f.nan, { nv := true }) else (f.inf false, {})) ∧
      (op = .exp2 → r = if neg then (0, {}) else (f.inf false, {})) ∧
      (op = .sin ∨ op = .cos → r = (f.nan, { nv := true })) ∧
      (op = .tanh → r = (f.signBit neg + one, {})) ∧
      (op = .sigm → r = if neg then (0, {}) else (one, {}))) ∧
    (∀ neg e, v = .fin neg 0 e →
      (op = .rcp ∨ op = .rsq → r = (f.inf neg, { dz := true })) ∧ (op = .log2 → r = (f.inf true, { dz := true })) ∧
      (op = .sqrt ∨ op = .sin ∨ op = .tanh → r = (f.signBit neg, {})) ∧ (op = .exp2 ∨ op = .cos → r = (one, {}))) ∧
    (∀ m e, v = .fin true m e → 0 < m → op = .rsq ∨ op = .sqrt ∨ op = .log2 → r = (f.nan, { nv := true })) ∧
    (Claims.finite v → ∀ k : ℤ,
      (op = .exp2 → Claims.rat v = k → f.emin - f.fb ≤ k → k ≤ f.bias → Claims.rat (f.val r.1) = (2 : ℚ) ^ k ∧ r.2 = {}) ∧
      (op = .log2 → Claims.rat v = (2 : ℚ) ^ k → Claims.rat (f.val r.1) = k ∧ r.2 = {}) ∧
      (op = .sin → Claims.rat v = k → k ≠ 0 → r = (f.signBit (decide (k < 0)), {})) ∧
      (op = .sin → Claims.rat v = k + 1 / 2 → r = (f.signBit (decide (k % 2 ≠ 0)) + one, {})) ∧
      (op = .cos → Claims.rat v = k + 1 / 2 → r = (0, {})) ∧
      (op = .cos → Claims.rat v = k → r = (f.signBit (decide (k % 2 ≠ 0)) + one, {})))

open Sys2Proof Sys2Proof.Machine in
/-- R219, Table 11-10: FSQRT of a positive value is its root rounded once in the mode. FRCP, within the range of finite results, and FRSQ lie
within 1 unit in the last place of the exact result for FP64 and FP32 and within half a unit for FP16 and BF16. Which of the results within
the bound they are is not disclosed (log 8). -/
def Sys2Proof.Claims.SpecialFunctionBounds : Prop :=
  ∀ (lf : FFmt) (rm : Rm) (c : Nat) (f : FP) (neg : Bool) (m : Nat) (e k : Int) (x : ℚ), f = FP.ofLane lf → f.val c = .fin neg m e → 0 < m →
    x = m * (2 : ℚ) ^ e → ∀ ulp : ℚ, ulp = (2 : ℚ) ^ (max k f.emin - f.fb) → ∀ bound : ℚ, bound = (if lf = .f64 ∨ lf = .f32 then 1 else 1 / 2) →
    (neg = false → ∃ s, sfuLane .sqrt lf rm c = (s, { nx := decide (Claims.mag f s ^ 2 ≠ x) }) ∧ s ≤ f.maxCode ∧
      match rm with
      | .rup => x ≤ Claims.mag f s ^ 2 ∧ (0 < s → Claims.mag f (s - 1) ^ 2 < x)
      | .rne => 4 * x ≤ (Claims.mag f s + Claims.mag f (s + 1)) ^ 2 ∧ (0 < s → (Claims.mag f (s - 1) + Claims.mag f s) ^ 2 ≤ 4 * x) ∧
          (4 * x = (Claims.mag f s + Claims.mag f (s + 1)) ^ 2 ∨ 4 * x = (Claims.mag f (s - 1) + Claims.mag f s) ^ 2 → s % 2 = 0)
      | _ => Claims.mag f s ^ 2 ≤ x ∧ x < Claims.mag f (s + 1) ^ 2) ∧
    (1 / x ≤ Claims.mag f f.maxCode → (2 : ℚ) ^ k ≤ 1 / x → 1 / x < (2 : ℚ) ^ (k + 1) →
      ∃ n j, f.val (sfuLane .rcp lf rm c).1 = .fin neg n j ∧ |n * (2 : ℚ) ^ j - 1 / x| ≤ bound * ulp) ∧
    (neg = false → ((2 : ℚ) ^ k) ^ 2 ≤ 1 / x → 1 / x < ((2 : ℚ) ^ (k + 1)) ^ 2 →
      ∃ n j, f.val (sfuLane .rsq lf rm c).1 = .fin false n j ∧ |(n * (2 : ℚ) ^ j : ℝ) - 1 / Real.sqrt x| ≤ bound * ulp)

open Sys2Proof Sys2Proof.Machine in
/-- R137, R218: an SFU function on a compute core posts its request and leaves rotation, or has not issued while the queue's 16 entries are taken; at
the queue's head it is served with each
lane's value and the flags of all lanes. The values of the approximate functions are those of a table that the spec does not
disclose (log 8). -/
def Sys2Proof.Claims.SpecialFunctionResult : Prop :=
  ∀ (s s1 s2 : State) (d : Dst) (a b : Src) (lf : FFmt) (g : Guard) (f : Fmt) (rm : Rm) (x y : W128),
    Claims.GuardOn s g → Claims.Formatted s f → f.ty = 0 → f.mask = false → f.sat = false → Claims.mode f.rnd = some rm →
    ¬ Claims.OnSpindle s → Claims.Bound s d →
    (Claims.Reads s a x s1 → ∀ i op, (i, op) ∈ Claims.sfu1 d a lf g →
      ((s1.unit (s1.unitOf s.cur)).sfuq.length < 16 → exec i s = .next (Claims.carried ((s1.modUnit (s1.unitOf s.cur) (fun c =>
        { c with sfuq := c.sfuq ++ [SfuReq.mk s.cur op lf x 0 d f.rnd] })).waitOn s.cur .sfu))) ∧
      (16 ≤ (s1.unit (s1.unitOf s.cur)).sfuq.length → exec i s = .next s) ∧
      ∀ u, Claims.Served u op lf x 0 d f.rnd rm) ∧
    (Claims.Reads2 s a b x y s2 →
      ((s2.unit (s2.unitOf s.cur)).sfuq.length < 16 → exec (.fdiv d a b lf g) s = .next (Claims.carried ((s2.modUnit (s2.unitOf s.cur) (fun c =>
        { c with sfuq := c.sfuq ++ [SfuReq.mk s.cur .fdiv lf x y d f.rnd] })).waitOn s.cur .sfu))) ∧
      (16 ≤ (s2.unit (s2.unitOf s.cur)).sfuq.length → exec (.fdiv d a b lf g) s = .next s) ∧
      ∀ u, Claims.Served u .fdiv lf x y d f.rnd rm)

open Sys2Proof Sys2Proof.Machine in
/-- R133, R220, R271, R280, R306: on a spindle an instruction of the SFU, of tiles, mailboxes, fields, the loom, the assignment engine and
of rendezvous jobs, SPAWN and REAP trap as a unit error (0x05) with their word; nothing is read. -/
def Sys2Proof.Claims.UnitError : Prop :=
  ∀ (i : Instr) (g : Guard) (s : State), Claims.notOnSpindle i = true → Claims.guardOf i = some g → Claims.PrefixTaken i s →
    Claims.GuardOn s g → Claims.OnSpindle s → exec i s = .next (s.raise 0x05 (wordOf i))

open Sys2Proof Sys2Proof.Machine in
/-- R209, R210, R212: the floating-point and integer compares, and the order of values that they and VMIN and VMAX follow.
Choices of the model that it rests on: log 44. -/
def Obligations.VectorCompareResult : Prop :=
  Claims.VectorCompares ∧ Claims.OrderOfValues

open Sys2Proof Sys2Proof.Machine in
/-- R205, R207 to R209, R211: the results of the vector floating-point instructions, and the arithmetic of values they rest on.
Choices of the model that it rests on: log 17, 44. -/
def Obligations.VectorFloat : Prop :=
  Claims.VectorFloatResult ∧ Claims.VectorFloatOneSource ∧ Claims.ArithmeticValues

open Sys2Proof Sys2Proof.Machine in
/-- R212, R217: the results of the vector integer and the lane-moving instructions.
Choices of the model that it rests on: log 17. -/
def Obligations.VectorIntegerAndLanes : Prop :=
  Claims.VectorIntegerResult ∧ Claims.LaneMoveResult

open Sys2Proof Sys2Proof.Machine in
/-- R197 to R199, R202 to R204, R213 to R216: the values of codes, conversions, and the single rounding of every floating-point result.
Choices of the model that it rests on: log 17, 44. -/
def Obligations.ConversionAndRounding : Prop :=
  Claims.ConversionResult ∧ Claims.RoundedOnce ∧ Claims.CodeValues ∧ Claims.ConversionValues

open Sys2Proof Sys2Proof.Machine in
/-- R133, R137, R218 to R220, R271, R280, R306: special functions and FDIV, their special results and bounds, and what the unit refuses.
Choices of the model that it rests on: log 8, 45, 51. -/
def Obligations.SpecialFunctions : Prop :=
  Claims.SpecialFunctionResult ∧ Claims.SpecialFunctionValues ∧ Claims.SpecialFunctionBounds ∧ Claims.UnitError

namespace Sys2Proof.Claims
open Sys2Proof.Machine

/-- The issuing strand's unit. -/
def here (s : State) : UnitId := s.unitOf s.cur

/-- The address of a load or store: the base plus a scaled offset (R222, Table 8-2). -/
def eaOf (s : State) (base : Base) (k : Int) (n : Nat) : W64 := lo64 s.me.regs[base] + .ofInt 64 (k * n)

/-- Canonical and aligned to `n` bytes (R9, R34). -/
def Aligned (ea : W64) (n : Nat) : Prop := ea.toNat < 2 ^ 56 ∧ ea.toNat % n = 0

/-- A window address (R10). -/
def windowed (ea : W64) : Prop := ea.toNat / 2 ^ 52 % 16 = 15

/-- The register value that a load of a kind gives for the number that its bytes hold, lowest first (R222). -/
def loaded (k : MKind) (m : Nat) : W128 :=
  match k with
  | .sb => ((BitVec.ofNat 8 m).signExtend 64).setWidth 128
  | .sh => ((BitVec.ofNat 16 m).signExtend 64).setWidth 128
  | .sw => ((BitVec.ofNat 32 m).signExtend 64).setWidth 128
  | _ => .ofNat 128 m

/-- Regions of a card permit reading or writing each of `n` bytes from `a` (R88). -/
def Permits (c : Card) (a n : Nat) (wr : Bool) : Prop :=
  ∀ b, a ≤ b → b < a + n → ∃ r ∈ c.regions, (if wr then r.w else r.r) = true ∧ r.base ≤ b ∧ b < r.base + r.len

/-- The issuing strand may make the access: it is no program strand, or its card's regions permit it (R88, R302). -/
def Footprint (s : State) (ea : W64) (n : Nat) (rd wr : Bool) : Prop :=
  ∀ id, s.me.card = some id → ∃ c, Tbl.find s.cards id = some c ∧ (rd = true → Permits c ea.toNat n false) ∧ (wr = true → Permits c ea.toNat n true)

/-- A memory operation of the issuing strand at a place, ready to be performed. -/
def opAt (s : State) (act : MemAct) (ea : W64) (n : Nat) (v : W128) (d : Dst) (l : XLoc) (rel : Bool) : MemOp :=
  MemOp.mk act ea n v d (some l) .go s.serial rel 0 0 none false

/-- A memory operation of the issuing strand that waits for a walk (R26); `again` says that its instruction has not issued. -/
def opWalk (s : State) (act : MemAct) (ea : W64) (n : Nat) (v : W128) (d : Dst) (rel again : Bool) : MemOp :=
  MemOp.mk act ea n v d none .walk s.serial rel 0 0 none again

/-- An access is carried out at its home by a strand that does not migrate (Table 12-2): every access from a spindle, and from a core a
window access outside the core's own scratchpad. -/
def AtHome (s : State) (ea : W64) (l : Loc) : Prop :=
  s.me.kind ≠ .follow ∧ (OnSpindle s ∨ (windowed ea ∧ (∀ d b o, l ≠ .vault d b o) ∧ ∀ o, l ≠ .spad (here s).die (here s).bay o))

/-- A data-following strand migrates for a load or store at a place (R53, R133). -/
def Follows (s : State) (l : Loc) (dest : UnitId) : Prop :=
  s.me.kind = .follow ∧ s.me.irv = false ∧ s.me.orv = false ∧ here s ≠ dest ∧
  ((∃ d b o, l = .vault d b o ∧ dest = spOf d b) ∨ ∃ d b o, l = .spad d b o ∧ dest = coreOf d b ∧ here s ≠ spOf d b)

/-- The strand leaves for another unit at its next turn; its instruction has not issued (R133). -/
def departing (s : State) (dest : UnitId) (t : Strand) : Strand :=
  { prefixed t with status := .ready, wait := .none, leaving := some ⟨dest, s.serial⟩ }

/-- The order of a line after it is written at time `t` with a stamp. -/
def lineWritten (s : State) (l : Loc) (t : Nat) (st : V4) : Tbl LineOrder := Tbl.set s.lines l.line ⟨t, t, st⟩

/-- Memory after `bs` are written from a key up: the bytes, and the poison of the words they cover whole is gone (R318). -/
def putAt (s : State) (k : Nat) (bs : List Byte) : State :=
  { s with mem := s.mem.writeBytes k bs, poison := clearPoison s.poison k bs.length }

/-- Core cycles that a synchronising access may stay parked, FEWAIT mesh cycles: 0 stands for 2^24 (Table 2-5). -/
def parkLimit (s : State) (tag : Nat) : Nat :=
  2 * (if (s.part tag).fectl.toNat % 2 ^ 24 = 0 then 2 ^ 24 else (s.part tag).fectl.toNat % 2 ^ 24)

/-- The key of a byte of vault or scratchpad kind (R39, R16). -/
def HasKey (s : State) (tag : Nat) (l : Loc) (k : Nat) : Prop := s.keyOf tag l = some k

/-- A state in which one free value more has been taken where `n` is 16: which way a 16-byte access is performed (R34; log 46). -/
def taken (s : State) (n : Nat) : State := if n = 16 then { s with freeCtr := s.freeCtr + 1 } else s

/-- The low or the high 8 bytes of a 16-byte value. -/
def halfOf (v : W128) (hi : Bool) : List Byte := leBytes 8 (v.toNat / 2 ^ (if hi then 64 else 0) % 2 ^ 64)

/-- The place of the low or the high half of a 16-byte access. -/
def halfAt (l : Loc) (hi : Bool) : Loc := l.plus (if hi then 8 else 0)

/-- The tenant's bytes of an access have been noted for the vault's usage meter (R338). -/
def moved (s : State) (tag : Nat) : Loc → State
  | .vault _ _ _ => s.owe tag 6 1
  | _ => s

/-- A strand and its state after a plain load of bytes of its own die (R67). -/
def readBy (s : State) (x : Nat) (l : Loc) : State :=
  ({ moved s (s.strand x).tag l with lines := Tbl.set s.lines l.line { s.lineAt l with rts := max (s.lineAt l).rts (max (s.strand x).ord.pts (s.lineAt l).wts) } }).setStrand x
    { s.strand x with ord := { (s.strand x).ord with
        pts := max (s.strand x).ord.pts (s.lineAt l).wts, pa := (s.strand x).ord.pa.vmax (s.lineAt l).stamp } }

/-- A strand and its state after a plain store of bytes at a key of its own die (R67). -/
def storedBy (s : State) (x : Nat) (l : Loc) (k : Nat) (bs : List Byte) : State :=
  ({ putAt (moved s (s.strand x).tag l) k bs with lines := lineWritten s l (max (s.strand x).ord.pts ((s.lineAt l).rts + 1)) (s.strand x).ord.rs }).setStrand x
    { s.strand x with ord := { (s.strand x).ord with pts := max (s.strand x).ord.pts ((s.lineAt l).rts + 1) } }

/-- What an atomic stores for `old` and `x` of `n` bytes, none where it writes nothing (R227, Table 12-3). -/
def atomicStores (op : AtOp) (n : Nat) (old x : W128) : Option Nat :=
  let o := old.toNat % 2 ^ (8 * n)
  let v := x.toNat % 2 ^ (8 * n)
  match op with
  | .add => some ((o + v) % 2 ^ (8 * n))
  | .and => some (o &&& v)
  | .or => some (o ||| v)
  | .xor => some (o ^^^ v)
  | .min => some (if laneInt (8 * n) o < laneInt (8 * n) v then o else v)
  | .max => some (if laneInt (8 * n) v < laneInt (8 * n) o then o else v)
  | .minu => some (min o v)
  | .maxu => some (max o v)
  | .swp => some v
  | .cas => if o = v then some (x.toNat / 2 ^ 64 % 2 ^ (8 * n)) else none
  | .fadd => let f := if n = 4 then fp32 else fp64; some (f.add .rne (f.val o) (f.val v)).1
  | .ldo => none
  | .sto => some v

/-- What an atomic answers with: the old value, ACAS its match in bit 64, STO nothing (R226). -/
def atomicAnswer (op : AtOp) (d : Dst) (old : W128) (written : Bool) : Reply :=
  match op with
  | .sto => Reply.mk .wz 0 none 0 none
  | .cas => Reply.mk d (BitVec.ofNat 128 (2 ^ 64 * b2n written) + old) none 0 none
  | _ => Reply.mk d old none 0 none

/-- The atomics, with what the decoder admits of size, order and scope (R226). -/
def atomics (base : Base) (b : RegZ) (o : AOrd) (sc : Scope) (z : ASize) (g : Guard) : List (Instr × AtOp) :=
  [(.aadd base b o sc z g, .add), (.aand base b o sc z g, .and), (.aor base b o sc z g, .or), (.axor base b o sc z g, .xor),
   (.amin base b o sc z g, .min), (.amax base b o sc z g, .max), (.aminu base b o sc z g, .minu), (.amaxu base b o sc z g, .maxu),
   (.aswp base b o sc z g, .swp), (.acas base b o sc z g, .cas), (.afadd base b o sc z g, .fadd), (.ldo base b o sc z g, .ldo),
   (.sto base b o sc z g, .sto)]

/-- A scope at which releases and acquires take a step (R74, R76). -/
def Wide (sc : Scope) : Prop := sc = .dev ∨ sc = .dom

/-- A release at device or domain scope by a strand on die `d`: its view takes the die's drains, and its release stamp all it knows
(R74). -/
def releasedOrd (s : State) (o : OrderState) (d : Nat) (o' : OrderState) : Prop :=
  o'.pts = o.pts ∧ o'.pa = o.pa ∧ (∀ h < 4, o'.vw.get h = if h = d then o.vw.get h else max (o.vw.get h) ((s.die d).dd.get h)) ∧
  o'.rs = o.rs.vmax (o'.know d)

/-- An order state after a stamp is applied on die `d` at device or domain scope (R76). -/
def appliedOrd (o : OrderState) (d : Nat) (st : V4) (o' : OrderState) : Prop :=
  o'.rs = o.rs ∧ o'.pa = o.pa ∧ o'.pts = max o.pts (st.get d) ∧
  (∀ h < 4, o'.vw.get h = if h = d then o.vw.get h else max (o.vw.get h) (st.get h))

/-- A stamp applied on die `d` at device or domain scope (R76). -/
def Applied (s : State) (o : OrderState) (d : Nat) (sc : Scope) (st : V4) (o' : OrderState) (s' : State) : Prop :=
  appliedOrd o d st o' ∧ s' = { s with rdc := s'.rdc } ∧ ∀ c, c ∈ s'.rdc ↔ c ∈ s.rdc ∧ ¬ (c.die = d ∧ (sc = .dom ∨ c.rts < st.get c.home))

/-- The state in which the access of a waiting strand is performed: an access from a spindle has gone through its slot's stream detector
(R49). -/
def detected (s : State) (x : Nat) (m : MemOp) (l : XLoc) : State :=
  if (s.unitOf x).sp = true ∧ m.half = none then s.detect (s.unitOf x) (1 + (s.slotOf x).getD 0) l m.ea else s

/-- Strand `x` waits for an access that is ready to be performed at a place. -/
def ReadyAccess (s : State) (x : Nat) (m : MemOp) (l : XLoc) : Prop :=
  (s.strand x).wait = .mem m ∧ (s.strand x).status = .waiting ∧ m.loc = some l ∧ m.stage = .go ∧ m.rel = true

end Sys2Proof.Claims

open Sys2Proof Sys2Proof.Machine in
/-- R9, R34, R53, R88, R222, R302: where a load or store stops before its access. A non-canonical address (0x08), a misaligned one (0x09), and
an address outside the windows from a compute core by a strand that does not migrate (0x0B); nothing is popped, written or pushed. A
program strand whose card does not permit the access stops, and its card ends with code 0x01. -/
def Sys2Proof.Claims.LoadStoreChecks : Prop :=
  ∀ (s s' : State) (d : Dst) (a : Src) (x : W128) (base : Base) (off : BitVec 8) (kd : MKind) (k : Int) (g : Guard) (c n : Nat) (i : Instr) (ea : W64),
    Claims.GuardOn s g → Claims.simm s off k → n = MKind.bytes kd → ea = Claims.eaOf s base k n → Claims.Bound s d → Claims.Reads s a x s' →
    s'.me.card = s.me.card → s'.me.kind = s.me.kind → Claims.here s' = Claims.here s → ∀ ok : Bool → Prop,
    (∀ wr, ok wr ↔ (2 ^ 56 ≤ ea.toNat ∧ c = 0x08 ∨ ea.toNat < 2 ^ 56 ∧ ea.toNat % n ≠ 0 ∧ c = 0x09 ∨
      Claims.Footprint (if wr then s' else s) ea n (!wr) wr ∧ Claims.Aligned ea n ∧ ¬ Claims.windowed ea ∧ ¬ Claims.OnSpindle s ∧
        s.me.kind ≠ .follow ∧ c = 0x0B)) →
    (i = .ld d base off kd g → ok false → exec i s = .next (s.raise c ea)) ∧
    (i = .st a base off kd g → ok true → exec i s = .next (s.raise c ea)) ∧
    (∀ id card, s.me.card = some id → Tbl.find s.cards id = some card → Claims.Aligned ea n → s'.cards = s.cards →
      (i = .ld d base off kd g ∧ ¬ Claims.Permits card ea.toNat n false ∨ i = .st a base off kd g ∧ ¬ Claims.Permits card ea.toNat n true) →
      exec i s = .next ((s.stopBase s.cur s.me.exitw).setCard id { card with code := 1 }))

open Sys2Proof Sys2Proof.Machine in
/-- R34, R35, R67, R222, R223: LD and ST of the strand's own scratchpad. The load takes the bytes at the address, lowest first, zero-extended
or sign-extended by its kind, and one step of the line's order; the store writes the low bytes of its register there and nothing else. A
16-byte access is performed whole, or one half first, with the other left for a step of its own, and the strand stays in rotation either
way (R125): which is a free value (log 46). -/
def Sys2Proof.Claims.OwnScratchpadAccess : Prop :=
  ∀ (s s' s1 : State) (d : Dst) (a : Src) (x : W128) (base : Base) (off : BitVec 8) (kd : MKind) (k : Int) (g : Guard) (ea : W64) (l : XLoc)
    (o n : Nat),
    Claims.GuardOn s g → Claims.simm s off k → n = MKind.bytes kd → ea = Claims.eaOf s base k n → Claims.Aligned ea n → Claims.windowed ea →
    ¬ Claims.OnSpindle s → l.loc = .spad (Claims.here s).die (Claims.here s).bay o → s1.me = s'.me →
    s1.cur = s.cur → s'.cur = s.cur → Claims.here s' = Claims.here s →
    (s' = s → Claims.Bound s d → Claims.Footprint s ea n true false → s.xlate (Claims.here s) s.me.tag ea n .load = (.ok l, s1) →
      s1.badAt s.me.tag l.loc n = false → ∀ whole, whole = Claims.retires (Claims.readBy (Claims.taken s1 n) s.cur l.loc)
          (Reply.mk d (Claims.loaded kd (leNat (s1.bytesAt s.me.tag l.loc n))) none 0 none) →
      (n ≠ 16 → exec (.ld d base off kd g) s = .next whole) ∧
      (n = 16 → exec (.ld d base off kd g) s = .next whole ∨ ∃ hi, exec (.ld d base off kd g) s =
        .next (Claims.carried ((Claims.readBy (Claims.taken s1 n) s.cur (Claims.halfAt l.loc hi)).setWait s.cur
          (.mem { Claims.opAt s (.load kd) ea n 0 d l true with half := some (hi, s1.bytesAt s.me.tag (Claims.halfAt l.loc hi) 8) }))))) ∧
    (Claims.Reads s a x s' → Claims.Footprint s' ea n false true → s'.xlate (Claims.here s) s'.me.tag ea n .store = (.ok l, s1) →
      ∀ key whole, key = s1.spadAt s1.me.tag (Claims.here s).die (Claims.here s).bay →
      whole = (Claims.storedBy (Claims.taken s1 n) s.cur l.loc (key o) (leBytes n x.toNat)).retire (Reply.mk .wz 0 none 0 none) →
      (n ≠ 16 → exec (.st a base off kd g) s = .next whole) ∧
      (n = 16 → exec (.st a base off kd g) s = .next whole ∨ ∃ hi, exec (.st a base off kd g) s =
        .next (Claims.carried ((Claims.storedBy (Claims.taken s1 n) s.cur (Claims.halfAt l.loc hi) (key (o + if hi then 8 else 0))
          (Claims.halfOf x hi)).setWait s.cur (.mem { Claims.opAt s .store ea n x .wz l true with half := some (hi, []) })))))

open Sys2Proof Sys2Proof.Machine in
/-- R26, R29, R38, R53, R133, R223: LD and ST elsewhere. A strand that does not migrate leaves rotation with the access to be made at its home,
or has not issued while its unit has no in-flight record free; a data-following strand is marked to depart for the home, its instruction
not issued. An address whose translation traps raises that trap; one whose translation is in no cache waits for a walk, its operands read,
unless the strand follows data with a ring bound: it then pops nothing until the address is translated. -/
def Sys2Proof.Claims.AccessElsewhere : Prop :=
  ∀ (s s' s1 : State) (d : Dst) (a : Src) (x : W128) (base : Base) (off : BitVec 8) (kd : MKind) (k : Int) (g : Guard) (ea : W64) (l : XLoc)
    (dest : UnitId) (n c : Nat),
    Claims.GuardOn s g → Claims.simm s off k → n = MKind.bytes kd → ea = Claims.eaOf s base k n → Claims.Aligned ea n →
    s'.cur = s.cur → Claims.here s' = Claims.here s → s'.me.kind = s.me.kind → s'.serial = s.serial →
    s'.me.irv = s.me.irv → s'.me.orv = s.me.orv → s1.cur = s.cur →
    ∀ (i : Instr) (op : XLoc → MemOp) (wk : Bool → MemOp) (acc : AccKind) (q : State),
    (i = .ld d base off kd g ∧ op = (fun l => Claims.opAt s (.load kd) ea n 0 d l true) ∧
        wk = Claims.opWalk s (.load kd) ea n 0 d true ∧ acc = .load ∧ q = s ∧ Claims.Bound s d ∧ Claims.Footprint s ea n true false ∨
      i = .st a base off kd g ∧ op = (fun l => Claims.opAt s .store ea n x .wz l true) ∧ wk = Claims.opWalk s .store ea n x .wz true ∧
        acc = .store ∧ q = s' ∧ Claims.Reads s a x s' ∧ Claims.Footprint s' ea n false true) →
    (q.xlate (Claims.here s) q.me.tag ea n acc = (.ok l, s1) →
      (Claims.AtHome s ea l.loc → exec i s = .next (if s1.recordRoom (s1.unitOf s.cur) then Claims.carried (s1.waitOn s.cur (.mem (op l))) else s)) ∧
      (Claims.Follows s l.loc dest → exec i s = .next (Claims.upd s (Claims.departing s dest)))) ∧
    (Claims.windowed ea ∨ Claims.OnSpindle s ∨ s.me.kind = .follow →
      (q.xlate (Claims.here s) q.me.tag ea n acc = (.trap c, s1) → exec i s = .next (s.raise c ea)) ∧
      (q.xlate (Claims.here s) q.me.tag ea n acc = (.miss, s1) →
        (q.recordRoom (Claims.here s) = false → exec i s = .next s) ∧
        (q.recordRoom (Claims.here s) = true → s.me.kind = .follow → s.me.irv = true ∨ s.me.orv = true → exec i s =
          .next ((s.waitOn s.cur (.mem (wk true))).askWalk s.me.tag (s.walkReq s.cur acc ea))) ∧
        (q.recordRoom (Claims.here s) = true → (s.me.kind = .follow → s.me.irv = false ∧ s.me.orv = false) → exec i s =
          .next (Claims.carried ((s1.waitOn s.cur (.mem (wk false))).askWalk s1.me.tag (s1.walkReq s.cur acc ea))))))

open Sys2Proof Sys2Proof.Machine in
/-- R34, R52, R67 to R69, R318: HOME_ACCESS of LD or ST, one step on its own die. A store to another die joins that die's FIFO with the release
stamp and removes the line's copy; a load is forwarded from the youngest entry that covers it, waits while one covers part of it, takes the
die's RDC copy, asks the line's slice where the RDC may hold it, or reads at the home. A poisoned word traps (0x40), its mark consumed. -/
def Sys2Proof.Claims.HomeAccessResult : Prop :=
  ∀ (s s0 : State) (x : Nat) (t : Strand) (m : MemOp) (l : XLoc) (d h k : Nat), t = s.strand x → Claims.ReadyAccess s x m l →
    s0 = Claims.detected s x m l → d = (s.unitOf x).die → Claims.HasKey s t.tag l.loc k → l.loc.die? = some h →
    (∀ kd, m.act = .load kd → m.size = MKind.bytes kd → m.half = none → s.badAt t.tag l.loc m.size = false →
      ∀ (reply : Nat → Wait), (∀ v, reply v = .reply (Reply.mk m.d (Claims.loaded kd v) none 0 none)) →
      (h = d → ∀ q, q = Claims.readBy (Claims.taken s0 m.size) x l.loc →
        (m.size ≠ 16 → exec (.homeAccess x) s = .next (q.setWait x (reply (leNat (s.bytesAt t.tag l.loc m.size))))) ∧
        (m.size = 16 → exec (.homeAccess x) s = .next (q.setWait x (reply (leNat (s.bytesAt t.tag l.loc 16)))) ∨ ∃ hi, exec (.homeAccess x) s =
          .next ((Claims.readBy (Claims.taken s0 m.size) x (Claims.halfAt l.loc hi)).setWait x
            (.mem { m with half := some (hi, s.bytesAt t.tag (Claims.halfAt l.loc hi) 8) })))) ∧
      (h ≠ d → m.size ≠ 16 → ∀ e bs, youngest (s.buffered d l.loc) = some e → e.covers l.loc m.size = some bs → exec (.homeAccess x) s =
        .next (s0.setWait x (reply (leNat bs)))) ∧
      (h ≠ d → m.size ≠ 16 → ∀ e, youngest (s.buffered d l.loc) = some e → e.covers l.loc m.size = none → exec (.homeAccess x) s = .next s) ∧
      (h ≠ d → m.size ≠ 16 → s.buffered d l.loc = [] → ∀ c, s.rdcCopy d l.loc = some c →
        (∀ i, l.loc.inLine / 8 ≤ i → i < (l.loc.inLine + m.size + 7) / 8 → c.bad.getD i false = false) → exec (.homeAccess x) s =
          .next (s0.setStrand x { t with
            ord := { t.ord with vw := t.ord.vw.set h (max (t.ord.vw.get h) c.wts), pa := t.ord.pa.vmax c.stamp }
            wait := reply (leNat ((c.bytes.drop l.loc.inLine).take m.size)) })) ∧
      (h ≠ d → s.buffered d l.loc = [] → s.rdcCopy d l.loc = none → l.rdc = true → ∀ b o, l.loc = .vault h b o → exec (.homeAccess x) s =
        .next ((s0.setStrand x { t with wait := .mem { m with stage := .slice } }).modUnit (spOf h b) (fun c =>
          c.joinRead t.tag l.loc.line ⟨.strand x, true, m.ea, l.size⟩))) ∧
      (h ≠ d → m.size ≠ 16 → s.buffered d l.loc = [] → s.rdcCopy d l.loc = none → (l.rdc = false ∨ ∀ b o, l.loc ≠ .vault h b o) →
        ∃ s', exec (.homeAccess x) s = .next s' ∧ s'.mem = s.mem ∧ s'.strand x = { t with
          ord := { t.ord with vw := t.ord.vw.set h (max (t.ord.vw.get h) (s.lineAt l.loc).wts), pa := t.ord.pa.vmax (s.lineAt l.loc).stamp }
          wait := reply (leNat (s.bytesAt t.tag l.loc m.size)) })) ∧
    (∀ kd hi fst, m.act = .load kd → m.half = some (hi, fst) → h = d → s.badAt t.tag (Claims.halfAt l.loc (!hi)) 8 = false →
      ∀ snd, snd = s.bytesAt t.tag (Claims.halfAt l.loc (!hi)) 8 → exec (.homeAccess x) s =
        .next ((Claims.readBy s x (Claims.halfAt l.loc (!hi))).setWait x
          (.reply (Reply.mk m.d (Claims.loaded kd (leNat (if hi then snd ++ fst else fst ++ snd))) none 0 none)))) ∧
    (∀ kd, m.act = .load kd → m.size = MKind.bytes kd → m.half = none → m.size ≠ 16 → h = d → s.badAt t.tag l.loc m.size = true →
      ∃ s', exec (.homeAccess x) s = .next s' ∧ (s'.strand x).pend = some (0x40, m.ea) ∧ (s'.strand x).status = .ready ∧
        s'.badAt t.tag l.loc m.size = false ∧ s'.mem = s.mem ∧ (s'.strand x).regs = t.regs) ∧
    (m.act = .store → m.half = none →
      (h = d → ∀ nothing, nothing = Wait.reply (Reply.mk .wz 0 none 0 none) →
        ∀ whole, whole = (Claims.storedBy (Claims.taken s0 m.size) x l.loc k (leBytes m.size m.data.toNat)).setWait x nothing →
        (m.size ≠ 16 → exec (.homeAccess x) s = .next whole) ∧
        (m.size = 16 → exec (.homeAccess x) s = .next whole ∨ ∃ hi, ∀ j, Claims.HasKey s t.tag (Claims.halfAt l.loc hi) j → exec (.homeAccess x) s =
          .next ((Claims.storedBy (Claims.taken s0 m.size) x (Claims.halfAt l.loc hi) j (Claims.halfOf m.data hi)).setWait x
            (.mem { m with half := some (hi, []) })))) ∧
      (h ≠ d → m.size ≠ 16 → ∃ s', exec (.homeAccess x) s = .next s' ∧ s'.mem = s.mem ∧ s'.lines = s.lines ∧ s'.rdcCopy d l.loc = none ∧
        s'.fifo d (.die h) = s.fifo d (.die h) ++
          [BufEntry.mk s.serial t.tag (.bytes l.loc (leBytes m.size m.data.toNat)) t.ord.rs none (.strand x m.ea) false] ∧
        s'.serial = s.serial + 1 ∧ s'.strand x = { t with wait := .reply (Reply.mk .wz 0 none 0 none) })) ∧
    (∀ hi fst j, m.act = .store → m.half = some (hi, fst) → h = d → Claims.HasKey s t.tag (Claims.halfAt l.loc (!hi)) j →
      exec (.homeAccess x) s = .next ((Claims.storedBy s x (Claims.halfAt l.loc (!hi)) j (Claims.halfOf m.data (!hi))).setWait x
        (.reply (Reply.mk .wz 0 none 0 none))))

open Sys2Proof Sys2Proof.Machine in
/-- R34, R67, R125, R318: the half of an access of its own scratchpad that a strand in rotation has left: the instruction then retires with both,
or traps (0x40) on poison. -/
def Sys2Proof.Claims.SecondHalfInRotation : Prop :=
  ∀ (s : State) (x k : Nat) (t : Strand) (m : MemOp) (l : XLoc) (hi : Bool) (fst : List Byte) (p : Loc), t = s.strand x → t.status = .ready →
    t.wait = .mem m → m.loc = some l → m.half = some (hi, fst) → p = Claims.halfAt l.loc (!hi) → p.die? = some (s.unitOf x).die →
    Claims.HasKey s t.tag p k →
    (∀ kd snd, m.act = .load kd → s.badAt t.tag p 8 = false → snd = s.bytesAt t.tag p 8 → exec (.homeAccess x) s =
      .next ((Claims.readBy s x p).retireOf x false
        (Reply.mk m.d (Claims.loaded kd (leNat (if hi then snd ++ fst else fst ++ snd))) none 0 none))) ∧
    (∀ kd, m.act = .load kd → s.badAt t.tag p 8 = true → ∃ s', exec (.homeAccess x) s = .next s' ∧ (s'.strand x).pend = some (0x40, m.ea) ∧
      (s'.strand x).status = .ready ∧ s'.badAt t.tag p 8 = false ∧ s'.mem = s.mem ∧ (s'.strand x).regs = t.regs) ∧
    (m.act = .store → exec (.homeAccess x) s = .next ((Claims.storedBy s x p k (Claims.halfOf m.data (!hi))).retireOf x false
      (Reply.mk .wz 0 none 0 none)))

open Sys2Proof Sys2Proof.Machine in
/-- R68, R69, R89, R320, R331: toward another device a store joins the FIFO, and a load is forwarded or returns free bytes and moves no vector; a
program strand's card notes it; over a failed link it traps (log 83). -/
def Sys2Proof.Claims.ForeignAccess : Prop :=
  ∀ (s : State) (x : Nat) (t : Strand) (m : MemOp) (l : XLoc) (d v : Nat) (gpa : W64), t = s.strand x → Claims.ReadyAccess s x m l →
    l.loc = .foreign v gpa → d = (s.unitOf x).die →
    ((Tbl.get Link.init s.links v).failed = true → exec (.homeAccess x) s = .next (s.defer x 0x18 m.ea)) ∧
    ((Tbl.get Link.init s.links v).failed = false → m.half = none → m.size ≠ 16 →
      (∀ kd, m.act = .load kd →
        (∀ e, youngest (s.buffered d l.loc) = some e → e.covers l.loc m.size = none → exec (.homeAccess x) s = .next s) ∧
        (∀ e, youngest (s.buffered d l.loc) = some e → ∀ bs, e.covers l.loc m.size = some bs → ∃ s', exec (.homeAccess x) s = .next s' ∧
          s'.mem = s.mem ∧ s'.strand x = { t with wait := .reply (Reply.mk m.d (Claims.loaded kd (leNat bs)) none 0 none) }) ∧
        (s.buffered d l.loc = [] → ∃ s' bs, exec (.homeAccess x) s = .next s' ∧ bs.length = m.size ∧ s'.mem = s.mem ∧ s'.lines = s.lines ∧
          s'.strand x = { t with wait := .reply (Reply.mk m.d (Claims.loaded kd (leNat bs)) none 0 none) })) ∧
      (m.act = .store → ∃ s', exec (.homeAccess x) s = .next s' ∧ s'.mem = s.mem ∧ s'.lines = s.lines ∧ s'.fifo d (.dev v) = s.fifo d (.dev v) ++
          [BufEntry.mk s.serial t.tag (.bytes l.loc (leBytes m.size m.data.toNat)) t.ord.rs none (.strand x m.ea) false] ∧
        s'.strand x = { t with wait := .reply (Reply.mk .wz 0 none 0 none) } ∧
        ∀ id c, t.card = some id → Tbl.find s.cards id = some c → Tbl.find s'.cards id = some { c with foreign := true }))

open Sys2Proof Sys2Proof.Machine in
/-- R82, R223, R224: at a register window of the die a load returns bytes of the slot's register, or zero where it holds no strand, and a store
replaces them, or is dropped and counted in ORPH. -/
def Sys2Proof.Claims.WindowAccess : Prop :=
  ∀ (s : State) (x : Nat) (m : MemOp) (l : XLoc) (d b n j : Nat) (r : Fin 24), Claims.ReadyAccess s x m l → l.loc = .rwin d b n r j →
    d = (s.unitOf x).die → (s.unitOf x).sp = false → m.half = none → m.size ≠ 16 → j + m.size ≤ 16 → ∀ tag, tag = (s.strand x).tag →
    (∀ kd v, m.act = .load kd → m.size = MKind.bytes kd → (s.inSlot (coreOf d b) tag n = none → v = 0) →
      (∀ y, s.inSlot (coreOf d b) tag n = some y → v = (s.strand y).regs[r].toNat / 2 ^ (8 * j) % 2 ^ (8 * m.size)) →
      ∃ s', exec (.homeAccess x) s = .next s' ∧ s'.mem = s.mem ∧ (s'.strand x).wait = .reply (Reply.mk m.d (Claims.loaded kd v) none 0 none)) ∧
    (m.act = .store →
      (s.inSlot (coreOf d b) tag n = none → ∃ s', exec (.homeAccess x) s = .next s' ∧ s'.mem = s.mem ∧
        (s'.unit (coreOf d b)).orph = min ((s.unit (coreOf d b)).orph + 1) 0xFFFFFFFF ∧ ∀ y, (s'.strand y).regs = (s.strand y).regs) ∧
      (∀ y, s.inSlot (coreOf d b) tag n = some y → ∃ s' v, exec (.homeAccess x) s = .next s' ∧ s'.mem = s.mem ∧
        (s'.strand y).regs = (s.strand y).regs.set r v ∧
        ∀ i < 16, v.toNat / 2 ^ (8 * i) % 256 = if j ≤ i ∧ i < j + m.size then m.data.toNat / 2 ^ (8 * (i - j)) % 256
          else (s.strand y).regs[r].toNat / 2 ^ (8 * i) % 256))

open Sys2Proof Sys2Proof.Machine in
/-- R68, R71, R320: the oldest entry toward a die is performed: its bytes, the line's time and stamp, and the die's vector. Toward a device the
first unsent entry is sent and stays until acknowledged; over a failed link it is lost, and its strand traps (0x18) in a turn in which it
has no wait and no other trap to take (log 83). RDC_EXPIRY removes a copy. -/
def Sys2Proof.Claims.BufferDrains : Prop :=
  ∀ (s : State) (d h v i k time : Nat) (e : BufEntry) (rest : List BufEntry) (l : Loc) (bs : List Byte),
    (s.fifo d (.die h) = e :: rest → e.act = .bytes l bs → e.land = none → Tbl.find s.drains e.src.id = none → Claims.HasKey s e.tag l k →
      time = (s.lineAt l).rts + 1 → exec (.writeBufferDrain d (.die h)) s =
        .next ({ Claims.putAt (Claims.moved (s.setFifo d (.die h) rest) e.tag l) k bs with lines := Claims.lineWritten s l time e.stamp }.modDie d
          (fun c => { c with dd := c.dd.set h (max (c.dd.get h) time) }))) ∧
    (s.fifo d (.dev v) = e :: rest → (Tbl.get Link.init s.links v).failed = false → e.sent = false →
      exec (.writeBufferDrain d (.dev v)) s = .next (s.setFifo d (.dev v) ({ e with sent := true } :: rest))) ∧
    (∀ x va, s.fifo d (.dev v) = e :: rest → (Tbl.get Link.init s.links v).failed = true → e.src = .strand x va →
      Tbl.find s.strands x = some (s.strand x) → (s.strand x).status ≠ .stopped →
      exec (.writeBufferDrain d (.dev v)) s = .next ((s.setFifo d (.dev v) rest).setStrand x { s.strand x with lost := (s.strand x).lost ++ [va] })) ∧
    (∀ x va more, (s.strand x).lost = va :: more → (s.strand x).pend = none → (s.strand x).status = .ready → (s.strand x).wait = .none →
      exec (.deferredTrap x) s = .next ((s.setStrand x { s.strand x with lost := more }).takeTrap x 0x18 va (s.strand x).pc)) ∧
    (s.fifo d (.dev v) = e :: rest → e.sent = true → Tbl.find s.drains e.src.id = none →
      exec (.linkWriteAck d v) s = .next (s.setFifo d (.dev v) rest)) ∧
    (∀ c, (s.rdc.filter (fun c => c.die == d))[i]? = some c → ∃ s', exec (.rdcExpiry d i) s = .next s' ∧ s' = { s with rdc := s'.rdc } ∧
      ∀ r, r ∈ s'.rdc ↔ r ∈ s.rdc ∧ ¬ (r.die = d ∧ r.line = c.line))

open Sys2Proof Sys2Proof.Machine in
/-- R3, R51, R52, R70, Table 2-1: a read at the home installs or renews the line's copy where the leaf allows, and removes it while RDCCTL.OFF is 1
or the die's buffer holds the line; a set of the slice of bay and line bits 5:0 holds 16 copies, any of which leaves for a new one. A die
copies no line of its own. -/
def Sys2Proof.Claims.RdcCopies : Prop :=
  ∀ (s : State) (d h b o : Nat) (x : XLoc), x.loc = .vault h b o →
    (h = d → s.rdcFill d x = s) ∧
    (h ≠ d → (s.die d).rdcctl.getLsbD 16 = true ∨ s.buffered d x.loc ≠ [] → ∀ c, c ∈ (s.rdcFill d x).rdc ↔
      c ∈ s.rdc ∧ ¬ (c.die = d ∧ c.line = x.loc.line)) ∧
    (h ≠ d → (s.die d).rdcctl.getLsbD 16 = false → s.buffered d x.loc = [] →
      (x.rdc = false → s.rdcCopy d x.loc = none → s.rdcFill d x = s) ∧
      (x.rdc = true ∨ s.rdcCopy d x.loc ≠ none → (∀ slot, s.rdcReads d slot < 16) → ∃ c ∈ (s.rdcFill d x).rdc,
        c.die = d ∧ c.line = x.loc.line ∧ c.home = h ∧ c.bytes = s.bytesAt 0 x.loc.lineStart 128 ∧ c.wts = (s.lineAt x.loc).wts ∧
        c.rts = (s.lineAt x.loc).rts ∧ c.stamp = (s.lineAt x.loc).stamp ∧ c.lease = s.clock + s.lease d)) ∧
    ((∀ slot, (s.rdc.filter (fun c => c.die == d && rdcSlot c.line == slot)).length ≤ 16) →
      ∀ slot, ((s.rdcFill d x).rdc.filter (fun c => c.die == d && rdcSlot c.line == slot)).length ≤ 16) ∧
    (o < 2 ^ 25 → (rdcSlot x.loc.line).1 = (b % 64) ^^^ (o / 128 % 64) ∧ (rdcSlot x.loc.line).2 < 512)

open Sys2Proof Sys2Proof.Machine in
/-- R49: under a leaf with SD the fourth access in a row to the next line of a page sets stream mode, another line starts anew; an access without
SD drops the detector. 64 idle spindle cycles end the mode, not the run. -/
def Sys2Proof.Claims.StreamDetectors : Prop :=
  ∀ (s : State) (u : UnitId) (i who : Nat) (l : XLoc) (va : W64),
    (∀ e ∈ ((s.detect u who l va).unit u).dets, e.who ≠ who → e ∈ (s.unit u).dets) ∧ (s.detect u who l va).strands = s.strands ∧
    (s.detect u who l va).mem = s.mem ∧
    (l.sd = false → ∀ e ∈ ((s.detect u who l va).unit u).dets, e.who ≠ who) ∧
    (l.sd = true → ∃ e ∈ ((s.detect u who l va).unit u).dets, e.who = who ∧ e.next = va.toNat / 128 + 1 ∧ e.at_ = s.clock ∧
      ∀ f, (s.unit u).dets.find? (fun e => e.who == who) = some f →
        (f.page = e.page → f.next = va.toNat / 128 → e.run = f.run + 1 ∧ (e.stream = true ↔ f.stream = true ∨ 4 ≤ e.run)) ∧
        (f.page ≠ e.page ∨ f.next ≠ va.toNat / 128 → e.run = 1 ∧ e.stream = false)) ∧
    (∀ e, (s.unit u).dets[i]? = some e →
      (e.stream = false ∨ s.clock < e.at_ + 128 → exec (.streamModeEnd u i) s = .next s) ∧
      (e.stream = true → e.at_ + 128 ≤ s.clock → exec (.streamModeEnd u i) s = .next (s.modUnit u (fun c => { c with
        dets := c.dets.map (fun f => if f.who = e.who then { f with stream := false } else f) }))))

open Sys2Proof Sys2Proof.Machine in
/-- R29, R73, R226: an atomic at issue leaves rotation for a place of vault or scratchpad kind, on any unit, with its release to be made first
at device and domain scope; with no in-flight record free it has not issued, and at a register window it is an address error (0x0A). -/
def Sys2Proof.Claims.AtomicIssue : Prop :=
  ∀ (s s1 : State) (base : Base) (b : RegZ) (o : AOrd) (sc : Scope) (z : ASize) (g : Guard) (i : Instr) (op : AtOp) (l : XLoc) (ea : W64) (n : Nat),
    (i, op) ∈ Claims.atomics base b o sc z g → (z = .q → op = .swp ∨ op = .ldo ∨ op = .sto) → n = ASize.bytes z → ea = lo64 s.me.regs[base] →
    Claims.Issues s g → Claims.Aligned ea n → Claims.Footprint s ea n (op != .sto) (op != .ldo) →
      s.xlate (Claims.here s) s.me.tag ea n .atomic = (.ok l, s1) → s1.cur = s.cur →
      ((∃ k, Claims.HasKey s1 s.me.tag l.loc k) ∨ (∃ v a, l.loc = .foreign v a ∧ a.toNat / 2 ^ 46 % 4 ≠ 2) →
        exec i s = .next (if s1.recordRoom (s1.unitOf s.cur) then
          s1.waitOn s.cur (.mem (Claims.opAt s (.atomic op o sc z) ea n (regz s.me b) (RegZ.dst b) l
            (!(decide (o = .rel ∨ o = .ar) && decide (sc = .dev ∨ sc = .dom))))) else s)) ∧
      (∀ die bay slot r j, l.loc = .rwin die bay slot r j → exec i s = .next (s.raise 0x0A ea))

open Sys2Proof Sys2Proof.Machine in
/-- R73, R76, R226, R227, R318: an atomic at its home, whatever die its strand is on. It waits until the entries that its die's FIFO toward the
home held have drained, and an acquire until the buffer does not hold the line. It stores the new value where there is one, with the
line's next time and the strand's release stamp joined, and answers with the old value; an acquire then applies the line's stamp, after
which the die keeps no older copy. A poisoned word traps (0x40), its mark consumed, unless the atomic is STO. -/
def Sys2Proof.Claims.AtomicAtHome : Prop :=
  ∀ (t : State) (o : AOrd) (sc : Scope) (z : ASize) (op : AtOp) (l : XLoc) (n x k p d h : Nat) (k0 : Strand) (m : MemOp) (line : LineOrder)
    (old : W128) (acq : Prop), (z = .q → op = .swp ∨ op = .ldo ∨ op = .sto) →
    k0 = t.strand x → Claims.ReadyAccess t x m l → m.act = .atomic op o sc z → m.half = none → n = ASize.bytes z → d = (t.unitOf x).die →
    l.loc.die? = some h → Claims.HasKey t k0.tag l.loc k → line = t.lineAt l.loc → old = BitVec.ofNat 128 (leNat (t.bytesAt k0.tag l.loc n)) →
    p = (if h = d then max k0.ord.pts (line.rts + 1) else line.rts + 1) → (acq ↔ o = .acq ∨ o = .ar) →
    (t.fifoDrained d l.loc m.upto = false ∨ acq ∧ t.buffered d l.loc ≠ [] → exec (.homeAccess x) t = .next t) ∧
    (t.fifoDrained d l.loc m.upto = true → (acq → t.buffered d l.loc = []) →
      (op ≠ .sto → t.badAt k0.tag l.loc n = true → ∃ t', exec (.homeAccess x) t = .next t' ∧ (t'.strand x).pend = some (0x40, m.ea) ∧
        (t'.strand x).status = .ready ∧ (t'.strand x).ord = k0.ord ∧ t'.mem = t.mem ∧ t'.badAt k0.tag l.loc n = false) ∧
      ((op = .sto ∨ t.badAt k0.tag l.loc n = false) → ∃ t' o1 o2, exec (.homeAccess x) t = .next t' ∧
        (∀ v, Claims.atomicStores op n old m.data = some v → t'.mem = t.mem.writeBytes k (leBytes n v) ∧
          t'.lines = Claims.lineWritten t l.loc p (line.stamp.vmax k0.ord.rs) ∧
          o1 = (if h = d then { k0.ord with pts := p, pa := k0.ord.pa.vmax line.stamp }
            else { k0.ord with vw := k0.ord.vw.set h (max (k0.ord.vw.get h) p), pa := k0.ord.pa.vmax line.stamp }) ∧
          t'.strand x = { k0 with ord := o2, wait := .reply (Claims.atomicAnswer op m.d old true) }) ∧
        (Claims.atomicStores op n old m.data = none → t'.mem = t.mem ∧
          o1 = (if h = d then { k0.ord with pts := max k0.ord.pts line.wts, pa := k0.ord.pa.vmax line.stamp }
            else { k0.ord with vw := k0.ord.vw.set h (max (k0.ord.vw.get h) line.wts), pa := k0.ord.pa.vmax line.stamp }) ∧
          t'.strand x = { k0 with ord := o2, wait := .reply (Claims.atomicAnswer op m.d old false) }) ∧
        (acq ∧ Claims.Wide sc → Claims.appliedOrd o1 d line.stamp o2 ∧
          ∀ c ∈ t'.rdc, c.die = d → sc ≠ .dom ∧ line.stamp.get c.home ≤ c.rts) ∧
        (¬ (acq ∧ Claims.Wide sc) → o2 = o1) ∧ ∀ y, y ≠ x → t'.strand y = t.strand y))

open Sys2Proof Sys2Proof.Machine in
/-- R73, R76, R331: an atomic at a word of another device, over a link that stands: once its FIFO has drained it returns that device's value, a
free one here (log 9); a domain-scope acquire lets every copy of its die expire. -/
def Sys2Proof.Claims.AtomicForeign : Prop :=
  ∀ (t : State) (o : AOrd) (sc : Scope) (z : ASize) (op : AtOp) (l : XLoc) (n x v : Nat) (gpa : W64) (m : MemOp),
    (z = .q → op = .swp ∨ op = .ldo ∨ op = .sto) → Claims.ReadyAccess t x m l → m.act = .atomic op o sc z → m.half = none →
    n = ASize.bytes z → l.loc = .foreign v gpa →
    (Tbl.get Link.init t.links v).failed = false → t.fifoDrained (t.unitOf x).die l.loc m.upto = true →
    (o = .acq ∨ o = .ar → t.buffered (t.unitOf x).die l.loc = []) →
    ∃ (t' : State) (old : W128) (written : Bool), exec (.homeAccess x) t = .next t' ∧ old.toNat < 2 ^ (8 * n) ∧ t'.mem = t.mem ∧ t'.lines = t.lines ∧
      (written = true ↔ Claims.atomicStores op n old m.data ≠ none) ∧
      (t'.strand x).wait = .reply (Claims.atomicAnswer op m.d old written) ∧ (t'.strand x).regs = (t.strand x).regs ∧
      (o = .acq ∨ o = .ar → sc = .dom → ∀ c ∈ t'.rdc, c.die ≠ (t.unitOf x).die)

open Sys2Proof Sys2Proof.Machine in
/-- R29, R73, R76, R226, R227, R318, R331: atomics: at issue, at their home on any die, and at another device.
Choices of the model that it rests on: log 14, 46, 100. -/
def Obligations.AtomicResult : Prop :=
  Claims.AtomicIssue ∧ Claims.AtomicAtHome ∧ Claims.AtomicForeign

open Sys2Proof Sys2Proof.Machine in
/-- R74, R77, R80, R228: fences. Below device scope .acq, .rel and .ar only step on, and .sc joins the SC-fence log; at device and domain
scope .acq applies and clears pa, and the others wait for the release, which DEVICE_RELEASE takes once the die's entries present at the
fence have drained. A wide .sc then enters the log, applies the stamps of the earlier fences that it shares a scope with, and acquires. -/
def Obligations.FenceResult : Prop :=
  ∀ (s : State) (sc : Scope) (g : Guard) (nar wide : Prop), Claims.Issues s g → (wide ↔ Claims.Wide sc) → (nar ↔ ¬ wide) →
    (nar → ∀ i ∈ [.fenceAcq sc g, .fenceRel sc g, .fenceAr sc g], exec i s = .next (Claims.upd s Claims.next)) ∧
    (nar → ∃ mem, (∀ y, y ∈ mem ↔ y ∈ s.strands.map (·.1) ∧ (y = s.cur ∨ inScope sc (s.unitOf s.cur) (s.unitOf y) = true)) ∧
      exec (.fenceSc sc g) s = .next (State.waitOn { s with scLog := s.scLog ++ [⟨s.cur, sc, s.unitOf s.cur, s.me.ord.rs, mem⟩] } s.cur
        (.reply (.mk .wz 0 none 0 none)))) ∧
    (wide → ∃ o s', Claims.Applied s s.me.ord (Claims.here s).die sc s.me.ord.pa o s' ∧ exec (.fenceAcq sc g) s =
      .next ((Claims.upd s' (fun t => { t with ord := { o with pa := V4.zero } })).waitOn s.cur (.reply (.mk .wz 0 none 0 none)))) ∧
    (wide → exec (.fenceRel sc g) s = .next (s.waitOn s.cur (.fence true false false sc s.serial)) ∧
      exec (.fenceAr sc g) s = .next (s.waitOn s.cur (.fence true true false sc s.serial)) ∧
      exec (.fenceSc sc g) s = .next (s.waitOn s.cur (.fence true true true sc s.serial))) ∧
    ∀ (t : State) (x upto : Nat) (acq full : Bool) (d : Nat), d = (t.unitOf x).die → (t.strand x).wait = .fence true acq full sc upto → wide →
      (t.drained d (sc == .dom) upto = false → exec (.deviceRelease (.strand x)) t = .next t) ∧
      (t.drained d (sc == .dom) upto = true → ∃ o, Claims.releasedOrd t (t.strand x).ord d o ∧
        (full = false → acq = false → exec (.deviceRelease (.strand x)) t = .next (t.setStrand x { t.strand x with
          ord := o, wait := .reply (.mk .wz 0 none 0 none) })) ∧
        (full = false → acq = true → ∃ o2 t2, Claims.Applied t o d sc o.pa o2 t2 ∧ exec (.deviceRelease (.strand x)) t =
          .next (t2.setStrand x { t.strand x with ord := { o2 with pa := V4.zero }, wait := .reply (.mk .wz 0 none 0 none) })) ∧
        (full = true → ∃ mem st o2 t2 o3 t3,
          (∀ y, y ∈ mem ↔ y ∈ t.strands.map (·.1) ∧ (y = x ∨ inScope sc (t.unitOf x) (t.unitOf y) = true)) ∧
          (∀ i < 4, (∀ e ∈ t.scLog, x ∈ e.members → e.x ∈ mem → e.stamp.get i ≤ st.get i) ∧
            (st.get i = 0 ∨ ∃ e ∈ t.scLog, x ∈ e.members ∧ e.x ∈ mem ∧ st.get i = e.stamp.get i)) ∧
          Claims.Applied { t with scLog := t.scLog ++ [⟨x, sc, t.unitOf x, o.rs, mem⟩] } o d sc st o2 t2 ∧
          Claims.Applied t2 o2 d sc o2.pa o3 t3 ∧ exec (.deviceRelease (.strand x)) t =
            .next (t3.setStrand x { t.strand x with ord := { o3 with pa := V4.zero }, wait := .reply (.mk .wz 0 none 0 none) })))

open Sys2Proof Sys2Proof.Machine in
/-- R225: LDX and STX at issue leave rotation for a word of scratchpad kind; an address outside the windows, or a window place of another kind,
is an address error (0x0A) for every strand kind. -/
def Sys2Proof.Claims.SynchronisingIssue : Prop :=
  ∀ (s s' s1 : State) (d : Dst) (a : Src) (v : W128) (base : Base) (off : BitVec 8) (k : Int) (sc : Scope) (g : Guard) (ea : W64) (l : XLoc)
    (i : Instr) (q : State) (op : XLoc → MemOp) (acc : AccKind),
    Claims.GuardOn s g → Claims.simm s off k → ea = Claims.eaOf s base k 8 → Claims.Aligned ea 8 →
    (i = .ldx d base off sc g ∧ op = (fun l => Claims.opAt s (.ldx sc) ea 8 0 d l true) ∧ acc = .load ∧ q = s ∧ Claims.Bound s d ∧
        Claims.Footprint s ea 8 true false ∨
      i = .stx a base off sc g ∧ op = (fun l => Claims.opAt s (.stx sc) ea 8 v .wz l (decide (¬ (sc = .dev ∨ sc = .dom)))) ∧ acc = .store ∧
        q = s' ∧ Claims.Reads s a v s' ∧ Claims.Footprint s' ea 8 false true) →
    q.cur = s.cur → Claims.here q = Claims.here s → q.me.kind = s.me.kind → s1.cur = s.cur →
    (¬ Claims.windowed ea → exec i s = .next (s.raise 0x0A ea)) ∧
    (Claims.windowed ea → q.xlate (Claims.here s) q.me.tag ea 8 acc = (.ok l, s1) →
      (∀ die bay o, l.loc = .spad die bay o → s.me.kind ≠ .follow ∨ Claims.here s = coreOf die bay ∨ Claims.here s = spOf die bay →
        exec i s = .next (if s1.recordRoom (s1.unitOf s.cur) then Claims.carried (s1.waitOn s.cur (.mem (op l))) else s)) ∧
      (∀ die bay slot r j, l.loc = .rwin die bay slot r j → exec i s = .next (s.raise 0x0A ea)))

open Sys2Proof Sys2Proof.Machine in
/-- R41, R42, R79, R220: LDX and STX at a word of a bay. With its buffers drained, no parked access of the word able to proceed and the bit as
it needs it, LDX empties the word and answers with it and STX fills it; otherwise the access is parked, or, with 32 parked, answered with a
retry. A parked access leaves the table in a step of its own when it is the oldest of its word that can proceed. After the park limit the
entry leaves the table for a retry; RETRY_REISSUE issues the access again, or after FERETRY reissues traps (0x20) with bit 0 the bit that it
saw. Nothing of this happens while the strand is not in its slot. -/
def Sys2Proof.Claims.SynchronisingAtHome : Prop :=
  ∀ (t : State) (x die bay o w : Nat) (sc : Scope) (l : XLoc) (c : Strand) (m : MemOp) (u : UnitId) (t0 : State), l.loc = .spad die bay o →
    u = coreOf die bay → c = t.strand x → c.wait = .mem m → m.loc = some l → m.rel = true → m.half = none → (m.act = .ldx sc ∨ m.act = .stx sc) →
    w = t.bitNo c.tag l.loc → t0 = Claims.detected t x m l →
    (t.present x = false → m.stage = .go ∨ m.stage = .park → exec (.homeAccess x) t = .next t) ∧
    (m.stage = .go → t.parkFirst u l.loc.word ≠ none → exec (.homeAccess x) t = .next t) ∧
    (t.present x = true → t.buffered (t.unitOf x).die l.loc = [] → t.fifoDrained (t.unitOf x).die l.loc m.upto = true →
      t.badAt c.tag l.loc 8 = false →
      (m.stage = .go ∧ t.parkFirst u l.loc.word = none ∨ m.stage = .park ∧ t.parkFirst u l.loc.word = some x →
        (m.act = .ldx sc → w ∈ t.full → ∃ t', exec (.homeAccess x) t = .next t' ∧ t'.mem = t.mem ∧ t'.full = setDel t.full w ∧
          (t'.strand x).wait = .reply (Reply.mk m.d (.ofNat 128 (leNat (t.bytesAt c.tag l.loc 8))) none 0 none) ∧
          (m.stage = .park → ∀ e, e ∈ (t'.unit u).park ↔ e ∈ (t.unit u).park ∧ e.x ≠ x)) ∧
        (m.act = .stx sc → w ∉ t.full → ∃ t', exec (.homeAccess x) t = .next t' ∧ t'.full = setAdd t.full w ∧
          t'.mem = t.mem.writeBytes (t.spadAt c.tag die bay o) (leBytes 8 m.data.toNat) ∧
          (t'.strand x).wait = .reply (Reply.mk .wz 0 none 0 none) ∧
          (m.stage = .park → ∀ e, e ∈ (t'.unit u).park ↔ e ∈ (t.unit u).park ∧ e.x ≠ x))) ∧
      (m.stage = .go → t.parkFirst u l.loc.word = none → (m.act = .ldx sc ∧ w ∉ t.full ∨ m.act = .stx sc ∧ w ∈ t.full) →
        ((t.unit u).park.length < 32 → exec (.homeAccess x) t = .next ((t0.modUnit u (fun q =>
          { q with park := q.park ++ [⟨l.loc.word, x, t.clock - m.parkedFor⟩] })).setStrand x { c with wait := .mem { m with stage := .park } })) ∧
        (32 ≤ (t.unit u).park.length → exec (.homeAccess x) t = .next (t0.setStrand x { c with wait := .mem { m with stage := .retry } })))) ∧
    (∀ y word, t.parkFirst u word = some y ↔ ∃ pre e post, (t.unit u).park = pre ++ e :: post ∧ e.x = y ∧ e.word = word ∧
      (t.syncTry y).isSome = true ∧ ∀ f ∈ pre, f.word = word → (t.syncTry f.x).isSome = false) ∧
    ((t.syncTry x).isSome = true ↔ t.present x = true ∧ t.buffered (t.unitOf x).die l.loc = [] ∧ w ∈ t.full ∧ m.act = .ldx sc ∨
      t.present x = true ∧ t.fifoDrained (t.unitOf x).die l.loc m.upto = true ∧ w ∉ t.full ∧ m.act = .stx sc) ∧
    (∀ r m2, m2 = { m with stage := .retry, tries := r } → t.present x = true → ∀ t2, t2 = t.setStrand x { c with wait := .mem m2 } →
      (r < (t.part c.tag).fectl.toNat / 2 ^ 28 % 16 → exec (.retryReissue x) t2 =
        .next (t.setStrand x { c with wait := .mem { m2 with stage := .go, tries := r + 1 } })) ∧
      ((t.part c.tag).fectl.toNat / 2 ^ 28 % 16 ≤ r → exec (.retryReissue x) t2 =
        .next (t2.defer x 0x20 (if m.act = .stx sc then m.ea + 1 else m.ea)))) ∧
    (∀ j e, (t.unit u).park[j]? = some e → e.x = x → m.stage = .park → t.present x = true →
      (t.syncTry x).isSome = false → e.since + Claims.parkLimit t c.tag ≤ t.clock → exec (.parkTableTimeout die bay j) t = .next ((t.modUnit u (fun q =>
        { q with park := q.park.eraseIdx j })).setStrand x { c with wait := .mem { m with stage := .retry, parkedFor := 0 } }))

open Sys2Proof Sys2Proof.Machine in
/-- R41, R42, R79, R220, R225: LDX and STX: at issue, at their word, parked and awakened, and their retries and limits.
Choices of the model that it rests on: log 7, 101. -/
def Obligations.SynchronisingAccess : Prop :=
  Claims.SynchronisingIssue ∧ Claims.SynchronisingAtHome

open Sys2Proof Sys2Proof.Machine in
/-- R9, R26, R29, R34, R35, R53, R67, R88, R133, R222, R223, R302: what LD and ST do at issue: their checks, an access to the core's own
scratchpad, and one that is carried out elsewhere.
Choices of the model that it rests on: log 45, 46, 96. -/
def Obligations.LoadStoreIssue : Prop :=
  Claims.LoadStoreChecks ∧ Claims.OwnScratchpadAccess ∧ Claims.AccessElsewhere

open Sys2Proof Sys2Proof.Machine in
/-- R34, R49, R51, R52, R67 to R71, R82, R224, R318, R320: LD and ST at their home, window or other device, buffers, copies and detectors.
Choices of the model that it rests on: log 7, 9, 39, 46, 83 (a failed link: lost stores, 0x18), 89, 95, 100, 102,
118. -/
def Obligations.HomeAccessAndBuffers : Prop :=
  Claims.HomeAccessResult ∧ Claims.SecondHalfInRotation ∧ Claims.ForeignAccess ∧ Claims.WindowAccess ∧ Claims.BufferDrains ∧ Claims.RdcCopies ∧ Claims.StreamDetectors

namespace Sys2Proof.Claims
open Sys2Proof.Machine

/-- The instruction has done what it does, and the issuing strand moves on to the next word. -/
def done (s : State) : State := upd s next

/-- Completion stamp `cs` is applied to the issuing strand at device scope (R76, R90). -/
def JoinsStamp (s : State) (cs : V4) (s' : State) : Prop :=
  ∃ o s1, Applied s s.me.ord (here s).die .dev cs o s1 ∧ s' = upd s1 (fun t => { t with ord := o })

/-- The issue of a tile instruction applies the completion stamp of a ready tile (R90, R92). -/
def Joined (s : State) (e : Tile) (s' : State) : Prop := (e.st ≠ .ready ∧ s' = s) ∨ (e.st = .ready ∧ JoinsStamp s e.cs s')

/-- Tile `n` of the issuing strand's bay, which no other resident tenant has defined (R59). -/
def OwnTile (s : State) (n : Nat) (e : Tile) : Prop :=
  e = s.tile s.me.tag (here s).die (here s).bay n ∧
  (e.defd = true ∨ ∀ k ∈ s.coTenants (here s) s.me.tag, (s.tile k (here s).die (here s).bay n).defd = false)

/-- The tile-table entry of a tile is replaced. -/
def putTile (s : State) (n : Nat) (e : Tile) : State := s.setTile s.me.tag (here s).die (here s).bay n e

/-- A unicast fill as TRD starts it (R92, R231). -/
def unicast (s : State) (n : Nat) (va : W64) (lines : Nat) : Fill :=
  { tag := s.me.tag, die := (here s).die, bay := (here s).bay, tile := n, src := va, lines := lines, ord := s.me.ord, multi := false,
    ctr := none, bays := [⟨(here s).bay, true, false, none, false⟩], open_ := true, slot := (s.slotOf s.cur).getD 0, sent := [], read := [],
    packets := [], parked := [], foreign := false, failed := false }

/-- A multicast as TRD.mc starts it: a start for each named bay of the cluster, none accepted yet (R232). -/
def multicast (s : State) (n : Nat) (va : W64) (lines : Nat) (ctr : Option Nat) (bays : List Nat) : Fill :=
  { unicast s n va lines with multi := true, ctr := ctr, bays := bays.map (fun b => ⟨b, false, false, none, false⟩), open_ := false }

/-- A drain as TWR starts it (R93, R234). -/
def drainOf (s : State) (n : Nat) (va : W64) (lines : Nat) : Drain :=
  { tag := s.me.tag, die := (here s).die, bay := (here s).bay, tile := n, dst := va, lines := lines, ord := s.me.ord,
    slot := (s.slotOf s.cur).getD 0, stored := [], upto := none, foreign := false, parked := [], failed := false, lost := 0 }

/-- A fill goes on, and some bay of it takes its packets (R92, R344). -/
def Filling (f : Fill) : Prop := f.failed = false ∧ ∃ b ∈ f.bays, b.accepted = true ∧ b.refused = false

/-- A line's read may leave for a fill (R233, R344). -/
def MayRead (f : Fill) (line : Nat) : Prop :=
  f.open_ = true ∧ f.failed = false ∧ f.parked = [] ∧ line < f.lines ∧ line ∉ f.sent ∧ (f.multi = true → ∀ k < line, k ∈ f.sent)

/-- The packets of a line that leave for the bays of a fill (R92, R344). -/
def Sent (id : Nat) (f f' : Fill) (line : Nat) (bs : List Byte) : Prop :=
  f'.read = setAdd f.read line ∧ ∃ st bad, f'.packets = f.packets ++
    ((f.bays.filter (fun b => b.accepted && !b.refused)).map (fun b => FillPacket.mk id line b.bay bs bad st))

/-- The word that TSTAT returns (Table 2-6). -/
def tileWord (e : Tile) : Nat :=
  (match e.st with | .empty => 0 | .filling => 1 | .ready => 2 | .draining => 3) * 2 ^ 62 + b2n e.err * 2 ^ 61 + b2n e.mc * 2 ^ 60 +
  e.pend % 4096 * 2 ^ 48 + e.len * 2 ^ 18 + e.base * 2 ^ 7

/-- Ring `k` of the issuing strand's unit, which no other resident tenant has open (R59). -/
def OwnRing (s : State) (k : Nat) : Prop := s.ringForeign (here s) s.me.tag k = false

/-- A strand's answer: its operation is done, and its result is there when it rejoins rotation (R126). -/
def answered (s : State) (x : Nat) (r : Reply) : State := s.setStrand x { s.strand x with wait := .reply r }

/-- A strand's operation traps at its next turn, with nothing written (R126, R187). -/
def trapped (s : State) (x c : Nat) (v : W64) : State :=
  s.setStrand x { prefixed (s.strand x) with status := .ready, wait := .none, pend := some (c, v) }

/-- Nothing to write. -/
def noResult : Reply := .mk .wz 0 none 0 none

/-- A strand has waited on its unit for `n` core cycles (R221). -/
def WaitedOut (s : State) (x n : Nat) : Prop :=
  s.present x = true ∧ (s.strand x).status = .waiting ∧ (s.strand x).since + n ≤ s.clock

/-- The name of a stream's ring, HEAD and TAIL, as a timeout's value (Table 10-5). -/
def ringWord (k : Nat) (r : Ring) : W64 := .ofNat 64 (k + r.head * 2 ^ 16 + r.tail * 2 ^ 32)

end Sys2Proof.Claims

open Sys2Proof Sys2Proof.Machine in
/-- R29, R46, R59, R92, R93, R229 to R234: the tile instructions. TDEF places an empty tile and faults a ready one (0x24); TRD and TWR start a
fill of an empty or ready tile and a drain of a ready one, or have not issued with no in-flight record free; TREL empties it; TSTAT reads its
entry. Naming a ready tile applies its stamp. While the tile fills or drains all but TSTAT and TRD.mc wait, not issued. TRD.mc waits for the
starts that it sends. A tile that only another tenant has defined is an isolation violation (0x0C).
Choices of the model that it rests on: log 25, 47, 49. -/
def Obligations.TileInstructionResult : Prop :=
  ∀ (s s' s3 : State) (d : Dst) (a b : Src) (t : BitVec 6) (g : Guard) (v m : W128) (e : Tile) (n : Nat), Claims.Issues s g →
    ¬ Claims.OnSpindle s → n = t.toNat →
    ((s.tile s.me.tag (Claims.here s).die (Claims.here s).bay n).defd = false →
      (∃ k ∈ s.coTenants (Claims.here s) s.me.tag, (s.tile k (Claims.here s).die (Claims.here s).bay n).defd = true) →
      ∀ i ∈ [.tdef a t g, .trd a t g, .twr a t g, .trel t g, .tstat d t g], exec i s = .next (s.raise 0x0C (.ofNat 64 n))) ∧
    (Claims.OwnTile s n e →
    ((e.st = .filling ∨ e.st = .draining) → ∀ i ∈ [.tdef a t g, .trd a t g, .twr a t g, .trel t g],
      exec i s = .next (s.waitOn s.cur (.tile n))) ∧
    (∀ base len, base < 2 ^ 11 → len < 2 ^ 11 → (lo64 v).toNat = base * 2 ^ 7 + len * 2 ^ 18 → Claims.Reads s a v s' →
      (e.st = .empty → 2 ^ 18 < base * 128 + (len + 1) * 128 → exec (.tdef a t g) s = .next (s.raise 0x0A (.ofNat 64 (base * 128)))) ∧
      (e.st = .empty → base * 128 + (len + 1) * 128 ≤ 2 ^ 18 →
        (inPart (s.spadPart s.me.tag (Claims.here s).die (Claims.here s).bay) (base * 128) ((len + 1) * 128) = true →
        s'.cur = s.cur → exec (.tdef a t g) s = .next (Claims.done (s'.setTile s.me.tag (Claims.here s).die (Claims.here s).bay n
          { e with defd := true, base := base, len := len }))) ∧
        (inPart (s.spadPart s.me.tag (Claims.here s).die (Claims.here s).bay) (base * 128) ((len + 1) * 128) = false →
          exec (.tdef a t g) s = .next (s.raise 0x0C (.ofNat 64 n)))) ∧
      (e.st = .ready → exec (.tdef a t g) s = .next (s.raise 0x24 (.ofNat 64 n)))) ∧
    (e.st = .empty → exec (.twr a t g) s = .next (s.raise 0x24 (.ofNat 64 n))) ∧
    (Claims.Reads s a v s' → s'.cur = s.cur → s'.me.tag = s.me.tag → Claims.here s' = Claims.here s → s'.slotOf s.cur = s.slotOf s.cur →
      (∀ c, e.st = .empty ∨ e.st = .ready → s'.tileRange (Claims.here s) s.me.tag (lo64 v) (e.len + 1) .fill = some c →
        exec (.trd a t g) s = .next (s.raise c (lo64 v))) ∧
      (e.st = .empty ∨ e.st = .ready → s'.tileRange (Claims.here s) s.me.tag (lo64 v) (e.len + 1) .fill = none →
        (s.recordRoom (Claims.here s) = false → exec (.trd a t g) s = .next s) ∧
        (s.recordRoom (Claims.here s) = true → ∃ s2, Claims.Joined s' e s2 ∧ exec (.trd a t g) s = .next (Claims.done { Claims.putTile s2 n
            { e with st := .filling, pend := e.len + 1, mc := false, err := false } with
          fills := Tbl.set s2.fills s2.nextId (Claims.unicast s2 n (lo64 v) (e.len + 1)), nextId := s2.nextId + 1 }))) ∧
      (e.st = .ready → s'.tileRange (Claims.here s) s.me.tag (lo64 v) (e.len + 1) .store = none →
        (s.recordRoom (Claims.here s) = false → exec (.twr a t g) s = .next s) ∧
        (s.recordRoom (Claims.here s) = true → ∃ s2, Claims.Joined s' e s2 ∧ exec (.twr a t g) s = .next (Claims.done { Claims.putTile s2 n
            { e with st := .draining, pend := e.len + 1, err := false } with
          drains := Tbl.set s2.drains s2.nextId (Claims.drainOf s2 n (lo64 v) (e.len + 1)), nextId := s2.nextId + 1 })))) ∧
    (e.st = .empty ∨ e.st = .ready → ∃ s2, Claims.Joined s e s2 ∧
      exec (.trel t g) s = .next (Claims.done (Claims.putTile s2 n { e with st := .empty }))) ∧
    (Claims.Bound s d → ∃ s2, Claims.Joined s e s2 ∧
      exec (.tstat d t g) s = .next (s2.retire (Reply.mk d (zext128 (.ofNat 64 (Claims.tileWord e))) none 0 none))) ∧
    (∀ mask ctr bays, Claims.InSlot s 15 → Claims.Reads2 s a b v m s3 → s3.cur = s.cur → s3.me.tag = s.me.tag → Claims.here s3 = Claims.here s →
      s3.slotOf s.cur = s.slotOf s.cur →
      m.toNat < 2 ^ 37 → mask = m.toNat % 2 ^ 32 → mask ≠ 0 → ctr = (if m.toNat / 2 ^ 36 = 1 then some (m.toNat / 2 ^ 32 % 16) else none) →
      bays = ((List.range 32).filter (fun j => m.getLsbD j)).map (clusterBay (clusterOf (Claims.here s).bay)) →
      ((∃ c ∈ bays, s.ownsBay s.me.tag (Claims.here s).die c = false) → exec (.trdMc a b t g) s = .next (s.raise 0x0C (.ofNat 64 mask))) ∧
      ((∀ c ∈ bays, s.ownsBay s.me.tag (Claims.here s).die c = true) →
        s3.tileRange (Claims.here s) s.me.tag (lo64 v) (e.len + 1) .fill = none →
        (s.recordRoom (Claims.here s) = false → exec (.trdMc a b t g) s = .next s) ∧
        (s.recordRoom (Claims.here s) = true → ∃ s2, Claims.Joined s3 e s2 ∧ exec (.trdMc a b t g) s = .next (State.waitOn { s2 with
          fills := Tbl.set s2.fills s2.nextId (Claims.multicast s2 n (lo64 v) (e.len + 1) ctr bays), nextId := s2.nextId + 1 }
          s.cur (.trdmc s2.nextId))))))

open Sys2Proof Sys2Proof.Machine in
/-- R51, R92, R233, R318, R345: FILL_READ adds a line's read to its slice's merge table, joining the oldest outstanding read of the partition's
line, or, with 32 outstanding, waits; a line of a scratchpad is read at once. FILL_READ_STEP reads the oldest entry's line for all who
joined it: a fill's packet leaves for each bay, a strand's load is answered; waiting reads take the free places in their order. A line
whose translation traps ends the fill: with nothing under way its tile is empty with ERR. -/
def Sys2Proof.Claims.FillReads : Prop :=
  ∀ (s : State) (id line : Nat) (f : Fill) (u : UnitId),
    (Tbl.find s.fills id = some f → u = coreOf f.die f.bay →
      (∀ l s1 s2, Claims.MayRead f line → s.xlate u f.tag (f.src + .ofNat 64 (128 * line)) 128 .fill = (.ok l, s1) →
        s2 = s1.detect u 0 l (f.src + .ofNat 64 (128 * line)) → s1.buffered f.die l.loc = [] → s1.rdcCopy f.die l.loc = none →
        (∀ die bay o, l.loc = .vault die bay o → exec (.fillRead id line) s = .next ((s2.setFill id { f with sent := setAdd f.sent line }).modUnit
          (spOf die bay) (fun c => c.joinRead f.tag l.loc.line ⟨.fill id line, l.rdc, f.src + .ofNat 64 (128 * line), l.size⟩))) ∧
        (∀ die bay o, l.loc = .spad die bay o → Claims.Filling f → ∃ s' f', exec (.fillRead id line) s = .next s' ∧
          Tbl.find s'.fills id = some f' ∧ s'.mem = s1.mem ∧ f'.sent = setAdd f.sent line ∧ Claims.Sent id f f' line (s1.bytesAt f.tag l.loc 128))) ∧
      (∀ c s1 b, Claims.MayRead f line → s.xlate u f.tag (f.src + .ofNat 64 (128 * line)) 128 .fill = (.trap c, s1) → (∀ k ∈ f.sent, k ∈ f.read) →
        f.packets = [] → f.bays = [⟨b, true, false, none, false⟩] → s.drained f.die f.foreign s.serial = true →
        ∃ s', exec (.fillRead id line) s = .next s' ∧ Tbl.find s'.fills id = none ∧ (s'.tile f.tag f.die b f.tile).st = .empty ∧
          (s'.tile f.tag f.die b f.tile).err = true ∧ (s'.tile f.tag f.die b f.tile).pend = 0 ∧ s'.mem = s.mem) ∧
      (∀ key rest r va z die bay, (s.unit (spOf die bay)).merge = ⟨f.tag, key, [⟨.fill id line, r, va, z⟩]⟩ :: rest → Claims.Filling f →
        s.buffered f.die (vaultLine key) = [] → ∃ s' f', exec (.fillReadStep die bay 0) s = .next s' ∧ Tbl.find s'.fills id = some f' ∧
          s'.mem = s.mem ∧ Claims.Sent id f f' line (s.bytesAt f.tag (vaultLine key) 128) ∧
          (s'.unit (spOf die bay)).merge = (takeEntries rest (s.unit (spOf die bay)).mergeWait).1)) ∧
    (∀ x m kd tag key rest r va z die bay l, (s.unit (spOf die bay)).merge = ⟨tag, key, [⟨.strand x, r, va, z⟩]⟩ :: rest → (s.strand x).wait = .mem m →
      m.stage = .slice → m.half = none → m.act = .load kd → m.size = MKind.bytes kd → l = (vaultLine key).plus (m.ea.toNat % 128) →
      s.badAt (s.strand x).tag l m.size = false → s.buffered (s.unitOf x).die (vaultLine key) = [] → ∃ s', exec (.fillReadStep die bay 0) s = .next s' ∧
        s'.mem = s.mem ∧ (s'.strand x).wait = .reply (Reply.mk m.d (Claims.loaded kd (leNat (s.bytesAt (s.strand x).tag l m.size))) none 0 none)) ∧
    (∀ (c : CoreUnit) (tag key : Nat) (j : SliceJoin),
      (∀ pre e post, c.merge = pre ++ e :: post → e.tag = tag → e.line = key → (∀ f ∈ pre, ¬ (f.tag = tag ∧ f.line = key)) →
        c.joinRead tag key j = { c with merge := pre ++ { e with joins := e.joins ++ [j] } :: post }) ∧
      ((∀ f ∈ c.merge, ¬ (f.tag = tag ∧ f.line = key)) →
        c.joinRead tag key j = if c.merge.length < 32 then { c with merge := c.merge ++ [⟨tag, key, [j]⟩] }
          else { c with mergeWait := c.mergeWait ++ [⟨tag, key, [j]⟩] })) ∧
    (∀ a b, a.length ≤ 32 → takeEntries a b = (a ++ b.take (32 - a.length), b.drop (32 - a.length)))

open Sys2Proof Sys2Proof.Machine in
/-- R92, R93, R232, R344: TILE_LANDING writes a packet into the tile, the last one readying it; MULTICAST_START_ACCEPT starts an equal tile and
refuses another with ERR, the last start letting TRD.mc retire and the reads leave; a drain stores its lines of the tile and, with all
performed, TILE_DRAIN_READY readies it, with ERR where the drain has failed. -/
def Sys2Proof.Claims.TileSteps : Prop :=
  ∀ (s : State) (id line i : Nat) (f : Fill) (u : UnitId) (e : Tile),
    (Tbl.find s.fills id = some f →
      (∀ p, f.packets[i]? = some p → f.failed = false → e = s.tile f.tag f.die p.bay f.tile → p.bad = [] →
        inPart (s.spadPart f.tag f.die p.bay) ((e.base + p.line) * 128) 128 = true → ∃ s', exec (.tileLanding id i) s = .next s' ∧
        s'.mem = s.mem.writeBytes (s.spadAt f.tag f.die p.bay ((e.base + p.line) * 128)) p.bytes ∧
        (2 ≤ e.pend → s'.tile f.tag f.die p.bay f.tile = { e with pend := e.pend - 1 }) ∧
        (e.pend = 1 → s.drained f.die f.foreign s.serial = true → (s'.tile f.tag f.die p.bay f.tile).st = .ready)) ∧
      (∀ b, f.bays[i]? = some b → b.accepted = false → f.open_ = false → e = s.tile f.tag f.die b.bay f.tile →
        ((e.st = .filling ∨ e.st = .draining) → exec (.multicastStartAccept id i) s = .next s) ∧
        (e.st = .empty ∨ e.st = .ready → ∃ s' f', exec (.multicastStartAccept id i) s = .next s' ∧ Tbl.find s'.fills id = some f' ∧
          (f'.open_ = true ↔ ∀ j c, f.bays[j]? = some c → j ≠ i → c.accepted = true) ∧
          s'.tile f.tag f.die b.bay f.tile = if e.len + 1 = f.lines then { e with st := .filling, mc := true, err := false, pend := f.lines }
            else { e with st := .empty, err := true }))) ∧
    (∀ q, Tbl.find s.drains id = some q → u = coreOf q.die q.bay → e = s.tile q.tag q.die q.bay q.tile →
      (∀ l s1 k, q.parked = [] → q.failed = false → line < q.lines → line ∉ q.stored → s1.mem = s.mem → s1.tens = s.tens → s1.drains = s.drains →
        s.xlate u q.tag (q.dst + .ofNat 64 (128 * line)) 128 .store = (.ok l, s1) → l.loc.die? = some q.die → Claims.HasKey s1 q.tag l.loc k →
        ∃ s', exec (.tileDrainStore id line) s = .next s' ∧
          s'.mem = s.mem.writeBytes k (s.bytesAt q.tag (.spad q.die q.bay ((e.base + line) * 128)) 128) ∧
          s'.tile q.tag q.die q.bay q.tile = { e with pend := e.pend - 1 }) ∧
      (q.upto = none → q.lost = 0 → q.failed = false →
        (e.pend ≠ 0 ∨ q.stored.length ≠ q.lines → exec (.tileDrainReady id) s = .next s) ∧
        (e.pend = 0 → q.stored.length = q.lines → s.drained q.die q.foreign s.serial = true → ∃ s', exec (.tileDrainReady id) s = .next s' ∧
          Tbl.find s'.drains id = none ∧ s'.mem = s.mem ∧ (s'.tile q.tag q.die q.bay q.tile).st = .ready ∧
          (s'.tile q.tag q.die q.bay q.tile).err = e.err)) ∧
      (q.upto = none → q.failed = true → e.pend + q.stored.length = q.lines + q.lost → s.drained q.die q.foreign s.serial = true →
        ∃ s', exec (.tileDrainReady id) s = .next s' ∧ Tbl.find s'.drains id = none ∧ s'.mem = s.mem ∧
          (s'.tile q.tag q.die q.bay q.tile).st = .ready ∧ (s'.tile q.tag q.die q.bay q.tile).err = true))

open Sys2Proof Sys2Proof.Machine in
/-- R51, R92, R93, R232, R233, R344, R345: the steps of fills and drains: the reads of their lines and the landings, starts and stores.
Choices of the model that it rests on: log 39, 47, 85. -/
def Obligations.TileTransfer : Prop :=
  Claims.FillReads ∧ Claims.TileSteps

open Sys2Proof Sys2Proof.Machine in
/-- R55 to R59, R94 to R96, R235 to R238, R320: streams. SBIND.in opens and binds a ring, SBIND.out binds a consumer's; a push writes its entry and
advances TAIL, and waits while the ring is full; one to a ring that is not open, by a producer that is not registered or has posted its end,
is a protocol error (0x22), to a ring of another tenant or partition 0x0C, and over a failed link 0x18 (R320; that it traps at once is the
model's choice, log 83); QWAIT reads the count of entries, or 0 with SEND at the end, or waits; SEOS posts the
producer's end; SCLOSE frees the ring and traps those who wait on it. A wait past its limit traps (0x21).
Choices of the model that it rests on: log 9, 25, 26, 83. -/
def Obligations.StreamResult : Prop :=
  ∀ (s s' : State) (d : Dst) (a : Src) (r : BitVec 3) (lim : BitVec 5) (g : Guard) (v : W128) (k : Nat) (q : Ring),
    k = r.toNat → q = s.ring (Claims.here s) s.me.tag k →
    (Claims.Issues s g → Claims.Reads s a v s' → s'.cur = s.cur → Claims.OwnRing s k →
      (∀ base lg limexp pmask, base < 2 ^ 14 → 1 ≤ lg → lg ≤ 12 → 10 ≤ limexp → limexp ≤ 30 → pmask < 2 ^ 16 → pmask ≠ 0 →
        base = v.toNat / 2 ^ 4 % 2 ^ 14 → limexp = v.toNat / 2 ^ 85 % 2 ^ 5 → lg = v.toNat / 2 ^ 90 % 2 ^ 4 → pmask = v.toNat / 2 ^ 110 % 2 ^ 16 →
        16 * base % (16 * 2 ^ lg) = 0 → inPart (s.spadPart s.me.tag (Claims.here s).die (Claims.here s).bay) (16 * base) (16 * 2 ^ lg) = true →
        q.st = .free → s.me.irv = false → exec (.sbindIn a r g) s = .next (Claims.upd (s'.setRing (Claims.here s) s.me.tag k
          { st := .opened, pmask := .ofNat 16 pmask, eos := 0, log2n := lg, limexp := limexp, head := 0, tail := 0, base := base, stamps := [] })
          (fun t => { Claims.next t with iring := k, irv := true }))) ∧
      ((lo64 v).toNat % 2 ^ 32 = 0 → s.me.orv = false → exec (.sbindOut a r g) s = .next (Claims.upd s' (fun t =>
        { Claims.next t with oring := ⟨k, unitField (lo64 v), (lo64 v).toNat / 2 ^ 32 % 16⟩, orv := true })))) ∧
    (Claims.Issues s g → Claims.Bound s d → Claims.OwnRing s k →
      (q.st = .opened → q.head ≠ q.tail → exec (.qwait d r lim g) s = .next ((s.setRing (Claims.here s) s.me.tag k q).retire
        (.mk d (zext128 (.ofNat 64 ((q.tail + 65536 - q.head) % 65536))) none 0 none))) ∧
      ((Claims.ended q).st = .ended → exec (.qwait d r lim g) s = .next ((s.setRing (Claims.here s) s.me.tag k (Claims.ended q)).retire
        (.mk d 0 none 0x1000000000000000#64 none))) ∧
      (q.st = .opened → q.head = q.tail → q.pmask &&& ~~~q.eos ≠ 0 → exec (.qwait d r lim g) s =
        .next (s.waitOn s.cur (.qwait d k lim.toNat)))) ∧
    (∀ (o : OutBind) (c : Ring), Claims.Issues s g → o = s.me.oring → c = s.ring o.cons.u s.me.tag o.ring → s.me.orv = true →
      o.cons.dev = s.dev.num → s.ownsBay s.me.tag o.cons.u.die o.cons.u.bay = true → s.ringForeign o.cons.u s.me.tag o.ring = false →
      c.st = .opened → o.idx < 16 → exec (.seos g) s =
        .next ((Claims.upd (s.setRing o.cons.u s.me.tag o.ring (Claims.ended { c with eos := c.eos ||| .ofNat 16 (2 ^ o.idx) }))
          (fun t => { t with orv := false })).waitOn s.cur (.reply Claims.noResult))) ∧
    (Claims.Issues s g → Claims.OwnRing s k → ∃ t, exec (.sclose r g) s = .next t ∧ (t.ring (Claims.here s) s.me.tag k).st = .free ∧
      ∀ y, y ≠ s.cur → (s.strand y).tag = s.me.tag → s.unitOf y = Claims.here s → y ∈ s.strands.map (·.1) →
        ((∃ m, (s.strand y).wait = .pop k m) ∨ (∃ d l, (s.strand y).wait = .qwait d k l) → (t.strand y).pend = some (0x23, .ofNat 64 k)) ∧
        ((s.strand y).iring = k → (t.strand y).irv = false)) ∧
    (∀ (x : Nat) (p : Reply) (o : OutBind) (c : Ring) (tag : Nat), (s.strand x).wait = .push p → o = (s.strand x).oring → tag = (s.strand x).tag →
      c = s.ring o.cons.u tag o.ring → o.cons.dev = s.dev.num → s.ownsBay tag o.cons.u.die o.cons.u.bay = true →
      s.ringForeign o.cons.u tag o.ring = false → s.present x = true → c.st = .opened → o.idx < 16 → c.pmask.getLsbD o.idx = true →
      c.eos.getLsbD o.idx = false →
      ((c.tail + 65536 - c.head) % 65536 < 2 ^ c.log2n → exec (.streamPush x) s = .next (Claims.answered
        ((Claims.putAt s (s.spadAt tag o.cons.u.die o.cons.u.bay (Claims.entryAt c c.tail)) (leBytes 16 p.v.toNat)).setRing o.cons.u tag o.ring
          { c with tail := (c.tail + 1) % 65536, stamps := Tbl.set c.stamps (c.tail % 2 ^ c.log2n) (s.strand x).ord.rs }) x { p with d := .wz })) ∧
      (2 ^ c.log2n ≤ (c.tail + 65536 - c.head) % 65536 → exec (.streamPush x) s = .next s ∧ (Claims.WaitedOut s x (2 ^ c.limexp) →
        exec (.streamPushTimeout x) s = .next (Claims.trapped s x 0x21 (Claims.ringWord o.ring c))))) ∧
    (∀ (x : Nat) (p : Reply) (o : OutBind) (c : Ring) (tag : Nat), (s.strand x).wait = .push p → o = (s.strand x).oring → tag = (s.strand x).tag →
      c = s.ring o.cons.u tag o.ring → s.present x = true →
      (o.cons.dev = s.dev.num → s.ownsBay tag o.cons.u.die o.cons.u.bay = true → s.ringForeign o.cons.u tag o.ring = false →
        (Claims.ended c).st ≠ .opened ∨ c.pmask.getLsbD o.idx = false ∨ c.eos.getLsbD o.idx = true →
        exec (.streamPush x) s = .next (Claims.trapped s x 0x22 (.ofNat 64 o.ring))) ∧
      (o.cons.dev = s.dev.num → s.ownsBay tag o.cons.u.die o.cons.u.bay = false ∨ s.ringForeign o.cons.u tag o.ring = true →
        exec (.streamPush x) s = .next (Claims.trapped s x 0x0C (.ofNat 64 o.ring))) ∧
      (o.cons.dev ≠ s.dev.num → exec (.streamPush x) s = .next
        (if (Tbl.get Link.init s.links o.cons.dev).failed then Claims.trapped s x 0x18 (.ofNat 64 o.ring) else Claims.answered (s.owe tag 7 1) x { p with d := .wz }))) ∧
    (∀ (x n m : Nat) (c : Ring), c = s.ring (s.unitOf x) (s.strand x).tag k → c.st = .opened → (c.tail + 65536 - c.head) % 65536 < m →
      c.pmask &&& ~~~c.eos ≠ 0 → ((s.strand x).wait = .pop k m ∧ n = 2 ^ c.limexp ∨ m = 1 ∧ ∃ d l, (s.strand x).wait = .qwait d k l ∧ n = 2 ^ l) →
      Claims.WaitedOut s x n → exec (.streamTimeout x) s = .next (Claims.trapped s x 0x21 (Claims.ringWord k c)))

open Sys2Proof Sys2Proof.Machine in
/-- R36, R82, R135, R136, R239 to R241: deliveries and presence. DLV sends a message to a strand of its die or joins the die's buffer; its
arrival writes the register and sets its presence bit, or is dropped and counted. MDLV waits for its slots, each delivered once its
presence bit is clear. WAITP returns when the bit is set, CLRP clears it; a WAITP past its limit traps (0x27).
Choices of the model that it rests on: log 9, 36, 107. -/
def Obligations.DeliveryResult : Prop :=
  ∀ (s s' : State) (a b : Src) (n : Base) (lim : BitVec 5) (g : Guard) (x v : W128) (name : W64) (to_ : UnitName), name = lo64 x →
    to_ = unitField name →
    (Claims.Issues s g → Claims.Reads2 s a b x v s' → s'.cur = s.cur → badName name = false → to_.dev = s.dev.num →
      (to_.u.die = (Claims.here s).die → exec (.dlv a b n g) s = .next ((Claims.done s').addMsg
        (.deliver s.me.tag name n.val v s.cur (Claims.here s).die s'.me.ord.pts s'.me.ord.rs))) ∧
      (to_.u.die ≠ (Claims.here s).die → exec (.dlv a b n g) s = .next
        { (Claims.done s').setFifo (Claims.here s).die (.die to_.u.die) (s'.fifo (Claims.here s).die (.die to_.u.die) ++
            [BufEntry.mk s'.serial s.me.tag (.deliver name n.val v) s'.me.ord.rs none (.strand s.cur name) false]) with serial := s'.serial + 1 })) ∧
    (∀ mask slots, Claims.Issues s g → Claims.Reads2 s a b x v s' → s'.cur = s.cur → mask < 65536 → (name.getLsbD 36 = true → mask < 256) → mask ≠ 0 →
      name.toNat % 2 ^ 36 = mask * 2 ^ 16 → slots = (List.range 16).filter (fun i => mask / 2 ^ i % 2 == 1) → exec (.mdlv a b n g) s =
        .next (s'.waitOn s.cur (.mdlv name to_ n.val v slots false s'.serial))) ∧
    (Claims.Issues s g →
      (s.me.pres.getLsbD n.val = true → ∃ t, exec (.waitp n lim g) s = .next t ∧ t.mem = s.mem ∧ t.me.regs = s.me.regs ∧ t.me.pres = s.me.pres ∧
        t.me.pc = s.me.pc + 4 ∧ t.me.status = .ready) ∧
      (s.me.pres.getLsbD n.val = false → exec (.waitp n lim g) s = .next (s.waitOn s.cur (.waitp n.val lim.toNat))) ∧
      ∃ p : BitVec 24, (∀ k < 24, p.getLsbD k = if k = n.val then false else s.me.pres.getLsbD k) ∧
        exec (.clrp n g) s = .next (Claims.upd s (fun t => { Claims.next t with pres := p }))) ∧
    (∀ id tag reg w y die pts st, Tbl.find s.msgs id = some (.deliver tag name reg w y die pts st) →
      (∀ k t, s.named tag name = some k → t = s.strand k → ¬ (t.kind = .pos ∧ reg = 23) → ∀ h : reg < 24, k ≠ y →
        ∃ s1, exec (.messageDelivery id) s = .next s1 ∧ (∀ u i, t.place = .slot u i → s1.mem = s.mem) ∧ Tbl.find s1.msgs id = none ∧
          (s1.strand k).regs = t.regs.set reg w h ∧ (s1.strand k).pc = t.pc ∧ (s1.strand k).sts = t.sts ∧
          ∀ j < 24, (s1.strand k).pres.getLsbD j = if j = reg then true else t.pres.getLsbD j) ∧
      (s.named tag name = none ∨ (∃ k, s.named tag name = some k ∧ (s.strand k).kind = .pos ∧ reg = 23) → exec (.messageDelivery id) s = .next
        (State.modUnit { s with msgs := Tbl.del s.msgs id } to_.u (fun c => { c with orph := min (c.orph + 1) 0xFFFFFFFF })))) ∧
    (∀ y slot k va w left neg upto, (s.strand y).wait = .mdlv va to_ n.val w left neg upto → slot ∈ left → to_.dev = s.dev.num →
      s.inSlot to_.u (s.strand y).tag slot = some k → k ≠ y → (s.strand k).status ≠ .stopped →
      ¬ ((s.strand k).kind = .pos ∧ n.val = 23) → s.present y = true →
      (∀ e ∈ s.fifo (s.dieOf y) (.die to_.u.die), to_.u.die = s.dieOf y ∨ upto ≤ e.serial) →
      ((s.strand k).pres.getLsbD n.val = true → exec (.mdlvSlotDelivery y slot) s = .next s) ∧
      ((s.strand k).pres.getLsbD n.val = false → ∃ s1, exec (.mdlvSlotDelivery y slot) s = .next s1 ∧ (s1.strand k).regs[n] = w ∧
        (s1.strand k).pres.getLsbD n.val = true ∧ ((∃ j ∈ left, j ≠ slot) →
          (s1.strand y).wait = .mdlv va to_ n.val w (left.filter (fun j => j != slot)) neg upto) ∧
        ((∀ j ∈ left, j = slot) → neg = false → (s1.strand y).wait = .reply Claims.noResult) ∧
        ((∀ j ∈ left, j = slot) → neg = true → (s1.strand y).pend = some (0x25, va)) ∧
        (to_.u.die ≠ s.dieOf y → (s1.strand y).ord = (s.strand y).ord))) ∧
    (∀ y slot va w left neg upto, (s.strand y).wait = .mdlv va to_ n.val w left neg upto → slot ∈ left → to_.dev = s.dev.num →
      ((∃ e ∈ s.fifo (s.dieOf y) (.die to_.u.die), to_.u.die ≠ s.dieOf y ∧ e.serial < upto) →
        (∀ k, s.inSlot to_.u (s.strand y).tag slot = some k → (s.strand k).status ≠ .stopped ∧ ¬ ((s.strand k).kind = .pos ∧ n.val = 23)) →
        s.inSlot to_.u (s.strand y).tag slot ≠ none → exec (.mdlvSlotDelivery y slot) s = .next s) ∧
      (s.present y = true → (∀ k, s.inSlot to_.u (s.strand y).tag slot = some k → (s.strand k).status = .stopped ∨ (s.strand k).kind = .pos ∧ n.val = 23) →
        ∃ s1, exec (.mdlvSlotDelivery y slot) s = .next s1 ∧ s1.mem = s.mem ∧ (s1.unit to_.u).orph = min ((s.unit to_.u).orph + 1) 0xFFFFFFFF ∧
          (∀ k, k ≠ y → s1.strand k = s.strand k) ∧ ((∀ j ∈ left, j = slot) → (s1.strand y).pend = some (0x25, va)) ∧
          ((∃ j ∈ left, j ≠ slot) → (s1.strand y).wait = .mdlv va to_ n.val w (left.filter (fun j => j != slot)) true upto))) ∧
    (∀ y l, (s.strand y).wait = .waitp n.val l → (s.strand y).pres.getLsbD n.val = false → Claims.WaitedOut s y (2 ^ l) →
      exec (.presenceWaitTimeout y) s = .next (Claims.trapped s y 0x27 (.ofNat 64 n.val))) ∧
    (∀ y va w left neg upto (q : Nat), (s.strand y).wait = .mdlv va to_ n.val w left neg upto → to_.dev = s.dev.num → q = (s.strand y).tag →
      Claims.WaitedOut s y (Claims.parkLimit s q * ((s.part q).fectl.toNat / 2 ^ 28 % 16 + 1)) →
      ((∃ j k, j ∈ left ∧ s.inSlot to_.u (s.strand y).tag j = some k ∧ (s.strand k).pres.getLsbD n.val = true ∧ (s.strand k).status ≠ .stopped ∧
          ¬ ((s.strand k).kind = .pos ∧ n.val = 23)) → exec (.presenceWaitTimeout y) s = .next (Claims.trapped s y 0x27 (.ofNat 64 n.val))) ∧
      ((∀ j k, j ∈ left → s.inSlot to_.u (s.strand y).tag j = some k → (s.strand k).pres.getLsbD n.val = false) →
        exec (.presenceWaitTimeout y) s = .next s))

open Sys2Proof Sys2Proof.Machine in
/-- R242, R243: mailboxes and counters. MBX fills an empty mailbox and MBR empties a full one, else they wait; MWAIT subtracts its count once
the counter has reached it and no older wait is served first, and past its limit traps (0x2D) with the counter unchanged.
Choices of the model that it rests on: log 7. -/
def Obligations.MailboxResult : Prop :=
  ∀ (s s' : State) (d : Dst) (a : Src) (m : BitVec 2) (c l : BitVec 4) (g : Guard) (v : W128) (b : Mbox),
    Claims.Issues s g → ¬ Claims.OnSpindle s → b = s.mailbox (Claims.here s).die (Claims.here s).bay s.me.tag m.toNat →
    (Claims.Reads s a v s' → s'.cur = s.cur → s'.me.tag = s.me.tag → Claims.here s' = Claims.here s →
      s'.mailbox (Claims.here s).die (Claims.here s).bay s.me.tag m.toNat = b →
      (b.full = false → ∀ p, p = max s'.me.ord.pts (b.line.rts + 1) → exec (.mbx a m g) s = .next (Claims.upd
        (s'.setMailbox (Claims.here s).die (Claims.here s).bay s.me.tag m.toNat ⟨true, v, ⟨p, p, s'.me.ord.rs⟩⟩)
        (fun t => { Claims.next t with ord := { t.ord with pts := p } }))) ∧
      (b.full = true → exec (.mbx a m g) s = .next (s'.waitOn s.cur (.mbx m.toNat v)))) ∧
    (Claims.InSlot s 15 → Claims.Bound s d →
      (b.full = true → ∀ p, p = max s.me.ord.pts b.line.wts → exec (.mbr d m g) s = .next ((Claims.upd
        (s.setMailbox (Claims.here s).die (Claims.here s).bay s.me.tag m.toNat { b with full := false, line := { b.line with rts := max b.line.rts p } })
        (fun t => { t with ord := { t.ord with pts := p, pa := t.ord.pa.vmax b.line.stamp } })).retire (.mk d b.val none 0 none))) ∧
      (b.full = false → exec (.mbr d m g) s = .next (s.waitOn s.cur (.mbr m.toNat d)))) ∧
    (∀ n q, Claims.Reads s a v s' → s'.cur = s.cur → Claims.here s' = Claims.here s → (lo64 v).toNat = n → n < 2 ^ 32 → n ≠ 0 →
      q = s'.counter (Claims.here s).die (Claims.here s).bay s'.me.tag c.toNat →
      (n ≤ q.n → s'.mwaitOlder s.cur c.toNat q.n s'.nextId = false → ∃ t, exec (.mwait a c l g) s = .next t ∧ t.mem = s'.mem ∧
        t.counter (Claims.here s).die (Claims.here s).bay s'.me.tag c.toNat = ⟨q.n - n, q.stamps.drop n⟩ ∧ t.me.regs = s'.me.regs ∧
        t.me.pc = s'.me.pc + 4 ∧ t.me.status = .ready) ∧
      (q.n < n → exec (.mwait a c l g) s = .next (s'.waitOn s.cur (.mwait c.toNat n l.toNat)))) ∧
    (∀ (t : State) (x n : Nat), (t.strand x).wait = .mwait c.toNat n l.toNat →
      (t.counter (t.unitOf x).die (t.unitOf x).bay (t.strand x).tag c.toNat).n < n → Claims.WaitedOut t x (2 ^ (15 + l.toNat)) →
      exec (.mailboxCountTimeout x) t = .next (Claims.trapped t x 0x2D (.ofNat 64 c.toNat)))

namespace Sys2Proof.Claims
open Sys2Proof.Machine

/-- The layers of Bitonic[32] as R98 lists them: flip layers F(k) and half-cleaners H(j). -/
def layerOf : List (Sum Nat Nat) :=
  [.inl 2, .inl 4, .inr 1, .inl 8, .inr 2, .inr 1, .inl 16, .inr 4, .inr 2, .inr 1, .inl 32, .inr 8, .inr 4, .inr 2, .inr 1]

/-- The wire that a heddle of a layer joins with wire `w` (R98). -/
def partner (layer w : Nat) : Nat :=
  match layerOf[layer]? with
  | some (.inl k) => w / k * k + (k - 1 - w % k)
  | some (.inr j) => w ^^^ j
  | none => w

/-- Toggles after a pass (R97). -/
def toggled (i : Instance) (key : Nat) : Instance :=
  { i with tog := if key ∈ i.tog then setDel i.tog key else setAdd i.tog key }

/-- The request of a heddle instruction passes its checks at issue (R106): its instance is valid, of the mode, and the tenant's. -/
def MayUse (s : State) (die inst : Nat) (barrier : Option Bool) : Prop :=
  die = s.instDie (here s).die inst ∧ inst < 1024 ∧ (s.inst die inst).w0.getLsbD 63 = true ∧
  ((s.inst die inst).w0.toNat / 2 ^ 53 % 32 = s.me.tag ∨ s.me.tag = 31) ∧ ∀ b, barrier = some b → (s.inst die inst).w0.getLsbD 61 = b

/-- The cause of the trap of a heddle instruction whose instance fails its checks (R106): another partition's, or one that is not valid or
not of the mode. -/
def Refuses (s : State) (die inst : Nat) (barrier : Option Bool) (c : Nat) : Prop :=
  ((s.inst die inst).w0.toNat / 2 ^ 53 % 32 ≠ s.me.tag ∧ s.me.tag ≠ 31 ∧ c = 0x0C) ∨
  (((s.inst die inst).w0.toNat / 2 ^ 53 % 32 = s.me.tag ∨ s.me.tag = 31) ∧ c = 0x28 ∧
    ((s.inst die inst).w0.getLsbD 63 = false ∨ ∃ b, barrier = some b ∧ (s.inst die inst).w0.getLsbD 61 ≠ b))

/-- A token enters its instance (R101, R112) and its strand waits for the reply. -/
def entered (s : State) (die inst : Nat) (k : HedKind) (d : Dst) : State :=
  State.waitOn { s.modInst die inst (fun i => { i with entered := i.entered + 1 }) with
    tokens := s.tokens ++ [Token.mk s.nextId die inst s.cur k (s.entryNo s.cur) s.me.ord.rs
      (if (s.inst die inst).w0.getLsbD 62 then .tree 0 else
        if (s.inst die inst).width = 1 then .exit die 0 else .wire die 0 (s.entryNo s.cur % (s.inst die inst).width))]
    nextId := s.nextId + 1 } s.cur (.token s.nextId k d)

/-- Token `id` of an instance, in flight. -/
def InFlight (s : State) (die inst id : Nat) (t : Token) : Prop :=
  s.tokens.find? (fun t => t.id == id && t.die == die && t.inst == inst) = some t

/-- The instance is not package-scope, has no exhausted exit, and one exit per wire of its width (R103, R107). -/
def Local (i : Instance) : Prop := i.w0.getLsbD 62 = false ∧ i.exh = false

end Sys2Proof.Claims

open Sys2Proof Sys2Proof.Machine in
/-- R83, R101, R106, R112, R119, R120, R244, R245: CNTI, CNTD and CBAR send a token, an antitoken or an arrival into the instance and wait for its
reply (a package-scope arrival first waits for its release); CWAIT waits for its phase and CQRY for a sweep. A reserved bit in wa, or in wb of
CWAIT, is illegal (0x01), another partition's instance an isolation violation (0x0C), an invalid one or the wrong mode a mode error (0x28).
With no in-flight record free CNTI, CNTD, CBAR and CQRY do not issue.
Choices of the model that it rests on: log 32. -/
def Obligations.HeddleInstructionResult : Prop :=
  ∀ (s s' : State) (d : Dst) (a b : Src) (g : Guard) (v q : W128) (die inst p lim : Nat), Claims.Issues s g → inst = (lo64 v).toNat →
    (Claims.Reads s a v s' → Claims.Bound s d → s'.cur = s.cur →
      (∀ md, Claims.MayUse s die inst md → s.recordRoom (Claims.here s) = true →
        (md = some false → exec (.cnti d a g) s = .next (Claims.entered s' die inst .token d) ∧
          exec (.cntd d a g) s = .next (Claims.entered s' die inst .anti d)) ∧
        (md = some true → (s'.inst die inst).w0.getLsbD 62 = false → exec (.cbar d a g) s = .next (Claims.entered s' die inst .arrive d)) ∧
        (md = some true → (s'.inst die inst).w0.getLsbD 62 = true → exec (.cbar d a g) s =
          .next (s'.waitOn s.cur (.arrive die inst .arrive d s'.serial))) ∧
        (md = none → exec (.cqry d a g) s = .next (s'.waitOn s.cur (.query die inst
          (!s'.tokens.any (fun t => t.die == die && t.inst == inst)) (s'.inst die inst).entered 0 0 d)))) ∧
      (∀ i md c, (i, md) ∈ [(Instr.cnti d a g, some false), (.cntd d a g, some false), (.cbar d a g, some true), (.cqry d a g, none)] →
        (1024 ≤ inst → exec i s = .next (s.raise 0x01 (wordOf i))) ∧
        (inst < 1024 → die = s.instDie (Claims.here s).die inst → Claims.Refuses s die inst md c → exec i s = .next (s.raise c (.ofNat 64 inst))) ∧
        (Claims.MayUse s die inst md → s.recordRoom (Claims.here s) = false → exec i s = .next s))) ∧
    (∀ i c, i = .cwait a b g → Claims.Reads2 s a b v q s' →
      (1024 ≤ inst ∨ 2 ^ 37 ≤ (lo64 q).toNat → exec i s = .next (s.raise 0x01 (wordOf i))) ∧
      (inst < 1024 → (lo64 q).toNat < 2 ^ 37 → die = s.instDie (Claims.here s).die inst → Claims.Refuses s die inst (some true) c →
        exec i s = .next (s.raise c (.ofNat 64 inst)))) ∧
    (Claims.Reads2 s a b v q s' → s'.cur = s.cur → Claims.MayUse s die inst (some true) → (lo64 q).toNat = p + lim * 2 ^ 32 → p < 2 ^ 32 → lim < 32 →
      exec (.cwait a b g) s = .next (s'.waitOn s.cur (.cwait die inst p
        (if lim = 0 ∨ lim = 31 then 30 else if lim < 10 then 10 else lim))))

open Sys2Proof Sys2Proof.Machine in
/-- R98, R99: the heddles of a layer, one for each pair of wires that it joins, are numbered from 0 in the order of their lower wires. -/
def Sys2Proof.Claims.HeddleNumbers : Prop :=
  ∀ l w v, l < 15 → w < 32 → v < 32 → (heddleAt l w).1 < 16 ∧
    ((heddleAt l w).1 < (heddleAt l v).1 ↔ min w (Claims.partner l w) < min v (Claims.partner l v))

open Sys2Proof Sys2Proof.Machine in
/-- R115: a phase is released when every exit has handed out each of its indices below (p + 1) × N, at die scope and at package scope. -/
def Sys2Proof.Claims.PhaseMet : Prop :=
  ∀ (i : Instance) (die p n : Nat), n = i.w2.toNat % 2 ^ 24 →
    (i.met die p = true ↔
      if i.w0.getLsbD 62 = true then ∀ d < 4, ∀ e < i.width, ∀ k, d + 4 * (e + i.width * k) < (p + 1) * n → k < Tbl.get 0 i.k (32 * d + e)
      else ∀ e < i.width, ∀ k, e + i.width * k < (p + 1) * n → k < Tbl.get 0 i.k (32 * die + e))

open Sys2Proof Sys2Proof.Machine in
/-- R109: a token or arrival at an exit whose count is at its end traps (0x2A), and the instance sets EXH; from then on every token, arrival and
antitoken at an exit does. -/
def Sys2Proof.Claims.CounterExhaustion : Prop :=
  ∀ (s : State) (die inst id d e : Nat) (t : Token) (i : Instance) (kind : HedKind) (dst : Dst), i = s.inst die inst →
    Claims.InFlight s die inst id t → t.at_ = .exit d e →
    i.exh = true ∨ (t.kind ≠ .anti ∧ Tbl.get 0 i.k (32 * d + e) = 2 ^ 43 - 1) →
    (s.strand t.x).wait = .token id kind dst → (s.strand t.x).held = none → exec (.exitStep die inst id) s =
      .next (Claims.trapped ((s.dropToken id).modInst die inst (fun i => { i with exh := true })) t.x 0x2A (.ofNat 64 inst))

open Sys2Proof Sys2Proof.Machine in
/-- R97, R104, R107, R112 to R116, R119, R120, R146, R329: the steps of a network. A token leaves a heddle on the wire that its toggle says and flips it, an
antitoken flips it first; at an exit a token takes the next index and its strand the index and its value, an antitoken the last one back
or parks; an arrival adds to its phase, which is released when every exit has met its quota, and that of a SETTLE leaves its strand waiting for the
phase that was open at its issue. A query reads the exits' counts one by one and returns their sum, or LRP,
with QS, PARK, MODE and EXH. A wait on a phase past its limit traps (0x2B). An accepted descriptor write clears the instance; a foreign one (0x0C)
and an invalid one (0x29) are refused.
The order of a query's sweep, and what its answer records, are the model's choice (log 84). -/
def Sys2Proof.Claims.NetworkSteps : Prop :=
  ∀ (s : State) (die inst id d : Nat) (t : Token) (i : Instance), i = s.inst die inst →
    (∀ l w key out, Claims.InFlight s die inst id t → t.at_ = .wire d l w → l < 15 → w < 32 → key = 1000 * d + 16 * l + (heddleAt l w).1 →
      out = (if (key ∈ i.tog ↔ t.kind = .anti) then min w (Claims.partner l w) else max w (Claims.partner l w)) → exec (.heddleStep die inst id) s =
        .next ((s.modInst die inst (fun i => Claims.toggled i key)).moveToken id (if l + 1 < i.depth then .wire d (l + 1) out else .exit d out))) ∧
    (∀ e k v, Claims.InFlight s die inst id t → Claims.Local i → t.at_ = .exit d e → k = Tbl.get 0 i.k (32 * d + e) → v = e + i.width * k →
      (t.kind = .token → k < 2 ^ 43 - 1 → (∀ o ∈ s.tokens, ¬ (o.die = die ∧ o.inst = inst ∧ o.at_ = .parked d e)) → (s.strand t.x).held = none →
        ∀ dst, (s.strand t.x).wait = .token id .token dst → exec (.exitStep die inst id) s = .next (Claims.answered ((s.dropToken id).modInst die inst (fun i =>
          { i with k := Tbl.set i.k (32 * d + e) (k + 1) })) t.x (.mk dst (mk128 (.ofNat 64 v) (i.w1 + i.stride * .ofNat 64 v)) none 0 none))) ∧
      (t.kind = .anti → k ≠ 0 → ∀ dst back, (s.strand t.x).wait = .token id .anti dst →
        back = mk128 (.ofNat 64 (v - i.width)) (i.w1 + i.stride * .ofNat 64 (v - i.width)) →
        ((s.strand t.x).held = none → exec (.exitStep die inst id) s = .next (Claims.answered
          ((s.dropToken id).modInst die inst (fun i => { i with k := Tbl.set i.k (32 * d + e) (k - 1) })) t.x (.mk dst back none 0 none))) ∧
        ((s.strand t.x).held ≠ none → ∀ r : Fin 24, dst = .w r → r ≠ 23 → ∃ s', exec (.exitStep die inst id) s = .next s' ∧ s'.mem = s.mem ∧
          s'.strand t.x = { s.strand t.x with regs := (s.strand t.x).regs.set r back, wait := .reply (.mk .wz back none 0 none) })) ∧
      (t.kind = .anti → k = 0 → ∃ s', exec (.exitStep die inst id) s = .next s' ∧ { t with at_ := .parked d e } ∈ s'.tokens ∧
        s'.insts = s.insts ∧ s'.mem = s.mem ∧
        (t.x ∈ s.strands.map (·.1) → s'.strand t.x = { s.strand t.x with hangAt := s.clock }) ∧ ∀ y, y ≠ t.x → s'.strand y = s.strand y) ∧
      (t.kind = .arrive → k < 2 ^ 43 - 1 → ∀ n p dst i', n = i.w2.toNat % 2 ^ 24 → n ≠ 0 → p = v / n → p < i.lrp + 16 →
        (s.strand t.x).wait = .token id .arrive dst → i' = { i with k := Tbl.set i.k (32 * d + e) (k + 1) } →
        (i'.met die i.lrp = false → exec (.exitStep die inst id) s = .next (Claims.answered ((s.dropToken id).modInst die inst (fun _ =>
          { i' with acc := Tbl.set i.acc p ((Tbl.get V4.zero i.acc p).vmax t.stamp) })) t.x
            (.mk dst (mk128 (.ofNat 64 v) (.ofNat 64 (p % 2 ^ 32))) none 0 none))) ∧
        (i'.met die i.lrp = true → i'.met die (i.lrp + 1) = false → s.fieldsOf die inst = [] → i.held = [] →
          ∃ s', exec (.exitStep die inst id) s = .next s' ∧ (s'.inst die inst).lrp = i.lrp + 1 ∧ (s'.inst die inst).k = i'.k ∧
            (s'.strand t.x).wait = .reply (.mk dst (mk128 (.ofNat 64 v) (.ofNat 64 (p % 2 ^ 32))) none 0 none)))) ∧
    (∀ e n q lim ovf dst, Claims.InFlight s die inst id t → Claims.Local i → t.at_ = .exit d e → Tbl.get 0 i.k (32 * d + e) < 2 ^ 43 - 1 →
      n = i.w2.toNat % 2 ^ 24 → n ≠ 0 → (e + i.width * Tbl.get 0 i.k (32 * d + e)) / n < i.lrp + 16 → t.kind = .settle q lim ovf →
      (s.strand t.x).wait = .token id (.settle q lim ovf) dst → ∃ s', exec (.exitStep die inst id) s = .next s' ∧
        (s'.strand t.x).wait = .settle inst (q % 2 ^ 32) lim ovf ∧ (s'.strand t.x).since = s.clock ∧ (s'.strand t.x).status = (s.strand t.x).status) ∧
    (∀ x q n m k dst, (s.strand x).wait = .query die inst q n m k dst → (s.strand x).status = .waiting → (∀ w, (s.strand x).place ≠ .creel w) →
      i.w0.getLsbD 62 = false →
      (m < i.width → exec (.operationReply x) s = .next (s.setStrand x
        { s.strand x with wait := .query die inst q n (m + 1) (k + Tbl.get 0 i.k (32 * die + m)) dst, back := s.clock + 1 })) ∧
      (m = i.width → dst ≠ .qo → (dst = .w 23 → (s.strand x).kind ≠ .pos) → ∀ (qs pk : Bool),
        (qs = true ↔ q = true ∧ i.entered = n ∧ ∀ o ∈ s.tokens, ¬ (o.die = die ∧ o.inst = inst)) →
        (pk = true ↔ ∃ o ∈ s.tokens, o.die = die ∧ o.inst = inst ∧ ∃ a b, o.at_ = .parked a b) → exec (.operationReply x) s = .next (s.setStrand x
          { Claims.writtenBack (s.strand x) (.mk dst (zext128 (.ofNat 64 (b2n qs * 2 ^ 63 + b2n pk * 2 ^ 62 + b2n (i.w0.getLsbD 61) * 2 ^ 61 +
            b2n i.exh * 2 ^ 60 + if i.w0.getLsbD 61 then i.lrp % 2 ^ 32 else k % 2 ^ 50))) none 0 none) with back := s.clock + 1 }))) ∧
    (∀ x p lim, (s.strand x).wait = .cwait die inst p lim → i.released p = none → Claims.WaitedOut s x (2 ^ lim) →
      exec (.barrierTimeout x) s = .next (Claims.trapped s x 0x2B (.ofNat 64 (inst + p * 2 ^ 10)))) ∧
    (∀ (writer : Nat) (w0 : W64), inst < 960 →
      (writer ≠ 31 → i.w0.toNat / 2 ^ 53 % 32 ≠ writer → ∀ n v part, exec (.counterDescriptorWrite writer die inst n v part) s =
        .next (s.emit (.refused 0x0C (.ofNat 64 inst)))) ∧
      (writer = 31 ∨ i.w0.toNat / 2 ^ 53 % 32 = writer → w0.toNat / 2 ^ 53 % 32 = i.w0.toNat / 2 ^ 53 % 32 →
        (∀ v, exec (.counterDescriptorWrite writer die inst 3 v .full) s = .next (if v = 0 then s else s.emit (.refused 0x29 (.ofNat 64 inst)))) ∧
        (w0.getLsbD 62 = true ∧ w0.getLsbD 63 = true ∨ w0.toNat / 2 ^ 32 % 2 ^ 21 ≠ 0 → exec (.counterDescriptorWrite writer die inst 0 w0 .full) s =
          .next (s.emit (.refused 0x29 (.ofNat 64 inst)))) ∧
        (w0.toNat / 2 ^ 32 % 2 ^ 21 = 0 → w0.toNat / 2 ^ 58 % 8 ≤ 5 → w0.getLsbD 62 = false → (w0.getLsbD 61 = true → i.w2.toNat % 2 ^ 24 ≠ 0) →
          i.w2.toNat < 2 ^ 24 → (∀ o ∈ s.tokens, ¬ (o.die = die ∧ o.inst = inst)) → i.held = [] →
          ∃ s', exec (.counterDescriptorWrite writer die inst 0 w0 .full) s = .next s' ∧
            s'.inst die inst = { Instance.init with w0 := w0, w1 := i.w1, w2 := i.w2, entered := i.entered + 1 } ∧ s'.mem = s.mem)))

open Sys2Proof Sys2Proof.Machine in
/-- R97 to R99, R104, R107, R109, R112 to R116, R119, R120, R146: the steps of a network, the numbers of its heddles, the release of a phase and
the exhaustion of a counter.
Choices of the model that it rests on: log 10, 31, 32, 33, 84, 103. That a query reads the exits in ascending order, one at a time from the
first, and that QS, PARK, LRP and EXH are those of the moment of its answer, is log 84's: the spec gives no order. -/
def Obligations.HeddleSteps : Prop :=
  Claims.NetworkSteps ∧ Claims.HeddleNumbers ∧ Claims.PhaseMet ∧ Claims.CounterExhaustion

namespace Sys2Proof.Claims
open Sys2Proof.Machine

/-- The name of a strand: device, die, bay, unit, slot and generation (Table 6-9). -/
def nameWord (dev : Nat) (u : UnitId) (slot gen : Nat) : W64 :=
  .ofNat 64 (dev * 2 ^ 50 + u.die * 2 ^ 48 + u.bay * 2 ^ 37 + b2n u.sp * 2 ^ 36 + slot * 2 ^ 32 + gen % 65536)

/-- SPAWN has placed a new strand `y` in slot `n` of a unit: its entry and its argument, zero in every other register, its head's time and
view, the slot's next generation, and the reply with its name to the head (R130, R246). -/
def Spawned (s : State) (y n : Nat) (kind : StrandKind) (entry w0 : W64) (d : Dst) (t : State) : Prop :=
  (t.strand y).place = .slot (here s) n ∧ (t.strand y).status = .ready ∧ (t.strand y).kind = kind ∧ (t.strand y).pc = entry ∧
  (∀ i : Fin 24, (t.strand y).regs[i] = if i.val = 0 then zext128 w0 else 0) ∧ (t.strand y).tag = s.me.tag ∧ (t.strand y).nslot = n ∧
  (t.strand y).gen = (Tbl.get 0 (s.ten (here s).die (here s).bay s.me.tag).gens n + 1) % 65536 ∧
  (t.strand y).ord.pts = s.me.ord.pts ∧ (t.strand y).ord.vw = s.me.ord.vw ∧ (t.strand y).ord.rs = V4.zero ∧ (t.strand y).ord.pa = V4.zero ∧
  (t.strand s.cur).status = .waiting ∧ (t.strand s.cur).pc = s.me.pc ∧ (t.strand s.cur).regs = s.me.regs ∧ t.mem = s.mem ∧
  (t.strand s.cur).wait = .reply (.mk d (zext128 (nameWord s.dev.num (here s) n (t.strand y).gen)) none 0 none)

/-- Field `k` of a work identifier: the bits of its width above those of the widths before it (R138, R249). -/
def widOf (wid : BitVec 36) (k : Nat) (v : W64) : Nat :=
  v.toNat / 2 ^ ((List.range k).map (fun i => wid.toNat / 2 ^ (6 * i) % 64)).sum % 2 ^ (wid.toNat / 2 ^ (6 * k) % 64)

/-- The issuing strand's operation is under way, its reply to come (R126). -/
def replyDue (s : State) (d : Dst) (v : W128) (p : Option W32) : State := s.waitOn s.cur (.reply (.mk d v p 0 none))

/-- The neighbour cursor of slot `n` of a tenant's unit is discarded (R251). -/
def uncursored (s : State) (u : UnitId) (tag n : Nat) : State :=
  s.modTen u.die u.bay tag (fun b => { b with cursors := Tbl.del b.cursors (if u.sp then 16 + n else n) })

/-- The slots that an arriving strand may take, in order (R130, R133). -/
def landingSlots (s : State) (u : UnitId) (tag : Nat) : List Nat :=
  if u.sp then List.range 8 else [1, 2, 3, 4, 5, 6, 7, 8, 9, 10, 11, 12] ++ if (s.ten u.die u.bay tag).loom.act then [] else [13, 14]

/-- The issuing strand is a position-bound one of an active field of its bay (R141). -/
def InField (s : State) (n : Nat) (f : Machine.Field) : Prop :=
  s.me.kind = .pos ∧ s.fieldAt s.me.tag (here s).die (here s).bay = some (n, f) ∧ ∃ m, s.me.place = .slot (here s) m

/-- The copy of w23 and the name in an entry of a cell or halo table, at a scratchpad offset of a bay of a field (R145). -/
def filedAt (s : State) (f : Machine.Field) (bay off : Nat) : W128 × W64 :=
  (.ofNat 128 (leNat (s.mem.readBytes (s.spadAt f.tag f.die bay off) 16)), .ofNat 64 (leNat (s.mem.readBytes (s.spadAt f.tag f.die bay off + 16) 8)))

end Sys2Proof.Claims

open Sys2Proof Sys2Proof.Machine in
/-- R130, R138, R246 to R249: SPAWN from slot 0 places a worker in the lowest free slot of 1 to 12, a shuttle in slot 15 or, while that is
taken, waits; REAP frees a stopped strand's slot and returns its exit word, 0 for a free slot, and waits for a running one; STOP ends
the strand with its exit word; MIGR marks a data-following strand to depart; WIDF cuts a field; SLOTID gives the strand's name.
Choices of the model that it rests on: log 24, 27, 56. -/
def Obligations.StrandInstructionResult : Prop :=
  ∀ (s s' : State) (d : Dst) (a b : Src) (g : Guard) (v w : W128) (n : Nat), Claims.Issues s g →
    (∀ kind i, (kind, i) ∈ [(StrandKind.bound, Instr.spawnBound d a b g), (.follow, .spawnFollow d a b g), (.pos, .spawnPos d a b g)] →
      Claims.InSlot s 0 → Claims.Bound s d → Claims.Reads2 s a b v w s' → s'.cur = s.cur → Claims.here s' = Claims.here s → s.cur ≠ s'.nextId →
        Tbl.find s'.strands s'.nextId = none →
      s'.me.tag = s.me.tag → (lo64 v).toNat < 2 ^ 56 → (lo64 v).toNat % 4 = 0 →
      (kind = .pos → (s.fieldAt s.me.tag (Claims.here s).die (Claims.here s).bay).isSome = true) → 1 ≤ n → n ≤ 12 →
      (∀ m, 1 ≤ m → m ≤ n → (s'.inSlot (Claims.here s) s.me.tag m = none ↔ m = n)) →
      ∃ t, exec i s = .next t ∧ Claims.Spawned s' s'.nextId n kind (lo64 v) (lo64 w) d t) ∧
    (Claims.InSlot s 0 → Claims.Bound s d → Claims.Reads2 s a b v w s' → s'.cur = s.cur → Claims.here s' = Claims.here s → s.cur ≠ s'.nextId →
      Tbl.find s'.strands s'.nextId = none →
      s'.me.tag = s.me.tag → (lo64 v).toNat < 2 ^ 56 → (lo64 v).toNat % 4 = 0 →
      (s'.inSlot (Claims.here s) s.me.tag 15 = none → ∃ t, exec (.spawnShuttle d a b g) s = .next t ∧
        Claims.Spawned s' s'.nextId 15 .bound (lo64 v) (lo64 w) d t) ∧
      (s'.inSlot (Claims.here s) s.me.tag 15 ≠ none → exec (.spawnShuttle d a b g) s = .next (s'.waitOn s.cur (.spawn15 (lo64 v) (lo64 w) d)))) ∧
    (Claims.InSlot s 0 → Claims.Bound s d → Claims.Reads s a v s' → s'.cur = s.cur → Claims.here s' = Claims.here s → s'.me.tag = s.me.tag →
      (lo64 v).toNat = n → 1 ≤ n → n < 16 →
      (s'.inSlot (Claims.here s) s.me.tag n = none → exec (.reap d a g) s = .next (s'.retire (.mk d 0 none 0 none))) ∧
      (∀ y, s'.inSlot (Claims.here s) s.me.tag n = some y →
        ((s'.strand y).status = .stopped → exec (.reap d a g) s = .next (State.retire { s' with strands := Tbl.del s'.strands y }
          (.mk d (zext128 (s'.strand y).exitw) none 0 none))) ∧
        ((s'.strand y).status ≠ .stopped → exec (.reap d a g) s = .next (s'.waitOn s.cur (.reap n d))))) ∧
    (Claims.Reads s a v s' → s'.cur = s.cur → s'.me.launch = none → s'.me.place = .slot (Claims.here s) n → exec (.stop a g) s =
      .next (Claims.upd (Claims.uncursored s' (Claims.here s) s'.me.tag n) (fun t =>
        { t with status := .stopped, wait := .none, exitw := lo64 v, irv := false, orv := false, pend := none, leaving := none
                 sts := Claims.unprefixed t.sts }))) ∧
    (Claims.Reads s a v s' → s.me.kind = .follow → (lo64 v).toNat % 2 ^ 36 = 0 →
      (s.me.irv = true → exec (.migr a g) s = .next (s.raise 0x23 (.ofNat 64 s.me.iring))) ∧
      (s.me.irv = false → s.me.orv = true → exec (.migr a g) s = .next (s.raise 0x23 (.ofNat 64 (256 + s.me.oring.ring))))) ∧
    (Claims.Reads s a v s' → s'.cur = s.cur → s.me.kind = .follow → (lo64 v).toNat % 2 ^ 36 = 0 → (unitField (lo64 v)).dev = s.dev.num →
      s.ownsBay s.me.tag (unitField (lo64 v)).u.die (unitField (lo64 v)).u.bay = true → s.me.irv = false → s.me.orv = false →
      ((unitField (lo64 v)).u ≠ Claims.here s → exec (.migr a g) s = .next (Claims.upd s' (fun t =>
        { Claims.next t with leaving := some ⟨(unitField (lo64 v)).u, s.serial⟩ }))) ∧
      ((unitField (lo64 v)).u = Claims.here s → exec (.migr a g) s = .next (Claims.done s'))) ∧
    (∀ k : BitVec 3, k.toNat < 6 → Claims.Bound s d → Claims.Reads s a v s' → exec (.widf d a k g) s =
      .next (s'.retire (.mk d (zext128 (.ofNat 64 (Claims.widOf s.me.wid k.toNat (lo64 v)))) none 0 none))) ∧
    (Claims.Bound s d → exec (.slotid d g) s = .next (s.retire
      (.mk d (zext128 (Claims.nameWord s.dev.num (Claims.here s) s.me.nslot s.me.gen)) none 0 none)))

open Sys2Proof Sys2Proof.Machine in
/-- R59, R81, R130, R131, R133, R143, R194, R236: a strand marked to depart leaves its slot as a message, unless a ring is bound, and lands in the
lowest free slot of its destination, a compute core or a spindle, or with none free at the tail of its creel, on another die with the order
step of an arrival; a worker whose quantum of 4,096 cycles has ended, or that has yielded, goes to the creel's tail and the creel's head
takes its slot, and one with a ring bound, or with a posting under way that binds a handle (R308), stays for another quantum.
Choices of the model that it rests on: log 11, 21, 56, 108. -/
def Obligations.StrandMovement : Prop :=
  ∀ (s : State) (x n : Nat) (u dest : UnitId) (t : Strand), t = s.strand x →
    (∀ upto, t.place = .slot u n → t.leaving = some ⟨dest, upto⟩ → t.kind ≠ .pos → t.status = .ready → t.launch = none →
      (t.irv = true ∨ t.orv = true → exec (.migrationDepart x) s = .next s) ∧ (t.irv = false → t.orv = false →
      s.handlesAt u t.tag n = [] →
      (dest = u → exec (.migrationDepart x) s = .next (s.setStrand x { t with leaving := none })) ∧
      (dest ≠ u → dest.die = u.die → ∃ s', exec (.migrationDepart x) s = .next s' ∧ s'.mem = s.mem ∧
        Tbl.find s'.msgs s.nextId = some (.migrate x u.die dest) ∧ s'.strand x = { t with
          place := .transit s.nextId, leaving := none, gen := 65536, writing := [] }) ∧
      (dest.die ≠ u.die → s.drained u.die false upto = false → exec (.migrationDepart x) s = .next s) ∧
      (dest.die ≠ u.die → s.drained u.die false upto = true → ∃ s' o, exec (.migrationDepart x) s = .next s' ∧
        Tbl.find s'.msgs s.nextId = some (.migrate x u.die dest) ∧ Claims.releasedOrd s t.ord u.die o ∧ (s'.strand x).ord = o ∧
        (s'.strand x).place = .transit s.nextId))) ∧
    (∀ id die, Tbl.find s.msgs id = some (.migrate x die dest) → die < 4 → dest.die < 4 → t.gen = 65536 → t.susp = none → t.status = .ready →
      t.place = .transit id → ∃ s', exec (.migrationLanding id) s = .next s' ∧ Tbl.find s'.msgs id = none ∧
        (s'.strand x).regs = t.regs ∧ (s'.strand x).pc = t.pc ∧
        (n ∈ Claims.landingSlots s dest t.tag → (∀ m ∈ Claims.landingSlots s dest t.tag, m ≤ n → (s.inSlot dest t.tag m = none ↔ m = n)) →
          s'.mem = s.mem ∧ (s'.strand x).place = .slot dest n ∧ (s'.strand x).nslot = n ∧
          (s'.strand x).gen = (Tbl.get 0 (s.ten dest.die dest.bay t.tag).gens (if dest.sp then 16 + n else n) + 1) % 65536) ∧
        ((∀ m ∈ Claims.landingSlots s dest t.tag, s.inSlot dest t.tag m ≠ none) → (s.creelOf dest t.tag).length < s.creelRoom dest t.tag →
          s'.creelOf dest t.tag = s.creelOf dest t.tag ++ [x] ∧ (s'.strand x).place = .creel dest) ∧
        (dest.die = die → (s'.strand x).ord = t.ord) ∧
        (dest.die ≠ die → (s'.strand x).ord.rs = t.ord.rs ∧ (s'.strand x).ord.vw.get die = max (max (t.ord.vw.get die) t.ord.pts) (t.ord.rs.get die) ∧
          (s'.strand x).ord.pts = max (t.ord.vw.get dest.die) (t.ord.rs.get dest.die))) ∧
    (∀ y rest, t.place = .slot u n → u.sp = false → 1 ≤ n → n ≤ 12 → s.creelOf u t.tag = y :: rest →
      (t.status = .ready ∨ t.status = .waiting) → y ≠ x → (s.strand y).tag = t.tag → ∀ q, q = max t.quantum (s.ten u.die u.bay t.tag).creelAt + 4096 →
      (t.yielded = false → s.clock < q → exec (.creelQuantumEnd x) s = .next s) ∧
      (t.yielded = true ∨ q ≤ s.clock → t.irv = true ∨ t.orv = true ∨ (∃ e c i up, t.wait = .post (.fork e c) i up) → exec (.creelQuantumEnd x) s =
        .next (s.setStrand x { t with quantum := s.clock, yielded := false })) ∧
      (t.yielded = true ∨ q ≤ s.clock → t.irv = false → t.orv = false → t.wait ≠ .svc → (∀ p i up, t.wait ≠ .post p i up) →
        s.handlesAt u t.tag n = [] → ∃ s', exec (.creelQuantumEnd x) s = .next s' ∧
        s'.creelOf u t.tag = rest ++ [x] ∧ (s'.strand x).place = .creel u ∧ (s'.strand x).regs = t.regs ∧ (s'.strand x).pc = t.pc ∧
        (s'.strand y).place = .slot u n ∧ (s'.strand y).quantum = s.clock))

open Sys2Proof Sys2Proof.Machine in
/-- R45, R57, R116, R126, R187: OPERATION_REPLY. A present strand whose operation is answered retires it and rejoins rotation, at its first turn
in a later cycle; one whose
instruction has not issued, on a tile that has come free or a ring with the entries that it pops, or one that has ended, is made ready; CWAIT goes on once its phase is
released; and a strand whose wait holds waits on.
Choices of the model that it rests on: log 23. -/
def Obligations.ReplyResult : Prop :=
  ∀ (s : State) (x : Nat) (t : Strand), t = s.strand x → s.present x = true → t.status = .waiting →
    (∀ r, t.wait = .reply r → r.d ≠ .qo → (r.d = .w 23 → t.kind ≠ .pos) →
      exec (.operationReply x) s = .next (s.setStrand x { Claims.writtenBack t r with back := s.clock + 1 })) ∧
    (∀ n e, t.wait = .tile n → e = (s.tile t.tag (s.unitOf x).die (s.unitOf x).bay n).st →
      ((e = .empty ∨ e = .ready) → exec (.operationReply x) s = .next (s.setStrand x { t with status := .ready, wait := .none, back := s.clock + 1 })) ∧
      ((e = .filling ∨ e = .draining) → exec (.operationReply x) s = .next s)) ∧
    (∀ k m r, t.wait = .pop k m → r = s.ring (s.unitOf x) t.tag k → r.st = .opened → r.pmask &&& ~~~r.eos ≠ 0 → exec (.operationReply x) s =
      .next (if m ≤ (r.tail + 65536 - r.head) % 65536 then s.setStrand x { t with status := .ready, wait := .none, back := s.clock + 1 } else s)) ∧
    (∀ k m r, t.wait = .pop k m → r = s.ring (s.unitOf x) t.tag k → (Claims.ended r).st = .ended → exec (.operationReply x) s =
      .next (s.setStrand x { t with status := .ready, wait := .none, back := s.clock + 1 })) ∧
    (∀ die inst p lim i, t.wait = .cwait die inst p lim → i = s.inst die inst → p < 2 ^ 32 →
      ((i.lrp + 2 ^ 32 - p) % 2 ^ 32 = 0 ∨ 2 ^ 31 < (i.lrp + 2 ^ 32 - p) % 2 ^ 32 → exec (.operationReply x) s = .next s) ∧
      (1 ≤ (i.lrp + 2 ^ 32 - p) % 2 ^ 32 → (i.lrp + 2 ^ 32 - p) % 2 ^ 32 ≤ 2 ^ 31 → ∃ s', exec (.operationReply x) s = .next s' ∧ (s'.strand x).status = .ready ∧
        (s'.strand x).back = s.clock + 1 ∧ (s'.strand x).pc = t.pc + 4 ∧ (s'.strand x).regs = t.regs ∧ s'.mem = s.mem)) ∧
    (t.wait = .sfu ∨ t.wait = .svc → exec (.operationReply x) s = .next s)

open Sys2Proof Sys2Proof.Machine in
/-- R143 to R149, R250, R251: the instructions of a position field. FMAP names the bay whose box holds a point; POSR returns the strand's
settled entry; NBR.first makes the cursor of the neighbours and with NBR.next returns one after the other, p15 saying whether there was
one, or traps (0x3A) on a radius outside 0 to H; SETTLE files the position and arrives at the field's barrier. -/
def Sys2Proof.Claims.FieldInstructions : Prop :=
  ∀ (s s' : State) (d : Dst) (a : Src) (g : Guard) (v : W128) (n : Nat) (f : Machine.Field), Claims.Issues s g → ¬ Claims.OnSpindle s →
    (∀ b, Claims.Reads s a v s' → s'.cur = s.cur → Claims.Bound s d → s.fieldAt s.me.tag (Claims.here s).die (Claims.here s).bay = some (n, f) →
      ((∀ c ∈ f.bays, ¬ Claims.inside f c (Claims.coords v)) → exec (.fmap d a g) s = .next (s.raise 0x38 (lo64 v))) ∧
      (b ∈ f.bays → (∀ c ∈ f.bays, Claims.inside f c (Claims.coords v) ↔ c = b) → exec (.fmap d a g) s = .next (Claims.replyDue s' d
        (zext128 (.ofNat 64 (s.dev.num * 2 ^ 50 + (Claims.here s).die * 2 ^ 48 + b.bay * 2 ^ 37))) none))) ∧
    (Claims.Bound s d → Claims.InField s n f →
      (s.settledEntry s.cur = none → exec (.posr d g) s = .next (s.raise 0x3B 0)) ∧
      (∀ b k i, s.settledEntry s.cur = some (f, b, k, i) → ∃ t, exec (.posr d g) s = .next t ∧ t.mem = s.mem ∧ t.me.status = .waiting ∧
        t.me.wait = .reply (.mk d (.ofNat 128 (leNat (s.mem.readBytes (s.spadAt f.tag f.die b.bay (f.cellOff k i)) 16))) none 0 none))) ∧
    (∀ (b : FieldBay) (k i : Nat) (r : Int), Claims.Bound s d → Claims.Reads s a v s' → s'.cur = s.cur → Claims.InField s n f → v.toNat < 2 ^ 31 →
      r = v.toNat → r ≤ f.halo → s'.settledEntry s.cur = some (f, b, k, i) → ∃ t res p, exec (.nbrFirst d a g) s = .next t ∧ t.mem = s'.mem ∧
        t.me.wait = .reply (.mk d res (some p) 0 none) ∧ (Claims.pred p 14 ↔ b.ovf = true ∨ b.hovf = true) ∧
        (s'.neighbours f b k i r = [] → res = 0 ∧ ¬ Claims.pred p 15 ∧ t.cursorOf s.cur = some []) ∧
        (s'.neighbours f b k i r ≠ [] → Claims.pred p 15 ∧ ∃ c, t.cursorOf s.cur = some c ∧ List.Perm (res :: c) (s'.neighbours f b k i r))) ∧
    (Claims.Bound s d → Claims.Reads s a v s' → Claims.InField s n f → v.toNat < 2 ^ 32 → 2 ^ 31 ≤ v.toNat ∨ f.halo < v.toNat →
      exec (.nbrFirst d a g) s = .next (s.raise 0x3A (lo64 v))) ∧
    (∀ c, Claims.Bound s d → s.me.kind = .pos → s.cursorOf s.cur = some c → ∃ t res p, exec (.nbrNext d g) s = .next t ∧ t.mem = s.mem ∧
      t.me.wait = .reply (.mk d res (some p) 0 none) ∧ (c = [] → res = 0 ∧ ¬ Claims.pred p 15) ∧
      (c ≠ [] → Claims.pred p 15 ∧ ∃ c', t.cursorOf s.cur = some c' ∧ List.Perm (res :: c') c)) ∧
    (Claims.Bound s d → s.cursorOf s.cur = none → exec (.nbrNext d g) s = .next (s.raise 0x3B 0)) ∧
    (∀ b, Claims.InField s n f → f.bays.find? (fun c => c.bay == (Claims.here s).bay) = some b → Claims.inside f b (Claims.coords s.me.regs[23]) →
      Claims.MayUse s (Claims.here s).die f.bi (some true) → f.bi < 960 → s.recordRoom (Claims.here s) = true →
      ∃ t ovf id, exec (.settle g) s = .next t ∧ t.me.wait = .token id (.settle f.phase ((f.word 5).toNat / 2 ^ 3 % 32) ovf) .wz ∧
        Tbl.find t.me.settled (f.phase % 2) = some (Claims.nameWord s.dev.num (Claims.here s) s.me.nslot s.me.gen) ∧
        (t.inst (Claims.here s).die f.bi).entered = (s.inst (Claims.here s).die f.bi).entered + 1 ∧
        (b.cells (f.phase % 2) < f.cap → ∃ f', Tbl.find t.fields n = some f' ∧ ∃ b' ∈ f'.bays, b'.bay = b.bay ∧
          b'.cells (f.phase % 2) = b.cells (f.phase % 2) + 1))

open Sys2Proof Sys2Proof.Machine in
/-- R145, R149: the settled entry of a strand is one of bank (PHASE − 1) mod 2 of its field that has the name which it published; in phase 0, or
with no such entry, it has none. Its neighbours are the other entries of that bank, in the cell and the halo table of the bay that holds it,
each once, whose distance over the field's axes is at most the radius. -/
def Sys2Proof.Claims.NeighboursOfAnEntry : Prop :=
  ∀ (s : State) (x k : Nat) (t : Strand) (u : UnitId), t = s.strand x → u = s.unitOf x →
    (∀ (f : Machine.Field) (b : FieldBay) (i : Nat), s.settledEntry x = some (f, b, k, i) → ∃ n name, s.fieldAt t.tag u.die u.bay = some (n, f) ∧
      f.phase ≠ 0 ∧ k = (f.phase + 1) % 2 ∧ b ∈ f.bays ∧ Tbl.find t.settled k = some name ∧ i < b.cells k ∧
      (Claims.filedAt s f b.bay (f.cellOff k i)).2 = name) ∧
    (∀ (n : Nat) (f : Machine.Field) (name : W64) (b : FieldBay) (i : Nat), s.fieldAt t.tag u.die u.bay = some (n, f) → f.phase ≠ 0 →
      k = (f.phase + 1) % 2 → Tbl.find t.settled k = some name → b ∈ f.bays → i < b.cells k →
      (Claims.filedAt s f b.bay (f.cellOff k i)).2 = name → (s.settledEntry x).isSome = true) ∧
    ∀ (f : Machine.Field) (b : FieldBay) (i : Nat) (r : Int) (p : P3) (offs : List Nat), i < b.cells k →
      p = Claims.coords (Claims.filedAt s f b.bay (f.cellOff k i)).1 →
      offs = ((List.range (b.cells k)).filter (fun j => j != i)).map (f.cellOff k) ++ (List.range (b.halos k)).map (f.haloOff k) →
      s.neighbours f b k i r = (offs.map (fun o => (Claims.filedAt s f b.bay o).1)).filter (fun v =>
        decide ((p.x - (Claims.coords v).x) ^ 2 + (p.y - (Claims.coords v).y) ^ 2 +
          (if (nth 0 f.desc 0).getLsbD 62 = true then (p.z - (Claims.coords v).z) ^ 2 else 0) ≤ r ^ 2)) ∧
      ∀ j, f.cellOff k j = 16 * ((f.word 5).toNat / 2 ^ 18 % 2 ^ 14) + 32 * (k * f.cap + j) ∧
        f.haloOff k j = 16 * ((f.word 6).toNat / 2 ^ 50 % 2 ^ 14) + 32 * (k * f.hcap + j)

open Sys2Proof Sys2Proof.Machine in
/-- R143 to R149, R250, R251: the instructions of a position field, the settled entry of a strand and its neighbours.
Choices of the model that it rests on: log 28, 29, 30, 105, 106. -/
def Obligations.FieldInstructionResult : Prop :=
  Claims.FieldInstructions ∧ Claims.NeighboursOfAnEntry

namespace Sys2Proof.Claims
open Sys2Proof.Machine

/-- `n` words of 64 bits that the issuing strand reads from its own scratchpad: inside its tenant's half, none poisoned (R21, R318). -/
def OwnWords (s : State) (off n : Nat) (ws : List W64) : Prop :=
  inPart (s.spadPart s.me.tag (here s).die (here s).bay) off (8 * n) = true ∧
  s.badAt s.me.tag (.spad (here s).die (here s).bay off) (8 * n) = false ∧
  ws = (List.range n).map (fun i => .ofNat 64 (leNat (s.bytesAt s.me.tag (.spad (here s).die (here s).bay (off + 8 * i)) 8)))

/-- Bits of a word of a card, from `lo` up, `n` of them. -/
def cardBits (ws : List W64) (i lo n : Nat) : Nat := (ws.getD i 0).toNat / 2 ^ lo % 2 ^ n

/-- The card that the words of Table 15-5 describe, with what FORK gives its program strand in w1. -/
def tableCard (tag bay : Nat) (w1 : W128) (ws : List W64) : Card :=
  { kind := if cardBits ws 0 62 2 = 0 then .copy else if cardBits ws 0 62 2 = 1 then .load else .store
    tag := tag, die := cardBits ws 0 53 2, eng := cardBits ws 0 55 4, chan := cardBits ws 0 59 3, xid := 0
    wb := decide (cardBits ws 0 52 1 = 1), cen := decide (cardBits ws 0 51 1 = 1), mc := cardBits ws 0 47 4
    src := ws.getD 1 0, dst := ws.getD 2 0, len := cardBits ws 3 0 32, pentry := ws.getD 4 0, parg := ws.getD 5 0, w1 := w1
    pbay := cardBits ws 6 37 11, pwid := .ofNat 36 (cardBits ws 6 0 36), ptvec := ws.getD 7 0
    regions := (List.range 4).filterMap (fun r => if cardBits ws (9 + 2 * r) 62 2 = 0 then none else
      some ⟨(ws.getD (8 + 2 * r) 0).toNat, cardBits ws (9 + 2 * r) 0 32, decide (cardBits ws (9 + 2 * r) 62 1 = 1),
        decide (cardBits ws (9 + 2 * r) 63 1 = 1), decide (cardBits ws 0 62 2 = 0 ∧ cardBits ws 0 52 1 = 1 ∧ cardBits ws (9 + 2 * r) 63 1 = 1)⟩)
    ord := .zero, preds := [], posted := false, started := false, elems := [], parked := [], code := 0, stopped := false,
    foreign := false, upto := none, cs := none, fc := none, strand := none, bay := bay, desc := [], result := [] }

/-- A region of weight-buffer bytes and one of a vault or window range (R350): the first is one that a weight-buffer copy may write and its BASE
has the form of that copy's destination (Table 15-5), the second is none that such a copy may write. -/
def Apart (a b : Region) : Prop :=
  a.wb = true ∧ b.wb = false ∧ a.base / 2 ^ 48 % 2 ^ 16 = 0 ∧ a.base / 2 ^ 16 % 2 ^ 21 = 0 ∧ a.base % 2 ^ 4 = 0

/-- Two regions share a byte that one of them writes (Table 4-1); weight-buffer bytes are none of a vault or window range (R350). -/
def Clash (a b : Region) : Prop :=
  ¬ Apart a b ∧ ¬ Apart b a ∧ a.base < b.base + b.len ∧ b.base < a.base + a.len ∧ (a.w = true ∧ (b.r = true ∨ b.w = true) ∨ a.r = true ∧ b.w = true)

/-- The posting step of card `id` (R86, R87, R300): its order state, its edges from the partition's earlier cards of the die that have
not completed, and a copy card's transfer ID, which its channel counts. -/
def Posted (s : State) (id : Nat) (c : Card) (o : OrderState) (t : State) : Prop :=
  ∃ ps, Tbl.find t.cards id = some { c with ord := o, preds := ps, posted := true,
                                            xid := if c.kind = .copy then (s.chan c.channel).next else 0 } ∧
    (∀ p, p ∈ ps ↔ ∃ q, (p, q) ∈ s.cards ∧ q.posted = true ∧ q.tag = c.tag ∧ q.die = c.die ∧ q.cs = none ∧
      ∃ a ∈ q.regions, ∃ b ∈ c.regions, Clash a b) ∧
    (c.kind = .copy → t.chan c.channel = { s.chan c.channel with next := ((s.chan c.channel).next + 1) % 2 ^ 32 })

/-- The transfer word of a copy card: its transfer ID, and its die, engine and channel (R309). -/
def transferWord (s : State) (c : Card) : W64 :=
  .ofNat 64 ((s.chan c.channel).next + c.chan * 2 ^ 32 + c.eng * 2 ^ 35 + c.die * 2 ^ 39)

/-- Transfer `id` has completed on a channel (R300, R312). -/
def TransferDone (c : Chan) (id : Nat) : Prop := (c.wm + 2 ^ 33 - id - 1) % 2 ^ 32 < 2 ^ 31

/-- Element `i` of a copy, from byte `a` of the copy, `n` bytes long: cut at 128-byte boundaries of the destination (R301). -/
def ElementOf (c : Card) (i a n : Nat) : Prop :=
  128 * i < c.dst.toNat % 128 + c.len ∧ a = 128 * i - c.dst.toNat % 128 ∧ n = min (128 * (i + 1) - c.dst.toNat % 128) c.len - a

end Sys2Proof.Claims

open Sys2Proof Sys2Proof.Machine in
/-- R85 to R87, R299, R306 to R312: FORK and JOB read a card from the strand's scratchpad and post it, at once on its own die and after a
device release (DEVICE_RELEASE) on another; FORK binds its handle, and a copy's transfer word is the result. RDV applies a completed
job's stamp and frees the handle, or waits; XID reads a channel; XWAIT waits for a transfer, and past its limit traps (0x4D).
Choices of the model that it rests on: log 56, 58, 60, 61. -/
def Obligations.JobInstructionResult : Prop :=
  ∀ (s : State) (a b : RegZ) (h : BitVec 5) (g : Guard) (n : Nat), Claims.Issues s g →
    (∀ (kind off : Nat) (i : Instr) (ws : List W64) (c : Card) (o : OrderState),
      (kind, i) ∈ [(1, Instr.forkLoad a b h g), (2, .forkStore a b h g), (0, .forkCopy a b h g), (0, .job a g)] →
      (i ≠ .job a g → ¬ Claims.OnSpindle s ∧ s.handleOf s.cur h.toNat = none ∧ s.me.place = .slot (Claims.here s) n) →
      (lo64 (regz s.me a)).toNat = off → off % 128 = 0 → off < 2 ^ 18 → Claims.OwnWords s off 16 ws → cardOk ws = true →
      Claims.cardBits ws 0 62 2 = kind → c = Claims.tableCard s.me.tag (Claims.here s).bay (if kind = 0 then 0 else regz s.me b) ws →
      (kind ≠ 0 → s.ownsBay s.me.tag c.die c.pbay = true) → Tbl.find s.cards s.nextId = none →
      o = { s.me.ord with pts := max s.me.ord.pts (s.lineAt (.spad (Claims.here s).die (Claims.here s).bay off)).wts
                          pa := s.me.ord.pa.vmax (s.lineAt (.spad (Claims.here s).die (Claims.here s).bay off)).stamp } →
      (c.die = (Claims.here s).die → ∃ t, exec i s = .next t ∧ t.mem = s.mem ∧ Claims.Posted s s.nextId c o t ∧ t.me.status = .waiting ∧
        t.me.wait = .reply (if i = .job a g then .mk (RegZ.dst a) (zext128 (Claims.transferWord s c)) none 0 none else
          if kind = 0 then .mk (RegZ.dst b) (zext128 (Claims.transferWord s c)) none 0 none else Claims.noResult) ∧
        (i ≠ .job a g → t.handleOf s.cur h.toNat = some s.nextId)) ∧
      (c.die ≠ (Claims.here s).die → ∃ t k, exec i s = .next t ∧ t.mem = s.mem ∧ Tbl.find t.cards s.nextId = some c ∧ t.me.ord = o ∧
        t.me.wait = .post k s.nextId s.serial)) ∧
    (∀ (x id upto : Nat) (k : PostKind) (c : Card), (s.strand x).wait = .post k id upto → Tbl.find s.cards id = some c → c.posted = false →
      (s.drained (s.unitOf x).die false upto = false → exec (.deviceRelease (.strand x)) s = .next s) ∧
      (s.drained (s.unitOf x).die false upto = true → ∃ t o r, exec (.deviceRelease (.strand x)) s = .next t ∧ Claims.Posted s id c o t ∧
        Claims.releasedOrd s (s.strand x).ord (s.unitOf x).die (t.strand x).ord ∧ o.rs = (t.strand x).ord.rs ∧ (t.strand x).wait = .reply r)) ∧
    (¬ Claims.OnSpindle s → s.me.place = .slot (Claims.here s) n →
      (s.handleOf s.cur h.toNat = none → exec (.rdv h g) s = .next (Claims.done s)) ∧
      ∀ id c, s.handleOf s.cur h.toNat = some id → Tbl.find s.cards id = some c → c.kind ≠ .seq →
        (c.cs = none → exec (.rdv h g) s = .next (s.waitOn s.cur (.rdv h.toNat))) ∧
        (∀ cs, c.cs = some cs → ∃ t o s1, exec (.rdv h g) s = .next t ∧ t.mem = s.mem ∧ t.handleOf s.cur h.toNat = none ∧
          Claims.Applied s s.me.ord (Claims.here s).die .dev cs o s1 ∧ t.me = { Claims.next s.me with ord := o })) ∧
    (∀ k c, (lo64 (regz s.me a)).toNat = k * 2 ^ 32 → k < 2 ^ 9 → c = s.chan k →
      exec (.xid a b g) s = .next (Claims.replyDue s (RegZ.dst b)
        (mk128 (.ofNat 64 (c.errId + c.errCode * 2 ^ 32)) (.ofNat 64 (c.wm + c.next * 2 ^ 32))) none) ∧
      ∀ id lim, id < 2 ^ 32 → lim < 32 → (lo64 (regz s.me b)).toNat = id + lim * 2 ^ 32 → exec (.xwait a b g) s = .next (s.waitOn s.cur (.xwait k id
        (if lim = 0 ∨ lim = 31 then 30 else if lim < 10 then 10 else lim)))) ∧
    (∀ x k id lim, (s.strand x).wait = .xwait k id lim → id < 2 ^ 32 →
      (Claims.TransferDone (s.chan k) id → s.present x = true → (s.strand x).status = .waiting → ∃ t, exec (.operationReply x) s = .next t ∧
        t.mem = s.mem ∧ (t.strand x).status = .ready ∧ (t.strand x).pc = (s.strand x).pc + 4 ∧ (t.strand x).regs = (s.strand x).regs ∧
        ∀ cs ∈ (s.chan k).log.drop (Tbl.get 0 (s.strand x).applied k), cs.get (s.unitOf x).die ≤ (t.strand x).ord.pts ∧
          ∀ d < 4, d ≠ (s.unitOf x).die → cs.get d ≤ (t.strand x).ord.vw.get d) ∧
      (¬ Claims.TransferDone (s.chan k) id → exec (.operationReply x) s = .next s ∧ (Claims.WaitedOut s x (2 ^ lim) →
        exec (.transferWaitTimeout x) s = .next (Claims.trapped s x 0x4D (.ofNat 64 (id + k * 2 ^ 32))))))

open Sys2Proof Sys2Proof.Machine in
/-- R28, R31, R86, R88 to R90, R300 to R302: the steps of cards. A card starts once its predecessors have completed, a copy in its channel's order,
and knows their stamps; elements are read and written at any time within the card's regions, an element outside them stopping the card
(0x01), and a parked one keeping others from being taken until its replay, and packets land at bays; completion releases, gives the stamp and
advances the watermark; a program card's strand starts in the
lowest free slot of its spindle, and its stopping completes the card.
Choices of the model that it rests on: log 37, 52, 62. -/
def Obligations.JobSteps : Prop :=
  ∀ (s : State) (id : Nat) (c : Card), Tbl.find s.cards id = some c → c.cs = none → c.upto = none →
    (c.kind = .copy ∨ c.kind = .load ∨ c.kind = .store → c.posted = true → c.started = false →
      ((∃ p ∈ c.preds, ∃ q, Tbl.find s.cards p = some q ∧ q.cs = none) → exec (.jobStart id) s = .next s) ∧
      (c.kind = .copy → c.xid ≠ (s.chan c.channel).wm → exec (.jobStart id) s = .next s) ∧
      ((∀ p ∈ c.preds, ∀ q, Tbl.find s.cards p = some q → q.cs ≠ none) → (c.kind = .copy → c.xid = (s.chan c.channel).wm) →
        ∃ t o, exec (.jobStart id) s = .next t ∧ t.mem = s.mem ∧ Tbl.find t.cards id = some { c with ord := o, started := true } ∧
          o.rs = c.ord.rs ∧ o.pa = c.ord.pa ∧ ∀ p ∈ c.preds, ∀ q cs, Tbl.find s.cards p = some q → q.cs = some cs → cs.get c.die ≤ o.pts ∧
            ∀ d < 4, d ≠ c.die → cs.get d ≤ o.vw.get d)) ∧
    (∀ (i a n k : Nat) (va : W64) (l : XLoc) (s1 : State), c.kind = .copy → c.started = true → c.stopped = false → c.parked = [] →
      Claims.ElementOf c i a n →
      (Tbl.find c.elems i = none → va = c.src + .ofNat 64 a → va.toNat % 128 + n ≤ 128 →
        (Claims.Permits c va.toNat n false → 2 ^ 56 ≤ va.toNat → exec (.jobElement id i) s =
          .next (s.setCard id { c with stopped := true, code := if c.code = 0 then 2 else c.code })) ∧
        (¬ Claims.Permits c va.toNat n false → exec (.jobElement id i) s = .next (s.setCard id { c with stopped := true, code := if c.code = 0 then 1 else c.code })) ∧
        (Claims.Permits c va.toNat n false → va.toNat < 2 ^ 56 → s.engineXlate c.unit c.tag va n .copy = (.ok l, s1) → Claims.HasKey s1 c.tag l.loc k →
          l.loc.die? = some c.die → s1.badAt c.tag l.loc n = false → ∃ t st, exec (.jobElement id i) s = .next t ∧ t.mem = s1.mem ∧
            Tbl.find t.cards id = some { c with
              ord := { c.ord with pts := max c.ord.pts (s1.lineAt l.loc).wts, pa := c.ord.pa.vmax (s1.lineAt l.loc).stamp }
              elems := Tbl.set c.elems i (.reading (s1.bytesAt c.tag l.loc n) st) })) ∧
      (∀ bs st, Tbl.find c.elems i = some (.reading bs st) → bs.length = n → va = c.dst + .ofNat 64 a →
        (¬ Claims.Permits c va.toNat n true → exec (.jobElement id i) s = .next (s.setCard id { c with stopped := true, code := if c.code = 0 then 1 else c.code })) ∧
        (Claims.Permits c va.toNat n true → c.wb = false → va.toNat < 2 ^ 56 → s.engineXlate c.unit c.tag va n .copyWrite = (.ok l, s1) →
          Claims.HasKey s1 c.tag l.loc k → l.loc.die? = some c.die →
          (∀ d b o, l.loc = .spad d b o → exec (.jobElement id i) s = .next ((s1.channelDetect c l va).setCard id { c with elems := Tbl.set c.elems i (.landing bs l.loc st) })) ∧
          (∀ d b o, l.loc = .vault d b o → ∃ t o', exec (.jobElement id i) s = .next t ∧ t.mem = s1.mem.writeBytes k bs ∧
            Tbl.find t.cards id = some { c with ord := o', elems := Tbl.set c.elems i .done })) ∧
        (∀ bay off, Claims.Permits c va.toNat n true → c.wb = true → bay = c.dst.toNat / 2 ^ 37 % 2 ^ 11 →
          off = c.dst.toNat / 2 ^ 4 % 2 ^ 12 * 16 + a → s.ownsBay c.tag c.die bay = true → inPart (s.wbufPart c.tag c.die bay) off n = true →
          exec (.jobElement id i) s = .next (s.setCard id { c with elems := Tbl.set c.elems i (.landing bs (.spad c.die bay off) st) })))) ∧
    (∀ i, c.kind = .copy → c.parked ≠ [] → (∀ r ∈ c.parked, r.freed = false) → (∃ r ∈ c.parked, r.item = i) ∨ Tbl.find c.elems i = none →
      exec (.jobElement id i) s = .next s) ∧
    (∀ (i b o : Nat) (bs : List Byte) (st : V4), Tbl.find c.elems i = some (.landing bs (.spad c.die b o) st) → ∃ t o', exec (.packetLanding id i) s = .next t ∧
      t.mem = s.mem.writeBytes (if c.wb then s.wbufAt c.tag c.die b o else s.spadAt c.tag c.die b o) bs ∧
      Tbl.find t.cards id = some { c with ord := o', elems := Tbl.set c.elems i .done } ∧
      (c.cen = true → t.counter c.die b c.tag c.mc =
        ⟨((s.counter c.die b c.tag c.mc).n + 1) % 2 ^ 32, (s.counter c.die b c.tag c.mc).stamps ++ [st]⟩)) ∧
    (c.kind = .copy → c.started = true → c.stopped = false → c.elems.length = (c.dst.toNat % 128 + c.len + 127) / 128 → (∀ e ∈ c.elems, e.2 = .done) →
      s.drained c.die c.foreign s.serial = true → ∃ t o, exec (.jobCompletion id) s = .next t ∧ t.mem = s.mem ∧ Claims.releasedOrd s c.ord c.die o ∧
        Tbl.find t.cards id = some { c with ord := o, cs := some (o.rs.vmax o.pa) } ∧ t.chan c.channel =
          ⟨(s.chan c.channel).next, (c.xid + 1) % 2 ^ 32, if c.code = 0 then (s.chan c.channel).errId else c.xid,
            if c.code = 0 then (s.chan c.channel).errCode else c.code, (s.chan c.channel).log ++ [o.rs.vmax o.pa]⟩) ∧
    (c.kind = .load ∨ c.kind = .store → c.started = true →
      ((s.island (islandOf c.die c.pbay)).runs = false → exec (.programStrandStart id) s = .next s) ∧
      (∀ n, (s.island (islandOf c.die c.pbay)).runs = true → c.strand = none → n < 8 → (∀ m ≤ n, s.inSlot (spOf c.die c.pbay) c.tag m = none ↔ m = n) → ∃ t y,
        exec (.programStrandStart id) s = .next t ∧ t.mem = s.mem ∧ Tbl.find t.cards id = some { c with strand := some s.nextId } ∧
        y = t.strand s.nextId ∧ y.place = .slot (spOf c.die c.pbay) n ∧ y.status = .ready ∧ y.kind = .bound ∧ y.tag = c.tag ∧ y.pc = c.pentry ∧
        (∀ j : Fin 24, y.regs[j] = if j.val = 0 then zext128 c.parg else if j.val = 1 then c.w1 else 0) ∧ y.ord = c.ord ∧ y.wid = c.pwid ∧
        y.tvec = c.ptvec ∧ y.card = some id) ∧
      ∀ x o, c.strand = some x → ((s.strand x).status ≠ .stopped → exec (.jobCompletion id) s = .next s) ∧
        ((s.strand x).status = .stopped → (∀ f, s.drained c.die f s.serial = true) → Claims.releasedOrd s (s.strand x).ord c.die o → ∃ t c',
          exec (.jobCompletion id) s = .next t ∧ t.mem = s.mem ∧ Tbl.find t.cards id = some c' ∧ c'.cs = some (o.rs.vmax o.pa) ∧
          Tbl.find t.strands x = none))

namespace Sys2Proof.Claims
open Sys2Proof.Machine

/-- The loom state of the issuing strand's bay. -/
def myLoom (s : State) : Loom := s.loom (here s).die (here s).bay s.me.tag

/-- The state with only that loom state changed. -/
def withLoom (s : State) (f : Loom → Loom) : State := s.modLoom (here s).die (here s).bay s.me.tag f

/-- The MXU executes for a beater: slot 13 of a bay in an active loom, no deferred error and no sequencer job (R269, R271). -/
def BeaterRuns (s : State) : Prop := InSlot s 13 ∧ (myLoom s).act = true ∧ (myLoom s).err = false ∧ (myLoom s).seq = none

/-- No MXZ of the queue has still to start: the banks are as they stand (Table 13-3, R273). -/
def NoMxz (l : Loom) : Prop := ∀ e ∈ l.queue, e.op = .z → e.start ≠ none

/-- The loom with an operation at the tail of its queue (R263), which sees what the strand has seen. -/
def queued (o : OrderState) (op : MxOp) (l : Loom) : Loom := { l with queue := l.queue ++ [⟨op, none, none, none⟩], ord := l.ord.join o }

/-- What SEMS hands on to the SEMW that returns on it (R267). -/
def handsOn (s : State) (o : OrderState) : State := withLoom s (fun l => { l with sord := l.sord.join o })

/-- The signal of an operand (R262, R264): the semaphore's count has risen by one, or none has changed. -/
def Signalled (s : State) (die bay tag : Nat) (sig : Option Nat) (t : State) : Prop :=
  (∀ m, sig = some m → s.semCount die bay tag m < 255 → t.semCount die bay tag m = s.semCount die bay tag m + 1) ∧
  ∀ m, sig ≠ some m → t.semCount die bay tag m = s.semCount die bay tag m

/-- The MXU runs for a tenant of a bay (R325). -/
def Live (s : State) (die bay tag : Nat) : Prop := s.tenantOf (coreOf die bay) 13 = some tag ∧ (s.ten die bay tag).loaded = true

/-- A byte of a tenant's scratchpad. -/
def spadByte (s : State) (tag die bay off : Nat) : Byte := s.mem.read (s.spadAt tag die bay off)

/-- What MXPERM puts at byte `k` of element (i, j) of its destination (R277): of the source's row that the map names, or 0. -/
def permuted (s : State) (tag die bay src map esz i j k : Nat) : Byte :=
  if 128 ≤ (spadByte s tag die bay (map + i)).toNat then 0
  else spadByte s tag die bay (src + (64 * ((spadByte s tag die bay (map + i)).toNat % 64) + j) * esz + k)

/-- The sequencer's next step enters an operation in the MXU queue and goes on (R268); the loom's other fields are as `f` says. -/
def SequencedAs (s : State) (die bay tag : Nat) (j : SeqJob) (op : MxOp) (f : Loom → Prop) : Prop :=
  ∃ t, exec (.sequencerStep die bay tag) s = .next t ∧ t.mem = s.mem ∧ f (t.loom die bay tag) ∧
    (t.loom die bay tag).queue = (s.loom die bay tag).queue ++ [⟨op, none, none, none⟩] ∧
    (t.loom die bay tag).seq = some { j with at_ := j.at_ + 1, parked := none }

/-- The loom that the words of a descriptor describe (Table 13-1) may be configured at the issuing strand's bay (R252, R254, R259 to R261, R272). -/
def LoomAllowed (s : State) (ws : List W64) : Prop :=
  let f (i lo n : Nat) := (ws.getD i 0).toNat / 2 ^ lo % 2 ^ n
  let a := f 0 60 3
  let b := f 0 57 3
  let y := f 0 50 5
  let x := f 0 44 6
  let rows := f 0 41 3 + 1
  let cols := f 0 37 4 + 1
  let q := clusterOf (y * 64 + x)
  let srv := (s.cluster (here s).die q).scsrv
  let srvBay := clusterBay q (srv.toNat % 32)
  f 0 0 32 = 0 ∧ f 1 32 28 = 0 ∧ f 2 0 32 = 0 ∧ (∀ i, 3 ≤ i → i < 8 → ws.getD i 0 = 0) ∧
  a ≤ 4 ∧ b ≤ 4 ∧ (a ≤ 1 ↔ b ≤ 1) ∧ (2 ≤ a → a = b) ∧ (f 0 55 1 = 1 → a ≤ 1) ∧ 10 ≤ f 0 32 5 ∧ f 0 32 5 ≤ 30 ∧
  y + rows ≤ 32 ∧ x + cols ≤ 64 ∧ y / 8 = (y + rows - 1) / 8 ∧ x / 16 = (x + cols - 1) / 16 ∧
  (∀ g < rows, ∀ c < cols, s.ownsBay s.me.tag (here s).die ((y + g) * 64 + x + c) = true) ∧
  y ≤ (here s).bay / 64 ∧ (here s).bay / 64 < y + rows ∧ x ≤ (here s).bay % 64 ∧ (here s).bay % 64 < x + cols ∧
  inPart (s.spadPart s.me.tag (here s).die (here s).bay) (f 1 60 4 * 16384) 16384 = true ∧
  (f 0 55 1 = 1 → srv.getLsbD 63 = true ∧ s.ownsBay s.me.tag (here s).die srvBay = true ∧
    inPart (s.spadPart s.me.tag (here s).die srvBay) (f 2 48 16 * 4) (2048 * rows) = true ∧
    inPart (s.spadPart s.me.tag (here s).die srvBay) (f 2 32 16 * 4) 256 = true)

/-- Those who wait on a semaphore of the issuing strand's bay and are served before it: the tenant's strands there that have parked earlier, and
the sequencer (R267). -/
def servedFirst (s : State) (sem : Nat) : Nat :=
  (s.strands.filter (fun e => decide (e.2.tag = s.me.tag ∧ s.unitOf e.1 = coreOf (here s).die (here s).bay ∧ s.present e.1 = true ∧
    e.2.status = .waiting ∧ e.2.wait = .semw sem ∧ e.2.arr < s.nextId))).length +
  (match (myLoom s).seq with
   | some j => if j.parked = some sem ∧ j.arr < s.nextId then 1 else 0
   | none => 0)

/-- Accumulator code `acc` after the addition of `r`, with the flags of both (R265). -/
def addedTo (acc : Nat) (r : Nat × Flags) : Nat × Flags :=
  ((fp32.add .rne (fp32.val acc) (fp32.val r.1)).1, Flags.or r.2 (fp32.add .rne (fp32.val acc) (fp32.val r.1)).2)

/-- The value that a chunk sum stands for (R265). -/
def StandsFor (S : ChunkSum) (x : FVal) : Prop :=
  match S with
  | .nan => x.isNan = true
  | .inf p => x = .inf p
  | .fin m => finite x ∧ rat x = m * (2 : ℚ) ^ (-320 : ℤ)

/-- A value is an infinity. -/
def infinite (x : FVal) : Prop := ∃ p, x = .inf p

/-- A value below zero. -/
def below (x : FVal) : Prop := x = .inf true ∨ (finite x ∧ rat x < 0)

/-- `promote(S, sa, sb)` of R265, for the values of its three operands. -/
def Promoted (x a b : FVal) (r : Nat × Flags) : Prop :=
  ((∃ v ∈ [x, a, b], v.isNan = true) ∨ ((∃ v ∈ [x, a, b], finite v ∧ rat v = 0) ∧ ∃ v ∈ [x, a, b], infinite v) → r = (fp32.nan, { nv := true })) ∧
  ((∀ v ∈ [x, a, b], infinite v ∨ (finite v ∧ rat v ≠ 0)) → (∃ v ∈ [x, a, b], infinite v) →
    ∀ p, (p = true ↔ (below x ↔ (below a ↔ below b))) → r = (fp32.inf p, {})) ∧
  ((∀ v ∈ [x, a, b], finite v) → (rat x * rat a * rat b = 0 → r = (0, {})) ∧
    (rat x * rat a * rat b ≠ 0 → OnceRounded fp32 .rne (rat x * rat a * rat b) r))

/-- A chunk sum rounded to FP32, as BF16 promotes it (R265). -/
def SumRounded (S : ChunkSum) (r : Nat × Flags) : Prop :=
  (S = .nan → r = (fp32.nan, { nv := true })) ∧ (∀ p, S = .inf p → r = (fp32.inf p, {})) ∧
  ∀ m, S = .fin m → (m = 0 → r = (0, {})) ∧ (m ≠ 0 → OnceRounded fp32 .rne (m * (2 : ℚ) ^ (-320 : ℤ)) r)

/-- A block sum with its E8M0 scales (R206): a scale of 255 gives the NaN before every other case, and an overflow sets OVF alone. -/
def BlockScaled (S : ChunkSum) (ea eb : Byte) (r : Nat × Flags) : Prop :=
  ((∀ m, S ≠ .fin m) ∨ ea = 255 ∨ eb = 255 → r = (fp32.nan, { nv := true })) ∧
  ∀ m, S = .fin m → ea ≠ 255 → eb ≠ 255 → (m = 0 → r = (0, {})) ∧
    (m ≠ 0 → ∃ c fl, OnceRounded fp32 .rne (m * (2 : ℚ) ^ ((ea.toNat : ℤ) + eb.toNat - 254 - 320)) (c, fl) ∧ r = (c, { ovf := fl.of }))

end Sys2Proof.Claims

open Sys2Proof Sys2Proof.Machine in
/-- R262, R263, R267, R268, R271 to R278: the instructions of the loom. MXZ, MXRUN, MXPROM and MXST enter the MXU queue with their chunk,
their bank's state following Table 13-3, and wait while it is full; MXCFG starts a loom from its descriptor, refuses a wrong one (0x49) or
waits to end it; SEMW takes a count or, with none left by those who wait since before it, waits, and sees what those who have signalled have seen,
SEMS adds one up to 255; MXPERM waits for the queue; FORK.seq starts the idle sequencer.
Choices of the model that it rests on: log 60, 64, 65, 66, 68, 69. How the order of SEMS and SEMW is carried, by joining order states in the
loom's, is log 64's: R267 gives only that it is as same-die program order. -/
def Obligations.LoomInstructionResult : Prop :=
  ∀ (s : State) (a b d : RegZ) (h : BitVec 5) (sem : BitVec 3) (g : Guard) (k n sg aoff boff : Nat) (sig : Option Nat), Claims.Issues s g →
    sg < 2 → n < 8 → sig = (if sg = 1 then some n else none) →
    (Claims.BeaterRuns s → 8 ≤ (Claims.myLoom s).queue.length → exec (.mxz g) s = .next (s.waitOn s.cur .mxq)) ∧
    (Claims.BeaterRuns s → (Claims.myLoom s).queue.length < 8 →
      exec (.mxz g) s = .next (Claims.done (Claims.withLoom s (fun l => { Claims.queued s.me.ord .z l with runk := 0, promk := 0 }))) ∧
      (Claims.NoMxz (Claims.myLoom s) →
        ((lo64 (regz s.me a)).toNat = aoff → aoff % 128 = 0 → aoff < 2 ^ 18 → (lo64 (regz s.me b)).toNat = boff + n * 2 ^ 16 + sg * 2 ^ 19 →
          boff % 128 = 0 → boff < 2 ^ 16 → k = (Claims.myLoom s).runk →
          ((Claims.myLoom s).col (Claims.here s).bay = 0 → s.rangeTrap (Claims.here s).die (Claims.here s).bay s.me.tag aoff (fragA (Claims.myLoom s).afmt) = none) →
          s.wbufTrap (Claims.here s).die (Claims.here s).bay s.me.tag boff (fragB (Claims.myLoom s).bfmt (Claims.myLoom s).sparse) = none →
          (((Claims.myLoom s).bank k).st = .empty → exec (.mxrun a b g) s = .next (Claims.done (Claims.withLoom s (fun l =>
            { Claims.queued s.me.ord (.run k aoff boff sig) (l.setBank k { l.bank k with st := .running }) with runk := k + 1 })))) ∧
          (((Claims.myLoom s).bank k).st = .promoting → exec (.mxrun a b g) s = .next (Claims.done (Claims.withLoom s (fun l =>
            { Claims.queued s.me.ord (.run k aoff boff sig) l with runk := k + 1 })))) ∧
          (((Claims.myLoom s).bank k).st = .running ∨ ((Claims.myLoom s).bank k).st = .full →
            exec (.mxrun a b g) s = .next (s.raise 0x48 (wordOf (.mxrun a b g))))) ∧
        ((lo64 (regz s.me a)).toNat = n * 2 ^ 16 + sg * 2 ^ 19 → k = (Claims.myLoom s).promk →
          (((Claims.myLoom s).bank k).st = .running ∨ ((Claims.myLoom s).bank k).st = .full → exec (.mxprom a g) s = .next (Claims.done
            (Claims.withLoom s (fun l => { Claims.queued s.me.ord (.prom k sig) (l.setBank k { l.bank k with st := .promoting }) with promk := k + 1 })))) ∧
          (((Claims.myLoom s).bank k).st = .empty ∨ ((Claims.myLoom s).bank k).st = .promoting →
            exec (.mxprom a g) s = .next (s.raise 0x48 (wordOf (.mxprom a g)))))) ∧
      (∀ fmt sat men m, fmt ≤ 5 → sat < 2 → men < 2 → m < 2 ^ 32 → (lo64 (regz s.me a)).toNat = aoff → aoff % 128 = 0 → aoff < 2 ^ 18 →
        (lo64 (regz s.me b)).toNat = fmt + sat * 2 ^ 3 + n * 2 ^ 16 + sg * 2 ^ 19 + men * 2 ^ 20 + m * 2 ^ 32 →
        ((Claims.myLoom s).afmt = 3 ↔ fmt = 5) → ((Claims.myLoom s).afmt = 3 → men = 0) →
        s.rangeTrap (Claims.here s).die (Claims.here s).bay s.me.tag aoff (4096 * outSize fmt) = none →
        (aoff + 4096 * outSize fmt ≤ (Claims.myLoom s).accOff ∨ (Claims.myLoom s).accOff + 16384 ≤ aoff) → exec (.mxst a b g) s = .next (Claims.done
          (Claims.withLoom s (Claims.queued s.me.ord (.st aoff fmt (decide (sat = 1)) (if men = 1 then some (.ofNat 32 m) else none) sig)))))) ∧
    (∀ ws, Claims.InSlot s 13 → (Claims.myLoom s).seq = none → (lo64 (regz s.me a)).toNat = aoff → aoff % 64 = 0 → aoff < 2 ^ 18 → Claims.OwnWords s aoff 8 ws →
      ((ws.getD 0 0).getLsbD 63 = false → ∃ t, exec (.mxcfg a g) s = .next t ∧ t.mem = s.mem ∧ t.me.status = .waiting ∧ t.me.wait = .mxoff ∧
        Claims.myLoom t = Claims.myLoom s) ∧
      ((ws.getD 0 0).getLsbD 63 = true → (Claims.myLoom s).act = false → (Claims.myLoom s).err = false →
        ∀ l : OrderState → Loom, (∀ o, l o = { Loom.init with act := true, w0 := ws.getD 0 0, w1 := ws.getD 1 0, w2 := ws.getD 2 0, semovf := (Claims.myLoom s).semovf, mxf := (Claims.myLoom s).mxf, ord := o }) →
        (¬ Claims.LoomAllowed s ws → exec (.mxcfg a g) s =
          .next ((Claims.readBy s s.cur (.spad (Claims.here s).die (Claims.here s).bay aoff)).raise 0x49 (.ofNat 64 aoff))) ∧
        (Claims.LoomAllowed s ws → ∃ t o, exec (.mxcfg a g) s = .next t ∧ t.mem = s.mem ∧
          Claims.myLoom t = { l o with mxf := 0 } ∧ t.me.wait = .reply Claims.noResult ∧ t.me.sts = s.me.sts ||| (Claims.myLoom s).mxf ∧
          ∀ i < 8, t.semCount (Claims.here s).die (Claims.here s).bay s.me.tag i = (ws.getD 1 0).toNat / 2 ^ (4 * i) % 16))) ∧
    (∀ c, Claims.InSlot s 13 ∨ Claims.InSlot s 14 → (Claims.myLoom s).act = true → (Claims.myLoom s).err = false →
      c = s.semCount (Claims.here s).die (Claims.here s).bay s.me.tag sem.toNat →
      (c < 255 → exec (.sems sem g) s = .next (Claims.done (Claims.handsOn
        (s.setSem (Claims.here s).die (Claims.here s).bay s.me.tag sem.toNat (c + 1)) s.me.ord))) ∧
      (255 ≤ c → exec (.sems sem g) s = .next (Claims.done (Claims.handsOn (Claims.withLoom s (fun l => { l with semovf := true })) s.me.ord))) ∧
      ((∀ j, (Claims.myLoom s).seq = some j → Claims.InSlot s 14) →
        (c ≤ Claims.servedFirst s sem.toNat → exec (.semw sem g) s = .next (s.waitOn s.cur (.semw sem.toNat))) ∧
        (Claims.servedFirst s sem.toNat < c → ∃ t, exec (.semw sem g) s = .next t ∧ t.mem = s.mem ∧
          t.semCount (Claims.here s).die (Claims.here s).bay s.me.tag sem.toNat = c - 1 ∧ t.me.regs = s.me.regs ∧ t.me.pc = s.me.pc + 4 ∧
          t.me.status = .ready ∧ t.me.ord.pts = max s.me.ord.pts (max (Claims.myLoom s).ord.pts (Claims.myLoom s).sord.pts) ∧
          t.me.ord.pa = s.me.ord.pa.vmax ((Claims.myLoom s).ord.pa.vmax (Claims.myLoom s).sord.pa) ∧
          (Claims.InSlot s 13 → t.me.sts = Claims.unprefixed (s.me.sts ||| (Claims.myLoom s).mxf) ∧ (Claims.myLoom t).mxf = 0) ∧
          (Claims.InSlot s 14 → t.me.sts = Claims.unprefixed s.me.sts)))) ∧
    (∀ dst src map e tr, Claims.InSlot s 13 → (Claims.myLoom s).err = false → (Claims.myLoom s).seq = none → e < 4 → tr < 2 →
      (lo64 (regz s.me d)).toNat = dst → (lo64 (regz s.me a)).toNat = src → (lo64 (regz s.me b)).toNat = map + tr * 4 + e → dst % 128 = 0 →
      src % 128 = 0 → map % 64 = 0 → map < 2 ^ 18 → dst + 4096 * 2 ^ e ≤ 2 ^ 18 → src + 4096 * 2 ^ e ≤ 2 ^ 18 →
      (dst + 4096 * 2 ^ e ≤ src ∨ src + 4096 * 2 ^ e ≤ dst) → (dst + 4096 * 2 ^ e ≤ map ∨ map + 64 ≤ dst) →
      (∀ p ∈ [(dst, 4096 * 2 ^ e), (src, 4096 * 2 ^ e), (map, 64)], inPart (s.spadPart s.me.tag (Claims.here s).die (Claims.here s).bay) p.1 p.2 = true) →
      exec (.mxperm d a b g) s = .next (s.waitOn s.cur (.mxperm dst src map (2 ^ e) (decide (tr = 1))))) ∧
    (∀ off, Claims.InSlot s 13 → s.me.place = .slot (Claims.here s) 13 → (Claims.myLoom s).act = true → (Claims.myLoom s).seq = none →
      s.handleOf s.cur h.toNat = none → (lo64 (regz s.me a)).toNat = off → off % 32 = 0 → off < 2 ^ 18 → (lo64 (regz s.me b)).toNat = k → 1 ≤ k →
      k ≤ 1024 → s.rangeTrap (Claims.here s).die (Claims.here s).bay s.me.tag off (32 * k) = none → ∃ t, exec (.forkSeq a b h g) s = .next t ∧
        t.mem = s.mem ∧ (Claims.myLoom t).seq = some ⟨s.nextId, off, k, 0, none, 0⟩ ∧ t.handleOf s.cur h.toNat = some s.nextId ∧
        t.me.wait = .reply Claims.noResult ∧ ∃ c, Tbl.find t.cards s.nextId = some c ∧ c.kind = .seq ∧ c.started = true)

open Sys2Proof Sys2Proof.Machine in
/-- R255, R256, R260, R263 to R265, R268, R270, R272 to R277: the steps of the loom. Operations start and complete in the order of R263:
MXZ zeroes the accumulator, MXRUN's feeders read their fragments and send them on, its completion leaves the exact chunk sums, MXPROM adds
them and MXST stores the outputs, each with its signal to a semaphore; fragments are accepted and sent on, an alien one is an error (2); a fragment or a
scale too late is one too (3, 4); the sequencer takes its steps in order, each as the
instruction it stands for, stops at a deferred error or where the loom is no longer active, and completes with what the MXU has done; MXPERM writes
its block once the queue is empty. -/
def Sys2Proof.Claims.LoomMachineSteps : Prop :=
  ∀ (s : State) (die bay tag k : Nat) (l : Loom) (e : MxEntry) (rest : List MxEntry), l = s.loom die bay tag → Claims.Live s die bay tag →
    (l.queue = e :: rest → e.start = none →
      (e.op = .z → ∃ t, exec (.mxuOpStart die bay tag) s = .next t ∧ t.mem = s.mem.writeBytes (s.spadAt tag die bay l.accOff) (List.replicate 16384 0) ∧
        (t.loom die bay tag).queue = { e with start := some s.clock } :: rest ∧ (t.loom die bay tag).bank0.sums = [] ∧
        (t.loom die bay tag).bank1.sums = [] ∧ (t.loom die bay tag).scales = []) ∧
      (∀ ao bo sig, e.op = .run k ao bo sig → s.badAt tag (.spad die bay ao) (fragA l.afmt) = false → ∃ t e', exec (.mxuOpStart die bay tag) s = .next t ∧
        t.mem = s.mem ∧ (t.loom die bay tag).queue = e' :: rest ∧ e'.op = e.op ∧ e'.start = some s.clock ∧
        e'.a = (if l.col bay = 0 then some (s.bytesAt tag (.spad die bay ao) (fragA l.afmt)) else e.a) ∧
        e'.b = (if l.row bay = 0 then some (s.mem.readBytes (wbufKey die bay bo) (fragB l.bfmt l.sparse)) else e.b) ∧
        (l.col bay = 0 → 1 < l.cols → ∃ id, Tbl.find t.msgs id = some (.operand tag die (bay + 1) true k l.ident
          (s.bytesAt tag (.spad die bay ao) (fragA l.afmt)) s.clock)) ∧
        (l.row bay = 0 → 1 < l.rows → ∃ id, Tbl.find t.msgs id = some (.operand tag die (bay + 64) false k l.ident
          (s.mem.readBytes (wbufKey die bay bo) (fragB l.bfmt l.sparse)) s.clock))) ∧
      (∀ sig, e.op = .prom k sig → (l.bank k).sums ≠ [] → exec (.mxuOpStart die bay tag) s = .next (s.modLoom die bay tag (fun l =>
        { l with queue := { e with start := some s.clock } :: rest }))) ∧
      (∀ out fmt sat mul sig, e.op = .st out fmt sat mul sig → exec (.mxuOpStart die bay tag) s = .next (s.modLoom die bay tag (fun l =>
        { l with queue := { e with start := some s.clock } :: rest })))) ∧
    (∀ c, l.queue = e :: rest → e.start = some c → (∀ x ∈ rest, ∀ j ao bo sig, x.op = .run j ao bo sig → x.start = none) →
      (e.op = .z → exec (.mxuOpComplete die bay tag) s = .next (s.modLoom die bay tag (fun l => { l with queue := rest }))) ∧
      (∀ ao bo sig fa f0 fb cols, e.op = .run k ao bo sig → e.a = some fa → e.b = some f0 →
        fb = (if l.row bay = 0 then f0 else s.mem.readBytes (wbufKey die bay bo) (fragB l.bfmt l.sparse)) → s.unaccepted die bay tag k = false →
        fragCols l.bfmt l.sparse fb = some cols → ∃ t, exec (.mxuOpComplete die bay tag) s = .next t ∧ t.mem = s.mem ∧ (t.loom die bay tag).queue = rest ∧
          ((l.bank k).st = .running → ((t.loom die bay tag).bank k).st = .full) ∧
          Claims.Signalled s die bay tag sig t ∧
          (l.sparse = false → l.bfmt = l.afmt → l.afmt ∈ [0, 1, 3] → fa.length = 8192 → fb.length = 8192 →
            ∀ i j, i < 64 → j < 64 → (∀ n < 128, (∃ x m y, elemVal l.afmt (fa.getD (128 * i + n) 0).toNat = .fin x m y) ∧
              ∃ x m y, elemVal l.bfmt (fb.getD (128 * j + n) 0).toNat = .fin x m y) →
            ∃ z : Int, ((t.loom die bay tag).bank k).sums[64 * i + j]? = some (.fin z) ∧ (z : ℚ) = 2 ^ 320 * ((List.range 128).map (fun n =>
              Claims.rat (elemVal l.afmt (fa.getD (128 * i + n) 0).toNat) * Claims.rat (elemVal l.bfmt (fb.getD (128 * j + n) 0).toNat))).sum)) ∧
      (∀ sig sa sb p, e.op = .prom k sig → l.scalesOf k = some (sa, sb) → s.badAt tag (.spad die bay l.accOff) 16384 = false →
        p = promoteAll l.afmt (codesOf 4 4096 (s.bytesAt tag (.spad die bay l.accOff) 16384)) (l.bank k).sums sa sb (l.bank k).ea (l.bank k).eb →
        ∃ t, exec (.mxuOpComplete die bay tag) s = .next t ∧ (t.loom die bay tag).queue = rest ∧ ((t.loom die bay tag).bank k).sums = [] ∧
          t.mem = s.mem.writeBytes (s.spadAt tag die bay l.accOff) (p.1.flatMap (leBytes 4 ·)) ∧ (t.loom die bay tag).mxf = l.mxf ||| Flags.sts p.2 ∧
          Claims.Signalled s die bay tag sig t) ∧
      (∀ out fmt sat mul sig, e.op = .st out fmt sat mul sig → s.badAt tag (.spad die bay l.accOff) 16384 = false → ∃ t,
        exec (.mxuOpComplete die bay tag) s = .next t ∧ (t.loom die bay tag).queue = rest ∧ Claims.Signalled s die bay tag sig t ∧
        t.mem = s.mem.writeBytes (s.spadAt tag die bay out)
          ((codesOf 4 4096 (s.bytesAt tag (.spad die bay l.accOff) 16384)).flatMap (fun x => leBytes (outSize fmt) (outElem fmt sat mul x).1)))) ∧
    (∀ c c2 j ao bo sig sg2 sa sb fa fb x more cols, l.queue = e :: x :: more → e.start = some c → e.op = .prom k sig → l.scalesOf k = some (sa, sb) →
      s.badAt tag (.spad die bay l.accOff) 16384 = false → x.op = .run j ao bo sg2 → x.start = some c2 → x.a = some fa → x.b = some fb → l.row bay = 0 →
      s.unaccepted die bay tag j = false → fragCols l.bfmt l.sparse fb = some cols → ∃ t, exec (.mxuOpComplete die bay tag) s = .next t ∧
        ((t.loom die bay tag).queue = x :: more ∧ ((t.loom die bay tag).bank k).sums = [] ∨ (t.loom die bay tag).queue = e :: more ∧ t.mem = s.mem)) ∧
    (∀ c ao bo sig fa fb cols x n more c2, l.queue = e :: x :: more → e.start = some c → e.op = .run k ao bo sig → e.a = some fa → e.b = some fb →
      x.op = n → x.start = some c2 → (∃ j p q sg2, n = .run j p q sg2) → s.unaccepted die bay tag k = false → fragCols l.bfmt l.sparse fb = some cols →
      ∃ t, exec (.mxuOpComplete die bay tag) s = .next t ∧ t.mem = s.mem ∧ (t.loom die bay tag).queue = x :: more ∧
        ((t.loom die bay tag).bank k).sums = chunkSums l.afmt (fragRows l.afmt fa) cols) ∧
    (∀ (acc : W32) (v : Int) (sa sb : Nat), promoteElem 3 acc.toNat [.fin (v * 2 ^ 320)] sa sb [] [] =
      ((BitVec.ofInt 32 (max (-2 ^ 31) (min (2 ^ 31 - 1) (acc.toInt + v)))).toNat,
       { sat := decide (acc.toInt + v < -2 ^ 31 ∨ 2 ^ 31 - 1 < acc.toInt + v) })) ∧
    (∀ id isA ident bs c, Tbl.find s.msgs id = some (.operand tag die bay isA k ident bs c) → l.act = false → exec (.operandMessage id) s =
      .next (if l.gone = some ident then { s with msgs := Tbl.del s.msgs id } else s)) ∧
    (∀ id isA ident bs c, Tbl.find s.msgs id = some (.operand tag die bay isA k ident bs c) → l.act = true →
      (ident ≠ l.ident → ∃ t, exec (.operandMessage id) s = .next t ∧ Tbl.find t.msgs id = none ∧ t.mem = s.mem ∧ (t.loom die bay tag).err = true ∧
        (l.err = false → (t.loom die bay tag).ecode = 2 ∧ (t.loom die bay tag).echunk = k % 65536)) ∧
      (ident = l.ident → ∀ ao bo sig, l.queue = e :: rest → e.op = .run k ao bo sig → (∀ x ∈ l.queue, x.a = none) → e.b = none →
        ∃ t, exec (.operandMessage id) s = .next t ∧ (t.loom die bay tag).queue = (if isA then { e with a := some bs } else { e with b := some bs }) :: rest ∧
          t.mem = (if isA then s.mem else s.mem.writeBytes (wbufKey die bay bo) bs)) ∧
      (ident = l.ident → (∀ x ∈ l.queue, ∀ ao bo sig, x.op ≠ .run k ao bo sig) → exec (.operandMessage id) s = .next s)) ∧
    (∀ id isA srv off n, Tbl.find s.msgs id = some (.scale tag die bay isA k) → s.loomServer die l = some srv → bay = (l.orgy + l.row bay) * 64 + l.orgx + l.col bay →
      l.col bay < l.cols → l.row bay < l.rows →
      off = (if isA then l.asbase + 256 * (l.row bay + l.rows * (k % 8)) else l.bsbase + 4 * (l.col bay / 2 + 8 * (k % 8))) → n = (if isA then 256 else 4) →
      ∃ t, exec (.scaleRequest id) s = .next t ∧ Tbl.find t.msgs id = none ∧ t.mem = s.mem ∧
        (isA, k, (codesOf 4 (n / 4) (s.bytesAt tag (.spad die srv off) n)).map (BitVec.ofNat 32 ·)) ∈ (t.loom die bay tag).scales) ∧
    (∀ c ao bo sig, l.queue = e :: rest → e.op = .run k ao bo sig → e.start = some c →
      ((e.a = none ∨ e.b = none) ∧ c + 2 ^ l.oplim < s.clock ∨ ∃ id b isA ident bs sent, (id, Msg.operand tag die b isA k ident bs sent) ∈ s.msgs ∧
        l.next bay isA = some b ∧ sent + 2 ^ l.oplim < s.clock) → ∃ t, exec (.operandTimeout die bay tag) s = .next t ∧ t.mem = s.mem ∧
        (t.loom die bay tag).bank k = Bank.init ∧ (t.loom die bay tag).err = true ∧ (l.err = false → (t.loom die bay tag).ecode = 3 ∧
          (t.loom die bay tag).echunk = k % 65536)) ∧
    (∀ c sig, l.queue = e :: rest → e.op = .prom k sig → e.start = some c → c + 2 ^ l.oplim < s.clock → l.scalesOf k = none → ∃ t,
      exec (.scaleTimeout die bay tag) s = .next t ∧ t.mem = s.mem ∧ (t.loom die bay tag).bank k = Bank.init ∧ (t.loom die bay tag).err = true ∧
        (l.err = false → (t.loom die bay tag).ecode = 4 ∧ (t.loom die bay tag).echunk = k % 65536)) ∧
    (∀ j c off ws, l.seq = some j → Tbl.find s.cards j.card = some c → c.stopped = false → j.at_ < j.count → l.err = false → l.act = true → off = j.off + 32 * j.at_ →
      off % 32 = 0 → s.badAt tag (.spad die bay off) 32 = false →
      ws = (List.range 4).map (fun i => (leNat (s.bytesAt tag (.spad die bay (off + 8 * i)) 8))) →
      (ws = [1, 0, 0, 0] → l.queue.length < 8 → ∃ t, exec (.sequencerStep die bay tag) s = .next t ∧ t.mem = s.mem ∧
        (t.loom die bay tag).queue = l.queue ++ [⟨.z, none, none, none⟩] ∧ (t.loom die bay tag).seq = some { j with at_ := j.at_ + 1, parked := none } ∧
        (t.loom die bay tag).runk = 0 ∧ (t.loom die bay tag).promk = 0) ∧
      (∀ m, m < 8 → ws = [9 + m * 16, 0, 0, 0] → s.semCount die bay tag m < 255 → ∃ t, exec (.sequencerStep die bay tag) s = .next t ∧ t.mem = s.mem ∧
        t.semCount die bay tag m = s.semCount die bay tag m + 1 ∧ (t.loom die bay tag).seq = some { j with at_ := j.at_ + 1, parked := none }) ∧
      (∀ m sg sig, m < 8 → sg < 2 → sig = (if sg = 1 then some m else none) → l.queue.length < 8 →
        (∀ ao bo, ws = [2, ao, bo + m * 2 ^ 16 + sg * 2 ^ 19, 0] → ao % 128 = 0 → ao < 2 ^ 18 → bo % 128 = 0 → bo < 2 ^ 16 → Claims.NoMxz l →
          (l.bank l.runk).st = .empty → (l.col bay = 0 → s.rangeTrap die bay tag ao (fragA l.afmt) = none) →
          s.wbufTrap die bay tag bo (fragB l.bfmt l.sparse) = none → Claims.SequencedAs s die bay tag j (.run l.runk ao bo sig)
            (fun l' => l'.runk = l.runk + 1 ∧ l'.promk = l.promk ∧ (l'.bank l.runk).st = .running)) ∧
        (ws = [3, m * 2 ^ 16 + sg * 2 ^ 19, 0, 0] → Claims.NoMxz l → (l.bank l.promk).st = .running ∨ (l.bank l.promk).st = .full →
          Claims.SequencedAs s die bay tag j (.prom l.promk sig)
            (fun l' => l'.runk = l.runk ∧ l'.promk = l.promk + 1 ∧ (l'.bank l.promk).st = .promoting)) ∧
        (∀ fmt sat men mul out, fmt ≤ 5 → sat < 2 → men < 2 → mul < 2 ^ 32 → out % 128 = 0 → out < 2 ^ 18 →
          ws = [4, out, fmt + sat * 2 ^ 3 + m * 2 ^ 16 + sg * 2 ^ 19 + men * 2 ^ 20 + mul * 2 ^ 32, 0] →
          (l.afmt = 3 ↔ fmt = 5) → (l.afmt = 3 → men = 0) → s.rangeTrap die bay tag out (4096 * outSize fmt) = none →
          (out + 4096 * outSize fmt ≤ l.accOff ∨ l.accOff + 16384 ≤ out) →
          Claims.SequencedAs s die bay tag j (.st out fmt (decide (sat = 1)) (if men = 1 then some (.ofNat 32 mul) else none) sig)
            (fun l' => l'.runk = l.runk ∧ l'.promk = l.promk))) ∧
      (∀ m, m < 8 → ws = [8 + m * 16, 0, 0, 0] →
        (s.semCount die bay tag m = 0 → (j.parked ≠ none → exec (.sequencerStep die bay tag) s = .next s) ∧ (j.parked = none → ∃ t a,
          exec (.sequencerStep die bay tag) s = .next t ∧ t.mem = s.mem ∧ (t.loom die bay tag).seq = some { j with parked := some m, arr := a })) ∧
        (s.semCount die bay tag m ≠ 0 → j.parked = none → (∀ x ∈ s.strands, x.2.wait ≠ .semw m) → ∃ t,
          exec (.sequencerStep die bay tag) s = .next t ∧ t.mem = s.mem ∧ t.semCount die bay tag m = s.semCount die bay tag m - 1 ∧
          (t.loom die bay tag).seq = some { j with at_ := j.at_ + 1, parked := none } ∧
          Tbl.find t.cards j.card = some { c with ord := { c.ord with pts := max c.ord.pts (max l.ord.pts l.sord.pts)
                                                                      pa := c.ord.pa.vmax (l.ord.pa.vmax l.sord.pa) } })) ∧
      (ws.getD 0 0 % 16 = 0 → exec (.sequencerStep die bay tag) s = .next (s.setCard j.card { c with stopped := true, code := 1 }))) ∧
    (∀ j c o, l.seq = some j → Tbl.find s.cards j.card = some c → c.kind = .seq → c.die = die → c.bay = bay → c.tag = tag → c.started = true →
      c.cs = none → c.upto = none → c.stopped = false → j.at_ = j.count → l.queue = [] → l.err = false → s.drained die c.foreign s.serial = true →
      Claims.releasedOrd s { pts := max c.ord.pts l.ord.pts, vw := c.ord.vw.vmax l.ord.vw, rs := c.ord.rs.vmax l.ord.rs, pa := c.ord.pa.vmax l.ord.pa }
        die o → ∃ t c', exec (.jobCompletion j.card) s = .next t ∧ t.mem = s.mem ∧ Tbl.find t.cards j.card = some c' ∧
          c'.cs = some (o.rs.vmax o.pa) ∧ (t.loom die bay tag).seq = none) ∧
    (∀ j c, l.seq = some j → Tbl.find s.cards j.card = some c → c.stopped = false → l.err = true ∨ (l.act = false ∧ j.at_ < j.count) →
      exec (.sequencerStep die bay tag) s = .next (s.setCard j.card { c with stopped := true, code := 1 })) ∧
    (∀ x dst src map esz tr, (s.strand x).wait = .mxperm dst src map esz tr → (s.strand x).tag = tag → s.unitOf x = coreOf die bay → s.present x = true →
      (s.strand x).status = .waiting → l.queue = [] → src % 128 = 0 → dst % 128 = 0 → map % 64 = 0 → esz ∈ [1, 2, 4, 8] →
      s.badAt tag (.spad die bay map) 64 = false → s.badAt tag (.spad die bay src) (4096 * esz) = false →
      (∀ i < 64, (Claims.spadByte s tag die bay (map + i)).toNat / 64 % 2 = 0) → ∃ t, exec (.operationReply x) s = .next t ∧
        (t.strand x).wait = .reply Claims.noResult ∧ (t.strand x).regs = (s.strand x).regs ∧
        (∀ i j n, i < 64 → j < 64 → n < esz → Claims.spadByte t tag die bay (dst + (64 * i + j) * esz + n) =
          if tr then Claims.permuted s tag die bay src map esz j i n else Claims.permuted s tag die bay src map esz i j n) ∧
        ∀ y, y < s.spadAt tag die bay dst ∨ s.spadAt tag die bay dst + 4096 * esz ≤ y → t.mem.read y = s.mem.read y) ∧
    (∀ x, (s.strand x).wait = .mxoff → (s.strand x).tag = tag → s.unitOf x = coreOf die bay → s.present x = true → (s.strand x).status = .waiting →
      (l.queue ≠ [] → exec (.operationReply x) s = .next s) ∧
      (l.queue = [] → ∃ t, exec (.operationReply x) s = .next t ∧ (t.loom die bay tag).act = false ∧ (t.loom die bay tag).err = false ∧
        (t.loom die bay tag).runk = 0 ∧ (t.loom die bay tag).promk = 0 ∧ (t.loom die bay tag).bank0 = Bank.init ∧ (t.loom die bay tag).bank1 = Bank.init ∧
        (∀ id isA k ident bs c, Tbl.find t.msgs id ≠ some (.operand tag die bay isA k ident bs c)) ∧ (l.act = true → (t.loom die bay tag).gone = some l.ident) ∧
        (t.strand x).status = .ready ∧ (t.strand x).pc = (s.strand x).pc + 4 ∧ t.mem = s.mem))

open Sys2Proof Sys2Proof.Machine in
/-- R206, R265: the promotion of an accumulator element for each operand format. FP8 promotes S × sa × sb rounded once, BF16 S rounded once, E2M1
its four block sums in ascending order with their E8M0 scales; each is added to the accumulator with one rounding, in nearest-even. A chunk's
promotion is that of each element, with the flags of all. -/
def Sys2Proof.Claims.LoomPromotion : Prop :=
  (∀ (fmt acc sa sb : Nat) (S : ChunkSum) (x : FVal), fmt ∈ [0, 1] → Claims.StandsFor S x →
    ∃ r, Claims.Promoted x (fp32.val sa) (fp32.val sb) r ∧ promoteElem fmt acc [S] sa sb [] [] = Claims.addedTo acc r) ∧
  (∀ (acc sa sb : Nat) (S : ChunkSum), ∃ r, Claims.SumRounded S r ∧ promoteElem 4 acc [S] sa sb [] [] = Claims.addedTo acc r) ∧
  (∀ (acc sa sb : Nat) (S : Fin 4 → ChunkSum) (ea eb : Fin 4 → Byte), ∃ (r t : Fin 4 → Nat × Flags), (∀ q, Claims.BlockScaled (S q) (ea q) (eb q) (r q)) ∧
    t 0 = Claims.addedTo acc (r 0) ∧ t 1 = Claims.addedTo (t 0).1 (r 1) ∧ t 2 = Claims.addedTo (t 1).1 (r 2) ∧ t 3 = Claims.addedTo (t 2).1 (r 3) ∧
    promoteElem 2 acc [S 0, S 1, S 2, S 3] sa sb [ea 0, ea 1, ea 2, ea 3] [eb 0, eb 1, eb 2, eb 3] =
      ((t 3).1, Flags.or (Flags.or (Flags.or (t 0).2 (t 1).2) (t 2).2) (t 3).2)) ∧
  ∀ (fmt per : Nat) (acc : List Nat) (sums : List ChunkSum) (sa : List W32) (sb : W32) (ea eb : List Byte) (el : Nat → Nat → Nat × Flags),
    per = (if fmt = 2 then 4 else 1) → acc.length = 4096 → sums.length = 4096 * per →
    (∀ i j, el i j = promoteElem fmt (acc.getD (64 * i + j) 0) ((sums.drop (per * (64 * i + j))).take per) (sa.getD i 0).toNat sb.toNat
      ((ea.drop (4 * i)).take 4) ((eb.drop (4 * j)).take 4)) →
    (promoteAll fmt acc sums sa sb ea eb).1.length = 4096 ∧
    (∀ i j, i < 64 → j < 64 → (promoteAll fmt acc sums sa sb ea eb).1[64 * i + j]? = some (el i j).1) ∧
    ∀ k < 64, (promoteAll fmt acc sums sa sb ea eb).2.sts.getLsbD k = true ↔ ∃ i j, i < 64 ∧ j < 64 ∧ (el i j).2.sts.getLsbD k = true

open Sys2Proof Sys2Proof.Machine in
/-- R203, R276: an output element of MXST: the accumulator, or its product with the multiplier, rounded once to the output format, and INT32 as it
stands. -/
def Sys2Proof.Claims.LoomOutput : Prop :=
  ∀ (fmt acc : Nat) (f : FP) (sat : Bool) (m : W32) (x y : FVal), x = fp32.val acc → y = fp32.val m.toNat →
    (∀ mul, outElem 5 sat mul acc = (acc, {})) ∧
    ((fmt, f) ∈ [(0, fp32), (1, bf16), (2, fp16), (3, e4m3), (4, e5m2)] →
      outElem fmt sat none acc = f.convert .rne sat x ∧
      (x.isNan = true ∨ y.isNan = true → outElem fmt sat (some m) acc = (f.nan, { nv := x.sig || y.sig })) ∧
      (Claims.infinite x ∧ Claims.finite y ∧ Claims.rat y = 0 ∨ Claims.infinite y ∧ Claims.finite x ∧ Claims.rat x = 0 →
        outElem fmt sat (some m) acc = (f.nan, { nv := true })) ∧
      (∀ p, (p = true ↔ ¬ (Claims.below x ↔ Claims.below y)) → Claims.infinite x ∧ (Claims.infinite y ∨ (Claims.finite y ∧ Claims.rat y ≠ 0)) ∨
        Claims.infinite y ∧ Claims.finite x ∧ Claims.rat x ≠ 0 → outElem fmt sat (some m) acc = f.convert .rne sat (.inf p)) ∧
      (Claims.finite x → Claims.finite y → Claims.rat x * Claims.rat y ≠ 0 → ∃ n d : ℕ, 0 < n ∧ 0 < d ∧
        (n : ℚ) / d = |Claims.rat x * Claims.rat y| ∧ outElem fmt sat (some m) acc = f.round .rne sat (decide (Claims.rat x * Claims.rat y < 0)) n d) ∧
      (∀ p q n k, x = .fin p 0 n → y = .fin q 0 k → outElem fmt sat (some m) acc = (f.signBit (p != q), {})))

open Sys2Proof Sys2Proof.Machine in
/-- R206, R255, R256, R260, R263 to R265, R268, R270, R272 to R277: the steps of the loom and its arithmetic.
Choices of the model that it rests on: log 64, 65, 67, 69. Which of a promotion and the MXRUN behind it ends first is a free value. -/
def Obligations.LoomSteps : Prop :=
  Claims.LoomMachineSteps ∧ Claims.LoomPromotion ∧ Claims.LoomOutput

namespace Sys2Proof.Claims
open Sys2Proof.Machine

/-- A finite FP32 number above +0, as a code (R282). -/
def Positive (c : Nat) : Prop := 0 < c ∧ c < 0x7F800000

/-- x is below y, both FP32 codes. -/
def Below (x y : Nat) : Prop := FVal.cmp (fp32.val x) (fp32.val y) = some .lt

/-- A row's bid in a round (R285, R286). -/
def bidOf (a : Auction) (floor i : Nat) : Option Bid := a.bid floor a.open_ i

/-- Rows, columns and bytes of a score that a descriptor asks for (Table 14-1). -/
def Shape (ws : List W64) (rows cols z : Nat) : Prop :=
  rows = cardBits ws 0 56 8 + 1 ∧ cols = cardBits ws 0 50 6 + 1 ∧ z = if cardBits ws 0 49 1 = 1 then 4 else 2

/-- What ASN checks of a descriptor (R280): reserved fields zero, addresses canonical, the scores aligned. -/
def AsnWords (ws : List W64) (z : Nat) : Prop :=
  cardBits ws 0 0 32 = 0 ∧ ws.getD 6 0 = 0 ∧ ws.getD 7 0 = 0 ∧ (ws.getD 1 0).toNat < 2 ^ 56 ∧ (ws.getD 2 0).toNat < 2 ^ 56 ∧
  (ws.getD 1 0).toNat % z = 0

/-- The ε of a job that the start step admits, fixed or of a schedule (R282). -/
def EpsilonOk (ws : List W64) : Prop :=
  (cardBits ws 0 48 1 = 0 → Positive (cardBits ws 3 0 32)) ∧
  (cardBits ws 0 48 1 = 1 → Positive (cardBits ws 4 0 32) ∧ Positive (cardBits ws 5 0 32) ∧ ¬ Below (cardBits ws 4 0 32) (cardBits ws 5 0 32) ∧
    cardBits ws 4 32 31 < 0x7F800000 ∧ Below 0x3F800000 (cardBits ws 4 32 32))

/-- The floor and the ceiling that it admits: a finite number, and no NaN (R282). -/
def BoundsOk (ws : List W64) : Prop := cardBits ws 3 32 31 < 0x7F800000 ∧ cardBits ws 5 32 31 ≤ 0x7F800000

/-- FP32 sums and differences of the auction, to nearest even (R284). -/
def plus (x y : Nat) : Nat := (fp32.add .rne (fp32.val x) (fp32.val y)).1
def minus (x y : Nat) : Nat := (fp32.add .rne (fp32.val x) (fp32.val y).neg).1

/-- `v` is FLOOR or the value of one of some slots, and none is above it (R285). -/
def Highest (v floor : Nat) (vs : List Nat) : Prop := (v = floor ∨ v ∈ vs) ∧ ¬ Below v floor ∧ ∀ x ∈ vs, ¬ Below v x

/-- Piece `k` of `len` bytes at an address, cut at 128-byte lines: its first byte and its length. -/
def pieceOf (addr : W64) (len k a n : Nat) : Prop :=
  128 * k < addr.toNat % 128 + len ∧ a = 128 * k - addr.toNat % 128 ∧ n = min (128 * (k + 1) - addr.toNat % 128) len - a

/-- The pieces that the inputs of a job are read in: those of `len` bytes at an address. -/
def pieces (addr : W64) (len : Nat) : Nat := (addr.toNat % 128 + len + 127) / 128

/-- The elements of a result block at a 64-byte aligned address, by number: cut at 128-byte lines, the status word last (R289). -/
def blockElem (out : W64) (i : Nat) : Option (Nat × Nat) :=
  if out.toNat % 128 = 0 then
    [(0, 128), (128, 128), (256, 128), (384, 128), (512, 128), (640, 128), (776, 120), (896, 128), (768, 8)][i]?
  else [(0, 64), (64, 128), (192, 128), (320, 128), (448, 128), (576, 128), (704, 64), (776, 56), (832, 128), (960, 64), (768, 8)][i]?

/-- The number of the status word's element. -/
def lastElem (out : W64) : Nat := if out.toNat % 128 = 0 then 8 else 10

/-- No buffer of the machine holds a store of job `id`. -/
def Performed (s : State) (id : Nat) : Prop :=
  (∀ f ∈ s.rbuf, ∀ e ∈ f.2, e.src.id ≠ id) ∧ ∀ f ∈ s.lbuf, ∀ e ∈ f.2, e.src.id ≠ id

/-- A job of which an element of the result block could not be written (R289): where that is the status word's, it stops with the code, and
otherwise only the status word is still to be written, with the code. -/
def blockFailed (c : Card) (last : Bool) (code : Nat) : Card :=
  if last then { c with stopped := true, code := code, parked := [] }
  else { c with
    code := code, parked := [], elems := (List.range (lastElem c.dst)).map (fun k => (k, .done))
    result := c.result.take 768 ++ leBytes 8 (leNat ((c.result.drop 768).take 8) % 2 ^ 56 + code * 2 ^ 56) ++ c.result.drop 776 }

/-- The next job of a cluster's engine (R279). -/
def NextJob (s : State) (die cluster id : Nat) (c : Card) : Prop :=
  s.cards.find? (fun e => e.2.kind == .asn && e.2.posted && e.2.die == die && e.2.eng == cluster && e.2.cs.isNone) = some (id, c) ∧
  Tbl.find s.cards id = some c ∧ (s.cluster die cluster).asn = none ∧ c.result = [] ∧ c.parked = []

end Sys2Proof.Claims

open Sys2Proof Sys2Proof.Machine in
/-- R279 to R290: the Assignment Engine. ASN posts a job from its descriptor, refusing a wrong one (0x4B); the start step ends a job whose
values are wrong with its status (0x83, 0x81, 0x82); the inputs are read piece by piece, and set up the auction, every slot at +0 with no
holder, or end the job; a row bids for its best slot the amount that R285 and R286 compute, and each column goes to its highest bid, of equal
ones the lowest row; a round with no bid ends the phase, with the next ε, or the job, and the limit ends the job (0x01); the result block
says who holds what, the column prices and the counts, and is written with its status word last; of a block of which a write fails only that
word is still written.
Choices of the model that it rests on: log 52, 63. -/
def Obligations.AssignmentResult : Prop :=
  ∀ (s : State) (die cluster : Nat),
    (∀ (a b : RegZ) (h : BitVec 5) (g : Guard) (n off rows cols z : Nat) (out : W64) (ws : List W64) (c : Card), Claims.Issues s g →
      ¬ Claims.OnSpindle s → s.me.place = .slot (Claims.here s) n → s.handleOf s.cur h.toNat = none → (lo64 (regz s.me a)).toNat = off → off % 64 = 0 →
      off < 2 ^ 18 → out = lo64 (regz s.me b) → out.toNat < 2 ^ 56 → out.toNat % 64 = 0 → Claims.OwnWords s off 8 ws → Claims.Shape ws rows cols z →
      c = { Card.init .asn s.me.tag (Claims.here s).die (clusterOf (Claims.here s).bay) with
            dst := out, desc := ws, bay := (Claims.here s).bay
            regions := [⟨(ws.getD 1 0).toNat, rows * cols * z, true, false, false⟩, ⟨(ws.getD 2 0).toNat, cols, true, false, false⟩,
              ⟨out.toNat, 1024, false, true, false⟩] } →
      Tbl.find s.cards s.nextId = none →
      (¬ Claims.AsnWords ws z → exec (.asn a b h g) s =
        .next ((Claims.readBy s s.cur (.spad (Claims.here s).die (Claims.here s).bay off)).raise 0x4B (.ofNat 64 off))) ∧
      (Claims.AsnWords ws z → ∃ t o, exec (.asn a b h g) s = .next t ∧ t.mem = s.mem ∧ Claims.Posted s s.nextId c o t ∧
        t.handleOf s.cur h.toNat = some s.nextId ∧ t.me = { Claims.next s.me with ord := o })) ∧
    (∀ (id : Nat) (c : Card), Claims.NextJob s die cluster id c → c.started = false →
      ((∃ p ∈ c.preds, ∃ q, Tbl.find s.cards p = some q ∧ q.cs = none) → exec (.asnStart die cluster) s = .next s) ∧
      (c.preds = [] → Claims.cardBits c.desc 0 32 16 ≠ 0 → Claims.EpsilonOk c.desc → Claims.BoundsOk c.desc →
        exec (.asnStart die cluster) s = .next (s.setCard id { c with started := true })) ∧
      ∀ code, (code = 0x83 ∧ Claims.cardBits c.desc 0 32 16 = 0 ∨
          code = 0x81 ∧ Claims.cardBits c.desc 0 32 16 ≠ 0 ∧ ¬ Claims.EpsilonOk c.desc ∨
          code = 0x82 ∧ Claims.cardBits c.desc 0 32 16 ≠ 0 ∧ Claims.EpsilonOk c.desc ∧ ¬ Claims.BoundsOk c.desc) →
        c.preds = [] → c.dst.toNat % 64 = 0 → ∃ t c', exec (.asnStart die cluster) s = .next t ∧ t.mem = s.mem ∧ Tbl.find t.cards id = some c' ∧
          c'.code = code ∧ c'.started = true ∧ c'.elems = (List.range (Claims.lastElem c.dst)).map (fun k => (k, .done)) ∧
          leNat ((c'.result.drop 768).take 8) = code * 2 ^ 56) ∧
    (∀ (id k i a n key rows cols z : Nat) (c : Card) (va : W64) (l : XLoc) (s1 : State), Claims.NextJob s c.die c.eng id c → c.kind = .asn →
      c.started = true → c.stopped = false → c.upto = none → c.code = 0 → Claims.Shape c.desc rows cols z → Tbl.find c.elems i = none →
      (i = 16 + k ∧ Claims.pieceOf (c.desc.getD 1 0) (rows * cols * z) k a n ∧ va = c.desc.getD 1 0 + .ofNat 64 a ∨
        i = 16 + Claims.pieces (c.desc.getD 1 0) (rows * cols * z) + k ∧ Claims.pieceOf (c.desc.getD 2 0) cols k a n ∧
          va = c.desc.getD 2 0 + .ofNat 64 a) →
      (2 ^ 56 ≤ va.toNat → exec (.jobElement id i) s = .next (s.setCard id { c with code := 0x184 })) ∧
      (va.toNat < 2 ^ 56 → s.engineXlate c.unit c.tag va n .copy = (.ok l, s1) → Claims.HasKey s1 c.tag l.loc key → l.loc.die? = some c.die →
        (s1.badAt c.tag l.loc n = false → ∃ t st o, exec (.jobElement id i) s = .next t ∧ t.mem = s1.mem ∧
          Tbl.find t.cards id = some { c with ord := o, elems := Tbl.set c.elems i (.reading (s1.bytesAt c.tag l.loc n) st) }) ∧
        (s1.badAt c.tag l.loc n = true → ∃ t, exec (.jobElement id i) s = .next t ∧ t.mem = s1.mem ∧
          Tbl.find t.cards id = some { c with code := 0x186 }))) ∧
    (∀ (id : Nat) (c : Card) (code : Nat) (bs : List Byte), Claims.NextJob s die cluster id c → c.started = true → code < 0x100 → c.code = 0x100 + code →
      bs = List.replicate 512 0xFF ++ List.replicate 256 0 ++ leBytes 8 (code * 2 ^ 56) ++ List.replicate 248 0 →
      exec (.asnStart die cluster) s = .next (s.setCard id { c with code := code, elems := [], result := bs })) ∧
    (∀ (id : Nat) (c : Card) (sc cp : List Byte) (rows cols z : Nat), Claims.NextJob s die cluster id c → Claims.Shape c.desc rows cols z →
      c.started = true → c.code = 0 → sc.length = rows * cols * z → cp.length = cols →
      (∀ k a n, Claims.pieceOf (c.desc.getD 1 0) (rows * cols * z) k a n → ∃ st,
        Tbl.find c.elems (16 + k) = some (.reading ((sc.drop a).take n) st)) →
      (∀ k a n, Claims.pieceOf (c.desc.getD 2 0) cols k a n → ∃ st,
        Tbl.find c.elems (16 + Claims.pieces (c.desc.getD 1 0) (rows * cols * z) + k) = some (.reading ((cp.drop a).take n) st)) →
      ∃ t a, exec (.asnStart die cluster) s = .next t ∧ t.mem = s.mem ∧ (t.cluster c.die c.eng).asn = some a ∧ a.card = id ∧ a.rows = rows ∧ a.cols = cols ∧
        a.rounds = 0 ∧ a.phases = 1 ∧ a.eps = .ofNat 32 (if Claims.cardBits c.desc 0 48 1 = 1 then Claims.cardBits c.desc 4 0 32 else Claims.cardBits c.desc 3 0 32) ∧
        (∀ j < cols, a.caps[j]? = some (cp.getD j 0).toNat ∧ a.prices[j]? = some (List.replicate (cp.getD j 0).toNat 0) ∧
          a.holders[j]? = some (List.replicate (cp.getD j 0).toNat none) ∧ a.frozen[j]? = some false) ∧
        ∀ i < rows, (∀ j < cols, nth 0 (nth [] a.scores i) j = .ofNat 32 (leNat ((sc.drop (z * (cols * i + j))).take z) * (if z = 2 then 65536 else 1))) ∧
          (a.excl[i]? = some true ↔ ∃ j < cols, (fp32.val (nth 0 (nth [] a.scores i) j).toNat).isNan = true ∨ nth 0 (nth [] a.scores i) j = 0x7F800000)) ∧
    (∀ (a : Auction) (c : Card) (floor ceil lim fl : Nat) (esch : Bool), (s.cluster die cluster).asn = some a → Tbl.find s.cards a.card = some c →
      floor = Claims.cardBits c.desc 3 32 32 → ceil = Claims.cardBits c.desc 5 32 32 → lim = Claims.cardBits c.desc 0 32 16 →
      fl = Claims.cardBits c.desc 5 0 32 → esch = decide (Claims.cardBits c.desc 0 48 1 = 1) →
      ((∀ i < a.rows, Claims.bidOf a floor i = none) →
        (esch = false ∨ ¬ Claims.Below fl a.eps.toNat → ∃ t, exec (.asnRound die cluster) s = .next t ∧ t.mem = s.mem ∧ (t.cluster die cluster).asn = none ∧
          Tbl.find t.cards a.card = some { c with code := 0, result := a.block 0 }) ∧
        (esch = true → Claims.Below fl a.eps.toNat → ∃ b, exec (.asnRound die cluster) s = .next (s.modCluster die cluster (fun k => { k with asn := some b })) ∧
          b = { a with eps := b.eps, phases := a.phases + 1, holders := a.holders.map (fun h => h.map (fun _ => none)) } ∧
          ∀ q, q = (fp32.div .rne (fp32.val a.eps.toNat) (fp32.val (Claims.cardBits c.desc 4 32 32))).1 → q < 2 ^ 32 →
            (Claims.Below q a.eps.toNat → ¬ Claims.Below q fl → b.eps.toNat = q) ∧
            (¬ Claims.Below q a.eps.toNat ∨ Claims.Below q fl → b.eps.toNat = fl))) ∧
      ((∃ i < a.rows, Claims.bidOf a floor i ≠ none) → a.prices.length = a.cols → a.holders.length = a.cols → ∃ b : Auction, b.rounds = a.rounds + 1 ∧
        (b.rounds = lim → ∃ t, exec (.asnRound die cluster) s = .next t ∧ t.mem = s.mem ∧ (t.cluster die cluster).asn = none ∧
          Tbl.find t.cards a.card = some { c with code := 1, result := b.block 1 }) ∧
        (b.rounds ≠ lim → exec (.asnRound die cluster) s = .next (s.modCluster die cluster (fun k => { k with asn := some b }))) ∧
        b = { a with rounds := b.rounds, prices := b.prices, holders := b.holders, frozen := b.frozen } ∧
        ∀ j < a.cols,
          ((∀ i < a.rows, ∀ m x, Claims.bidOf a floor i ≠ some ⟨i, j, m, some x⟩) → b.prices[j]? = a.prices[j]? ∧ b.holders[j]? = a.holders[j]?) ∧
          (∀ i m x, i < a.rows → Claims.bidOf a floor i = some ⟨i, j, m, some x⟩ →
            (∀ i' < a.rows, ∀ m' x', Claims.bidOf a floor i' = some ⟨i', j, m', some x'⟩ → ¬ Claims.Below x x' ∧ (i' < i → Claims.Below x' x)) →
            b.prices[j]? = some ((nth [] a.prices j).set m (.ofNat 32 x)) ∧ b.holders[j]? = some ((nth [] a.holders j).set m (some i))) ∧
          (b.frozen[j]? = some true ↔ nth false a.frozen j = true ∨ (∃ i < a.rows, ∃ m, Claims.bidOf a floor i = some ⟨i, j, m, none⟩) ∨
            ∃ m p, cheapest (nth [] b.prices j) = some (m, p) ∧ Claims.Below ceil p))) ∧
    (∀ (a : Auction) (floor i j m p v : Nat), (j, m, p) ∈ a.open_ → v = Claims.minus (nth 0 (nth [] a.scores i) j).toNat p → nth false a.excl i = false →
      (∀ hs ∈ a.holders, some i ∉ hs) →
      (∀ q ∈ a.open_, q ≠ (j, m, p) → ¬ Claims.Below v (Claims.minus (nth 0 (nth [] a.scores i) q.1).toNat q.2.2) ∧
        (q.1 < j → Claims.Below (Claims.minus (nth 0 (nth [] a.scores i) q.1).toNat q.2.2) v)) →
      (Claims.Below v floor → Claims.bidOf a floor i = none) ∧
      (¬ Claims.Below v floor → ∃ v2 b b1 x, Claims.Highest v2 floor
          ((a.open_.filter (fun q => q.1 ≠ j)).map (fun q => Claims.minus (nth 0 (nth [] a.scores i) q.1).toNat q.2.2) ++
            ((cheapest ((nth [] a.prices j).eraseIdx m)).toList.map (fun q => Claims.minus (nth 0 (nth [] a.scores i) j).toNat q.2))) ∧
        b = Claims.plus (Claims.minus (nth 0 (nth [] a.scores i) j).toNat v2) a.eps.toNat ∧
        b1 = (if b = 0x7F800000 then 0x7F7FFFFF else b) ∧ (Claims.Below p b1 → x = b1) ∧ (¬ Claims.Below p b1 → x = p + 1) ∧
        Claims.bidOf a floor i = some ⟨i, j, m, if x = 0x7F800000 then none else some x⟩)) ∧
    (∀ (a : Auction) (floor i : Nat), a.open_ = [] ∨ nth false a.excl i = true ∨ (∃ hs ∈ a.holders, some i ∈ hs) → Claims.bidOf a floor i = none) ∧
    (∀ (ps : List W32) (m p : Nat), (∀ x ∈ ps, x.toNat < 0x7F800000) → (cheapest ps = some (m, p) ↔
      (∃ x, ps[m]? = some x ∧ x.toNat = p) ∧ (∀ x ∈ ps, ¬ Claims.Below x.toNat p) ∧ ∀ k x, k < m → ps[k]? = some x → Claims.Below p x.toNat)) ∧
    (∀ (a : Auction) (j m p : Nat), (j, m, p) ∈ a.open_ ↔ j < a.cols ∧ nth false a.frozen j = false ∧ cheapest (nth [] a.prices j) = some (m, p)) ∧
    (∀ (a : Auction) (code i j m p : Nat), (a.block code).length = 1024 ∧ (i < a.rows → i < 256 → a.slotOf i = some (j, m) →
      ((a.block code).drop (2 * i)).take 2 = [.ofNat 8 j, .ofNat 8 m]) ∧ (i < 256 → i < a.rows ∧ a.slotOf i = none ∨ a.rows ≤ i →
      ((a.block code).drop (2 * i)).take 2 = [0xFF, 0xFF]) ∧
      (j < 64 → (cheapest (nth [] a.prices j) = some (m, p) → ((a.block code).drop (512 + 4 * j)).take 4 = leBytes 4 p) ∧
        (nth [] a.prices j = [] → ((a.block code).drop (512 + 4 * j)).take 4 = [0, 0, 0, 0])) ∧
      (code < 256 → a.rounds < 65536 → a.rows ≤ 256 → a.cols ≤ 64 → a.excl.length = a.rows → a.frozen.length = a.cols →
        leNat (((a.block code).drop 768).take 8) = code * 2 ^ 56 + a.rounds * 2 ^ 40 + a.excl.count true * 2 ^ 31 +
          ((List.range a.rows).filter (fun i => (a.slotOf i).isSome)).length * 2 ^ 22 + a.frozen.count true * 2 ^ 15 + min a.phases 255 * 2 ^ 7) ∧
      ((a.block code).drop 776) = List.replicate 248 0) ∧
    (∀ (id i k first n : Nat) (c : Card) (l : XLoc) (s1 : State), Tbl.find s.cards id = some c → c.kind = .asn → c.started = true → c.cs = none →
      c.stopped = false → c.upto = none → c.parked = [] → c.code < 256 → c.result ≠ [] → Tbl.find c.elems i = none → c.dst.toNat % 64 = 0 →
      Claims.blockElem c.dst i = some (first, n) →
      (i = Claims.lastElem c.dst → c.elems.length ≠ i ∨ ¬ Claims.Performed s id → exec (.jobElement id i) s = .next s) ∧
      (i < Claims.lastElem c.dst ∨ c.elems.length = i ∧ Claims.Performed s id →
        (c.dst + .ofNat 64 first).toNat < 2 ^ 56 → s.engineXlate c.unit c.tag (c.dst + .ofNat 64 first) n .copyWrite = (.ok l, s1) →
        Claims.HasKey s1 c.tag l.loc k → l.loc.die? = some c.die →
        ∃ t, exec (.jobElement id i) s = .next t ∧ t.mem = s1.mem.writeBytes k ((c.result.drop first).take n) ∧
          ∃ c', Tbl.find t.cards id = some c' ∧ c'.elems = Tbl.set c.elems i .done)) ∧
    (∀ (id i : Nat) (c : Card), Tbl.find s.cards id = some c → c.kind = .asn → c.started = true → c.cs = none → c.stopped = false → c.upto = none →
      c.result ≠ [] → c.dst.toNat % 64 = 0 →
      (∀ code failed, code < 256 → c.code = 256 * (failed + 2) + code → exec (.jobElement id i) s =
        .next (s.setCard id (Claims.blockFailed c (decide (failed = Claims.lastElem c.dst)) code))) ∧
      (∀ code, code < 256 → c.code = 256 + code → exec (.jobElement id i) s =
        .next (s.setCard id (Claims.blockFailed c (Tbl.find c.elems (Claims.lastElem c.dst)).isSome code))) ∧
      (∀ first n, c.code < 256 → c.parked = [] → Tbl.find c.elems i = none → Claims.blockElem c.dst i = some (first, n) →
        (i = Claims.lastElem c.dst → c.elems.length = i ∧ Claims.Performed s id) →
        2 ^ 56 ≤ (c.dst + .ofNat 64 first).toNat ∨ (∃ k s1, s.engineXlate c.unit c.tag (c.dst + .ofNat 64 first) n .copyWrite = (.trap k, s1)) →
        exec (.jobElement id i) s = .next (s.setCard id (Claims.blockFailed c (decide (i = Claims.lastElem c.dst)) 0x84))) ∧
      (∀ (r : WalkReq) cause, r.who = .card id i → (16 ≤ i ∨ Tbl.find c.elems i ≠ none) → s.failReq r cause = s))

namespace Sys2Proof.Claims
open Sys2Proof.Machine

/-- Bits of an entry, from `lo` up, `n` of them. -/
def field {w : Nat} (v : BitVec w) (lo n : Nat) : Nat := v.toNat / 2 ^ lo % 2 ^ n

/-- The bytes that an entry of level `l` (A to D, 0 to 3) covers (Table 1-1). -/
def covered (l : Nat) : Nat := 2 ^ (match l with | 0 => 43 | 1 => 30 | 2 => 21 | _ => 16)

/-- Where a leaf of level `l` puts an address of this device, for a requester on die `rd` (R11, R16, Tables 1-4, 1-5): its offset spread over
the package's 8,192 slices or the requesting die's 2,048 line by line, or in one bay. -/
def Placed (l : Nat) (pte va : W64) (rd : Nat) (x : Loc) : Prop :=
  ∃ ofs, ofs = field pte 16 20 * 2 ^ 16 + va.toNat % covered l ∧
    (field pte 60 2 = 0 → ∃ n, n = (field pte 36 2 * 2 ^ 36 + ofs) / 128 ∧
      x = .vault ((n % 2 ^ 13 ^^^ (n / 2 ^ 13 % 2 ^ 13 ^^^ n / 2 ^ 26)) / 2048) ((n % 2 ^ 13 ^^^ (n / 2 ^ 13 % 2 ^ 13 ^^^ n / 2 ^ 26)) % 2048)
        (n / 2 ^ 13 * 128 + ofs % 128)) ∧
    (field pte 60 2 = 1 → ∃ n, n = ofs / 128 ∧
      x = .vault rd (n % 2 ^ 11 ^^^ (n / 2 ^ 11 % 2 ^ 11 ^^^ n / 2 ^ 22)) (n / 2 ^ 11 * 128 + ofs % 128)) ∧
    (field pte 60 2 = 2 → x = .vault (field pte 36 2) (ofs / 2 ^ 25) (ofs % 2 ^ 25))

/-- A leaf permits an access of a kind (R28). -/
def Permitted (pte : W64) : AccKind → Prop
  | .load | .fill | .copy => True
  | .store | .atomic | .copyWrite => pte.getLsbD 59 = false
  | .fetch => pte.getLsbD 56 = true

/-- An access by a segment entry is in order (R20, R21, Table 1-6): the entry is valid, its bay is one of its rectangle and of the die, the
offset is below its limit, and stores are permitted where the access writes. -/
def InSegment (e : W128) (va : W64) (wr : Bool) : Prop :=
  e.getLsbD 127 = true ∧ (field e 124 2 = 1 ∨ field e 124 2 = 2) ∧ field va 18 26 < field e 79 6 * field e 72 7 ∧
  field e 91 5 + field va 18 26 / field e 72 7 ≤ 31 ∧ field e 85 6 + field va 18 26 % field e 72 7 ≤ 63 ∧ field va 0 18 < field e 35 19 ∧
  (wr = true → e.getLsbD 126 = true)

/-- Walk `w` of a die waits first in its miss queue, with a walk slot free (R26, R30). -/
def Startable (s : State) (die : Nat) (w : Walk) : Prop :=
  (s.die die).walks.find? (fun v => v.id == w.id) = some w ∧ w.result = none ∧ w.active = false ∧
  (s.die die).walks.find? (fun v => !v.active) = some w ∧ ((s.die die).walks.filter (·.active)).length + (s.die die).heldCount < 64

/-- Walk `w` of a die is about to read the entry at a place as one of a level (R13, R23, R25, R26): it is under way, or begins at the table of
the deepest pointer that its cluster's walk cache holds on its path, or at level A. -/
def Reading (s : State) (die : Nat) (w w0 : Walk) : Prop :=
  (s.die die).walks.find? (fun v => v.id == w.id) = some w ∧ w.result = none ∧ w.active = true ∧ w0 = w ∨
  Startable s die w ∧ (s.part w.tag).xtb.getLsbD 0 = true ∧
    (s.cachedPointer die w = none ∧ w0 = { w with
       active := true, top := 0, level := 0, plc := field (s.part w.tag).xtb 62 2, tdie := field (s.part w.tag).xtb 36 2, result := none
       off := field (s.part w.tag).xtb 16 20 * 2 ^ 16 + 8 * (w.vpn * 2 ^ 16 / 2 ^ 43 % 2 ^ 13) } ∨
     ∃ e, s.cachedPointer die w = some e ∧ w0 = { w with
       active := true, top := e.level, level := e.level + 1, plc := field e.pte 60 2, tdie := field e.pte 36 2, result := none
       off := field e.pte 8 28 * 2 ^ 8 + 8 * (w.vpn * 2 ^ 16 / covered (e.level + 1) % (covered e.level / covered (e.level + 1))) })

/-- Where the fault queue of a partition has its next record (R30), for a walker of a die. -/
def NextRecord (p : Part) (die d b o : Nat) : Prop :=
  place (field p.xfq 58 2) (field p.xfq 36 2) (field p.xfq 5 31 * 32 + p.xfqt.toNat % 2 ^ field p.xfq 60 4 * 32) die = .vault d b o

/-- The fault queue has room for a record (R30). -/
def FaultRoom (p : Part) : Prop := 1 ≤ field p.xfq 60 4 ∧ (p.xfqt - p.xfqh).toNat < 2 ^ field p.xfq 60 4

/-- The release that a record's store waits for is enabled on a die (R30, R74): of its buffered stores toward the dies, those numbered below
`upto` have drained. -/
def Drained (s : State) (d upto : Nat) : Prop := ∀ h < 4, ∀ e ∈ s.fifo d (.die h), upto ≤ e.serial

/-- The stamp of a record's store on its home die (R75): what the die's stores toward the other dies have reached. -/
def Released (s : State) (d : Nat) (v : V4) : Prop := ∀ h < 4, v.get h = if h = d then 0 else (s.die d).dd.get h

/-- The partition no longer holds what is parked under a fault identifier (R31). -/
def unparked (s : State) (tag fid : Nat) : State := s.modPart tag (fun p => { p with parked := p.parked.filter (fun q => q.fid != fid) })

end Sys2Proof.Claims

open Sys2Proof Sys2Proof.Machine in
/-- R9 to R12, R16 to R21, R25, R28: translation. A paged address that a unit's own TLB holds with a leaf that permits the access is placed
by the leaf, as is one that only its cluster's TLB holds, whose entry its own TLB takes; one that no cache holds is a miss, as is every one while
paging is disabled. A window address is placed by its segment entry in a bay's scratchpad or register
window, or at another device of the domain, and traps where the entry does not serve it (0x0A) or its bay is another partition's (0x0C). The package
placement puts different
offsets at different places.
Choices of the model that it rests on: log 15, 38, 54, 95, 96, 97, 98. -/
def Obligations.TranslationResult : Prop :=
  ∀ (s : State) (u : UnitId) (tag n : Nat) (va : W64) (acc : AccKind),
    (¬ Claims.windowed va → (s.part tag).xtb.getLsbD 0 = false → s.xlate u tag va n acc = (.miss, s)) ∧
    (¬ Claims.windowed va → (s.part tag).xtb.getLsbD 0 = true →
      (∀ e, (s.unit u).tlb.find? (fun e => e.tag == tag && e.page == va.toNat / Claims.covered e.level) = some e → Claims.Permitted e.pte acc →
        Claims.field e.pte 38 14 = s.dev.num → ∃ x s1, s.xlate u tag va n acc = (.ok x, s1) ∧ s1.mem = s.mem ∧
          Claims.Placed e.level e.pte va u.die x.loc ∧ x.write = !e.pte.getLsbD 59 ∧ x.rdc = e.pte.getLsbD 58 ∧ x.sd = e.pte.getLsbD 57) ∧
      (∀ e, (∀ e ∈ (s.unit u).tlb, e.tag ≠ tag ∨ e.page ≠ va.toNat / Claims.covered e.level) →
        (s.cluster u.die (clusterOf u.bay)).tlb.find? (fun e => e.tag == tag && e.page == va.toNat / Claims.covered e.level) = some e →
        Claims.Permitted e.pte acc → Claims.field e.pte 38 14 = s.dev.num → ∃ x s1, s.xlate u tag va n acc = (.ok x, s1) ∧ s1.mem = s.mem ∧
          Claims.Placed e.level e.pte va u.die x.loc ∧ (s1.unit u).tlb.head? = some e) ∧
      ((∀ e ∈ (s.unit u).tlb, e.tag ≠ tag ∨ e.page ≠ va.toNat / Claims.covered e.level) →
        (∀ e ∈ (s.cluster u.die (clusterOf u.bay)).tlb, e.tag ≠ tag ∨ e.page ≠ va.toNat / Claims.covered e.level) → s.xlate u tag va n acc = (.miss, s))) ∧
    (∀ (e : W128) (die bay off : Nat), Claims.windowed va → va.toNat < 2 ^ 56 →
      (s.unit u).segs.find? (fun g => g.tag == tag && g.idx == Claims.field va 44 8) = some ⟨tag, Claims.field va 44 8, e⟩ →
      die = Claims.field e 96 2 → off = Claims.field va 0 18 + Claims.field e 54 18 →
      bay = (Claims.field e 91 5 + Claims.field va 18 26 / Claims.field e 72 7) * 64 + (Claims.field e 85 6 + Claims.field va 18 26 % Claims.field e 72 7) →
      (¬ Claims.InSegment e va (decide (acc = .store ∨ acc = .atomic ∨ acc = .copyWrite)) → (s.xlate u tag va n acc).1 = .trap 0x0A) ∧
      (Claims.InSegment e va (decide (acc = .store ∨ acc = .atomic ∨ acc = .copyWrite)) → Claims.field e 98 14 ≠ s.dev.num →
        (Claims.field e 98 14 ∉ s.dev.domain ∨ 2 ^ (if Claims.field e 124 2 = 1 then 18 else 13) < off + n ∨ Claims.field e 124 2 = 2 ∧ 24 ≤ off / 16 % 32 →
          (s.xlate u tag va n acc).1 = .trap 0x0A) ∧
        (Claims.field e 98 14 ∈ s.dev.domain → off + n ≤ 2 ^ (if Claims.field e 124 2 = 1 then 18 else 13) →
          (Claims.field e 124 2 = 2 → off / 16 % 32 < 24) → (s.xlate u tag va n acc).1 = .trap 0x0C ∨
          ∃ x, (s.xlate u tag va n acc).1 = .ok x ∧ x.loc = .foreign (Claims.field e 98 14) (.ofNat 64 (Claims.field e 98 14 * 2 ^ 50 + die * 2 ^ 48 +
            Claims.field e 124 2 * 2 ^ 46 + bay * 2 ^ 18 + off)))) ∧
      (Claims.InSegment e va (decide (acc = .store ∨ acc = .atomic ∨ acc = .copyWrite)) → Claims.field e 98 14 = s.dev.num →
        (s.ownsBay tag die bay = false → (s.xlate u tag va n acc).1 = .trap 0x0C) ∧
        (s.ownsBay tag die bay = true →
          (Claims.field e 124 2 = 1 → off + n ≤ 2 ^ 18 → inPart (s.spadPart tag die bay) off n = true → ∃ x, (s.xlate u tag va n acc).1 = .ok x ∧
            x.loc = .spad die bay off) ∧
          (Claims.field e 124 2 = 1 → off + n ≤ 2 ^ 18 → inPart (s.spadPart tag die bay) off n = false → (s.xlate u tag va n acc).1 = .trap 0x0C) ∧
          (Claims.field e 124 2 = 1 → 2 ^ 18 < off + n → (s.xlate u tag va n acc).1 = .trap 0x0A) ∧
          (Claims.field e 124 2 = 2 → 2 ^ 13 < off + n ∨ 24 ≤ off / 16 % 32 → (s.xlate u tag va n acc).1 = .trap 0x0A) ∧
          (Claims.field e 124 2 = 2 → off + n ≤ 2 ^ 13 → off / 16 % 32 < 24 → (∀ y ∈ s.strands, y.2.place ≠ .slot (coreOf die bay) (off / 512) ∨ y.2.tag = tag) →
            ∃ x, (s.xlate u tag va n acc).1 = .ok x ∧ x.loc = .rwin die bay (off / 512) (off / 16 % 32) (off % 16))))) ∧
    (∀ (pte va' : W64) (l rd : Nat) (x : Loc), Claims.field pte 60 2 < 2 → 1 ≤ l → l ≤ 3 → Claims.Placed l pte va rd x → Claims.Placed l pte va' rd x →
      va.toNat % Claims.covered l = va'.toNat % Claims.covered l)

open Sys2Proof Sys2Proof.Machine in
/-- R13 to R15, R23, R25, R26: misses and table reads. A held miss enters the queue once it has room, with a walk of its own or in one of its
page; a table read ends the walk at an entry that is invalid (its level's code), malformed (5) or a leaf, and goes on from a pointer; with
paging disabled the walk ends as at an invalid entry of level A. -/
def Sys2Proof.Claims.MissesAndReads : Prop :=
  ∀ (s : State) (die : Nat),
    (∀ (i tag : Nat) (r : WalkReq) (vpn : Nat), (s.die die).held[i]? = some (tag, r) → r.die = die → vpn = Claims.field r.va 16 40 →
      ((∀ w ∈ (s.die die).walks, w.tag ≠ tag ∨ w.vpn ≠ vpn) → ((s.die die).walks.filter (fun w => !w.active)).length < 256 →
        exec (.missQueueEntry die i) s = .next { (s.modDie die (fun d => { d with held := d.held.eraseIdx i })).modDie die (fun d => { d with
          walks := d.walks ++ [⟨s.nextId, tag, vpn, [r], false, 0, 0, 0, 0, 0, none⟩] }) with nextId := s.nextId + 1 }) ∧
      (∀ w ∈ (s.die die).walks, w.tag = tag → w.vpn = vpn → ((s.die die).walks.filter (fun w => !w.active)).length < 256 → ∃ t,
        exec (.missQueueEntry die i) s = .next t ∧ t.mem = s.mem ∧ t.strands = s.strands ∧ (t.die die).held = (s.die die).held.eraseIdx i ∧
        ∃ w' ∈ (t.die die).walks, w'.id = w.id ∧ r ∈ w'.reqs ∧ ∀ q ∈ w.reqs, q ∈ w'.reqs) ∧
      (256 ≤ ((s.die die).walks.filter (fun w => !w.active)).length → exec (.missQueueEntry die i) s = .next s)) ∧
    (∀ (w : Walk), Claims.Startable s die w → (s.part w.tag).xtb.getLsbD 0 = false → exec (.walkTableRead die w.id) s =
      .next (s.setWalk die { w with active := true, top := 0, result := some (.bad 1 0) })) ∧
    (∀ (w w0 : Walk) (x : Loc) (pte : W64) (va : Nat), Claims.Reading s die w w0 → va = w.vpn * 2 ^ 16 → x = place w0.plc w0.tdie w0.off die →
      pte = .ofNat 64 (leNat (s.bytesAt 31 x 8)) → ∃ t, exec (.walkTableRead die w.id) s = .next t ∧ t.mem = s.mem ∧ t.strands = s.strands ∧
        (∀ c, c ∈ t.rdc ↔ c ∈ s.rdc ∧ ∀ h, x.die? = some h → ¬ (c.die = h ∧ c.rts < (s.lineAt x).stamp.get c.home)) ∧
        (t.lineAt x).rts = max (s.lineAt x).rts (s.lineAt x).wts ∧
        ∃ w', (t.die die).walks.find? (fun v => v.id == w.id) = some w' ∧
          (pte.getLsbD 63 = false → w' = { w0 with result := some (.bad (w0.level + 1) pte) }) ∧
          (pte.getLsbD 63 = true → Claims.field pte 60 2 = 3 ∨ Claims.field pte 52 4 ≠ 0 ∨ pte.getLsbD 62 = true ∧ w0.level = 0 ∨
            pte.getLsbD 62 = false ∧ (w0.level = 3 ∨ Claims.field pte 0 8 ≠ 0 ∨ Claims.field pte 38 14 ≠ s.dev.num) →
            w' = { w0 with result := some (.bad 5 pte) }) ∧
          (pte.getLsbD 63 = true → pte.getLsbD 62 = true → Claims.field pte 60 2 ≠ 3 → Claims.field pte 52 4 = 0 → 1 ≤ w0.level → w0.level ≤ 3 →
            Claims.field pte 0 16 = 0 → Claims.field pte 16 20 * 2 ^ 16 % Claims.covered w0.level = 0 →
            (Claims.field pte 38 14 = s.dev.num ∨ Claims.field pte 38 14 ∈ s.dev.domain) → w' = { w0 with result := some (.leaf w0.level pte) }) ∧
          (pte.getLsbD 63 = true → pte.getLsbD 62 = false → Claims.field pte 60 2 ≠ 3 → Claims.field pte 52 4 = 0 → Claims.field pte 0 8 = 0 → w0.level < 3 →
            Claims.field pte 38 14 = s.dev.num → w' = { w0 with
              level := w0.level + 1, plc := Claims.field pte 60 2, tdie := Claims.field pte 36 2
              off := Claims.field pte 8 28 * 2 ^ 8 + 8 * (va / Claims.covered (w0.level + 1) % (Claims.covered w0.level / Claims.covered (w0.level + 1))) }))

open Sys2Proof Sys2Proof.Machine in
/-- R24, R26, R28 to R30: the walk's end installs the leaf and lets the access go on, or makes the instruction issue again, parks a refused one
under a new fault with its record, written at once or held, or traps an access outside the partition's frames (0x0C) and tells the host. -/
def Sys2Proof.Claims.WalkEnds : Prop :=
  ∀ (s : State) (die : Nat),
    (∀ (w : Walk) (r : WalkReq) (x : Nat) (op : MemOp), (s.die die).walks = [w] → w.active = true → w.reqs = [r] → r.who = .strand x → r.die = die → r.unit < 2 →
      s.unitOf x = ⟨r.die, r.bay, r.sp⟩ → (s.strand x).wait = .mem op → op.stage = .walk → (s.strand x).status = .waiting →
      (∀ l pte, w.result = some (.leaf l pte) → s.frameOk w.tag l pte r.va.toNat die = true →
        (Claims.Permitted pte r.acc → op.again = true → ∃ t, exec (.walkEnd die w.id) s = .next t ∧ t.mem = s.mem ∧ (t.die die).walks = [] ∧
          t.strand x = { s.strand x with status := .ready, wait := .none }) ∧
        (Claims.Permitted pte r.acc → op.again = false → op.act ≠ .fetch → r.sp = true → (s.strand x).kind ≠ .follow → Claims.field pte 38 14 = s.dev.num → ∃ t z,
          exec (.walkEnd die w.id) s = .next t ∧ t.mem = s.mem ∧ (t.die die).walks = [] ∧ Claims.Placed l pte op.ea die z.loc ∧
          t.strand x = { s.strand x with wait := .mem { op with loc := some z, stage := .go } } ∧
          (t.unit (s.unitOf x)).tlb.head? = some ⟨w.tag, l, r.va.toNat / Claims.covered l, pte⟩) ∧
        (¬ Claims.Permitted pte r.acc → ∃ t, exec (.walkEnd die w.id) s = .next t ∧ (t.strand x).status = .parked ∧ (t.die die).walks = [] ∧
          (t.part w.tag).parked = (s.part w.tag).parked ++ [⟨(s.part w.tag).nextFid, if r.acc = .fetch then 7 else 6, [r]⟩])) ∧
      (∀ l pte, w.result = some (.leaf l pte) → s.frameOk w.tag l pte r.va.toNat die = false → ∃ t, exec (.walkEnd die w.id) s = .next t ∧ t.mem = s.mem ∧
        t.part w.tag = s.part w.tag ∧ t.strand x = { Claims.prefixed (s.strand x) with status := .ready, wait := .none, pend := some (0x0C, r.va) } ∧
        t.dev.events = s.dev.events ++ [.faultIsolation ⟨r.va, 8, 0, r.die, r.bay, r.unit, r.slot, r.acc.code, 1, 0⟩ w.tag]) ∧
      (∀ c pte p d b o q, w.result = some (.bad c pte) → 1 ≤ c → c ≤ 5 → p = s.part w.tag → die < 4 → Claims.NextRecord p die d b o →
        q = (⟨r.va, c, p.nextFid, r.die, r.bay, r.unit, r.slot, r.acc.code, 1, pte⟩ : FaultRec) → ∃ t, exec (.walkEnd die w.id) s = .next t ∧
          (t.strand x).status = .parked ∧ (t.die die).walks = [] ∧ (t.part w.tag).parked = p.parked ++ [⟨p.nextFid, c, [r]⟩] ∧
          (t.part w.tag).nextFid = (p.nextFid + 1) % 2 ^ 32 ∧
          (p.heldRecs = [] → Claims.FaultRoom p → Claims.Drained s d s.serial → (t.part w.tag).xfqt = p.xfqt + 1 ∧
            t.mem = s.mem.writeBytes (vaultKey d b o) (faultBytes q w.tag) ∧ Claims.Released s d (t.lineAt (.vault d b o)).stamp) ∧
          (p.heldRecs ≠ [] ∨ ¬ Claims.FaultRoom p ∨ ¬ Claims.Drained s d s.serial → t.mem = s.mem ∧ (t.part w.tag).xfqt = p.xfqt ∧
            (t.part w.tag).heldRecs = p.heldRecs ++ [(die, q, s.serial)] ∧ (t.die die).heldCount = (s.die die).heldCount + 1 ∧
            (Claims.FaultRoom p → t.dev.events = s.dev.events) ∧ (¬ Claims.FaultRoom p → t.dev.events = s.dev.events ++ [.faultQueueFull w.tag]))))

open Sys2Proof Sys2Proof.Machine in
/-- R30, R31, R319: a held record is written, at the queue's next place, once there is room and its release is enabled; replay lets the parked accesses be
translated again, and fail traps a strand's (0x10 and the cause) and ends a fill, its tile empty with ERR; of a strand that is not resident the resolution is held. -/
def Sys2Proof.Claims.FaultsResolved : Prop :=
  ∀ (s : State) (die : Nat),
    (∀ (tag : Nat) (p : Part) (r : FaultRec) (upto : Nat) (rest : List (Nat × FaultRec × Nat)), p = s.part tag → die < 4 →
      p.heldRecs = (die, r, upto) :: rest →
      (∀ d b o, Claims.FaultRoom p → Claims.NextRecord p die d b o → Claims.Drained s d upto → ∃ t, exec (.faultRecordDeferredWrite tag) s = .next t ∧
        t.mem = s.mem.writeBytes (vaultKey d b o) (faultBytes r tag) ∧ (t.part tag).heldRecs = rest ∧ (t.part tag).xfqt = p.xfqt + 1 ∧
        Claims.Released s d (t.lineAt (.vault d b o)).stamp ∧
        t.strands = s.strands ∧ (t.die die).heldCount = (s.die die).heldCount - 1) ∧
      (∀ d b o, Claims.NextRecord p die d b o → ¬ Claims.FaultRoom p ∨ ¬ Claims.Drained s d upto →
        exec (.faultRecordDeferredWrite tag) s = .next s)) ∧
    (∀ (tag fid x : Nat) (k : Parked) (r : WalkReq), (s.part tag).parked.find? (fun p => p.fid == fid) = some k → k.reqs = [r] → r.who = .strand x →
      (s.residentAt x = true →
        (∀ op, (s.strand x).status = .parked → (s.strand x).wait = .mem op → ∃ t, exec (.xfrReplay tag fid) s = .next t ∧ t.mem = s.mem ∧
          (t.strand x).status = .waiting ∧ (t.strand x).regs = (s.strand x).regs ∧ (t.strand x).pc = (s.strand x).pc ∧
          (t.strand x).wait = .mem { op with loc := none, stage := .walk } ∧ (t.part tag).parked = (s.part tag).parked.filter (fun p => p.fid != fid)) ∧
        exec (.xfrFail tag fid) s = .next ((Claims.unparked s tag fid).setStrand x
          { Claims.prefixed (s.strand x) with status := .ready, wait := .none, pend := some (if k.cause = 8 then 0x0C else 0x10 + k.cause, r.va) })) ∧
      (s.residentAt x = false →
        exec (.xfrReplay tag fid) s = .next ((Claims.unparked s tag fid).modPart tag (fun p => { p with resolved := p.resolved ++ [(x, true, k.cause, r.va)] })) ∧
        exec (.xfrFail tag fid) s = .next ((Claims.unparked s tag fid).modPart tag (fun p => { p with resolved := p.resolved ++ [(x, false, k.cause, r.va)] })))) ∧
    (∀ (tag fid id line : Nat) (k : Parked) (r : WalkReq) (f : Fill), (s.part tag).parked.find? (fun p => p.fid == fid) = some k → k.reqs = [r] →
      r.who = .fill id line → Tbl.find s.fills id = some f → exec (.xfrReplay tag fid) s = .next ((Claims.unparked s tag fid).setFill id
        { f with parked := f.parked.map (fun q => if q.fid = fid then { q with freed := true } else q) }) ∧
      ((∃ l ∈ f.sent, l ∉ f.read) →
        exec (.xfrFail tag fid) s = .next ((Claims.unparked s tag fid).setFill id { f with failed := true, parked := [] })) ∧
      (∀ b, (∀ l ∈ f.sent, l ∈ f.read) → f.packets = [] → f.bays = [⟨b, true, false, none, false⟩] → s.drained f.die f.foreign s.serial = true →
        ∃ t e, exec (.xfrFail tag fid) s = .next t ∧ t.mem = s.mem ∧ Tbl.find t.fills id = none ∧ e = t.tile f.tag f.die b f.tile ∧
          e = { s.tile f.tag f.die b f.tile with st := .empty, err := true, pend := 0, cs := e.cs })) ∧
    (∀ tag fid, (∀ k ∈ (s.part tag).parked, k.fid ≠ fid) → exec (.xfrReplay tag fid) s = .next s ∧ exec (.xfrFail tag fid) s = .next s)

open Sys2Proof Sys2Proof.Machine in
/-- R13 to R15, R23 to R31, R319: walks and faults: misses and table reads, what the end of a walk does, and held records, replay and fail.
Choices of the model that it rests on: log 54, 85, 88, 95, 99, 116. -/
def Obligations.WalkResults : Prop :=
  Claims.MissesAndReads ∧ Claims.WalkEnds ∧ Claims.FaultsResolved

namespace Sys2Proof.Claims
open Sys2Proof.Machine

/-- Words of 64 bits that an interpreter reads at a place of vault kind (R292), none poisoned. -/
def ListWords (s : State) (tag : Nat) (l : Loc) (n : Nat) (ws : List W64) : Prop :=
  (∃ d b o, l = .vault d b o) ∧ s.badAt tag l (8 * n) = false ∧
  ws = (List.range n).map (fun i => .ofNat 64 (leNat ((s.bytesAt tag l (8 * n)).drop (8 * i) |>.take 8)))

/-- An address that an interpreter may name: in the paged region, aligned (Table 15-3). -/
def Named (va : W64) (align : Nat) : Prop := va.toNat < 2 ^ 56 ∧ ¬ windowed va ∧ va.toNat % align = 0

/-- From stage 2 on the queue is walked and its next entry is read (R292, R293, R296, Tables 15-1 and 17-1): its words, and the state after its
translation. -/
def Entry (s : State) (tag q : Nat) (ws : List W64) (s1 : State) : Prop :=
  3 ≤ s.dev.stage ∧ (s.queue tag q).cfg.getLsbD 63 = true ∧ (s.queue tag q).st.getLsbD 63 = false ∧ (s.queue tag q).parked = none ∧ (s.queue tag q).failed = false ∧
  ((s.queue tag q).stack = [] → (s.queue tag q).pc ≠ (s.queue tag q).end_) ∧ Named (s.queue tag q).pc 32 ∧
  ∃ l, s.engineXlate (coreOf (field (s.queue tag q).cfg 11 2) 0) tag (s.queue tag q).pc 32 .load = (.ok l, s1) ∧ ListWords s1 tag l.loc 4 ws

/-- The queue's next entry cannot be read (Table 15-3, 0x02): its address is misaligned, is not of the paged region or does not translate, or a
fault of its translation has been resolved by fail. -/
def Unreadable (s : State) (tag q : Nat) : Prop :=
  3 ≤ s.dev.stage ∧ (s.queue tag q).cfg.getLsbD 63 = true ∧ (s.queue tag q).st.getLsbD 63 = false ∧ (s.queue tag q).parked = none ∧
  ((s.queue tag q).stack = [] → (s.queue tag q).pc ≠ (s.queue tag q).end_) ∧
  ((s.queue tag q).failed = true ∨ ¬ Named (s.queue tag q).pc 32 ∨
    ∃ k s1, s.engineXlate (coreOf (field (s.queue tag q).cfg 11 2) 0) tag (s.queue tag q).pc 32 .load = (.trap k, s1))

/-- The entries of Table 15-2 by OP: how far the bits of word 0 that it names reach, how many words after it each uses, and the instruction. -/
def entries (tag q : Nat) : List (Nat × Nat × Nat × Instr) :=
  [(1, 128, 1, .launch tag q), (2, 64, 1, .waitfc tag q), (3, 64, 1, .sigfc tag q), (4, 8, 3, .skipif tag q), (5, 1, 1, .jump tag q),
   (6, 1, 1, .call tag q), (7, 1, 0, .ret tag q), (8, 1, 3, .patch tag q), (9, 128, 1, .listJob tag q)]

/-- The first word of an entry (R293). -/
def opWord (op low : Nat) : W64 := .ofNat 64 (op * 2 ^ 56 + low)

/-- A list error stops the queue at its entry and interrupts the host (R296). -/
def ListStopped (s : State) (tag q code : Nat) (t : State) : Prop :=
  (t.queue tag q).pc = (s.queue tag q).pc ∧ (t.queue tag q).st.getLsbD 63 = true ∧ field (t.queue tag q).st 56 7 = code ∧
  (t.queue tag q).cfg.getLsbD 63 = false ∧ (t.queue tag q).stack = (s.queue tag q).stack ∧
  t.dev.events = s.dev.events ++ [.listError tag q code] ∧ t.mem = s.mem

/-- The release of an interpreter has nothing left to wait for (R74). -/
def ListDrained (s : State) (tag q : Nat) : Prop :=
  s.drained (field (s.queue tag q).cfg 11 2) false ((s.queue tag q).upto.getD s.serial) = true

/-- Bay `n` of the package is in the rectangle of a launch header (R298, Table 15-4). -/
def InLaunch (h : List W64) (n : Nat) : Prop :=
  ∃ d r c, d < 4 ∧ (h.getD 3 0).getLsbD (25 + d) = true ∧ r < cardBits h 3 0 7 ∧ c < cardBits h 3 7 7 ∧
    n = 2048 * d + ((cardBits h 3 20 5 + r) * 64 + (cardBits h 3 14 6 + c))

/-- A coordinate of a field descriptor: a signed Q16.16 number (R139). -/
def signed32 (n : Nat) : Int := (BitVec.ofNat 32 n).toInt

/-- An address where instructions may start, or 0 (R297, R302). -/
def CodeAt (v : W64) : Prop := v.toNat < 2 ^ 56 ∧ v.toNat % 4 = 0

/-- The six widths of a work identifier sum to at most 64 (R138). -/
def WidthsOk (ws : List W64) (i : Nat) : Prop := ((List.range 6).map (fun k => cardBits ws i (6 * k) 6)).sum ≤ 64

/-- A launch header of a partition keeps Table 15-4 (R297). -/
def HeaderRight (s : State) (tag : Nat) (h : List W64) : Prop :=
  CodeAt (h.getD 0 0) ∧ CodeAt (h.getD 1 0) ∧ cardBits h 2 36 28 = 0 ∧ WidthsOk h 2 ∧ cardBits h 3 29 35 = 0 ∧ cardBits h 3 25 4 ≠ 0 ∧
  h.getD 6 0 = 0 ∧ h.getD 7 0 = 0 ∧ 1 ≤ cardBits h 3 0 7 ∧ cardBits h 3 0 7 ≤ 32 ∧ 1 ≤ cardBits h 3 7 7 ∧ cardBits h 3 7 7 ≤ 64 ∧
  cardBits h 3 20 5 + cardBits h 3 0 7 ≤ 32 ∧ cardBits h 3 14 6 + cardBits h 3 7 7 ≤ 64 ∧
  ∀ n, InLaunch h n → s.ownsBay tag (n / 2048) (n % 2048) = true

/-- A job card keeps Table 15-5 (R299, R302). -/
def CardRight (c : List W64) : Prop :=
  cardBits c 0 62 2 ≠ 3 ∧ cardBits c 0 0 47 = 0 ∧ cardBits c 3 32 32 = 0 ∧ cardBits c 6 48 16 = 0 ∧ cardBits c 6 36 1 = 0 ∧
  (cardBits c 0 62 2 = 0 → cardBits c 1 0 4 = 0 ∧ cardBits c 2 0 4 = 0 ∧ cardBits c 3 0 4 = 0 ∧ cardBits c 3 0 32 ≠ 0 ∧
    c.getD 4 0 = 0 ∧ c.getD 5 0 = 0 ∧ c.getD 6 0 = 0 ∧ c.getD 7 0 = 0 ∧
    (cardBits c 0 52 1 = 1 → cardBits c 2 48 16 = 0 ∧ cardBits c 2 16 21 = 0)) ∧
  (cardBits c 0 62 2 ≠ 0 → CodeAt (c.getD 4 0) ∧ CodeAt (c.getD 7 0) ∧ WidthsOk c 6) ∧
  ∀ r < 4, cardBits c (9 + 2 * r) 32 30 = 0 ∧ (c.getD (8 + 2 * r) 0).toNat < 2 ^ 56 ∧
    (cardBits c (9 + 2 * r) 62 2 ≠ 0 → cardBits c (9 + 2 * r) 0 32 ≠ 0)

/-- Cells of a field's grid, and rows of its rectangle (R140). -/
def cellsOf (f : List W64) : Nat := cardBits f 0 56 6 * cardBits f 0 50 6 * cardBits f 0 44 6
def rowsOf (f : List W64) : Nat := (cellsOf f + cardBits f 0 26 7 - 1) / cardBits f 0 26 7

/-- Spare bay `i` of a field, and whether a bay is in its rectangle (Table 7-1, R140). -/
def spareOf (f : List W64) (i : Nat) : Nat := cardBits f 7 (16 * i) 11
def InRect (f : List W64) (b : Nat) : Prop :=
  ∃ r c, r < rowsOf f ∧ c < cardBits f 0 26 7 ∧ b = (cardBits f 0 39 5 + r) * 64 + (cardBits f 0 33 6 + c)

/-- The fields of a descriptor are in their ranges and its domain's bounds are Q16.16 numbers (R141, Table 7-1). -/
def FieldRanges (f : List W64) : Prop :=
  cardBits f 0 63 1 = 1 ∧ cardBits f 0 0 24 = 0 ∧ cardBits f 2 0 32 = 0 ∧ cardBits f 5 0 3 = 0 ∧ cardBits f 6 0 3 = 0 ∧
  (∀ i < 4, cardBits f 7 (16 * i + 11) 5 = 0) ∧ (cardBits f 0 62 1 = 0 → cardBits f 0 44 6 = 1) ∧
  cardBits f 0 56 6 ≠ 0 ∧ cardBits f 0 50 6 ≠ 0 ∧ cardBits f 0 44 6 ≠ 0 ∧ 1 ≤ cardBits f 0 26 7 ∧ cardBits f 0 26 7 ≤ 64 ∧
  0 < signed32 (cardBits f 3 32 32) ∧ 0 < signed32 (cardBits f 3 0 32) ∧ 0 < signed32 (cardBits f 4 32 32) ∧ 0 ≤ signed32 (cardBits f 4 0 32) ∧
  cardBits f 5 8 10 ≠ 0 ∧ cardBits f 6 40 10 ≠ 0 ∧ 10 ≤ cardBits f 5 3 5 ∧ cardBits f 5 3 5 ≤ 30 ∧ cardBits f 6 37 3 ≤ 4 ∧ cardBits f 6 3 24 ≠ 0 ∧
  signed32 (cardBits f 1 32 32) + (cardBits f 0 56 6 : Nat) * signed32 (cardBits f 3 32 32) < 2 ^ 31 ∧
  signed32 (cardBits f 1 0 32) + (cardBits f 0 50 6 : Nat) * signed32 (cardBits f 3 0 32) < 2 ^ 31 ∧
  (cardBits f 0 62 1 = 1 → signed32 (cardBits f 2 32 32) + (cardBits f 0 44 6 : Nat) * signed32 (cardBits f 4 32 32) < 2 ^ 31)

/-- A bay may belong to a field of a partition (R141): it is the partition's and no other active field's, and the field's two tables lie in the
tenant's half of its scratchpad and apart. -/
def FieldBayOk (s : State) (tag : Nat) (f : List W64) (b : Nat) : Prop :=
  s.ownsBay tag (cardBits f 0 24 2) b = true ∧
  inPart (s.spadPart tag (cardBits f 0 24 2) b) (16 * cardBits f 5 18 14) (64 * cardBits f 5 8 10) = true ∧
  inPart (s.spadPart tag (cardBits f 0 24 2) b) (16 * cardBits f 6 50 14) (64 * cardBits f 6 40 10) = true ∧
  (16 * cardBits f 5 18 14 + 64 * cardBits f 5 8 10 ≤ 16 * cardBits f 6 50 14 ∨
    16 * cardBits f 6 50 14 + 64 * cardBits f 6 40 10 ≤ 16 * cardBits f 5 18 14) ∧
  ∀ e ∈ s.fields, e.2.live = true → e.2.die = cardBits f 0 24 2 → ∀ c ∈ e.2.bays, c.bay ≠ b

/-- A field descriptor of a partition passes the checks of R141. -/
def FieldRight (s : State) (tag : Nat) (f : List W64) : Prop :=
  FieldRanges f ∧ cardBits f 0 39 5 + rowsOf f ≤ 32 ∧ cardBits f 0 33 6 + cardBits f 0 26 7 ≤ 64 ∧
  (∀ i j, i < j → j < cardBits f 6 37 3 → spareOf f i ≠ spareOf f j) ∧ (∀ i < cardBits f 6 37 3, ¬ InRect f (spareOf f i)) ∧
  (∀ b, InRect f b ∨ (∃ i < cardBits f 6 37 3, b = spareOf f i) → FieldBayOk s tag f b) ∧
  (tag = 31 ∨ field (s.inst (s.instDie (cardBits f 0 24 2) (cardBits f 6 27 10)) (cardBits f 6 27 10)).w0 53 5 = tag)

end Sys2Proof.Claims

open Sys2Proof Sys2Proof.Machine in
/-- R292 to R297, R299, R332: command lists. JUMP, CALL and RET move the queue, to four levels (error 3); SIGFC adds to a fence counter and WAITFC
waits for one; SKIPIF tests a word and PATCH changes one; JOB posts a card (or error 6); LAUNCH starts a launch of a right header (or
error 4) with a packet for every bay, and its field (or error 5). An OP or a bit that Table 15-2 does not name is error 1, and an address that it
cannot use error 2. A list error stops the queue where it is. Before stage 2 no queue is walked.
Choices of the model that it rests on: log 40 (one order state for a die's queues), 60, 71, 72, 74, 114 (no queue before stage 2). -/
def Obligations.CommandListResult : Prop :=
  ∀ (s s1 s2 : State) (tag q n a : Nat) (x y m : W64) (ws : List W64) (c : CmdQueue) (die k : Nat) (l : XLoc),
    (s.dev.stage < 3 → ∀ i ∈ [Instr.jump tag q, .call tag q, .ret tag q, .sigfc tag q, .waitfc tag q, .skipif tag q, .patch tag q, .listJob tag q, .launch tag q],
      exec i s = .next s) ∧
    (∀ h, s.headerOk tag h = true ↔ Claims.HeaderRight s tag h) ∧ (∀ cs, cardOk cs = true ↔ Claims.CardRight cs) ∧
    (∀ f, s.fieldOk tag f = true ↔ Claims.FieldRight s tag f) ∧
    (Claims.Unreadable s tag q → (∃ t, s.listPlan tag q = .wait t ∧ Claims.ListStopped s tag q 2 t) ∧
      ∀ e ∈ Claims.entries tag q, ∃ t, exec e.2.2.2 s = .next t ∧ Claims.ListStopped s tag q 2 t) ∧
    (Claims.Entry s tag q ws s1 →
      (∀ op b, b < 2 ^ 56 → ws.getD 0 0 = Claims.opWord op b → op < 256 →
        (op = 0 ∨ 9 < op → ∃ t, s.listPlan tag q = .wait t ∧ Claims.ListStopped s tag q 1 t) ∧
        (1 ≤ op → op ≤ 9 → s.listPlan tag q = .entry op) ∧
        ∀ e ∈ Claims.entries tag q, (op ≠ e.1 → exec e.2.2.2 s = .next s) ∧
          (op = e.1 → e.2.1 ≤ b ∨ (∃ j < 4, e.2.2.1 < j ∧ ws.getD j 0 ≠ 0) → ∃ t, exec e.2.2.2 s = .next t ∧ Claims.ListStopped s tag q 1 t)) ∧
      (4 ≤ a → a < 8 → ws = [Claims.opWord 4 a, x, y, m] → ∃ t, exec (.skipif tag q) s = .next t ∧ Claims.ListStopped s tag q 1 t) ∧
      (∀ op al i, (op, al, i) ∈ [(1, 64, Instr.launch tag q), (4, 8, .skipif tag q), (8, 8, .patch tag q), (9, 128, .listJob tag q)] →
        ws = [Claims.opWord op 0, x, 0, 0] → ¬ Claims.Named x al → ∃ t, exec i s = .next t ∧ Claims.ListStopped s tag q 2 t)) ∧
    (Claims.Entry s tag q ws s1 → c = s.queue tag q → die = Claims.field c.cfg 11 2 → n < 64 →
    (ws = [Claims.opWord 5 0, x, 0, 0] → exec (.jump tag q) s = .next (s1.modQueue tag q (fun c => { c with pc := x, upto := none }))) ∧
    (ws = [Claims.opWord 6 0, x, 0, 0] → ∃ t, exec (.call tag q) s = .next t ∧ (4 ≤ c.stack.length → Claims.ListStopped s tag q 3 t) ∧
      (c.stack.length < 4 → (t.queue tag q).pc = x ∧ (t.queue tag q).stack = (c.pc + 32) :: c.stack ∧
        Claims.field (t.queue tag q).st 0 3 = c.stack.length + 1 ∧ t.mem = s.mem)) ∧
    (ws = [Claims.opWord 7 0, 0, 0, 0] → ∃ t, exec (.ret tag q) s = .next t ∧ (c.stack = [] → Claims.ListStopped s tag q 3 t) ∧
      (∀ pc rest, c.stack = pc :: rest → (t.queue tag q).pc = pc ∧ (t.queue tag q).stack = rest ∧ t.mem = s.mem)) ∧
    (ws = [Claims.opWord 3 n, x, 0, 0] → ∃ t, exec (.sigfc tag q) s = .next t ∧ (t.queue tag q).pc = c.pc + 32 ∧ t.mem = s.mem ∧
      Tbl.get FenceCtr.init (t.part tag).fcs n = { Tbl.get FenceCtr.init (s.part tag).fcs n with v := (Tbl.get FenceCtr.init (s.part tag).fcs n).v + x }) ∧
    (ws = [Claims.opWord 2 n, x, 0, 0] →
      ((Tbl.get FenceCtr.init (s.part tag).fcs n).v < x → exec (.waitfc tag q) s = .next s) ∧
      (x ≤ (Tbl.get FenceCtr.init (s.part tag).fcs n).v → ∃ t, exec (.waitfc tag q) s = .next t ∧ (t.queue tag q).pc = c.pc + 32 ∧ t.mem = s.mem ∧
        (t.part tag).fcs = (s.part tag).fcs ∧ ∀ cs ∈ (Tbl.get FenceCtr.init (s.part tag).fcs n).stamps.drop (Tbl.get 0 c.applied n),
          cs.get die ≤ (t.listOrd die).pts ∧ ∀ d < 4, d ≠ die → cs.get d ≤ (t.listOrd die).vw.get d)) ∧
    (∀ w, ws = [Claims.opWord 4 a, x, y, m] → a < 4 → Claims.Named x 8 → s1.engineXlate (coreOf die 0) tag x 8 .load = (.ok l, s2) → Claims.ListWords s2 tag l.loc 1 [w] →
      l.loc.die? = some die → ∃ t, exec (.skipif tag q) s = .next t ∧ t.mem = s.mem ∧ (s2.lineAt l.loc).stamp.get die ≤ (t.listOrd die).pts ∧
        (t.queue tag q).pc = c.pc + if (a = 0 ∧ w &&& m = y) ∨ (a = 1 ∧ w &&& m ≠ y) ∨ (a = 2 ∧ w &&& m < y) ∨ (a = 3 ∧ y ≤ w &&& m) then 64 else 32) ∧
    (∀ w, ws = [Claims.opWord 8 0, x, y, m] → Claims.Named x 8 → s1.engineXlate (coreOf die 0) tag x 8 .atomic = (.ok l, s2) → Claims.ListWords s2 tag l.loc 1 [w] →
      l.loc.die? = some die → Claims.HasKey s2 tag l.loc k → Claims.ListDrained s tag q → ∃ t, exec (.patch tag q) s = .next t ∧
        t.mem = s.mem.writeBytes k (leBytes 8 ((w &&& ~~~m) ||| (y &&& m)).toNat) ∧ (t.queue tag q).pc = c.pc + 32) ∧
    (∀ cs card, ws = [Claims.opWord 9 (a * 2 ^ 6 + n), x, 0, 0] → a < 2 → Claims.Named x 128 → s1.engineXlate (coreOf die 0) tag x 128 .load = (.ok l, s2) →
      Claims.ListWords s2 tag l.loc 16 cs → card = { Claims.tableCard tag 0 0 cs with fc := if a = 1 then some n else none } → Tbl.find s.cards s.nextId = none →
      (¬ Claims.CardRight cs ∨ Claims.cardBits cs 0 62 2 ≠ 0 ∧ s.ownsBay tag card.die card.pbay = false → ∃ t, exec (.listJob tag q) s = .next t ∧
        Claims.ListStopped s tag q 6 t) ∧
      (Claims.CardRight cs → (Claims.cardBits cs 0 62 2 ≠ 0 → s.ownsBay tag card.die card.pbay = true) → card.die = die → ∃ t,
        exec (.listJob tag q) s = .next t ∧ t.mem = s.mem ∧ Claims.Posted s s.nextId card (s.listOrd die) t ∧ (t.queue tag q).pc = c.pc + 32)) ∧
    (∀ h, ws = [Claims.opWord 1 (a * 2 ^ 6 + n), x, 0, 0] → a < 2 → Claims.Named x 64 → s1.engineXlate (coreOf die 0) tag x 64 .load = (.ok l, s2) →
      Claims.ListWords s2 tag l.loc 8 h →
      (¬ Claims.HeaderRight s tag h → ∃ t, exec (.launch tag q) s = .next t ∧ Claims.ListStopped s tag q 4 t) ∧
      (Claims.HeaderRight s tag h → h.getD 5 0 ≠ 0 → ¬ Claims.Named (h.getD 5 0) 64 → ∃ t, exec (.launch tag q) s = .next t ∧ Claims.ListStopped s tag q 2 t) ∧
      (∀ (fd : List W64) (l3 : XLoc) (s3 : State), Claims.HeaderRight s tag h → h.getD 5 0 ≠ 0 → Claims.Named (h.getD 5 0) 64 →
        s2.engineXlate (coreOf die 0) tag (h.getD 5 0) 64 .load = (.ok l3, s3) → Claims.ListWords s3 tag l3.loc 8 fd → ¬ Claims.FieldRight s tag fd →
        ∃ t, exec (.launch tag q) s = .next t ∧ Claims.ListStopped s tag q 5 t) ∧
      (∀ (fd : List W64) (l3 : XLoc) (s3 : State), Claims.HeaderRight s tag h →
        (h.getD 5 0 = 0 ∨ h.getD 5 0 ≠ 0 ∧ Claims.Named (h.getD 5 0) 64 ∧ s2.engineXlate (coreOf die 0) tag (h.getD 5 0) 64 .load = (.ok l3, s3) ∧
          Claims.ListWords s3 tag l3.loc 8 fd ∧ Claims.FieldRight s tag fd ∧ ∀ b ∈ fieldRect fd ++ fieldSpares fd, ∀ i, i = s.island (islandOf (fieldDie fd) b) →
            i.started = true ∧ i.failed = false ∧ i.running = some tag) →
        (∀ bay i, Claims.InLaunch h bay → i = s.island (islandOf (bay / 2048) (bay % 2048)) → i.started = true ∧ i.failed = false ∧ i.running = some tag) →
        ∃ t r, exec (.launch tag q) s = .next t ∧ t.mem = s.mem ∧ (t.queue tag q).pc = c.pc + 32 ∧ Tbl.find t.launches s.nextId = some r ∧ r.tag = tag ∧
          r.entry = h.getD 0 0 ∧ r.tvec = h.getD 1 0 ∧ r.wid = (h.getD 2 0).setWidth 36 ∧ r.arg = h.getD 4 0 ∧ r.hdr = x ∧ r.ord = s.listOrd die ∧
          r.fc = (if a = 1 then some n else none) ∧ (∀ bay, bay ∈ r.left ↔ Claims.InLaunch h bay) ∧ r.toStart = r.left ∧
          (∀ bay, Claims.InLaunch h bay → ∃ id, Tbl.find t.msgs id = some (.launch s.nextId (bay / 2048) (bay % 2048))) ∧
          (h.getD 5 0 = 0 → r.field = none ∧ t.fields = s.fields) ∧
          (h.getD 5 0 ≠ 0 → r.field = some s.nextId ∧ ∃ f, Tbl.find t.fields s.nextId = some f ∧ f.live = true ∧ f.tag = tag ∧ f.desc = fd ∧ f.phase = 0 ∧
            ∀ i b gx gy, gx = Claims.cardBits fd 0 56 6 → gy = Claims.cardBits fd 0 50 6 → i < gx * gy * Claims.cardBits fd 0 44 6 → f.bays[i]? = some b →
              b.boxed = true ∧ b.bay = (Claims.cardBits fd 0 39 5 + i / Claims.cardBits fd 0 26 7) * 64 + (Claims.cardBits fd 0 33 6 + i % Claims.cardBits fd 0 26 7) ∧
              b.lo.x = Claims.signed32 (Claims.cardBits fd 1 32 32) + (i % gx : Nat) * Claims.signed32 (Claims.cardBits fd 3 32 32) ∧
              b.hi.x = b.lo.x + Claims.signed32 (Claims.cardBits fd 3 32 32) ∧
              b.lo.y = Claims.signed32 (Claims.cardBits fd 1 0 32) + (i / gx % gy : Nat) * Claims.signed32 (Claims.cardBits fd 3 0 32) ∧
              b.hi.y = b.lo.y + Claims.signed32 (Claims.cardBits fd 3 0 32) ∧
              b.lo.z = Claims.signed32 (Claims.cardBits fd 2 32 32) + (i / (gx * gy) : Nat) * Claims.signed32 (Claims.cardBits fd 4 32 32) ∧
              b.hi.z = b.lo.z + Claims.signed32 (Claims.cardBits fd 4 32 32)))))

open Sys2Proof Sys2Proof.Machine in
/-- R89, R130, R298: launches. A launch packet starts the head in the tenant's free slot 0 with the bay's number, the launch's argument and the
header's address in w0 to w2; once the last strand of the last bay's share stops and the stores have drained, its strands are freed, the
launch completes and its fence counter takes one more increment.
Choices of the model that it rests on: log 34, 59, 72, 73. -/
def Obligations.LaunchResult : Prop :=
  ∀ (s : State) (id lid die bay : Nat) (r : Launch),
    (Tbl.find s.msgs id = some (.launch lid die bay) → Tbl.find s.launches lid = some r →
      (s.inSlot (coreOf die bay) r.tag 0 ≠ none → exec (.launchPacket id) s = .next s) ∧
      (s.tenantOf (coreOf die bay) 0 = some r.tag → s.inSlot (coreOf die bay) r.tag 0 = none → ∃ t y, exec (.launchPacket id) s = .next t ∧ t.mem = s.mem ∧
        Tbl.find t.msgs id = none ∧ Tbl.find t.launches lid = some { r with toStart := r.toStart.filter (fun n => n != 2048 * die + bay) } ∧
        y = t.strand s.nextId ∧ y.place = .slot (coreOf die bay) 0 ∧ y.status = .ready ∧ y.kind = .bound ∧ y.tag = r.tag ∧ y.pc = r.entry ∧
        y.tvec = r.tvec ∧ y.wid = r.wid ∧ y.launch = some lid ∧ (die = r.die → y.ord = r.ord) ∧ ∀ i : Fin 24, y.regs[i] =
          if i.val = 0 then .ofNat 128 (2048 * die + bay) else if i.val = 1 then zext128 r.arg else if i.val = 2 then zext128 r.hdr else 0)) ∧
    (∀ (s' p : State) (a : Src) (v : W128) (g : Guard) (m : Nat), Claims.Issues s g → Claims.Reads s a v s' → s'.cur = s.cur → s'.me.launch = some lid →
      s'.me.place = .slot (coreOf die bay) m → p = Claims.upd s' (fun t =>
        { t with status := .stopped, wait := .none, exitw := lo64 v, irv := false, orv := false, pend := none, leaving := none
                 sts := Claims.unprefixed t.sts }) →
      Tbl.find s'.launches lid = some r → r.field = none → r.upto = none → r.toStart = [] → r.left = [2048 * die + bay] → bay < 2048 →
      (∀ e ∈ p.strands, e.2.launch = some lid → (∃ u n, e.2.place = .slot u n ∧ u.die = die ∧ u.bay = bay) → e.2.status = .stopped) →
      (∀ d dom, s'.drained d dom s'.serial = true) → ∃ t, exec (.stop a g) s = .next t ∧ t.mem = s'.mem ∧ Tbl.find t.launches lid = none ∧
        Tbl.find t.strands s.cur = none ∧ ∀ fc, r.fc = some fc → ∃ cs, Tbl.get FenceCtr.init (t.part r.tag).fcs fc =
          ⟨(Tbl.get FenceCtr.init (s'.part r.tag).fcs fc).v + 1, (Tbl.get FenceCtr.init (s'.part r.tag).fcs fc).stamps ++ [cs]⟩)

namespace Sys2Proof.Claims
open Sys2Proof.Machine

/-- A register after a write of 8 bytes, or of 4 bytes to either half (R32). -/
def written (p : WPart) (old v : W64) : W64 :=
  match p with
  | .full => v
  | .low => .ofNat 64 (old.toNat / 2 ^ 32 * 2 ^ 32 + v.toNat % 2 ^ 32)
  | .high => .ofNat 64 (old.toNat % 2 ^ 32 + v.toNat % 2 ^ 32 * 2 ^ 32)

/-- A write that traps its writer: the cause is told with the offset (R22; log 33). -/
def refusedWrite (s : State) (cause off : Nat) : State :=
  { s with dev := { s.dev with events := s.dev.events ++ [.refused cause (.ofNat 64 off)] } }

/-- A tenant is resident on the island of a unit (R319). -/
def ResidentOn (s : State) (u : UnitId) (tag : Nat) : Prop := tag ∈ (s.island (islandOf u.die u.bay)).resident

/-- No strand of the partition is resident (R22): one whose tenant a displacement has put aside does not count (R319). -/
def NoStrands (s : State) (tag : Nat) : Prop := ∀ e ∈ s.strands, e.2.tag = tag → ¬ ResidentOn s (s.unitOf e.1) (s.strand e.1).tag

/-- No tenant is resident on the island of a unit. -/
def Vacant (s : State) (isl : Nat) : Prop := (s.island isl).resident = []

/-- A structure register with its placement at bit `plc` keeps R23: not placement 3, and no reserved bit set. -/
def Sound (v : W64) (plc : Nat) (fields : W64) : Prop := v.toNat / 2 ^ plc % 4 ≠ 3 ∧ v &&& ~~~fields = 0

/-- The registers of a partition's block that a write of `v` replaces, with what must hold for the write to be accepted (Tables 1-7, 2-5,
6-8, 16-2, 16-7; R22, R314). -/
def partWrites (s : State) (tag : Nat) (k : Part) (p : WPart) (v : W64) : List (Nat × Prop × Part) :=
  [(0x000, NoStrands s tag ∧ Sound (written p k.xtb v) 62 0xC000003FFFFF0001#64, { k with xtb := written p k.xtb v }),
   (0x008, NoStrands s tag ∧ Sound (written p k.xsg v) 62 0xC000003FFFFFF000#64, { k with xsg := written p k.xsg v }),
   (0x010, NoStrands s tag ∧ Sound (written p k.xfm v) 62 0xC000003FFFFF0000#64, { k with xfm := written p k.xfm v }),
   (0x018, (NoStrands s tag ∨ k.xfqh = k.xfqt) ∧ Sound (written p k.xfq v) 58 0xFC00003FFFFFFFE0#64, { k with xfq := written p k.xfq v }),
   (0x020, True, { k with xfqh := (written p (k.xfqh.setWidth 64) v).setWidth 32 }),
   (0x028, NoStrands s tag, k),
   (0x040, True, { k with fectl := written p k.fectl v &&& 0xF0FFFFFF#64 }),
   (0x048, NoStrands s tag, { k with crvlt := written p k.crvlt v &&& 0x00FFFFFFFFFFFFFF#64 }),
   (0x050, NoStrands s tag ∧ 20 ≤ (written p k.wdctl v).toNat % 64 ∧ (written p k.wdctl v).toNat % 64 ≤ 40,
     { k with wdctl := written p k.wdctl v &&& 0x800000000000003F#64 }),
   (0x058, NoStrands s tag, { k with sva := written p k.sva v }),
   (0x060, (NoStrands s tag ∨ k.xtqh = k.xtqt) ∧ Sound (written p k.xtq v) 58 0xFC00003FFFFFFFC0#64, { k with xtq := written p k.xtq v }),
   (0x068, True, { k with xtqh := (written p (k.xtqh.setWidth 64) v).setWidth 32 })]

/-- The number of a scratchpad's 8-byte word at a byte offset (R39). -/
def wordNo (die bay off : Nat) : Nat := (2 ^ 38 + (2048 * die + bay) * 2 ^ 18 + off) / 8

/-- A range of FEFILL and FEEMPTY: `n` words from byte offset `off`, inside the scratchpad (R195). -/
def FeRange (v : W64) (off n : Nat) : Prop :=
  v.toNat = off + (n - 1) * 2 ^ 18 ∧ off % 8 = 0 ∧ off < 2 ^ 18 ∧ 1 ≤ n ∧ n ≤ 2 ^ 15 ∧ off + 8 * n ≤ 2 ^ 18

/-- Where the presence bit of word `i` of a bay's scratchpad is held: with the word, in the scratchpad, or in its tenant's save area while
the range is there (R324). -/
def presence (s : State) (tag die bay i : Nat) : Nat :=
  if tag ≠ 31 ∧ (s.ten die bay tag).loaded = false then (2 ^ 43 + tag * 2 ^ 32 + (2048 * die + bay) * 2 ^ 18 + 8 * i) / 8
  else wordNo die bay (8 * i)

/-- A FEFILL or FEEMPTY under way: `left` words from word `i` of a bay's scratchpad, which CSRW of strand `x` asked for, or control space. -/
def Marking (s : State) (id tag die bay : Nat) (full : Bool) (i left : Nat) (x : Option Nat) : Prop :=
  Tbl.find s.msgs id = some (.fe tag die bay full i left x)

/-- The bit of one word is full or empty, and nothing else of the memory has changed. -/
def MarkedOne (s : State) (w : Nat) (full : Bool) (t : State) : Prop :=
  t.mem = s.mem ∧ t.lines = s.lines ∧ ∀ v, v ∈ t.full ↔ if v = w then full = true else v ∈ s.full

/-- LOOMST of a loom (Table 13-7). -/
def loomst (l : Loom) : W64 :=
  .ofNat 64 (l.act.toNat * 2 ^ 63 + l.seq.isSome.toNat * 2 ^ 62 + l.err.toNat * 2 ^ 61 + l.ecode * 2 ^ 56 + l.semovf.toNat * 2 ^ 55 +
    bank (l.view 1) * 2 ^ 50 + bank (l.view 0) * 2 ^ 48 + l.runk % 2 ^ 16 * 2 ^ 32 + l.promk % 2 ^ 16 * 2 ^ 16 + l.mxf.toNat / 2 ^ 7 % 2 ^ 7 * 2 ^ 7)
where
  /-- BANK0 and BANK1. -/
  bank : BankState → Nat
    | .empty => 0
    | .running => 1
    | .full => 2
    | .promoting => 3

/-- FSTAT of a field's bay, which counts the entries of the settled banks (Table 7-2). -/
def fstat (f : Machine.Field) (b : FieldBay) : W64 :=
  .ofNat 64 (b.ovf.toNat * 2 ^ 63 + b.hovf.toNat * 2 ^ 62 + b.nospare.toNat * 2 ^ 61 + b.pin.toNat * 2 ^ 60 +
    b.halos ((f.phase + 1) % 2) * 2 ^ 48 + b.cells ((f.phase + 1) % 2) * 2 ^ 38 + f.phase % 2 ^ 32)

/-- The latest field that a bay is of, and its record there. -/
def LatestField (s : State) (die bay id : Nat) (f : Machine.Field) (b : FieldBay) : Prop :=
  s.fields.reverse.find? (fun e => e.2.die == die && e.2.bays.any (fun b => b.bay == bay)) = some (id, f) ∧ f.bayRec bay = some b

/-- The registers of a partition's block as they read, at their offsets in it; those that are written only, and the offsets between, read as
zero (Tables 1-7, 2-5, 6-8, 16-2, 16-7; R7, R32). -/
def partReads (k : Part) : List (Nat × W64) :=
  [(0x000, k.xtb), (0x008, k.xsg), (0x010, k.xfm), (0x018, k.xfq), (0x020, k.xfqh.setWidth 64), (0x028, k.xfqt.setWidth 64), (0x030, 0), (0x038, 0),
   (0x040, k.fectl), (0x048, k.crvlt), (0x050, k.wdctl), (0x058, k.sva), (0x060, k.xtq), (0x068, k.xtqh.setWidth 64), (0x070, k.xtqt.setWidth 64),
   (0x078, 0), (0x080, k.vdsch), (0x088, 0), (0x3F8, 0), (0x600, 0), (0x7F8, 0), (0xA00, 0), (0xFFF8, 0)]

/-- The registers of a queue's block as they read (Table 15-1). -/
def queueReads (c : CmdQueue) : List (Nat × W64) := [(0x00, c.cfg), (0x08, c.pc), (0x10, c.end_), (0x18, c.st), (0x20, 0), (0x38, 0)]

/-- The registers of a bay's block that its units hold, as they read (Table 1-10). -/
def unitReads (s : State) (u x : UnitId) : List (Nat × W64) :=
  [(0x000, (s.unit u).crcfg), (0x008, .ofNat 64 (s.unit u).orph), (0x018, 0), (0x020, 0), (0x038, 0), (0x060, 0), (0x8000, 0),
   (0x8008, .ofNat 64 (s.unit x).orph), (0x8018, 0), (0xFFF8, 0)]

/-- The record `seq` of a partition holds strand `x` with `h`, and no other record has that number (R316). -/
def HeldAs (s : State) (tag seq x : Nat) (h : Held) : Prop :=
  h.seq = some seq ∧ (s.strand x).held = some h ∧ (x, s.strand x) ∈ s.strands ∧ (s.strand x).tag = tag ∧
  ∀ e ∈ s.strands, e.2.tag = tag → ∀ k, e.2.held = some k → k.seq = some seq → e = (x, s.strand x)

/-- The 64 bytes of a record of the trap queue (Table 16-3). -/
def recordBytes (h : Held) (seq : Nat) (name : W64) : List Byte :=
  ([.ofNat 64 (h.evt * 2 ^ 56 + h.cause * 2 ^ 48 + seq), name, h.pc, h.sts, h.value, h.cycle, 0, 0] : List W64).flatMap (fun w => leBytes 8 w.toNat)

end Sys2Proof.Claims

open Sys2Proof Sys2Proof.Machine in
/-- R22, R23, R31, R32, R292, R295, R314: a write to a register of a partition's block, by firmware, the host's physical function or, after
stage 1, the partition's own function. An accepted write changes that register and nothing else; one that the register's rule does not
accept traps the writer (0x04); XFR and XTR resolve what they name. -/
def Sys2Proof.Claims.PartitionRegisterWrite : Prop :=
  ∀ (s : State) (writer die tag reg off : Nat) (v : W64) (p : WPart) (k : Part), k = s.part tag → tag < 20 → reg < 2 ^ 16 → reg % 8 = 0 →
    off = 2 ^ 20 + 2 ^ 16 * tag + reg →
    (writer ≠ 31 → writer ≠ tag → 3 ≤ s.dev.stage → exec (.registerWrite writer die off v p) s = .next (Claims.refusedWrite s 0x04 off)) ∧
    (writer = 31 ∨ (writer = tag ∧ 3 ≤ s.dev.stage) →
      (∀ ok k', (reg, ok, k') ∈ Claims.partWrites s tag k p v →
        (ok → exec (.registerWrite writer die off v p) s = .next { s with parts := Tbl.set s.parts tag k' }) ∧
        (¬ ok → exec (.registerWrite writer die off v p) s = .next (Claims.refusedWrite s 0x04 off))) ∧
      (∀ n w, w = Claims.written p 0 v → n < 2 ^ 32 →
        (reg = 0x030 → w.toNat = 1 * 2 ^ 62 + n → exec (.registerWrite writer die off v p) s = exec (.xfrReplay tag n) s) ∧
        (reg = 0x030 → w.toNat = 2 * 2 ^ 62 + n → exec (.registerWrite writer die off v p) s = exec (.xfrFail tag n) s) ∧
        (reg = 0x078 → w.toNat = 1 * 2 ^ 62 + n → exec (.registerWrite writer die off v p) s = exec (.xtrResume tag n) s) ∧
        (reg = 0x078 → w.toNat = 2 * 2 ^ 62 + n → exec (.registerWrite writer die off v p) s = exec (.xtrStop tag n) s) ∧
        ((reg = 0x030 ∨ reg = 0x078) → w.toNat = n → exec (.registerWrite writer die off v p) s = .next s)) ∧
      (reg = 0x080 → ((Claims.written p k.vdsch v).toNat % 2 ^ 16 = 0 → exec (.registerWrite writer die off v p) s = .next (Claims.refusedWrite s 0x04 off)) ∧
        ((Claims.written p k.vdsch v).toNat % 2 ^ 16 ≠ 0 → ∃ t, exec (.registerWrite writer die off v p) s = .next t ∧ t.mem = s.mem ∧
          t.strands = s.strands ∧ t.part tag = { k with vdsch := Claims.written p k.vdsch v &&& 0x0000FFFFFFFFFFFF#64 })) ∧
      (reg = 0x070 ∨ (0x088 ≤ reg ∧ reg < 0x400) ∨ 0xA00 ≤ reg → exec (.registerWrite writer die off v p) s = .next s) ∧
      (∀ n f, n < 64 → reg = 0x400 + 8 * n → f = Tbl.get FenceCtr.init k.fcs n → exec (.registerWrite writer die off v p) s =
        .next { s with parts := Tbl.set s.parts tag { k with fcs := Tbl.set k.fcs n { f with v := Claims.written p f.v v } } }) ∧
      (∀ q c w, q < 8 → c = s.queue tag q → w = Claims.written p c.cfg v &&& 0x800000000000181F#64 →
        (reg = 0x800 + 64 * q →
          (w.toNat % 32 < 24 → Claims.NoStrands s tag ∨ w.toNat % 2 ^ 13 = c.cfg.toNat / 2 ^ 11 % 4 * 2 ^ 11 + c.cfg.toNat % 32 →
            exec (.registerWrite writer die off v p) s = .next (s.modQueue tag q (fun c => { c with
              cfg := w, upto := none, applied := if w.toNat / 2 ^ 11 % 4 = c.cfg.toNat / 2 ^ 11 % 4 then c.applied else [] }))) ∧
          (24 ≤ w.toNat % 32 ∨ (¬ Claims.NoStrands s tag ∧ w.toNat % 2 ^ 13 ≠ c.cfg.toNat / 2 ^ 11 % 4 * 2 ^ 11 + c.cfg.toNat % 32) →
            exec (.registerWrite writer die off v p) s = .next (Claims.refusedWrite s 0x04 off))) ∧
        (reg = 0x808 + 64 * q → (¬ Claims.NoStrands s tag → exec (.registerWrite writer die off v p) s = .next (Claims.refusedWrite s 0x04 off)) ∧
          (Claims.NoStrands s tag → exec (.registerWrite writer die off v p) s = .next (if c.cfg.getLsbD 63 then s else
            s.modQueue tag q (fun c => { c with pc := Claims.written p c.pc v, failed := false })))) ∧
        (reg = 0x810 + 64 * q → exec (.registerWrite writer die off v p) s = .next (s.modQueue tag q (fun c => { c with end_ := Claims.written p c.end_ v }))) ∧
        (reg = 0x818 + 64 * q → (¬ Claims.NoStrands s tag → exec (.registerWrite writer die off v p) s = .next (Claims.refusedWrite s 0x04 off)) ∧
          (Claims.NoStrands s tag → exec (.registerWrite writer die off v p) s = .next (s.modQueue tag q (fun c => { c with
            st := if (Claims.written p 0 v).getLsbD 63 then c.st &&& 0x7FFFFFFFFFFFFFFF#64 else c.st }))))))

open Sys2Proof Sys2Proof.Machine in
/-- R32, R104, R192, R195, R261, R321, R354, Tables 3-3, 6-8, 6-10, 10-6, 16-4, 17-3: firmware's writes to the rest of control space. Another
writer reaches the counter descriptors only and is otherwise refused (0x04); an offset with no register is ignored. -/
def Sys2Proof.Claims.ControlSpaceWrite : Prop :=
  ∀ (s : State) (die off : Nat) (v : W64) (p : WPart),
    (∀ w reg, w < 20 → 3 ≤ s.dev.stage → reg ∈ [0, 8, 0x10000, 0x20000, 2 ^ 32 + 0x18] → exec (.registerWrite w die reg v p) s = .next (Claims.refusedWrite s 0x04 reg)) ∧
    (∀ w i n, i < 1024 → n < 4 → (w = 31 ∨ 3 ≤ s.dev.stage) → exec (.registerWrite w die (2 ^ 25 + 32 * i + 8 * n) v p) s =
      exec (.counterDescriptorWrite w die i n v p) s) ∧
    (off % 8 = 0 → (16 ≤ off ∧ off < 2 ^ 16) ∨ (2 ^ 25 + 2 ^ 15 ≤ off ∧ off < 2 ^ 32) → exec (.registerWrite 31 die off v p) s = .next s) ∧
    (exec (.registerWrite 31 die 0 v p) s = .next (s.modDie die (fun d => { d with rdcctl := Claims.written p d.rdcctl v &&& 0x1FFFF#64 }))) ∧
    (exec (.registerWrite 31 die 8 v p) s = .next (s.modDie die (fun d =>
      { d with raslog := d.raslog &&& ~~~(Claims.written p 0 v &&& 0xFFFFFFFFFFFFF03F#64) }))) ∧
    (∀ i isl, i < 16 → isl = 16 * die + i → off = 2 ^ 16 + 2 ^ 8 * i →
      (¬ Claims.Vacant s isl → exec (.registerWrite 31 die off v p) s = .next (Claims.refusedWrite s 0x04 off)) ∧
      (∀ a < 4, (v.toNat / 2 ^ (8 * a)) % 2 ^ 8 / 2 ^ 7 = 1 → 20 ≤ (v.toNat / 2 ^ (8 * a)) % 2 ^ 5 →
        exec (.registerWrite 31 die off v .full) s = .next (Claims.refusedWrite s 0x04 off)) ∧
      (∀ a b, a < 4 → b < 4 → a ≠ b → (v.toNat / 2 ^ (8 * a)) % 2 ^ 8 / 2 ^ 7 = 1 → (v.toNat / 2 ^ (8 * b)) % 2 ^ 8 / 2 ^ 7 = 1 →
        (v.toNat / 2 ^ (8 * a)) % 2 ^ 5 = (v.toNat / 2 ^ (8 * b)) % 2 ^ 5 → exec (.registerWrite 31 die off v .full) s = .next (Claims.refusedWrite s 0x04 off)) ∧
      (Claims.Vacant s isl → (∀ a < 4, (v.toNat / 2 ^ (8 * a)) % 2 ^ 8 / 2 ^ 7 = 1 → (v.toNat / 2 ^ (8 * a)) % 2 ^ 5 < 20 ∧
          ∀ b < 4, a ≠ b → (v.toNat / 2 ^ (8 * b)) % 2 ^ 8 / 2 ^ 7 = 1 → (v.toNat / 2 ^ (8 * a)) % 2 ^ 5 ≠ (v.toNat / 2 ^ (8 * b)) % 2 ^ 5) →
        ∃ t, exec (.registerWrite 31 die off v .full) s = .next t ∧ (t.island isl).cfg = v &&& 0x80000000DFDFDFDF#64 ∧ t.strands = s.strands ∧
          (∀ tag < 20, (∃ a < 4, (v.toNat / 2 ^ (8 * a)) % 2 ^ 8 = 2 ^ 7 + tag) →
            (∀ a < 4, ((s.island isl).cfg.toNat / 2 ^ (8 * a)) % 2 ^ 8 / 2 ^ 7 = 1 → ((s.island isl).cfg.toNat / 2 ^ (8 * a)) % 2 ^ 5 ≠ tag) →
            Tbl.find (t.island isl).budgets tag = none) ∧
          (∀ bay tag, bay < 2048 → islandOf die bay = isl → tag < 20 → (Tbl.find s.tens (32 * (2048 * die + bay) + tag)).isSome →
            (t.ten die bay tag).loaded = false ∧
            ((∃ a < 4, (v.toNat / 2 ^ (8 * a)) % 2 ^ 8 = 2 ^ 7 + tag) →
              (∀ a < 4, ((s.island isl).cfg.toNat / 2 ^ (8 * a)) % 2 ^ 8 / 2 ^ 7 = 1 → ((s.island isl).cfg.toNat / 2 ^ (8 * a)) % 2 ^ 5 ≠ tag) →
              ∀ i < 2 ^ 15, Claims.presence t tag die bay i ∉ t.full ∧ t.mem.readBytes (8 * Claims.presence t tag die bay i) 8 = List.replicate 8 0)))) ∧
    (∀ c, c < 64 → off = 2 ^ 17 + 2 ^ 8 * c →
      (¬ Claims.Vacant s (islandOf die (clusterBay c 0)) → exec (.registerWrite 31 die off v p) s = .next (Claims.refusedWrite s 0x04 off)) ∧
      (Claims.Vacant s (islandOf die (clusterBay c 0)) → exec (.registerWrite 31 die off v .full) s =
        .next (s.modCluster die c (fun k => { k with scsrv := v &&& 0x800000000000001F#64 })))) ∧
    (∀ bay u x, bay < 2048 → u = UnitId.mk die bay false → x = UnitId.mk die bay true →
      exec (.registerWrite 31 die (2 ^ 32 + 2 ^ 16 * bay) v .full) s = .next (s.modUnit u (fun c => { c with crcfg := v &&& 0x0000FF000003FE00#64 })) ∧
      exec (.registerWrite 31 die (2 ^ 32 + 2 ^ 16 * bay + 0x8) v .full) s = .next (s.modUnit u (fun c => { c with orph := v.toNat % 2 ^ 32 })) ∧
      exec (.registerWrite 31 die (2 ^ 32 + 2 ^ 16 * bay + 0x8008) v .full) s = .next (s.modUnit x (fun c => { c with orph := v.toNat % 2 ^ 32 })) ∧
      (v.toNat / 2 ^ 16 % 2 ^ 16 = 0 →
        exec (.registerWrite 31 die (2 ^ 32 + 2 ^ 16 * bay + 0x10) v .full) s = .next (s.modUnit u (fun c => { c with hen := v.setWidth 16 })) ∧
        exec (.registerWrite 31 die (2 ^ 32 + 2 ^ 16 * bay + 0x8010) v .full) s = .next (s.modUnit x (fun c => { c with hen := v.setWidth 16 }))) ∧
      exec (.registerWrite 31 die (2 ^ 32 + 2 ^ 16 * bay + 0x18) v .full) s = exec (.fefill die bay v) s ∧
      exec (.registerWrite 31 die (2 ^ 32 + 2 ^ 16 * bay + 0x20) v .full) s = exec (.feempty die bay v) s ∧
      (∀ id f b, Claims.LatestField s die bay id f b → ∃ t g c, exec (.registerWrite 31 die (2 ^ 32 + 2 ^ 16 * bay + 0x40) v .full) s = .next t ∧
        t = { s with fields := t.fields } ∧ Tbl.find t.fields id = some g ∧ g.bayRec bay = some c ∧
        c = { b with ovf := b.ovf && !v.getLsbD 63, hovf := b.hovf && !v.getLsbD 62, nospare := b.nospare && !v.getLsbD 61
                     pin := b.pin && !v.getLsbD 60 }))

open Sys2Proof Sys2Proof.Machine in
/-- R32, R7, Tables 1-10, 3-3, 5-3, 6-8, 6-10, 10-6, 13-7, 17-3: what a read of control space returns. A register reads whole or by either half,
an offset without a register and a register that is only written as zero.
Choices of the model that it rests on: log 110. -/
def Sys2Proof.Claims.ControlSpaceRead : Prop :=
  ∀ (s : State) (die : Nat),
    (∀ off, (s.controlRead die off .low).toNat = (s.controlRead die off .full).toNat % 2 ^ 32 ∧
      (s.controlRead die off .high).toNat = (s.controlRead die off .full).toNat / 2 ^ 32) ∧
    (∀ off, off % 8 = 0 → (16 ≤ off ∧ off < 2 ^ 16) ∨ (2 ^ 16 + 2 ^ 12 ≤ off ∧ off < 2 ^ 17) ∨ (2 ^ 17 + 2 ^ 14 ≤ off ∧ off < 2 ^ 20) ∨
      (2 ^ 25 + 2 ^ 15 ≤ off ∧ off < 2 ^ 32) → s.controlRead die off .full = 0) ∧
    s.controlRead die 0 .full = (s.die die).rdcctl ∧ s.controlRead die 8 .full = (s.die die).raslog ∧
    (∀ i < 16, s.controlRead die (2 ^ 16 + 2 ^ 8 * i) .full = (s.island (16 * die + i)).cfg) ∧
    (∀ c < 64, s.controlRead die (2 ^ 17 + 2 ^ 8 * c) .full = (s.cluster die c).scsrv) ∧
    (∀ i < 1024, s.controlRead die (2 ^ 25 + 32 * i) .full = (s.inst die i).w0 ∧ s.controlRead die (2 ^ 25 + 32 * i + 8) .full = (s.inst die i).w1 ∧
      s.controlRead die (2 ^ 25 + 32 * i + 16) .full = (s.inst die i).w2 ∧ s.controlRead die (2 ^ 25 + 32 * i + 24) .full = 0) ∧
    (∀ tag k, tag < 20 → k = s.part tag →
      (∀ e ∈ Claims.partReads k, s.controlRead die (2 ^ 20 + 2 ^ 16 * tag + e.1) .full = e.2) ∧
      (∀ n < 64, s.controlRead die (2 ^ 20 + 2 ^ 16 * tag + 0x400 + 8 * n) .full = (Tbl.get FenceCtr.init k.fcs n).v) ∧
      ∀ q < 8, ∀ e ∈ Claims.queueReads (s.queue tag q), s.controlRead die (2 ^ 20 + 2 ^ 16 * tag + 0x800 + 64 * q + e.1) .full = e.2) ∧
    (∀ bay u x b, bay < 2048 → u = UnitId.mk die bay false → x = UnitId.mk die bay true → b = 2 ^ 32 + 2 ^ 16 * bay →
      (∀ e ∈ Claims.unitReads s u x, s.controlRead die (b + e.1) .full = e.2) ∧
      (∀ w y, (w, y) = (0x010, u) ∨ (w, y) = (0x8010, x) → ∀ r, r = s.controlRead die (b + w) .full → r.setWidth 16 = (s.unit y).hen ∧
        ∀ n < 16, r.getLsbD (32 + n) = true ↔ ∃ tag z, s.tenantOf y n = some tag ∧ s.inSlot y tag n = some z ∧ (s.strand z).status = .halted) ∧
      (∀ tag m, (s.island (islandOf die bay)).running = some tag → m = s.ten die bay tag → s.controlRead die (b + 0x028) .full = Claims.loomst m.loom ∧
        ((∀ i, Tbl.get 0 m.sems i < 2 ^ 8) → ∀ i < 8, (s.controlRead die (b + 0x030) .full).toNat / 2 ^ (8 * i) % 2 ^ 8 = Tbl.get 0 m.sems i)) ∧
      (∀ id f c, Claims.LatestField s die bay id f c → s.controlRead die (b + 0x040) .full = Claims.fstat f c ∧
        ∀ r, r = s.controlRead die (b + 0x048) .full → r.setWidth 32 = .ofInt 32 c.hi.x ∧ (r >>> 32).setWidth 32 = .ofInt 32 c.lo.x))

open Sys2Proof Sys2Proof.Machine in
/-- R40, R41, R195: FEFILL and FEEMPTY, by CSRW or through control space, make every word of the range full or empty, in ascending order
and each in a step of its own (MESSAGE_DELIVERY) that comes after the parked
accesses which the word already lets go on, and leave its value and times; the CSRW returns with the last word. A reserved bit or a range
past the scratchpad's end is illegal (0x01), and from a strand a range outside its tenant's half an isolation violation (0x0C).
Choices of the model that it rests on: log 33, 49, 86. -/
def Obligations.FullEmptyRange : Prop :=
  ∀ (s s' : State) (die bay off n : Nat) (v : W64) (x : W128) (a : Src) (g : Guard),
    (∀ id tag full i k y w, Claims.Marking s id tag die bay full i k y → w = Claims.presence s tag die bay i →
      (s.parkFirst ⟨die, bay, false⟩ (Claims.wordNo die bay (8 * i)) ≠ none → exec (.messageDelivery id) s = .next s) ∧
      (s.parkFirst ⟨die, bay, false⟩ (Claims.wordNo die bay (8 * i)) = none → ∃ t, exec (.messageDelivery id) s = .next t ∧ Claims.MarkedOne s w full t ∧
        t = { s with full := t.full, msgs := t.msgs, strands := t.strands } ∧
        (1 < k → Claims.Marking t id tag die bay full (i + 1) (k - 1) y ∧ t.strands = s.strands) ∧
        (k ≤ 1 → Tbl.find t.msgs id = none ∧ (y = none → t.strands = s.strands) ∧ (∀ z, y = some z → t.strand z = { s.strand z with wait := .reply Claims.noResult })))) ∧
    (Claims.FeRange v off n →
      (exec (.fefill die bay v) s = .next (s.addMsg (.fe 31 die bay true (off / 8) n none)) ∧
        exec (.feempty die bay v) s = .next (s.addMsg (.fe 31 die bay false (off / 8) n none))) ∧
      (Claims.Issues s g → Claims.Reads s a x s' → s'.cur = s.cur → lo64 x = v → ¬ Claims.OnSpindle s → Claims.here s = ⟨die, bay, false⟩ →
        (inPart (s.spadPart s.me.tag die bay) off (8 * n) = true →
          exec (.csrw 0x040 a g) s = .next ((s'.waitOn s.cur .fe).addMsg (.fe s.me.tag die bay true (off / 8) n (some s.cur))) ∧
          exec (.csrw 0x041 a g) s = .next ((s'.waitOn s.cur .fe).addMsg (.fe s.me.tag die bay false (off / 8) n (some s.cur)))) ∧
        (inPart (s.spadPart s.me.tag die bay) off (8 * n) = false → exec (.csrw 0x040 a g) s = .next (s.raise 0x0C (.ofNat 64 off)) ∧
          exec (.csrw 0x041 a g) s = .next (s.raise 0x0C (.ofNat 64 off))))) ∧
    ((∀ o k, ¬ Claims.FeRange v o k) →
      exec (.fefill die bay v) s = .next { s with dev := { s.dev with events := s.dev.events ++ [.refused 0x01 v] } } ∧
      (Claims.Issues s g → Claims.Reads s a x s' → lo64 x = v → ¬ Claims.OnSpindle s → exec (.csrw 0x040 a g) s =
        .next (s.raise 0x01 (wordOf (.csrw 0x040 a g))) ∧ exec (.csrw 0x041 a g) s = .next (s.raise 0x01 (wordOf (.csrw 0x041 a g)))))

open Sys2Proof Sys2Proof.Machine in
/-- R192, R314 to R316, R329: the runtime's side of a held strand. A record that waits is written to the trap queue when there is room and its release is enabled; XTR
resumes the strand it names at its resume address, or stops it with its cause's exit word; DBGC resumes a strand that HALT halted and
none that is held; the watchdog holds a strand whose wait has counted 2^LIM cycles.
Choices of the model that it rests on: log 48, 70, 104, 116. -/
def Obligations.HeldStrands : Prop :=
  ∀ (s : State) (x : Nat) (t : Strand) (k : Part), t = s.strand x → k = s.part t.tag →
    (∀ h lg d b o, t.held = some h → h.seq = none → h.evt ≠ 2 → lg = k.xtq.toNat / 2 ^ 60 →
      ((lg = 0 ∨ 2 ^ lg ≤ (k.xtqt - k.xtqh).toNat) → exec (.trapRecordWrite x) s = .next s) ∧
      ((s.unitOf x).die < 4 → lg ≠ 0 → (k.xtqt - k.xtqh).toNat < 2 ^ lg → k.nextSeq < 2 ^ 32 → h.evt < 256 → h.cause < 256 →
        place (k.xtq.toNat / 2 ^ 58 % 4) (k.xtq.toNat / 2 ^ 36 % 4) (k.xtq.toNat / 2 ^ 6 % 2 ^ 30 * 64 + k.xtqt.toNat % 2 ^ lg * 64) (s.unitOf x).die =
          .vault d b o →
        (¬ Claims.Drained s d h.upto → exec (.trapRecordWrite x) s = .next s) ∧
        (Claims.Drained s d h.upto → ∃ s', exec (.trapRecordWrite x) s = .next s' ∧ Claims.Released s d (s'.lineAt (.vault d b o)).stamp ∧
          s'.mem = s.mem.writeBytes (vaultKey d b o) (Claims.recordBytes h k.nextSeq (s.nameOf x)) ∧
          s'.strand x = { t with held := some { h with seq := some k.nextSeq } } ∧
          s'.part t.tag = { k with xtqt := k.xtqt + 1, nextSeq := (k.nextSeq + 1) % 2 ^ 32, owed := (s'.part t.tag).owed } ∧
          s'.dev.events = s.dev.events ++ [.trapRecord t.tag]))) ∧
    (∀ h seq u n, Claims.HeldAs s t.tag seq x h → t.place = .slot u n →
      exec (.xtrResume t.tag seq) s = .next { (s.setStrand x { t with
        status := if t.wait = .none then .ready else .waiting, held := none, pc := h.pc, since := s.clock, arr := s.nextId, hang := 0
        hangAt := s.clock }) with nextId := s.nextId + 1 } ∧
      (t.launch = none → exec (.xtrStop t.tag seq) s = .next (Claims.uncursored (s.setStrand x { t with
        status := .stopped, wait := .none, exitw := .ofNat 64 (2 ^ 63 + h.cause), irv := false, orv := false, pend := none
        leaving := none, held := none, sts := Claims.unprefixed t.sts }) u t.tag n))) ∧
    (∀ seq, (∀ e ∈ s.strands, ∀ h, e.2.held = some h → e.2.tag = t.tag → h.seq ≠ some seq) →
      exec (.xtrResume t.tag seq) s = .next s ∧ exec (.xtrStop t.tag seq) s = .next s) ∧
    (∀ (u : UnitId) (m : BitVec 16), ∃ s', exec (.dbgcResume u m) s = .next s' ∧ s'.mem = s.mem ∧
      (s'.strand x = t ∨ t.status = .halted ∧ t.held = none ∧ s'.strand x = { t with status := .ready, wait := .none }) ∧
      ∀ n, n < 16 → m = .ofNat 16 (2 ^ n) → s.tenantOf u n = some t.tag → s.inSlot u t.tag n = some x → t.status = .halted → t.held = none →
        s'.strand x = { t with status := .ready, wait := .none }) ∧
    (∀ u n c isl, t.place = .slot u n → t.status = .waiting → s.tenantOf u n = some t.tag → (s.unit u).throttled = false →
      ((∃ m v, t.wait = .mbx m v) ∨ (∃ m d, t.wait = .mbr m d) ∨ (∃ m d, t.wait = .reap m d) ∨ (∃ e w d, t.wait = .spawn15 e w d) ∨
        (∃ h, t.wait = .rdv h) ∨ (∃ m, t.wait = .semw m) ∨ t.wait = .svc ∨
        (∃ i w k, t.wait = .token i .anti w ∧ k ∈ s.tokens ∧ k.id = i ∧ ∃ d e, k.at_ = .parked d e)) →
      isl = s.island (islandOf u.die u.bay) → isl.running = some t.tag →
      c = t.hang + (s.clock - if isl.prev = some t.tag then t.hangAt else max t.hangAt (s.changeAt u n isl.handAt)) →
      (k.wdctl.getLsbD 63 = false ∨ c < 2 ^ (k.wdctl.toNat % 64) → exec (.watchdogExpiry x) s = .next s) ∧
      (k.wdctl.getLsbD 63 = true → 2 ^ (k.wdctl.toNat % 64) ≤ c → ∃ s' seq, exec (.watchdogExpiry x) s = .next s' ∧ (s'.strand x).status = .halted ∧
        (s'.strand x).wait = t.wait ∧ (s'.strand x).regs = t.regs ∧ (s'.strand x).held = some { seq := seq, evt := 3, cause := 0, value := t.word
                                                                                                pc := t.pc, sts := t.sts
                                                                                                cycle := .ofNat 64 (s.unitCycle u), upto := s.serial }))

open Sys2Proof Sys2Proof.Machine in
/-- R22, R23, R31, R32, R104, R195, R261, R292, R295, R314, R321: writes to control space, and what a read of it returns.
Choices of the model that it rests on: log 33, 40, 50, 78, 79, 80, 110, 111. -/
def Obligations.RegisterWriteResult : Prop :=
  Claims.PartitionRegisterWrite ∧ Claims.ControlSpaceWrite ∧ Claims.ControlSpaceRead

namespace Sys2Proof.Claims
open Sys2Proof.Machine

/-- A tenant's share of an island (R303). -/
def shareOf (s : State) (isl v : Nat) : Rat :=
  ((s.part v).vdsch.toNat % 2 ^ 16 : Nat) / (((s.tenantsOf isl).map (fun w => (s.part w).vdsch.toNat % 2 ^ 16)).sum : Nat)

/-- A tenant's effective depth on an island, in µs (R303). -/
def depthOf (s : State) (isl v : Nat) : Rat := min (((s.part v).vdsch.toNat / 2 ^ 16 % 2 ^ 16 : Nat) : Rat) (2000 * shareOf s isl v)

/-- A tenant's slice, in µs (Table 15-6). -/
def sliceOf (s : State) (v : Nat) : Nat := (s.part v).vdsch.toNat / 2 ^ 32 % 2 ^ 16

/-- A tenant's budget on an island, in µs (R304), from what was noted at `budgetAt`; 4,000 core cycles are 1 µs. -/
def budgetOf (s : State) (isl v : Nat) : Rat :=
  max (-(sliceOf s v : Rat)) (min (depthOf s isl v) (Tbl.get (depthOf s isl v) (s.island isl).budgets v +
    ((s.clock - (s.island isl).budgetAt : Nat) : Rat) / 4000 * (shareOf s isl v - if (s.island isl).running = some v then 1 else 0)))

/-- A tenant has work for an island at a level: a launch that waits at the head of a queue of that level, or one in progress (R304). -/
def HasWork (s : State) (isl v l : Nat) : Prop :=
  (∃ e ∈ (s.part v).queues, e.2.cfg.toNat % 32 = l ∧ ∃ b ∈ s.waitingLaunch v e.1, onIsland isl b = true) ∨
  ∃ e ∈ s.launches, e.2.tag = v ∧ e.2.prio = l ∧ ∃ b ∈ s.launchBays e.2, onIsland isl b = true

/-- The level of a ready tenant: the lowest at which it has work. -/
def ReadyAt (s : State) (isl v l : Nat) : Prop := HasWork s isl v l ∧ ∀ m, HasWork s isl v m → l ≤ m

/-- A tenant that the serving rule considers: an eligible one, or any while none is eligible (R304). -/
def Considered (s : State) (isl v : Nat) : Prop :=
  0 < budgetOf s isl v ∨ ∀ w ∈ s.tenantsOf isl, ∀ m, ReadyAt s isl w m → budgetOf s isl w ≤ 0

/-- The serving rule chooses a tenant at a level (R304): the lowest level, and in it the next tag after the last one served. -/
def Chosen (s : State) (isl v l : Nat) : Prop :=
  v ∈ s.tenantsOf isl ∧ ReadyAt s isl v l ∧ Considered s isl v ∧ ∀ w ∈ s.tenantsOf isl, ∀ m, ReadyAt s isl w m → Considered s isl w → l ≤ m ∧
    (m = l → ((s.island isl).last < v ∧ ((s.island isl).last < w → v ≤ w)) ∨ (w ≤ (s.island isl).last ∧ v ≤ w))

/-- The resident has to give the island to a tenant (R304). -/
def GivesWay (s : State) (isl v : Nat) : Prop :=
  ∃ l, Chosen s isl v l ∧ ((s.island isl).running = none ∨ ∃ r, (s.island isl).running = some r ∧ v ≠ r ∧
    ((∀ m, ¬ ReadyAt s isl r m) ∨ ∃ m, ReadyAt s isl r m ∧ (l < m ∨ (s.island isl).next = some v)))

/-- The half of a tenant in an island's tenant list (Table 16-4). -/
def HalfOf (cfg : W64) (v h : Nat) : Prop := ∃ e, (tenantEntries cfg).find? (fun e => e.2.2 == v) = some e ∧ e.2.1 = h

/-- Making a tenant resident displaces another: the resident, or with SHARE = 1 the one of its half (R324). -/
def Displaces (i : Island) (tag v : Nat) : Prop :=
  tag ∉ i.resident ∧ v ∈ i.resident ∧ (i.cfg.getLsbD 63 = false ∨ ∃ h, HalfOf i.cfg v h ∧ HalfOf i.cfg tag h)

/-- With SHARE = 1, the tenant displaced is in the shadow bank, and the other one runs (R324, the first way). -/
def FromShadow (i : Island) (tag : Nat) : Prop :=
  i.cfg.getLsbD 63 = true ∧ tag ∉ i.resident ∧ ∃ r, i.running = some r ∧ ¬ Displaces i tag r

/-- Every multicast fill that a tenant has started on an island has landed or is parked on a fault (R232): every bay has accepted it, what it has
sent has landed, and it has sent all or is parked before the next line, or has failed. -/
def MulticastsStill (s : State) (isl v : Nat) : Prop :=
  ∀ e ∈ s.fills, e.2.tag = v → islandOf e.2.die e.2.bay = isl → e.2.multi = true → e.2.open_ = true ∧ e.2.packets = [] ∧
    (∀ l ∈ e.2.sent, l ∈ e.2.read) ∧ (e.2.failed = true ∨ e.2.sent.length = e.2.lines ∨ ∃ p ∈ e.2.parked, p.freed = false)

/-- What a hand-over to a tenant waits for (R232, R304, R323, R324, Table 17-1). -/
def HandOverDue (s : State) (isl tag : Nat) (i : Island) : Prop :=
  3 ≤ s.dev.stage ∧ i.started = true ∧ i.failed = false ∧ GivesWay s isl tag ∧
  (∀ r, i.running = some r → i.handAt + 18 ≤ s.clock ∧ s.allLoaded isl r = true) ∧ ¬ FromShadow i tag ∧
  (tag ∈ i.resident → s.allLoaded isl tag = true) ∧ (∀ v w, Displaces i tag v → Displaces i tag w → v = w) ∧
  ∀ v, Displaces i tag v → MulticastsStill s isl v

/-- The clock at which slot `n` of a compute core changes tenant, for a hand-over that begins at clock `h`: its first turn from then on (R323). -/
def FirstTurn (i : Island) (h n c : Nat) : Prop := h ≤ c ∧ c < h + 16 ∧ (c - i.at_) % 16 = n

end Sys2Proof.Claims

open Sys2Proof Sys2Proof.Machine in
/-- R303, R304: an elapsed slice begins anew for a resident that the serving rule still chooses, and else names the rival at its level as
next; an exhausted budget names an eligible rival at its level or a lower one. -/
def Sys2Proof.Claims.SliceAndBudget : Prop :=
  ∀ (s : State) (isl r : Nat), (s.island isl).running = some r →
    (s.clock < (s.island isl).sliceAt + Claims.sliceOf s r * 4000 → exec (.sliceExpiry isl) s = .next s) ∧
    ((s.island isl).sliceAt + Claims.sliceOf s r * 4000 ≤ s.clock →
      (∀ l, Claims.Chosen s isl r l → exec (.sliceExpiry isl) s = .next (s.modIsland isl (fun i => { i with sliceAt := s.clock, next := none }))) ∧
      ∀ v l, Claims.Chosen s isl v l → v ≠ r → Claims.ReadyAt s isl r l → exec (.sliceExpiry isl) s =
        .next (s.modIsland isl (fun i => { i with next := some v }))) ∧
    (0 < Claims.budgetOf s isl r → exec (.budgetExhausted isl) s = .next s) ∧
    (Claims.budgetOf s isl r ≤ 0 → ∀ v l m, Claims.Chosen s isl v l → v ≠ r → 0 < Claims.budgetOf s isl v → Claims.ReadyAt s isl r m → l ≤ m →
      exec (.budgetExhausted isl) s = .next (s.modIsland isl (fun i => { i with next := some v })))

open Sys2Proof Sys2Proof.Machine in
/-- R232, R304, R323 to R325: HAND_OVER gives the island to the tenant that the serving rule has it give way to, once the one before is
complete, at this cycle; the tenant of the range it needs is displaced. Each slot changes tenant at its first turn from then on: the waits of
the one that leaves stand still from there, those of the one that comes go on, and the MXUs of the one that leaves freeze. -/
def Sys2Proof.Claims.HandOverResult : Prop :=
  ∀ (s : State) (isl tag : Nat) (i : Island), i = s.island isl →
    (s.dev.stage < 3 ∨ i.started = false ∨ i.failed = true ∨ ¬ Claims.GivesWay s isl tag ∨ (∃ r, i.running = some r ∧ s.clock < i.handAt + 18) →
      exec (.handOver isl tag) s = .next s) ∧
    (Claims.HandOverDue s isl tag i → ∃ t j, exec (.handOver isl tag) s = .next t ∧
        j = t.island isl ∧ t.mem = s.mem ∧ j.running = some tag ∧ j.prev = i.running ∧ j.handAt = s.clock ∧ j.sliceAt = s.clock ∧ j.last = tag ∧
        j.next = none ∧ tag ∈ j.resident ∧ (tag ∈ i.resident → ∀ v, v ∈ j.resident ↔ v ∈ i.resident) ∧
        (tag ∉ i.resident → i.cfg.getLsbD 63 = false → ∀ v, i.resident = [v] → j.resident = [tag]) ∧
        (tag ∉ i.resident → i.cfg.getLsbD 63 = true → ∀ v w a b, i.resident = [v, w] → Claims.HalfOf i.cfg v a → Claims.HalfOf i.cfg w b → a ≠ b → v ≠ w →
          (Claims.HalfOf i.cfg tag a → j.resident = [w, tag]) ∧ (Claims.HalfOf i.cfg tag b → j.resident = [v, tag])) ∧
        (∀ x u n r c y, i.running = some r → y = s.strand x → y.place = .slot u n → islandOf u.die u.bay = isl → y.tag = r → r ≠ tag → n < 16 →
          i.at_ ≤ s.clock → u.sp = false → y.status = .waiting → y.susp = none → Claims.FirstTurn i s.clock n c → (t.strand x).status = y.status ∧
            (t.strand x).regs = y.regs ∧ (t.strand x).since = y.since ∧
            (y.card = none → (t.strand x).susp = some c ∧ ((∀ op, y.wait ≠ .mem op) → (t.strand x).wait = y.wait)) ∧
            (y.card ≠ none → (t.strand x).susp = none ∧ (t.strand x).wait = y.wait)) ∧
        (∀ die bay r m, i.running = some r → islandOf die bay = isl → die < 4 → bay < 2048 → r < 32 → r ≠ tag → tag < 32 →
          Tbl.find s.tens (32 * (2048 * die + bay) + r) = some m → m.loom.frozen = none →
          t.ten die bay r = { m with loom := { m.loom with frozen := some s.clock } }) ∧
        ∀ x u n c d y, tag ∈ i.resident → i.running ≠ some tag → (s.part tag).resolved = [] → y = s.strand x → y.place = .slot u n →
          islandOf u.die u.bay = isl → u.die < 4 → u.bay < 2048 → y.tag = tag → tag < 32 → y.card = none → n < 16 → i.at_ ≤ s.clock → u.sp = false →
          (s.ten u.die u.bay tag).loaded = true → y.status = .waiting → y.susp = some d → Claims.FirstTurn i s.clock n c →
          ((∃ m w, y.wait = .mbx m w) ∨ (∃ m w, y.wait = .mbr m w) → (t.strand x).status = .ready ∧ (t.strand x).wait = y.wait) ∧
          (∀ p, y.wait = .reply p → (t.strand x).status = .waiting ∧ (t.strand x).wait = y.wait ∧ (t.strand x).susp = none ∧
            (t.strand x).since = y.since + (c - d))) ∧
    (∀ u n c h, u.sp = false → islandOf u.die u.bay = isl → n < 16 → c = s.clock - i.at_ → h = i.handAt - i.at_ →
      s.tenantOf u n = if ∃ k ≤ c, h ≤ k ∧ k % 16 = n then i.running else i.prev)

open Sys2Proof Sys2Proof.Machine in
/-- R323, R324: RANGE_LOADED exchanges the ranges of a bay with the save areas: those of a displaced tenant leave with the bytes they hold and
those of the incoming tenant come back. Where the displaced tenant is in the shadow bank this comes before the hand-over, which then exchanges the
banks. While the partition that leaves has paging off, its save area at SVA names no memory, and no byte of a vault changes.
Choices of the model that it rests on: log 11. -/
def Sys2Proof.Claims.RangeExchange : Prop :=
  ∀ (s : State) (isl tag : Nat) (i : Island), i = s.island isl →
    ∀ die bay p w vs ahead, islandOf die bay = isl → die < 4 → bay < 2048 → tag < 20 → s.mem.wf = true → p = s.spadPart tag die bay → w = s.wbufPart tag die bay →
      (ahead ↔ Claims.FromShadow i tag ∧ Claims.GivesWay s isl tag ∧ 3 ≤ s.dev.stage ∧ ∀ v, Claims.Displaces i tag v → Claims.MulticastsStill s isl v) →
      (∀ a b, Claims.Displaces i tag a → Claims.Displaces i tag b → a = b) →
      (∀ v, v ∈ vs ↔ v < 32 ∧ (∃ m, Tbl.find s.tens (32 * (2048 * die + bay) + v) = some m ∧ m.loaded = true) ∧ v ≠ tag ∧
        (v ∉ i.resident ∨ (ahead ∧ Claims.Displaces i tag v))) →
      (tag ∉ i.resident ∧ ¬ Claims.FromShadow i tag ∨ (s.ten die bay tag).loaded = true ∨ s.clock < i.handAt + 18 → exec (.rangeLoaded die bay tag) s = .next s) ∧
      (tag ∈ i.resident ∨ ahead → (s.ten die bay tag).loaded = false → i.handAt + 18 ≤ s.clock → (vs = [] ∨ ∃ v, vs = [v]) →
        (∀ v ∈ vs, Claims.MulticastsStill s isl v) → (s.tens.map (·.1)).Nodup → ∃ t,
        exec (.rangeLoaded die bay tag) s = .next t ∧ (t.ten die bay tag).loaded = true ∧ tag ∈ (t.island isl).resident ∧
        (t.island isl).running = i.running ∧ (∀ v ∈ vs, v ∉ (t.island isl).resident) ∧
        ((∀ v ∈ vs, (s.part v).xtb.getLsbD 0 = false) → ∀ a < 2 ^ 38, t.mem.read a = s.mem.read a) ∧
        (∀ a < p.2, t.mem.read (spadKey die bay (p.1 + a)) = s.mem.read (savedKey tag die bay (p.1 + a))) ∧
        (∀ a < w.2, t.mem.read (wbufKey die bay (w.1 + a)) = s.mem.read (savedWKey tag die bay (w.1 + a))) ∧
        ∀ v, vs = [v] → (t.ten die bay v).loaded = false ∧
          (∀ a < (s.spadPart v die bay).2, t.mem.read (savedKey v die bay ((s.spadPart v die bay).1 + a)) = s.mem.read (spadKey die bay ((s.spadPart v die bay).1 + a))) ∧
          ∀ a < (s.wbufPart v die bay).2, t.mem.read (savedWKey v die bay ((s.wbufPart v die bay).1 + a)) =
            s.mem.read (wbufKey die bay ((s.wbufPart v die bay).1 + a)))

open Sys2Proof Sys2Proof.Machine in
/-- R303, R304, R323 to R325: slices, budgets, hand-overs and the exchange of ranges.
Choices of the model that it rests on: log 11, 75, 76. -/
def Obligations.SchedulingResult : Prop :=
  Claims.SliceAndBudget ∧ Claims.HandOverResult ∧ Claims.RangeExchange

namespace Sys2Proof.Claims
open Sys2Proof.Machine

/-- Raised to the host. -/
def raised (s : State) (e : HostEvent) : State := { s with dev := { s.dev with events := s.dev.events ++ [e] } }

/-- An island has been emptied by eviction (R324, R334, R336): no tenant is resident or runs, its tenant list stands, and every range that was
loaded there is in its save area. Where none of the partitions that leave has paging on, their areas at SVA name no memory and no byte of a vault
has changed (log 11). -/
def Emptied (s t : State) (isl : Nat) : Prop :=
  (t.island isl).resident = [] ∧ (t.island isl).running = none ∧ (t.island isl).cfg = (s.island isl).cfg ∧
  (∀ j, j ≠ isl → t.island j = s.island j) ∧ (∀ x, (t.strand x).regs = (s.strand x).regs) ∧
  (∀ die bay tag, islandOf die bay = isl → bay < 2048 → tag < 32 → (Tbl.find s.tens (32 * (2048 * die + bay) + tag)).isSome →
    (t.ten die bay tag).loaded = false) ∧
  ((∀ e ∈ s.tens, e.2.loaded = true → onIsland isl (e.1 / 32) = true → (s.part (e.1 % 32)).xtb.getLsbD 0 = false) →
    ∀ a < 2 ^ 38, t.mem.read a = s.mem.read a)

/-- Nothing of a partition is in flight: no store is buffered, it owns no counter instance, and it has no walk or delivery, and no strand
that waits or has half an access to perform but perhaps strand `x`. -/
def Quiet (s : State) (tag x : Nat) : Prop :=
  s.rbuf = [] ∧ s.lbuf = [] ∧ (s.strands.map (·.1)).Nodup ∧ (∀ e ∈ s.insts, e.2.w0.toNat / 2 ^ 53 % 32 ≠ tag) ∧ (∀ e ∈ s.dies, ∀ w ∈ e.2.walks, w.tag ≠ tag) ∧
  (∀ e ∈ s.strands, e.2.tag = tag → e.2.status = .waiting ∨ e.2.split ≠ none → e.1 = x) ∧ ∀ e ∈ s.msgs, ∀ n r v y d p o, e.2 ≠ .deliver tag n r v y d p o

/-- The number of a scratchpad's line (R61). -/
def scratchLine (die bay off : Nat) : Nat := (2 ^ 38 + (2048 * die + bay) * 2 ^ 18 + off) / 128

/-- A partition's block after its reset (Table 16-6): pointers, fence counters and what its walker and runtime held are gone, its queues
are stopped, every other register stands. -/
def resetPart (k : Part) : Part :=
  { k with fcs := [], xfqh := 0, xfqt := 0, xtqh := 0, xtqt := 0, parked := [], heldRecs := [], resolved := []
           queues := k.queues.map (fun e => (e.1, { e.2 with
             cfg := e.2.cfg &&& 0x7FFFFFFFFFFFFFFF#64, upto := none, failed := false, parked := none, applied := [] })) }

/-- The place that a GPA of this device names: a vault line of the package, or a scratchpad byte (Tables 1-2, 1-3). -/
def GpaAt (s : State) (g : W64) (l : Loc) : Prop :=
  ∃ die off, die < 4 ∧ ((off < 2 ^ 36 ∧ g.toNat = s.dev.num * 2 ^ 50 + die * 2 ^ 48 + off ∧ l = place 0 die off 0) ∨
    ∃ bay, bay < 2048 ∧ off < 2 ^ 18 ∧ g.toNat = s.dev.num * 2 ^ 50 + die * 2 ^ 48 + 2 ^ 46 + bay * 2 ^ 18 + off ∧ l = .spad die bay off)

end Sys2Proof.Claims

open Sys2Proof Sys2Proof.Machine in
/-- R61, R121, R327, R330, Table 16-6: a partition reset leaves no strand of the partition, no valid instance that it owns, no island that it is
resident on, and zero in the ranges that it had in bays and in its save areas, and signals completion. Lines that it can reach have times 0 and no stamp, and
vault lines no RDC copy. What it has in flight is performed first: a buffered store, and an access that a strand has sent. With nothing in
flight, the other partitions' strands, registers, cards, bay state and bytes of scratchpads and weight buffers, the counter instances, the
vaults, other scratchpads' times and the island lists are as before. A reset of physical function 0 resets every partition and then firmware's strands.
Choices of the model that it rests on: log 41, 81. -/
def Obligations.PartitionResetResult : Prop :=
  ∀ (s : State) (tag : Nat),
    (19 < tag → exec (.partitionReset tag) s = .next s) ∧
    (tag < 20 → ∃ t, exec (.partitionReset tag) s = .next t ∧ (∀ e ∈ t.strands, e.2.tag ≠ tag) ∧ (∀ e ∈ t.cards, e.2.tag ≠ tag) ∧
      (∀ e ∈ t.launches, e.2.tag ≠ tag) ∧ (∀ e ∈ t.tens, e.1 % 32 ≠ tag) ∧ (∀ j, tag ∉ (t.island j).resident ∧ (t.island j).running ≠ some tag) ∧
      (∀ e ∈ s.insts, e.2.w0.toNat / 2 ^ 53 % 32 = tag → (t.inst (e.1 / 1024) (e.1 % 1024)).w0.getLsbD 63 = false) ∧
      (∀ x op l d b o, Claims.Quiet s tag x → (s.strand x).tag = tag → (s.strand x).status = .waiting → (s.strand x).wait = .mem op → op.rel = true →
        op.loc = some l → l.loc = .vault d b o → l.loc.target (s.dieOf x) = none → ∀ u v, exec (.homeAccess x) s = .next u →
        exec (.homeAccess x) u = .next v → ∀ a < 2 ^ 38, t.mem.read a = v.mem.read a) ∧
      (∀ u d h e b o bs x, Claims.Quiet u tag x → (∀ e ∈ u.strands, e.2.tag = tag → e.2.status ≠ .waiting ∧ e.2.split = none) → d < 4 → h < 4 → d ≠ h →
        s = u.setFifo d (.die h) [e] → e.tag = tag → e.act = .bytes (.vault h b o) bs → e.src = .none → e.land = none → u.mem.wf = true →
        b < 2048 → o + bs.length ≤ 2 ^ 25 → t.mem.readBytes (vaultKey h b o) bs.length = bs) ∧
      (∀ x, Claims.Quiet s tag x → (∀ e ∈ s.strands, e.2.tag = tag → e.2.status ≠ .waiting ∧ e.2.split = none) →
        (∀ die bay off, off % 128 = 0 → off < 2 ^ 18 → die < 4 → bay < 2048 →
          Tbl.get LineOrder.init t.lines (Claims.scratchLine die bay off) =
            if s.ownsBay tag die bay = true ∧ inPart (s.spadPart tag die bay) off 128 = true then LineOrder.init
            else Tbl.get LineOrder.init s.lines (Claims.scratchLine die bay off)) ∧
        (∀ d b v r, d < 4 → b < 2048 → v < 2 ^ 18 → (s.part tag).xtb.getLsbD 0 = true → r ∈ lineRegions d b v → s.frameBit tag r d = true →
          Tbl.get LineOrder.init t.lines (vaultKey d b (128 * v) / 128) = LineOrder.init ∧ ∀ c ∈ t.rdc, c.line ≠ vaultKey d b (128 * v) / 128) ∧
        (∀ die bay k, die < 4 → bay < 2048 → k < 64 → s.ownsBay tag die bay = true → ∀ n, n = 2 ^ 41 + 64 * (2048 * die + bay) + k →
          Tbl.get LineOrder.init t.lines n = LineOrder.init ∧ Tbl.get LineOrder.init t.lines (2 ^ 50 + n) = LineOrder.init) ∧
        (∀ die bay a, die < 4 → bay < 2048 → a < 2 ^ 18 → t.mem.read (savedKey tag die bay a) = 0) ∧
        (∀ v die bay, v ≠ tag → v < 32 → t.ten die bay v = s.ten die bay v) ∧ (∀ e, e ∈ t.cards ↔ e ∈ s.cards ∧ e.2.tag ≠ tag) ∧ t.insts = s.insts ∧
        ((∀ e ∈ s.tens, e.1 < 2 ^ 18) → ∀ die bay p w, die < 4 → bay < 2048 → p = s.spadPart tag die bay → w = s.wbufPart tag die bay →
          (∀ a < 2 ^ 18, a < p.1 ∨ p.1 + p.2 ≤ a → t.mem.read (spadKey die bay a) = s.mem.read (spadKey die bay a)) ∧
          ∀ a < 2 ^ 16, a < w.1 ∨ w.1 + w.2 ≤ a → t.mem.read (wbufKey die bay a) = s.mem.read (wbufKey die bay a)) ∧
        (∀ x, (s.strand x).tag ≠ tag → t.strand x = s.strand x) ∧ t.part tag = Claims.resetPart (s.part tag) ∧
        (∀ v, v ≠ tag → t.part v = s.part v) ∧ (∀ j, (t.island j).cfg = (s.island j).cfg) ∧ (∀ a < 2 ^ 38, t.mem.read a = s.mem.read a) ∧
        t.dev = { s.dev with events := s.dev.events ++ [.resetDone tag] } ∧
        ∀ die bay b, bay < 2048 → (tenKey die bay tag, b) ∈ s.tens → s.ten die bay tag = b → b.loaded = true →
          (∀ a < (s.spadPart tag die bay).2, t.mem.read (spadKey die bay ((s.spadPart tag die bay).1 + a)) = 0) ∧
          ∀ a < (s.wbufPart tag die bay).2, t.mem.read (wbufKey die bay ((s.wbufPart tag die bay).1 + a)) = 0)) ∧
    ∃ t, exec .pf0Reset s = .next t ∧ (∀ e ∈ t.strands, 20 ≤ e.2.tag ∧ e.2.tag ≠ 31) ∧ t.dev.algs = false

open Sys2Proof Sys2Proof.Machine in
/-- R232, R331, R332, R334, R336, Table 17-1: power-good begins stage 0; islands start in ascending number at least 20 µs (80,000 core cycles)
apart. The first begins stage 1, in which the device number is assigned, and the last begins stage 2, which enables the scale-up ports unless the
number is taken in the domain. Before that a virtual function's configuration read is retried. An updated island is emptied and returns or stays
clamped. A spared bay's island, which runs, is emptied; a cluster's spare takes one failed bay's index, and a second failure fails the island.
Choices of the model that it rests on: log 6, 11, 112. -/
def Obligations.StagesOfStart : Prop :=
  ∀ (s : State) (num : BitVec 14) (domain : List Nat) (isl die bay : Nat) (pass : Bool) (i : Island), i = s.island isl →
    (s.dev.stage ≠ 0 → exec (.powerGood num domain) s = .next s) ∧
    (s.dev.stage = 0 →
      exec (.powerGood num domain) s = .next { s with dev := { s.dev with stage := 1, powerAt := s.clock, conf := (num.toNat, domain) } }) ∧
    (s.vfConfigRead = .retry ↔ s.dev.stage < 3) ∧
    (s.dev.stage = 1 ∨ s.dev.stage = 2 → isl < 64 → i.started = false → i.failed = false →
      (isl = 0 ∨ (((s.island (isl - 1)).started = true ∨ (s.island (isl - 1)).failed = true) ∧ (s.island (isl - 1)).at_ + 80000 ≤ s.clock) →
        ∃ v, exec (.islandStart isl pass) s = .next { s.modIsland isl (fun i => { i with
            started := pass, failed := !pass, at_ := s.clock, handAt := s.clock, sliceAt := s.clock, budgetAt := s.clock }) with dev := v } ∧
          (isl = 0 → v = { s.dev with stage := 2, num := s.dev.conf.1 }) ∧ (isl ≠ 0 → isl ≠ 63 → v = s.dev) ∧
          (isl = 63 → s.dev.conf.1 ∉ s.dev.conf.2 → v = { s.dev with stage := 3, domain := s.dev.conf.2 }) ∧
          (isl = 63 → s.dev.conf.1 ∈ s.dev.conf.2 → v = { s.dev with stage := 3, events := s.dev.events ++ [.deviceEvent s.dev.conf.1] })) ∧
      (isl ≠ 0 → ((s.island (isl - 1)).started = false ∧ (s.island (isl - 1)).failed = false) ∨ s.clock < (s.island (isl - 1)).at_ + 80000 →
        exec (.islandStart isl pass) s = .next s)) ∧
    (i.started = true ∨ i.failed = true → exec (.islandStart isl pass) s = .next s) ∧
    (i.started = false ∨ i.failed = true → exec (.islandUpdate isl pass) s = .next s) ∧
    (i.started = true → i.failed = false →
      ((∀ v ∈ i.resident, Claims.MulticastsStill s isl v) → ∃ t, exec (.islandUpdate isl pass) s = .next t ∧ Claims.Emptied s t isl ∧
        (t.island isl).updated = i.updated + 1 ∧ (t.island isl).failed = !pass) ∧
      (∀ v ∈ i.resident, ¬ Claims.MulticastsStill s isl v → exec (.islandUpdate isl pass) s = .next s)) ∧
    (i.started = false ∨ i.failed = true → islandOf die bay = isl → exec (.baySparing die bay) s = .next s) ∧
    (bay < 2048 → islandOf die bay = isl → i.started = true → i.failed = false →
      (∀ v ∈ i.resident, ¬ Claims.MulticastsStill s isl v → exec (.baySparing die bay) s = .next s) ∧
      ((∀ v ∈ i.resident, Claims.MulticastsStill s isl v) → ∃ t, exec (.baySparing die bay) s = .next t ∧ Claims.Emptied s t isl ∧
        ((s.cluster die (clusterOf bay)).spareUsed = true → (t.island isl).failed = true ∧ t.clusters = s.clusters ∧ t.dies = s.dies) ∧
        ((s.cluster die (clusterOf bay)).spareUsed = false → (t.island isl).failed = false ∧
          t.cluster die (clusterOf bay) = { s.cluster die (clusterOf bay) with spareUsed := true, spareFor := some bay } ∧
          t.die die = (Claims.counted s die 6 6).die die)))

open Sys2Proof Sys2Proof.Machine in
/-- R320: a retrained link issues again what had no reply; a failed one is a device event. A request from another device is performed once
at its home, and its answer is recorded; a repeated one changes nothing. A store's line takes a stamp without an entry of this device.
Choices of the model that it rests on: log 9, 42, 83, 102. -/
def Obligations.LinkResult : Prop :=
  ∀ (s : State) (dev : Nat) (k : Link), k = Tbl.get Link.init s.links dev →
    (dev ∉ s.dev.domain ∨ k.failed = true → exec (.linkRetrain dev) s = .next s ∧ exec (.linkFailure dev) s = .next s) ∧
    (dev ∈ s.dev.domain → k.failed = false →
      exec (.linkRetrain dev) s = .next { s with lbuf := s.lbuf.map (fun p =>
        if p.1 % 16384 = dev then (p.1, p.2.map (fun e => { e with sent := false })) else p) } ∧
      exec (.linkFailure dev) s = .next (Claims.raised { s with links := Tbl.set s.links dev { k with failed := true } } (.deviceEvent dev)) ∧
      ∀ r : ForeignReq, r.dev = dev → r.size ≤ 16 → r.gpa.toNat % 128 + r.size ≤ 128 →
        (∀ v, Tbl.find k.answers r.seq = some v → exec (.foreignRequest r) s = .next s) ∧
        (Tbl.find k.answers r.seq = none → ∀ l n, Claims.GpaAt s r.gpa l → Claims.HasKey s 31 l n → ∀ old, old = leNat (s.bytesAt 31 l r.size) →
          ∃ t ans, exec (.foreignRequest r) s = .next t ∧ t.strands = s.strands ∧
            t.links = Tbl.set s.links dev { k with answers := Tbl.set k.answers r.seq ans } ∧
            (r.kind = .load → ans = .ofNat 128 old ∧ t.mem = s.mem) ∧
            (∀ v, r.kind = .store v → t.mem = s.mem.writeBytes n (leBytes r.size v.toNat) ∧ (t.lineAt l).stamp = .zero) ∧
            ∀ op v, r.kind = .atomic op v → ans = .ofNat 128 old ∧
              (∀ m, Claims.atomicStores op r.size (.ofNat 128 old) v = some m → t.mem = s.mem.writeBytes n (leBytes r.size m)) ∧
              (Claims.atomicStores op r.size (.ofNat 128 old) v = none → t.mem = s.mem)))

open Sys2Proof Sys2Proof.Machine in
/-- R50, R317, R318, R329, R335, R340: maintenance and errors. A lane goes out while no other of the package is, is counted, and returns; an
uncorrectable error poisons its line's words, changes no byte, and counts in UNCONS, on its own die, until a read of it or of a line that its marks
were carried to consumes it; one of an instruction cache is
counted; corrected errors, flit retries and throttle events are counted; and throttling keeps every count of the hang watchdog.
Choices of the model that it rests on: log 43. -/
def Obligations.MaintenanceAndErrors : Prop :=
  ∀ (s : State) (die bay line : Nat) (host begins : Bool),
    exec (.correctedError die) s = .next (Claims.counted s die 48 16) ∧ exec (.flitRetry die) s = .next (Claims.counted s die 20 12) ∧
    ((∃ e ∈ s.dies, e.2.laneOut = true ∨ e.2.hostLaneOut = true) → exec (.laneRecalibration die host true) s = .next s) ∧
    ((∀ e ∈ s.dies, e.2.laneOut = false ∧ e.2.hostLaneOut = false) → exec (.laneRecalibration die host true) s = .next
      (Claims.counted (s.modDie die (fun d => if host then { d with hostLaneOut := true } else { d with laneOut := true })) die 12 8)) ∧
    ((if host then (s.die die).hostLaneOut else (s.die die).laneOut) = true → exec (.laneRecalibration die host false) s = .next
      (s.modDie die (fun d => if host then { d with hostLaneOut := false } else { d with laneOut := false }))) ∧
    (bay < 2048 → line < 2 ^ 18 → ∃ t p, exec (.uncorrectableError die bay line) s = .next t ∧ p = vaultKey die bay (128 * line) / 8 ∧ t.mem = s.mem ∧
      t.strands = s.strands ∧ (∀ w, w ∈ t.poison ↔ w ∈ s.poison ∨ p ≤ w ∧ w < p + 16) ∧
        (∀ w, Tbl.find t.errs w = if w = p / 16 then some (setAdd (Tbl.get [] s.errs w) w) else Tbl.find s.errs w) ∧
      t.dies = if (Tbl.find s.errs (p / 16)).isSome then s.dies else (Claims.counted s die 40 8).dies) ∧
    (bay < 2048 → exec (.uncorrectableError die bay (2 ^ 18)) s = .next (Claims.counted s die 40 8)) ∧
    (2 ^ 18 < line → exec (.uncorrectableError die bay line) s = .next s) ∧
    (∀ d tag o n k t, bay < 2048 → o + n ≤ 128 * (o / 128) + 128 → 0 < n → k = vaultKey die bay o → t = s.eat d tag (.vault die bay o) n → t.mem = s.mem ∧
      t.strands = s.strands ∧ (∀ w, w ∈ t.poison ↔ w ∈ s.poison ∧ ¬ (k / 8 ≤ w ∧ w ≤ (k + n - 1) / 8)) ∧
      ((s.errs.map (·.1)).Nodup → ∀ e, e ∈ t.errs ↔ e ∈ s.errs ∧ k / 128 ∉ e.2) ∧
      ((∀ e ∈ s.errs, k / 128 ∉ e.2) → t.dies = s.dies) ∧
      (∀ e h, s.errs.filter (fun e => e.2.contains (k / 128)) = [e] → h = e.1 / 2 ^ 29 → 0 < (s.die h).raslog.toNat / 2 ^ 40 % 2 ^ 8 →
        (t.die h).raslog.toNat = (s.die h).raslog.toNat - 2 ^ 40)) ∧
    ((s.unit ⟨die, bay, false⟩).throttled = begins → exec (.thermalThrottleEvent die bay begins) s = .next s) ∧
    ((s.unit ⟨die, bay, false⟩).throttled ≠ begins → bay < 2048 → ∃ t, exec (.thermalThrottleEvent die bay begins) s = .next t ∧ t.mem = s.mem ∧
      (t.unit ⟨die, bay, false⟩).throttled = begins ∧ (t.unit ⟨die, bay, true⟩).throttled = begins ∧
      (t.die die).raslog = (if begins then ((Claims.counted s die 0 6).die die).raslog else (s.die die).raslog) ∧
      ∀ x u n, (s.strand x).place = .slot u n → u.bay < 2048 → t.hangTotal x = s.hangTotal x ∧ (t.strand x).wait = (s.strand x).wait)

open Sys2Proof Sys2Proof.Machine in
/-- R337 to R339, Table 17-2: the security processor answers each attestation request, once power is good, with what is known of the answer
and its signature, digest or certificate bytes; meters rise, up to 2^64 − 1, only for what has been issued, run or
accessed; a snapshot holds the nonce, its number, its time and the nine
meters, signed, and the next one has the next number.
Choices of the model that it rests on: log 12, 82, 94. -/
def Obligations.AttestationAndMeters : Prop :=
  ∀ (s : State) (nonce : BitVec 256) (off len tag m n : Nat) (p521 sha512 : Bool) (k : Part), k = s.part tag →
    (∀ i bs c, (i, bs, c) ∈ [(Instr.getVersion, [(0x12 : Byte)], 0), (.getCapabilities, [], 4), (.getDigests, [], 64), (.getCertificate off len, [], len),
      (.challenge nonce, leBytes 32 nonce.toNat, 132), (.getMeasurements nonce, leBytes 32 nonce.toNat ++
        (List.range 64).flatMap (fun j => leBytes 8 (s.island j).cfg.toNat), 3 * 64 + 132)] →
      (s.dev.stage = 0 → exec i s = .next s) ∧
      (s.dev.stage ≠ 0 → ∃ free, free.length = c ∧ exec i s = .next (Claims.raised { s with freeCtr := s.freeCtr + 1 } (.spdm (bs ++ free))))) ∧
    (s.dev.stage ≠ 0 → exec (.negotiateAlgorithms p521 sha512) s = .next (Claims.raised
      { s with freeCtr := s.freeCtr + 1, dev := { s.dev with algs := p521 && sha512 } } (.spdm [.ofNat 8 (b2n p521), .ofNat 8 (b2n sha512)]))) ∧
    (∀ due, due = k.owed.getD m 0 →
      ((m = 5 → n ≤ due) → (m ≠ 5 → due ≠ 0) → m ≤ 8 → ∃ t, exec (.meterIncrement tag m n) s = .next t ∧ t = { s with parts := t.parts } ∧
        (∀ v, v ≠ tag → t.part v = s.part v) ∧
        t.part tag = { k with owed := (t.part tag).owed, meters := k.meters.set m (min (k.meters.getD m 0 + n) (2 ^ 64 - 1)) } ∧
        ∀ j, (t.part tag).owed.getD j 0 = if j ≠ m then k.owed.getD j 0 else if m = 5 then due - n else due - 1) ∧
      (8 < m ∨ (m = 5 ∧ due < n) ∨ (m ≠ 5 ∧ due = 0) → exec (.meterIncrement tag m n) s = .next s)) ∧
    (s.dev.stage = 0 → exec (.meterSnapshot tag nonce) s = .next s) ∧
    (s.dev.stage ≠ 0 → tag < 20 → ∃ sig, sig.length = 132 ∧ exec (.meterSnapshot tag nonce) s = .next (Claims.raised
      { s with freeCtr := s.freeCtr + 1, parts := Tbl.set s.parts tag { k with snaps := k.snaps + 1 } }
      (.meter (leBytes 8 (1 + tag * 2 ^ 8 + 9 * 2 ^ 16) ++ leBytes 32 nonce.toNat ++ leBytes 8 k.snaps ++
        leBytes 8 ((s.clock - s.dev.powerAt) / 4000) ++ (k.meters.take 9).flatMap (leBytes 8) ++ sig))))

namespace Sys2Proof.Claims
open Sys2Proof.Machine

/-- Words of the spec's worked encodings (Tables 8-8, 10-9, 11-11 and 12-9), with the instructions that they stand for. -/
def workedWords : List (W32 × Instr) :=
  let t : Guard := ⟨false, 0⟩
  [(0x04221800, .add (.w 1) (.w 2) (.w 3) t), (0x0884FF03, .addi (.w 4) (.w 4) 0x7F8 ⟨false, 3⟩), (0x0884FF13, .addi (.w 4) (.w 4) 0x7F8 ⟨true, 3⟩),
   (0xFC123456, .imm 0x123456), (0x28EF1340, .movi (.w 7) 0x789A t), (0x80A90860, .ld (.w 5) 9 8 .d t), (0x91030A20, .aadd 8 (.w 3) .rel .dev .d t),
   (0x500000A0, .nop t), (0x2C611020, .divu (.w 3) (.w 1) (.w 2) t), (0x1C411C40, .cmp 2 (.w 1) (.w 3) .or .lt t), (0x20351600, .cmpi 1 (.w 21) .ne 48 t),
   (0x4AC30020, .blr (.w 22) (.w 3) t), (0x50002800, .trap 5 t), (0x50000040, .rft t), (0x50C008C0, .csrr (.w 6) 1 t), (0x50042900, .tlbi (.w 4) (.w 5) t),
   (0x60011500, .vcmplt (.w 1) (.w 2) .f32 t), (0x608531A0, .vfma (.w 4) (.w 5) (.w 6) .f64 t), (0xFD000100, .fmt true false 0 0),
   (0x64221820, .viadd (.w 1) (.w 2) (.w 3) .i16 t), (0x6C220A40, .vins (.w 1) (.w 2) 1 .i32 t), (0x68610180, .cvt (.w 3) (.w 1) .f32 .e4m3 t),
   (0x70430100, .fsqrt (.w 2) (.w 3) .f32 t), (0x88880280, .ldx (.w 4) 8 2 .dev t), (0x94000420, .fenceRel .dev t), (0x98C74280, .trdMc (.w 6) (.w 7) 5 t),
   (0x9C202A80, .qwait (.w 1) 2 20 t), (0xA1212800, .dlv (.w 9) (.w 1) 5 t), (0xA4804660, .mwait (.w 4) 3 3 t), (0xA82A0040, .cbar (.w 1) (.w 10) t),
   (0xAC442840, .spawnPos (.w 2) (.w 4) (.w 5) t), (0xB0C00120, .nbrNext (.w 6) t)]

/-- Instructions and steps that are no choice of their own: words, and what is done in a strand's turn or by its CSRs. -/
def inTurns : Instr → Bool
  | .imm _ | .fmt _ _ _ _ | .hintBranchTarget _ | .hintNoBorrow _ | .hint _ _ | .illegalInstruction _ => true
  | .svcq _ _ _ | .svcdone _ _ _ | .deferredTrap _ | .migrationDepart _ | .creelQuantumEnd _ => true
  | i => (guardOf i).isSome

/-- An island runs: it has started and has not failed (R326, R332, R334). -/
def Running (s : State) (u : UnitId) : Prop := (s.island (islandOf u.die u.bay)).started = true ∧ (s.island (islandOf u.die u.bay)).failed = false

/-- A clock in the cycles of a unit: a spindle's runs at half the rate (Table 10-4). -/
def unitTime (s : State) (u : UnitId) (c : Nat) : Nat := if u.sp then (c - (s.island (islandOf u.die u.bay)).at_) / 2 else c

/-- A strand's reply has come in its unit's present cycle (R126). -/
def BackNow (s : State) (x : Nat) : Prop :=
  (s.strand x).back ≠ 0 ∧ unitTime s (s.unitOf x) ((s.strand x).back - 1) = unitTime s (s.unitOf x) s.clock

/-- No turn of a ready strand comes within the next `dt` core cycles (R124, R126). -/
def NoTurnWithin (s : State) (dt : Nat) : Prop :=
  ∀ e ∈ s.strands, ∀ u n, e.2.place = .slot u n → e.2.status = .ready → ¬ BackNow s e.1 → s.present e.1 = true → Running s u → dt ≤ s.untilTurn u n

/-- The turn of slot `n` of a unit is the next choice, `dt` cycles on; no turn of a ready strand comes before (R124). `s'` is the state in the
turn. -/
def TurnNext (s : State) (u : UnitId) (n dt : Nat) (lend : Bool) (s' : State) : Prop :=
  ∃ rest s1 c, s.agenda = ⟨dt, .turn u n lend⟩ :: rest ∧ NoTurnWithin s dt ∧ s1 = { s with agenda := rest, clock := s.clock + dt } ∧
    c = s1.unitCycle u ∧ n < (if u.sp then 8 else 16) ∧ c % (if u.sp then 8 else 16) = n ∧ (s1.unit u).lastTurn ≠ c + 1 ∧
    Running s1 u ∧ s' = s1.modUnit u (fun k => { k with lastTurn := c + 1 })

/-- In its turn a slot is a tenant's and its strand `x` holds it, with no half of an access of its own scratchpad left, or once that has been
performed (R34, R125); no strand waits in the creel, and no other tenant's program strand has the slot (R124, R323, R325). -/
def SlotTurn (s : State) (u : UnitId) (n x dt tag : Nat) (lend : Bool) (s' : State) : Prop :=
  ∃ s0, TurnNext s u n dt lend s0 ∧ ((s0.strand x).split = none ∧ s' = s0 ∨ (s0.strand x).split ≠ none ∧ exec (.homeAccess x) s0 = .next s') ∧
    s0.tenantOf u n = some tag ∧ s0.inSlot u tag n = some x ∧ (s'.strand x).place = .slot u n ∧ (s'.strand x).tag = tag ∧
    (s'.strand x).yielded = false ∧ s'.present x = true ∧ s'.creelOf u tag = [] ∧
    ∀ e ∈ s0.strands, e.2.place = .slot u n → e.2.card.isSome = true → e.2.tag = tag

/-- In its turn a slot is held only by strand `x` of a spindle program, whose tenant is not the one that owns the slot now (R325). -/
def RunsOnTurn (s : State) (u : UnitId) (n x dt : Nat) (lend : Bool) (s' : State) : Prop :=
  TurnNext s u n dt lend s' ∧ (x, s'.strand x) ∈ s'.strands ∧ (s'.strand x).place = .slot u n ∧ (s'.strand x).card.isSome = true ∧
    (∀ e ∈ s'.strands, e.2.place = .slot u n → e = (x, s'.strand x)) ∧
    (∀ tag, s'.tenantOf u n = some tag → (s'.strand x).tag ≠ tag ∧ s'.creelOf u tag = [])

/-- Message `m` is a delivery by strand `x` on its way (R82). -/
def Delivers (x : Nat) (m : Msg) : Prop := ∃ t k r v d p o, m = .deliver t k r v x d p o

/-- In a slot's turn its strand is ready, its reply has not come in this very cycle, and it issues (R124, R126, R150), with no delivery of it on its
way (R66). `s'` is the state in which its word is fetched. -/
def OwnTurn (s : State) (u : UnitId) (n x dt : Nat) (s' : State) : Prop :=
  ∃ lend s2, ((∃ tag, SlotTurn s u n x dt tag lend s2) ∨ RunsOnTurn s u n x dt lend s2) ∧ (s2.strand x).status = .ready ∧ ¬ BackNow s2 x ∧
    (s2.strand x).pend = none ∧ (s2.strand x).lost = [] ∧ (s2.strand x).leaving = none ∧ (s2.strand x).wait = .none ∧
    (∀ m ∈ s2.msgs, ¬ Delivers x m.2) ∧
    s' = { s2.setStrand x { s2.strand x with borrowed := false, noBorrow := (s2.strand x).noBorrow - 1 } with cur := x, lent := false }

/-- An issue is noted for its tenant's meters of issues and of energy (R338, log 94). -/
def issueCounted (s : State) (tag : Nat) : State :=
  let one (s : State) (m : Nat) : State := s.modPart tag (fun k => { k with owed := k.owed.set m (k.owed.getD m 0 + 1) })
  one (one s 5) 8

/-- A wait in which an instruction has not issued yet: for a translation or a tile, for an empty ring, or for room in the MXU's queue (R28, R38,
R46, R57, R263). -/
def unissued : Wait → Bool
  | .none | .tile _ | .pop _ _ | .mxq => true
  | .mem op => op.again
  | _ => false

/-- The instruction of a turn, from state `b` to `t`, has issued (R338): it does not wait to issue, a memory or device instruction has done
something (it lacked no record, R29), and it does not go to issue on another unit (R133). -/
def issued (i : Instr) (b t : State) : Bool :=
  !(decide ((t.strand b.cur).status = .waiting) && unissued (t.strand b.cur).wait) &&
  !(decide (2 ^ 31 ≤ (wordOf i).toNat) && decide (t.strand b.cur = b.me)) &&
  !(b.me.leaving.isNone && (t.strand b.cur).leaving.isSome && decide ((t.strand b.cur).pc = b.me.pc))

/-- What a turn notes of its instruction, from state `b` to `s` (R125, R127, R338): that it issued, the strand's last word, whether the turn was
borrowed, and its writes under way. -/
def afterTurn (i : Instr) (b s : State) : State :=
  let t := if issued i b s then issueCounted s b.me.tag else s
  { (if (Tbl.find t.strands t.cur).isSome then upd t (fun k => { k with
      borrowed := t.lent, word := wordOf i
      writing := if k.status = .ready ∧ k.pend = none then (if issued i b s then writingAfter k i t.clock else k.writing) else [] }) else t) with lent := false }

/-- Every strand reads p0 as 1 (R35). -/
def P0IsOne (s : State) : Prop := ∀ e ∈ s.strands, e.2.preds.getLsbD 0 = true

end Sys2Proof.Claims

open Sys2Proof Sys2Proof.Machine in
/-- R124, R150, R159, R188, R317: in its own turn a ready strand issues the instruction that the four bytes at its pc decode to, and a word that
decodes to none as an illegal instruction; the step is exec of it, and the turn notes what issued. A fetch outside the 56-bit addresses (0x08),
from a window (0x0A), of a poisoned word (0x40), which it consumes, or over a failed link (0x18) traps, with STS as it stood.
Choices of the model that it rests on: log 1, 19, 94, 109. -/
def Obligations.StepRunsTheFetchedInstruction : Prop :=
  ∀ (s s' s'' t : State) (u : UnitId) (n x dt k : Nat) (l : XLoc) (w : W32), Claims.OwnTurn s u n x dt s' →
    (s'.me.pc.toNat < 2 ^ 56 → ¬ Claims.windowed s'.me.pc → s'.paged (s'.unitOf x) s'.me.tag s'.me.pc .fetch = (.ok l, s'') →
      (Claims.HasKey s' s'.me.tag l.loc k → s'.badAt s'.me.tag l.loc 4 = false → w = .ofNat 32 (leNat (s'.mem.readBytes k 4)) →
        (∀ i, decode w = .ok i → exec i s'' = .next t → step s = .next (Claims.afterTurn i s'' t)) ∧
        (∀ e, decode w = .error e → exec (.illegalInstruction w) s'' = .next t → step s = .next (Claims.afterTurn (.illegalInstruction w) s'' t))) ∧
      (Claims.HasKey s' s'.me.tag l.loc k → s'.badAt s'.me.tag l.loc 4 = true → step s = .next ((s'.errSeen l.loc).raise 0x40 s'.me.pc)) ∧
      (∀ v g, l.loc = .foreign v g → (Tbl.get Link.init s''.links v).failed = true → step s = .next (s'.raise 0x18 s'.me.pc))) ∧
    (2 ^ 56 ≤ s'.me.pc.toNat → step s = .next (s'.raise 0x08 s'.me.pc)) ∧
    (s'.me.pc.toNat < 2 ^ 56 → Claims.windowed s'.me.pc → step s = .next (s'.raise 0x0A s'.me.pc))

open Sys2Proof Sys2Proof.Machine in
/-- R66, R124, R126, R127, R187: the other choices of a step. A step of the device is exec of it, once the clock has advanced; an instruction word
is no choice. The clock passes no turn of a ready strand: one that comes before the choice is taken first. A turn not at its cycle, or of a stopped or
halted strand, issues nothing; a trap that the strand holds, or that of a store it has lost, is taken in its turn; a withdrawn wait is issued again, one on
a phase against the instance that its number names now; a delivery of the strand that is on its way is performed before a later operation in the order
issues; and the turn of an owner that waits, or whose reply came in this cycle, goes where it is lent to the first slot below it, in order, whose
strand may borrow. With no choice listed, one is free.
Choices of the model that it rests on: log 1, 20, 87, 94, 107 (a delivery at the latest before the next operation in the order). -/
def Obligations.StepTakesTheChoice : Prop :=
  ∀ (s : State) (dt : Nat) (rest : List Choice),
    (∀ i, s.agenda = ⟨dt, .event i⟩ :: rest →
      (Claims.NoTurnWithin s dt → Claims.inTurns i = false → step s = exec i { s with agenda := rest, clock := s.clock + dt }) ∧
      (Claims.NoTurnWithin s dt → Claims.inTurns i = true → step s = .next { s with agenda := rest, clock := s.clock + dt })) ∧
    (∀ a x u n k, s.agenda = ⟨dt, a⟩ :: rest → (x, s.strand x) ∈ s.strands → (s.strand x).place = .slot u n → (s.strand x).status = .ready →
      ¬ Claims.BackNow s x → s.present x = true → Claims.Running s u → k = s.untilTurn u n → k < dt →
      (∀ e ∈ s.strands, e ≠ (x, s.strand x) → ∀ v m, e.2.place = .slot v m → e.2.status = .ready → s.present e.1 = true → k < s.untilTurn v m) →
      step s = step { s with agenda := ⟨k, .turn u n false⟩ :: ⟨dt - k, a⟩ :: rest }) ∧
    (∀ u n lend, s.agenda = ⟨dt, .turn u n lend⟩ :: rest → Claims.NoTurnWithin s dt →
      State.unitCycle { s with agenda := rest, clock := s.clock + dt } u % (if u.sp then 8 else 16) ≠ n →
      step s = .next { s with agenda := rest, clock := s.clock + dt }) ∧
    (∀ u n x tag lend s', Claims.SlotTurn s u n x dt tag lend s' →
      ((s'.strand x).status = .stopped ∨ (s'.strand x).status = .halted → step s = .next s') ∧
      ((s'.strand x).status = .ready → ¬ Claims.BackNow s' x → ∀ s0,
        s0 = { s'.setStrand x { s'.strand x with borrowed := false, noBorrow := (s'.strand x).noBorrow - 1 } with cur := x, lent := false } →
        ((s'.strand x).pend.isSome = true ∨ (s'.strand x).wait = .none ∧ (s'.strand x).lost ≠ [] → step s = exec (.deferredTrap x) s0) ∧
        (∀ d s1, (s'.strand x).pend = none → (s'.strand x).susp = some d →
          s1 = { s0.setStrand x { s0.strand x with status := .waiting, susp := none, since := (s0.strand x).since + (s0.clock - d), arr := s0.nextId } with
            nextId := s0.nextId + 1 } →
          (∀ m w, (s'.strand x).wait = .mbx m w → step s = .next s1) ∧
          (∀ die inst p lim dd, (s'.strand x).wait = .cwait die inst p lim → dd = s'.instDie (s'.dieOf x) inst →
            (∀ c, s'.instCheck tag dd inst (some true) = some c → step s = .next (s1.raise c (.ofNat 64 inst))) ∧
            (s'.instCheck tag dd inst (some true) = none → step s = .next (s1.setWait x (.cwait dd inst p lim))))) ∧
        (∀ s1 s2 t w i pre post id k r v d p o a, (s'.strand x).pend = none → (s'.strand x).lost = [] → (s'.strand x).leaving = none →
          (s'.strand x).wait = .none → s'.msgs = pre ++ (id, .deliver a k r v x d p o) :: post → (∀ m ∈ pre ++ post, m.1 ≠ id ∧ ¬ Claims.Delivers x m.2) →
          s0.fetch x = .word w s1 → decode w = .ok i → 2 ^ 31 ≤ w.toNat → exec (.messageDelivery id) s1 = .next s2 → exec i s2 = .next t →
          step s = .next (Claims.afterTurn i s2 t))) ∧
      ((s'.strand x).status = .waiting ∨ (s'.strand x).status = .parked ∨ ((s'.strand x).status = .ready ∧ Claims.BackNow s' x) →
        (lend = false ∨ u.sp = true ∨ (∀ k < 16, k ≠ n → k ≠ 0 → s'.inSlot u tag k = none) → step s = .next s') ∧
        ∀ y m w i s4 t, lend = true → u.sp = false → m < 16 → m ≠ n → m ≠ 0 → s'.inSlot u tag m = some y →
          (∀ k < 16, k ≠ n → k ≠ 0 → (n + 16 - k) % 16 < (n + 16 - m) % 16 → s'.inSlot u tag k = none) → (s'.strand y).status = .ready → ¬ Claims.BackNow s' y →
          s'.present y = true → (s'.strand y).pend = none → (s'.strand y).lost = [] → (s'.strand y).leaving = none → (s'.strand y).wait = .none →
          s'.fetch y = .word w s4 → decode w = .ok i → mayBorrow (s'.strand y) i s'.clock ((m + 16 - n) % 16) = true →
          exec i { s4 with cur := y, lent := true } = .next t → step s = .next (Claims.afterTurn i { s4 with cur := y, lent := true } t))) ∧
    (s.agenda = [] → step s = step { s with agenda := [Config.choose s.freeCtr], freeCtr := s.freeCtr + 1 })

open Sys2Proof Sys2Proof.Machine in
/-- Tables 8-8, 10-9, 11-11 and 12-9: every word of the spec's worked encodings decodes to the instruction it is written for. -/
def Obligations.WorkedEncodings : Prop :=
  ∀ p ∈ Claims.workedWords, decode p.1 = .ok p.2

open Sys2Proof Sys2Proof.Machine in
/-- R153 to R160: decoding and encoding agree. A well-formed instruction's word decodes to it, with every operand it has; a word that decodes
gives a well-formed instruction whose word it is; and every instruction with a guard has a word. -/
def Obligations.EncodingRoundTrip : Prop :=
  (∀ (i : Instr) (w : W32), i.wf = true → encode i = some w → decode w = .ok i) ∧
  (∀ (i : Instr) (w : W32), decode w = .ok i → i.wf = true ∧ encode i = some w) ∧
  ∀ (i : Instr) (g : Guard), Claims.guardOf i = some g → i.wf = true → (encode i).isSome = true

open Sys2Proof Sys2Proof.Machine in
/-- The memory keeps its canonical form: addresses rise strictly, and no listed byte is what an unlisted one reads as. Every step keeps it.
Choices of the model that it rests on: log 5. -/
def Obligations.MemoryStaysCanonical : Prop :=
  ∀ s s' : State, s.mem.wf = true → step s = .next s' → s'.mem.wf = true

open Sys2Proof Sys2Proof.Machine in
/-- R35: p0 reads as 1. Every step keeps bit 0 of every strand's predicate word 1. -/
def Obligations.P0StaysOne : Prop :=
  ∀ s s' : State, Claims.P0IsOne s → step s = .next s' → Claims.P0IsOne s'

open Sys2Proof Sys2Proof.Machine in
/-- No instruction and no step of the device ends in a fault or a refusal: each one answers a next state (traps, waits and errors are next
states), and so does every step of the machine.
Choices of the model that it rests on: log 1. -/
def Obligations.EveryStepAnswers : Prop :=
  (∀ (i : Instr) (s : State), ∃ t, exec i s = .next t) ∧ ∀ s : State, ∃ t, step s = .next t

open Sys2Proof Sys2Proof.Machine in
/-- Tables 1-7, 2-5, 2-6, 2-9, 3-3, 5-3, 6-8, 10-6, 13-9, 15-1, 15-6, 16-2, 16-4, 16-7, 17-3: the machine after reset holds the values that the
spec's register tables give, with no strand, no translation, no remote copy and no times; its memory has its canonical form and every strand reads p0 as 1.
Choices of the model that it rests on: log 4. -/
def Obligations.ResetState : Prop :=
  State.reset.mem.wf = true ∧ Claims.P0IsOne State.reset ∧ State.reset.strands = [] ∧
  (∀ tag, (State.reset.part tag).fectl = 0x40010000#64 ∧ (State.reset.part tag).wdctl = 0x8000000000000024#64 ∧
    (State.reset.part tag).vdsch = 0x0000006407D00001#64 ∧ (State.reset.part tag).xtb = 0 ∧ (State.reset.part tag).xsg = 0 ∧
    (State.reset.part tag).xfm = 0 ∧ (State.reset.part tag).xfq = 0 ∧ (State.reset.part tag).xtq = 0 ∧ (State.reset.part tag).xfqh = 0 ∧
    (State.reset.part tag).xfqt = 0 ∧ (State.reset.part tag).xtqh = 0 ∧ (State.reset.part tag).xtqt = 0 ∧ (State.reset.part tag).sva = 0 ∧
    (State.reset.part tag).crvlt = 0 ∧ ∀ q, (State.reset.queue tag q).cfg = 0 ∧ (State.reset.queue tag q).pc = 0 ∧ (State.reset.queue tag q).end_ = 0 ∧
      (State.reset.queue tag q).st = 0) ∧
  (∀ u, (State.reset.unit u).tlb = [] ∧ (State.reset.unit u).segs = []) ∧
  (∀ d c, (State.reset.cluster d c).tlb = [] ∧ (State.reset.cluster d c).wcache = []) ∧ State.reset.rdc = [] ∧ State.reset.lines = [] ∧
  (∀ d, (State.reset.die d).rdcctl = 0x1000 ∧ (State.reset.die d).raslog = 0) ∧ (∀ d c, (State.reset.cluster d c).scsrv = 0x8000000000000000#64) ∧
  (∀ i, (State.reset.island i).cfg = 0) ∧ (∀ d i, (State.reset.inst d i).w0 = 0x03E0000000000000#64 ∧ (State.reset.inst d i).w1 = 0 ∧ (State.reset.inst d i).w2 = 0) ∧
  (∀ u, (State.reset.unit u).crcfg = 0 ∧ (State.reset.unit u).hen = 0 ∧ (State.reset.unit u).orph = 0) ∧
  ∀ tag die bay n t r, t = State.reset.tile tag die bay n → r = State.reset.ring ⟨die, bay, false⟩ tag n →
    t.st = .empty ∧ t.err = false ∧ t.mc = false ∧ t.pend = 0 ∧ t.len = 0 ∧ t.base = 0 ∧
    r.st = .free ∧ r.pmask = 0 ∧ r.eos = 0 ∧ r.log2n = 0 ∧ r.limexp = 0 ∧ r.head = 0 ∧ r.tail = 0 ∧ r.base = 0 ∧
    (State.reset.ten die bay tag).loom.act = false ∧ (State.reset.ten die bay tag).loom.err = false ∧
    (∀ off < 2 ^ 16, off % 8 = 0 → State.reset.controlRead die (2 ^ 32 + 2 ^ 16 * (bay % 2048) + off) .full = 0)
end

