-- ==== Sys2Proof/Laws/Memory.lean ====
section
/-!
SUPPORT. The laws of tables and of memory: a read after a write, and that every operation keeps memory in its canonical form.
-/
namespace Sys2Proof.Machine

variable {α : Type}

/-- A table set and looked up at the same number. -/
@[simp] theorem Tbl.get_set_same (d : α) (t : Tbl α) (n : Nat) (v : α) : Tbl.get d (Tbl.set t n v) n = v := by
  induction t with
  | nil => simp [Tbl.set, Tbl.get]
  | cons e t ih =>
    obtain ⟨k, w⟩ := e
    simp only [Tbl.set]
    split
    · simp [Tbl.get]
    · split
      · simp [Tbl.get]
      · simp_all [Tbl.get]

/-- A table set and looked up at another number. -/
theorem Tbl.get_set_ne (d : α) (t : Tbl α) {n m : Nat} (v : α) (h : m ≠ n) : Tbl.get d (Tbl.set t n v) m = Tbl.get d t m := by
  induction t with
  | nil => simp [Tbl.set, Tbl.get, Ne.symm h]
  | cons e t ih =>
    obtain ⟨k, w⟩ := e
    simp only [Tbl.set]
    split
    · subst k; simp [Tbl.get, Ne.symm h]
    · split
      · simp [Tbl.get, Ne.symm h]
      · simp [Tbl.get, ih]

@[simp] theorem Tbl.find_set_same (t : Tbl α) (n : Nat) (v : α) : Tbl.find (Tbl.set t n v) n = some v := by
  induction t with
  | nil => simp [Tbl.set, Tbl.find]
  | cons e t ih =>
    obtain ⟨k, w⟩ := e
    simp only [Tbl.set]
    split
    · simp [Tbl.find]
    · split
      · simp [Tbl.find]
      · simp_all [Tbl.find]

theorem Tbl.find_set_ne (t : Tbl α) {n m : Nat} (v : α) (h : m ≠ n) : Tbl.find (Tbl.set t n v) m = Tbl.find t m := by
  induction t with
  | nil => simp [Tbl.set, Tbl.find, Ne.symm h]
  | cons e t ih =>
    obtain ⟨k, w⟩ := e
    simp only [Tbl.set]
    split
    · subst k; simp [Tbl.find, Ne.symm h]
    · split
      · simp [Tbl.find, Ne.symm h]
      · simp [Tbl.find, ih]

@[simp] theorem Tbl.find_del_same (t : Tbl α) (n : Nat) : Tbl.find (Tbl.del t n) n = none := by
  induction t with
  | nil => simp [Tbl.del, Tbl.find]
  | cons e t ih =>
    obtain ⟨k, w⟩ := e
    simp only [Tbl.del]
    split <;> simp_all [Tbl.find]

theorem Tbl.find_del_ne (t : Tbl α) {n m : Nat} (h : m ≠ n) : Tbl.find (Tbl.del t n) m = Tbl.find t m := by
  induction t with
  | nil => simp [Tbl.del]
  | cons e t ih =>
    obtain ⟨k, w⟩ := e
    simp only [Tbl.del]
    split
    · subst k; simp [Tbl.find, Ne.symm h, ih]
    · simp [Tbl.find, ih]

@[simp] theorem Tbl.get_del_same (d : α) (t : Tbl α) (n : Nat) : Tbl.get d (Tbl.del t n) n = d := by
  induction t with
  | nil => simp [Tbl.del, Tbl.get]
  | cons e t ih =>
    obtain ⟨k, w⟩ := e
    simp only [Tbl.del]
    split <;> simp_all [Tbl.get]

theorem Tbl.get_del_ne (d : α) (t : Tbl α) {n m : Nat} (h : m ≠ n) : Tbl.get d (Tbl.del t n) m = Tbl.get d t m := by
  induction t with
  | nil => simp [Tbl.del]
  | cons e t ih =>
    obtain ⟨k, w⟩ := e
    simp only [Tbl.del]
    split
    · subst k; simp [Tbl.get, Ne.symm h, ih]
    · simp [Tbl.get, ih]

/-- A number that is listed is read as it is listed. -/
theorem Tbl.get_of_find {t : Tbl α} {n : Nat} {v : α} (d : α) (h : Tbl.find t n = some v) : Tbl.get d t n = v := by
  induction t with
  | nil => simp [Tbl.find] at h
  | cons e t ih =>
    obtain ⟨k, w⟩ := e
    simp only [Tbl.find] at h
    split at h
    · simp_all [Tbl.get]
    · rename_i hk; simp [Tbl.get, hk, ih h]

/-- A write to a byte, read back there. -/
@[simp] theorem Memory.read_write_same (m : Memory) (a : Nat) (v : Byte) : (m.write a v).read a = v := by
  unfold Memory.write Memory.read
  split
  · next h => rw [Tbl.get_del_same, h]
  · exact Tbl.get_set_same ..

/-- A write to a byte leaves every other byte alone. -/
theorem Memory.read_write_ne (m : Memory) {a b : Nat} (v : Byte) (h : b ≠ a) : (m.write a v).read b = m.read b := by
  unfold Memory.write Memory.read
  split
  · exact Tbl.get_del_ne _ _ h
  · exact Tbl.get_set_ne _ _ _ h

/-- A write of bytes leaves every byte outside them alone. -/
theorem Memory.read_writeBytes_out (bs : List Byte) (m : Memory) {a b : Nat} (h : b < a ∨ a + bs.length ≤ b) :
    (m.writeBytes a bs).read b = m.read b := by
  induction bs generalizing m a with
  | nil => rfl
  | cons v bs ih =>
    simp only [Memory.writeBytes, List.length_cons] at *
    rw [ih _ (by omega), Memory.read_write_ne _ _ (by omega)]

/-- A byte written reads back as it was written. -/
theorem Memory.read_writeBytes_in (bs : List Byte) (m : Memory) {a i : Nat} (h : i < bs.length) :
    (m.writeBytes a bs).read (a + i) = bs[i] := by
  induction bs generalizing m a i with
  | nil => simp at h
  | cons v bs ih =>
    simp only [Memory.writeBytes]
    cases i with
    | zero => rw [Memory.read_writeBytes_out _ _ (by omega)]; simp
    | succ i =>
      have := ih (m.write a v) (a := a + 1) (i := i) (by simpa using h)
      rw [show a + (i + 1) = a + 1 + i by omega, this]; rfl

/-- The numbers of a table rise strictly from above `lo`, as a proposition. -/
theorem Tbl.risingFrom_cons (lo : Option Nat) (k : Nat) (v : α) (t : Tbl α) :
    Tbl.risingFrom lo ((k, v) :: t) = true ↔ (∀ l, lo = some l → l < k) ∧ Tbl.risingFrom (some k) t = true := by
  cases lo <;> simp [Tbl.risingFrom]

theorem Tbl.risingFrom_weaken {lo lo' : Option Nat} {t : Tbl α} (hl : ∀ l, lo' = some l → ∃ m, lo = some m ∧ l ≤ m)
    (h : Tbl.risingFrom lo t = true) : Tbl.risingFrom lo' t = true := by
  cases t with
  | nil => rfl
  | cons e t =>
    obtain ⟨k, v⟩ := e
    rw [Tbl.risingFrom_cons] at *
    refine ⟨fun l h' => ?_, h.2⟩
    obtain ⟨m, h1, h2⟩ := hl l h'
    have := h.1 m h1
    omega

theorem Tbl.risingFrom_set {lo : Option Nat} {t : Tbl α} {n : Nat} {v : α} (h : Tbl.risingFrom lo t = true)
    (hn : ∀ l, lo = some l → l < n) : Tbl.risingFrom lo (Tbl.set t n v) = true := by
  induction t generalizing lo with
  | nil => rw [Tbl.set, Tbl.risingFrom_cons]; exact ⟨hn, rfl⟩
  | cons e t ih =>
    obtain ⟨k, w⟩ := e
    rw [Tbl.risingFrom_cons] at h
    simp only [Tbl.set]
    split
    · subst k; rw [Tbl.risingFrom_cons]; exact ⟨hn, h.2⟩
    · split
      · rw [Tbl.risingFrom_cons, Tbl.risingFrom_cons]
        exact ⟨hn, by rintro l ⟨⟩; assumption, h.2⟩
      · rw [Tbl.risingFrom_cons]
        exact ⟨h.1, ih h.2 (by rintro l ⟨⟩; omega)⟩

theorem Tbl.risingFrom_filter (p : Nat × α → Bool) {lo : Option Nat} {t : Tbl α} (h : Tbl.risingFrom lo t = true) :
    Tbl.risingFrom lo (t.filter p) = true := by
  induction t generalizing lo with
  | nil => rfl
  | cons e t ih =>
    obtain ⟨k, w⟩ := e
    rw [Tbl.risingFrom_cons] at h
    by_cases hp : p (k, w)
    · rw [List.filter_cons_of_pos hp, Tbl.risingFrom_cons]
      exact ⟨h.1, ih h.2⟩
    · rw [List.filter_cons_of_neg hp]
      refine Tbl.risingFrom_weaken ?_ (ih h.2)
      intro l hl
      exact ⟨k, rfl, Nat.le_of_lt (h.1 l hl)⟩

/-- Removing a number is filtering it out. -/
theorem Tbl.del_eq_filter (t : Tbl α) (n : Nat) : Tbl.del t n = t.filter (fun e => e.1 != n) := by
  induction t with
  | nil => rfl
  | cons e t ih =>
    obtain ⟨k, w⟩ := e
    simp only [Tbl.del, List.filter_cons]
    split <;> simp_all

/-- What a set table lists was there before, or is what was set. -/
theorem Tbl.mem_set {t : Tbl α} {n : Nat} {v : α} {e : Nat × α} (h : e ∈ Tbl.set t n v) : e = (n, v) ∨ e ∈ t := by
  induction t with
  | nil => simp_all [Tbl.set]
  | cons c t ih =>
    obtain ⟨k, w⟩ := c
    simp only [Tbl.set] at h
    split at h
    · exact (List.mem_cons.mp h).imp id (List.mem_cons_of_mem _)
    · split at h
      · exact List.mem_cons.mp h
      · exact (List.mem_cons.mp h).elim (fun g => .inr (g ▸ List.mem_cons_self ..)) (fun g => (ih g).imp id (List.mem_cons_of_mem _))

/-- The canonical form as a proposition. -/
theorem Memory.wf_iff (m : Memory) : m.wf = true ↔ Tbl.risingFrom none m = true ∧ ∀ e ∈ m, e.2 ≠ Memory.unwritten := by
  simp [Memory.wf]

/-- Memory in which nothing is listed is in canonical form. -/
theorem Memory.wf_nil : Memory.wf [] = true := by decide

/-- Listing a byte that is not what an unlisted address reads as keeps the canonical form. -/
theorem Memory.wf_set {m : Memory} {a : Nat} {v : Byte} (h : m.wf = true) (hv : v ≠ Memory.unwritten) :
    Memory.wf (Tbl.set m a v) = true := by
  rw [Memory.wf_iff] at *
  refine ⟨Tbl.risingFrom_set h.1 (by simp), fun e he => ?_⟩
  rcases Tbl.mem_set he with rfl | he
  · exact hv
  · exact h.2 e he

/-- Filtering keeps the canonical form. -/
theorem Memory.wf_filter {m : Memory} (p : Nat × Byte → Bool) (h : m.wf = true) : Memory.wf (m.filter p) = true := by
  rw [Memory.wf_iff] at *
  exact ⟨Tbl.risingFrom_filter p h.1, fun e he => h.2 e (List.mem_filter.mp he).1⟩

/-- A write keeps the canonical form. -/
theorem Memory.wf_write {m : Memory} (a : Nat) (v : Byte) (h : m.wf = true) : Memory.wf (m.write a v) = true := by
  unfold Memory.write
  split
  · rw [Tbl.del_eq_filter]; exact Memory.wf_filter _ h
  · exact Memory.wf_set h ‹_›

/-- A write of bytes keeps the canonical form. -/
theorem Memory.wf_writeBytes {m : Memory} (a : Nat) (bs : List Byte) (h : m.wf = true) : Memory.wf (m.writeBytes a bs) = true := by
  induction bs generalizing m a with
  | nil => exact h
  | cons b bs ih => exact ih _ (Memory.wf_write a b h)

/-- Moving a range keeps the canonical form. -/
theorem Memory.wf_moveTbl {m : Memory} (a b n : Nat) (h : m.wf = true) : Memory.wf (moveTbl m a b n) = true := by
  unfold moveTbl
  have aux : ∀ (l : List (Nat × Byte)) (t : Memory), (∀ e ∈ l, e.2 ≠ Memory.unwritten) → t.wf = true →
      Memory.wf (l.foldl (fun t e => Tbl.set t (e.1 - a + b) e.2) t) = true := by
    intro l
    induction l with
    | nil => intro t _ h; exact h
    | cons e l ih => intro t hl ht; exact ih _ (fun e he => hl e (by simp [he])) (Memory.wf_set ht (hl e (by simp)))
  refine aux _ _ (fun e he => ?_) (Memory.wf_filter _ h)
  exact ((Memory.wf_iff m).mp h).2 e (List.mem_filter.mp he).1

/-- The state after reset has memory in canonical form. -/
theorem State.reset_mem_wf : State.reset.mem.wf = true := by decide

end Sys2Proof.Machine
end

