-- ==== Sys2Proof/Laws/State.lean ====
section
/-!
SUPPORT. What each update of the state leaves: one lemma per field per update, so that no proof unfolds a record update.
-/
namespace Sys2Proof.Machine

@[simp] theorem State.setStrand_agenda (s : State) (x : Nat) (v : Strand) : (s.setStrand x v).agenda = s.agenda := rfl
@[simp] theorem State.setStrand_freeCtr (s : State) (x : Nat) (v : Strand) : (s.setStrand x v).freeCtr = s.freeCtr := rfl
@[simp] theorem State.setStrand_cur (s : State) (x : Nat) (v : Strand) : (s.setStrand x v).cur = s.cur := rfl
@[simp] theorem State.setStrand_lent (s : State) (x : Nat) (v : Strand) : (s.setStrand x v).lent = s.lent := rfl
@[simp] theorem State.setStrand_nextId (s : State) (x : Nat) (v : Strand) : (s.setStrand x v).nextId = s.nextId := rfl
@[simp] theorem State.setStrand_clock (s : State) (x : Nat) (v : Strand) : (s.setStrand x v).clock = s.clock := rfl
@[simp] theorem State.setStrand_serial (s : State) (x : Nat) (v : Strand) : (s.setStrand x v).serial = s.serial := rfl
@[simp] theorem State.setStrand_mem (s : State) (x : Nat) (v : Strand) : (s.setStrand x v).mem = s.mem := rfl
@[simp] theorem State.setStrand_full (s : State) (x : Nat) (v : Strand) : (s.setStrand x v).full = s.full := rfl
@[simp] theorem State.setStrand_poison (s : State) (x : Nat) (v : Strand) : (s.setStrand x v).poison = s.poison := rfl
@[simp] theorem State.setStrand_errs (s : State) (x : Nat) (v : Strand) : (s.setStrand x v).errs = s.errs := rfl
@[simp] theorem State.setStrand_lines (s : State) (x : Nat) (v : Strand) : (s.setStrand x v).lines = s.lines := rfl
@[simp] theorem State.setStrand_rdc (s : State) (x : Nat) (v : Strand) : (s.setStrand x v).rdc = s.rdc := rfl
@[simp] theorem State.setStrand_rbuf (s : State) (x : Nat) (v : Strand) : (s.setStrand x v).rbuf = s.rbuf := rfl
@[simp] theorem State.setStrand_lbuf (s : State) (x : Nat) (v : Strand) : (s.setStrand x v).lbuf = s.lbuf := rfl
@[simp] theorem State.setStrand_scLog (s : State) (x : Nat) (v : Strand) : (s.setStrand x v).scLog = s.scLog := rfl
@[simp] theorem State.setStrand_strands (s : State) (x : Nat) (v : Strand) : (s.setStrand x v).strands = Tbl.set s.strands x v := rfl
@[simp] theorem State.setStrand_units (s : State) (x : Nat) (v : Strand) : (s.setStrand x v).units = s.units := rfl
@[simp] theorem State.setStrand_tens (s : State) (x : Nat) (v : Strand) : (s.setStrand x v).tens = s.tens := rfl
@[simp] theorem State.setStrand_parts (s : State) (x : Nat) (v : Strand) : (s.setStrand x v).parts = s.parts := rfl
@[simp] theorem State.setStrand_dies (s : State) (x : Nat) (v : Strand) : (s.setStrand x v).dies = s.dies := rfl
@[simp] theorem State.setStrand_clusters (s : State) (x : Nat) (v : Strand) : (s.setStrand x v).clusters = s.clusters := rfl
@[simp] theorem State.setStrand_islands (s : State) (x : Nat) (v : Strand) : (s.setStrand x v).islands = s.islands := rfl
@[simp] theorem State.setStrand_insts (s : State) (x : Nat) (v : Strand) : (s.setStrand x v).insts = s.insts := rfl
@[simp] theorem State.setStrand_tokens (s : State) (x : Nat) (v : Strand) : (s.setStrand x v).tokens = s.tokens := rfl
@[simp] theorem State.setStrand_cards (s : State) (x : Nat) (v : Strand) : (s.setStrand x v).cards = s.cards := rfl
@[simp] theorem State.setStrand_chans (s : State) (x : Nat) (v : Strand) : (s.setStrand x v).chans = s.chans := rfl
@[simp] theorem State.setStrand_fills (s : State) (x : Nat) (v : Strand) : (s.setStrand x v).fills = s.fills := rfl
@[simp] theorem State.setStrand_drains (s : State) (x : Nat) (v : Strand) : (s.setStrand x v).drains = s.drains := rfl
@[simp] theorem State.setStrand_msgs (s : State) (x : Nat) (v : Strand) : (s.setStrand x v).msgs = s.msgs := rfl
@[simp] theorem State.setStrand_launches (s : State) (x : Nat) (v : Strand) : (s.setStrand x v).launches = s.launches := rfl
@[simp] theorem State.setStrand_fields (s : State) (x : Nat) (v : Strand) : (s.setStrand x v).fields = s.fields := rfl
@[simp] theorem State.setStrand_links (s : State) (x : Nat) (v : Strand) : (s.setStrand x v).links = s.links := rfl
@[simp] theorem State.setStrand_dev (s : State) (x : Nat) (v : Strand) : (s.setStrand x v).dev = s.dev := rfl

@[simp] theorem State.modStrand_agenda (s : State) (x : Nat) (f : Strand → Strand) : (s.modStrand x f).agenda = s.agenda := rfl
@[simp] theorem State.modStrand_freeCtr (s : State) (x : Nat) (f : Strand → Strand) : (s.modStrand x f).freeCtr = s.freeCtr := rfl
@[simp] theorem State.modStrand_cur (s : State) (x : Nat) (f : Strand → Strand) : (s.modStrand x f).cur = s.cur := rfl
@[simp] theorem State.modStrand_lent (s : State) (x : Nat) (f : Strand → Strand) : (s.modStrand x f).lent = s.lent := rfl
@[simp] theorem State.modStrand_nextId (s : State) (x : Nat) (f : Strand → Strand) : (s.modStrand x f).nextId = s.nextId := rfl
@[simp] theorem State.modStrand_clock (s : State) (x : Nat) (f : Strand → Strand) : (s.modStrand x f).clock = s.clock := rfl
@[simp] theorem State.modStrand_serial (s : State) (x : Nat) (f : Strand → Strand) : (s.modStrand x f).serial = s.serial := rfl
@[simp] theorem State.modStrand_mem (s : State) (x : Nat) (f : Strand → Strand) : (s.modStrand x f).mem = s.mem := rfl
@[simp] theorem State.modStrand_full (s : State) (x : Nat) (f : Strand → Strand) : (s.modStrand x f).full = s.full := rfl
@[simp] theorem State.modStrand_poison (s : State) (x : Nat) (f : Strand → Strand) : (s.modStrand x f).poison = s.poison := rfl
@[simp] theorem State.modStrand_errs (s : State) (x : Nat) (f : Strand → Strand) : (s.modStrand x f).errs = s.errs := rfl
@[simp] theorem State.modStrand_lines (s : State) (x : Nat) (f : Strand → Strand) : (s.modStrand x f).lines = s.lines := rfl
@[simp] theorem State.modStrand_rdc (s : State) (x : Nat) (f : Strand → Strand) : (s.modStrand x f).rdc = s.rdc := rfl
@[simp] theorem State.modStrand_rbuf (s : State) (x : Nat) (f : Strand → Strand) : (s.modStrand x f).rbuf = s.rbuf := rfl
@[simp] theorem State.modStrand_lbuf (s : State) (x : Nat) (f : Strand → Strand) : (s.modStrand x f).lbuf = s.lbuf := rfl
@[simp] theorem State.modStrand_scLog (s : State) (x : Nat) (f : Strand → Strand) : (s.modStrand x f).scLog = s.scLog := rfl
@[simp] theorem State.modStrand_strands (s : State) (x : Nat) (f : Strand → Strand) : (s.modStrand x f).strands = Tbl.set s.strands x (f (s.strand x)) := rfl
@[simp] theorem State.modStrand_units (s : State) (x : Nat) (f : Strand → Strand) : (s.modStrand x f).units = s.units := rfl
@[simp] theorem State.modStrand_tens (s : State) (x : Nat) (f : Strand → Strand) : (s.modStrand x f).tens = s.tens := rfl
@[simp] theorem State.modStrand_parts (s : State) (x : Nat) (f : Strand → Strand) : (s.modStrand x f).parts = s.parts := rfl
@[simp] theorem State.modStrand_dies (s : State) (x : Nat) (f : Strand → Strand) : (s.modStrand x f).dies = s.dies := rfl
@[simp] theorem State.modStrand_clusters (s : State) (x : Nat) (f : Strand → Strand) : (s.modStrand x f).clusters = s.clusters := rfl
@[simp] theorem State.modStrand_islands (s : State) (x : Nat) (f : Strand → Strand) : (s.modStrand x f).islands = s.islands := rfl
@[simp] theorem State.modStrand_insts (s : State) (x : Nat) (f : Strand → Strand) : (s.modStrand x f).insts = s.insts := rfl
@[simp] theorem State.modStrand_tokens (s : State) (x : Nat) (f : Strand → Strand) : (s.modStrand x f).tokens = s.tokens := rfl
@[simp] theorem State.modStrand_cards (s : State) (x : Nat) (f : Strand → Strand) : (s.modStrand x f).cards = s.cards := rfl
@[simp] theorem State.modStrand_chans (s : State) (x : Nat) (f : Strand → Strand) : (s.modStrand x f).chans = s.chans := rfl
@[simp] theorem State.modStrand_fills (s : State) (x : Nat) (f : Strand → Strand) : (s.modStrand x f).fills = s.fills := rfl
@[simp] theorem State.modStrand_drains (s : State) (x : Nat) (f : Strand → Strand) : (s.modStrand x f).drains = s.drains := rfl
@[simp] theorem State.modStrand_msgs (s : State) (x : Nat) (f : Strand → Strand) : (s.modStrand x f).msgs = s.msgs := rfl
@[simp] theorem State.modStrand_launches (s : State) (x : Nat) (f : Strand → Strand) : (s.modStrand x f).launches = s.launches := rfl
@[simp] theorem State.modStrand_fields (s : State) (x : Nat) (f : Strand → Strand) : (s.modStrand x f).fields = s.fields := rfl
@[simp] theorem State.modStrand_links (s : State) (x : Nat) (f : Strand → Strand) : (s.modStrand x f).links = s.links := rfl
@[simp] theorem State.modStrand_dev (s : State) (x : Nat) (f : Strand → Strand) : (s.modStrand x f).dev = s.dev := rfl

@[simp] theorem State.modUnit_agenda (s : State) (u : UnitId) (f : CoreUnit → CoreUnit) : (s.modUnit u f).agenda = s.agenda := rfl
@[simp] theorem State.modUnit_freeCtr (s : State) (u : UnitId) (f : CoreUnit → CoreUnit) : (s.modUnit u f).freeCtr = s.freeCtr := rfl
@[simp] theorem State.modUnit_cur (s : State) (u : UnitId) (f : CoreUnit → CoreUnit) : (s.modUnit u f).cur = s.cur := rfl
@[simp] theorem State.modUnit_lent (s : State) (u : UnitId) (f : CoreUnit → CoreUnit) : (s.modUnit u f).lent = s.lent := rfl
@[simp] theorem State.modUnit_nextId (s : State) (u : UnitId) (f : CoreUnit → CoreUnit) : (s.modUnit u f).nextId = s.nextId := rfl
@[simp] theorem State.modUnit_clock (s : State) (u : UnitId) (f : CoreUnit → CoreUnit) : (s.modUnit u f).clock = s.clock := rfl
@[simp] theorem State.modUnit_serial (s : State) (u : UnitId) (f : CoreUnit → CoreUnit) : (s.modUnit u f).serial = s.serial := rfl
@[simp] theorem State.modUnit_mem (s : State) (u : UnitId) (f : CoreUnit → CoreUnit) : (s.modUnit u f).mem = s.mem := rfl
@[simp] theorem State.modUnit_full (s : State) (u : UnitId) (f : CoreUnit → CoreUnit) : (s.modUnit u f).full = s.full := rfl
@[simp] theorem State.modUnit_poison (s : State) (u : UnitId) (f : CoreUnit → CoreUnit) : (s.modUnit u f).poison = s.poison := rfl
@[simp] theorem State.modUnit_errs (s : State) (u : UnitId) (f : CoreUnit → CoreUnit) : (s.modUnit u f).errs = s.errs := rfl
@[simp] theorem State.modUnit_lines (s : State) (u : UnitId) (f : CoreUnit → CoreUnit) : (s.modUnit u f).lines = s.lines := rfl
@[simp] theorem State.modUnit_rdc (s : State) (u : UnitId) (f : CoreUnit → CoreUnit) : (s.modUnit u f).rdc = s.rdc := rfl
@[simp] theorem State.modUnit_rbuf (s : State) (u : UnitId) (f : CoreUnit → CoreUnit) : (s.modUnit u f).rbuf = s.rbuf := rfl
@[simp] theorem State.modUnit_lbuf (s : State) (u : UnitId) (f : CoreUnit → CoreUnit) : (s.modUnit u f).lbuf = s.lbuf := rfl
@[simp] theorem State.modUnit_scLog (s : State) (u : UnitId) (f : CoreUnit → CoreUnit) : (s.modUnit u f).scLog = s.scLog := rfl
@[simp] theorem State.modUnit_strands (s : State) (u : UnitId) (f : CoreUnit → CoreUnit) : (s.modUnit u f).strands = s.strands := rfl
@[simp] theorem State.modUnit_units (s : State) (u : UnitId) (f : CoreUnit → CoreUnit) : (s.modUnit u f).units = Tbl.set s.units (unitKey u) (f (s.unit u)) := rfl
@[simp] theorem State.modUnit_tens (s : State) (u : UnitId) (f : CoreUnit → CoreUnit) : (s.modUnit u f).tens = s.tens := rfl
@[simp] theorem State.modUnit_parts (s : State) (u : UnitId) (f : CoreUnit → CoreUnit) : (s.modUnit u f).parts = s.parts := rfl
@[simp] theorem State.modUnit_dies (s : State) (u : UnitId) (f : CoreUnit → CoreUnit) : (s.modUnit u f).dies = s.dies := rfl
@[simp] theorem State.modUnit_clusters (s : State) (u : UnitId) (f : CoreUnit → CoreUnit) : (s.modUnit u f).clusters = s.clusters := rfl
@[simp] theorem State.modUnit_islands (s : State) (u : UnitId) (f : CoreUnit → CoreUnit) : (s.modUnit u f).islands = s.islands := rfl
@[simp] theorem State.modUnit_insts (s : State) (u : UnitId) (f : CoreUnit → CoreUnit) : (s.modUnit u f).insts = s.insts := rfl
@[simp] theorem State.modUnit_tokens (s : State) (u : UnitId) (f : CoreUnit → CoreUnit) : (s.modUnit u f).tokens = s.tokens := rfl
@[simp] theorem State.modUnit_cards (s : State) (u : UnitId) (f : CoreUnit → CoreUnit) : (s.modUnit u f).cards = s.cards := rfl
@[simp] theorem State.modUnit_chans (s : State) (u : UnitId) (f : CoreUnit → CoreUnit) : (s.modUnit u f).chans = s.chans := rfl
@[simp] theorem State.modUnit_fills (s : State) (u : UnitId) (f : CoreUnit → CoreUnit) : (s.modUnit u f).fills = s.fills := rfl
@[simp] theorem State.modUnit_drains (s : State) (u : UnitId) (f : CoreUnit → CoreUnit) : (s.modUnit u f).drains = s.drains := rfl
@[simp] theorem State.modUnit_msgs (s : State) (u : UnitId) (f : CoreUnit → CoreUnit) : (s.modUnit u f).msgs = s.msgs := rfl
@[simp] theorem State.modUnit_launches (s : State) (u : UnitId) (f : CoreUnit → CoreUnit) : (s.modUnit u f).launches = s.launches := rfl
@[simp] theorem State.modUnit_fields (s : State) (u : UnitId) (f : CoreUnit → CoreUnit) : (s.modUnit u f).fields = s.fields := rfl
@[simp] theorem State.modUnit_links (s : State) (u : UnitId) (f : CoreUnit → CoreUnit) : (s.modUnit u f).links = s.links := rfl
@[simp] theorem State.modUnit_dev (s : State) (u : UnitId) (f : CoreUnit → CoreUnit) : (s.modUnit u f).dev = s.dev := rfl

@[simp] theorem State.modTen_agenda (s : State) (a b c : Nat) (f : TenBay → TenBay) : (s.modTen a b c f).agenda = s.agenda := rfl
@[simp] theorem State.modTen_freeCtr (s : State) (a b c : Nat) (f : TenBay → TenBay) : (s.modTen a b c f).freeCtr = s.freeCtr := rfl
@[simp] theorem State.modTen_cur (s : State) (a b c : Nat) (f : TenBay → TenBay) : (s.modTen a b c f).cur = s.cur := rfl
@[simp] theorem State.modTen_lent (s : State) (a b c : Nat) (f : TenBay → TenBay) : (s.modTen a b c f).lent = s.lent := rfl
@[simp] theorem State.modTen_nextId (s : State) (a b c : Nat) (f : TenBay → TenBay) : (s.modTen a b c f).nextId = s.nextId := rfl
@[simp] theorem State.modTen_clock (s : State) (a b c : Nat) (f : TenBay → TenBay) : (s.modTen a b c f).clock = s.clock := rfl
@[simp] theorem State.modTen_serial (s : State) (a b c : Nat) (f : TenBay → TenBay) : (s.modTen a b c f).serial = s.serial := rfl
@[simp] theorem State.modTen_mem (s : State) (a b c : Nat) (f : TenBay → TenBay) : (s.modTen a b c f).mem = s.mem := rfl
@[simp] theorem State.modTen_full (s : State) (a b c : Nat) (f : TenBay → TenBay) : (s.modTen a b c f).full = s.full := rfl
@[simp] theorem State.modTen_poison (s : State) (a b c : Nat) (f : TenBay → TenBay) : (s.modTen a b c f).poison = s.poison := rfl
@[simp] theorem State.modTen_errs (s : State) (a b c : Nat) (f : TenBay → TenBay) : (s.modTen a b c f).errs = s.errs := rfl
@[simp] theorem State.modTen_lines (s : State) (a b c : Nat) (f : TenBay → TenBay) : (s.modTen a b c f).lines = s.lines := rfl
@[simp] theorem State.modTen_rdc (s : State) (a b c : Nat) (f : TenBay → TenBay) : (s.modTen a b c f).rdc = s.rdc := rfl
@[simp] theorem State.modTen_rbuf (s : State) (a b c : Nat) (f : TenBay → TenBay) : (s.modTen a b c f).rbuf = s.rbuf := rfl
@[simp] theorem State.modTen_lbuf (s : State) (a b c : Nat) (f : TenBay → TenBay) : (s.modTen a b c f).lbuf = s.lbuf := rfl
@[simp] theorem State.modTen_scLog (s : State) (a b c : Nat) (f : TenBay → TenBay) : (s.modTen a b c f).scLog = s.scLog := rfl
@[simp] theorem State.modTen_strands (s : State) (a b c : Nat) (f : TenBay → TenBay) : (s.modTen a b c f).strands = s.strands := rfl
@[simp] theorem State.modTen_units (s : State) (a b c : Nat) (f : TenBay → TenBay) : (s.modTen a b c f).units = s.units := rfl
@[simp] theorem State.modTen_tens (s : State) (a b c : Nat) (f : TenBay → TenBay) : (s.modTen a b c f).tens = Tbl.set s.tens (tenKey a b c) (f (s.ten a b c)) := rfl
@[simp] theorem State.modTen_parts (s : State) (a b c : Nat) (f : TenBay → TenBay) : (s.modTen a b c f).parts = s.parts := rfl
@[simp] theorem State.modTen_dies (s : State) (a b c : Nat) (f : TenBay → TenBay) : (s.modTen a b c f).dies = s.dies := rfl
@[simp] theorem State.modTen_clusters (s : State) (a b c : Nat) (f : TenBay → TenBay) : (s.modTen a b c f).clusters = s.clusters := rfl
@[simp] theorem State.modTen_islands (s : State) (a b c : Nat) (f : TenBay → TenBay) : (s.modTen a b c f).islands = s.islands := rfl
@[simp] theorem State.modTen_insts (s : State) (a b c : Nat) (f : TenBay → TenBay) : (s.modTen a b c f).insts = s.insts := rfl
@[simp] theorem State.modTen_tokens (s : State) (a b c : Nat) (f : TenBay → TenBay) : (s.modTen a b c f).tokens = s.tokens := rfl
@[simp] theorem State.modTen_cards (s : State) (a b c : Nat) (f : TenBay → TenBay) : (s.modTen a b c f).cards = s.cards := rfl
@[simp] theorem State.modTen_chans (s : State) (a b c : Nat) (f : TenBay → TenBay) : (s.modTen a b c f).chans = s.chans := rfl
@[simp] theorem State.modTen_fills (s : State) (a b c : Nat) (f : TenBay → TenBay) : (s.modTen a b c f).fills = s.fills := rfl
@[simp] theorem State.modTen_drains (s : State) (a b c : Nat) (f : TenBay → TenBay) : (s.modTen a b c f).drains = s.drains := rfl
@[simp] theorem State.modTen_msgs (s : State) (a b c : Nat) (f : TenBay → TenBay) : (s.modTen a b c f).msgs = s.msgs := rfl
@[simp] theorem State.modTen_launches (s : State) (a b c : Nat) (f : TenBay → TenBay) : (s.modTen a b c f).launches = s.launches := rfl
@[simp] theorem State.modTen_fields (s : State) (a b c : Nat) (f : TenBay → TenBay) : (s.modTen a b c f).fields = s.fields := rfl
@[simp] theorem State.modTen_links (s : State) (a b c : Nat) (f : TenBay → TenBay) : (s.modTen a b c f).links = s.links := rfl
@[simp] theorem State.modTen_dev (s : State) (a b c : Nat) (f : TenBay → TenBay) : (s.modTen a b c f).dev = s.dev := rfl

@[simp] theorem State.modPart_agenda (s : State) (x : Nat) (f : Part → Part) : (s.modPart x f).agenda = s.agenda := rfl
@[simp] theorem State.modPart_freeCtr (s : State) (x : Nat) (f : Part → Part) : (s.modPart x f).freeCtr = s.freeCtr := rfl
@[simp] theorem State.modPart_cur (s : State) (x : Nat) (f : Part → Part) : (s.modPart x f).cur = s.cur := rfl
@[simp] theorem State.modPart_lent (s : State) (x : Nat) (f : Part → Part) : (s.modPart x f).lent = s.lent := rfl
@[simp] theorem State.modPart_nextId (s : State) (x : Nat) (f : Part → Part) : (s.modPart x f).nextId = s.nextId := rfl
@[simp] theorem State.modPart_clock (s : State) (x : Nat) (f : Part → Part) : (s.modPart x f).clock = s.clock := rfl
@[simp] theorem State.modPart_serial (s : State) (x : Nat) (f : Part → Part) : (s.modPart x f).serial = s.serial := rfl
@[simp] theorem State.modPart_mem (s : State) (x : Nat) (f : Part → Part) : (s.modPart x f).mem = s.mem := rfl
@[simp] theorem State.modPart_full (s : State) (x : Nat) (f : Part → Part) : (s.modPart x f).full = s.full := rfl
@[simp] theorem State.modPart_poison (s : State) (x : Nat) (f : Part → Part) : (s.modPart x f).poison = s.poison := rfl
@[simp] theorem State.modPart_errs (s : State) (x : Nat) (f : Part → Part) : (s.modPart x f).errs = s.errs := rfl
@[simp] theorem State.modPart_lines (s : State) (x : Nat) (f : Part → Part) : (s.modPart x f).lines = s.lines := rfl
@[simp] theorem State.modPart_rdc (s : State) (x : Nat) (f : Part → Part) : (s.modPart x f).rdc = s.rdc := rfl
@[simp] theorem State.modPart_rbuf (s : State) (x : Nat) (f : Part → Part) : (s.modPart x f).rbuf = s.rbuf := rfl
@[simp] theorem State.modPart_lbuf (s : State) (x : Nat) (f : Part → Part) : (s.modPart x f).lbuf = s.lbuf := rfl
@[simp] theorem State.modPart_scLog (s : State) (x : Nat) (f : Part → Part) : (s.modPart x f).scLog = s.scLog := rfl
@[simp] theorem State.modPart_strands (s : State) (x : Nat) (f : Part → Part) : (s.modPart x f).strands = s.strands := rfl
@[simp] theorem State.modPart_units (s : State) (x : Nat) (f : Part → Part) : (s.modPart x f).units = s.units := rfl
@[simp] theorem State.modPart_tens (s : State) (x : Nat) (f : Part → Part) : (s.modPart x f).tens = s.tens := rfl
@[simp] theorem State.modPart_parts (s : State) (x : Nat) (f : Part → Part) : (s.modPart x f).parts = Tbl.set s.parts x (f (s.part x)) := rfl
@[simp] theorem State.modPart_dies (s : State) (x : Nat) (f : Part → Part) : (s.modPart x f).dies = s.dies := rfl
@[simp] theorem State.modPart_clusters (s : State) (x : Nat) (f : Part → Part) : (s.modPart x f).clusters = s.clusters := rfl
@[simp] theorem State.modPart_islands (s : State) (x : Nat) (f : Part → Part) : (s.modPart x f).islands = s.islands := rfl
@[simp] theorem State.modPart_insts (s : State) (x : Nat) (f : Part → Part) : (s.modPart x f).insts = s.insts := rfl
@[simp] theorem State.modPart_tokens (s : State) (x : Nat) (f : Part → Part) : (s.modPart x f).tokens = s.tokens := rfl
@[simp] theorem State.modPart_cards (s : State) (x : Nat) (f : Part → Part) : (s.modPart x f).cards = s.cards := rfl
@[simp] theorem State.modPart_chans (s : State) (x : Nat) (f : Part → Part) : (s.modPart x f).chans = s.chans := rfl
@[simp] theorem State.modPart_fills (s : State) (x : Nat) (f : Part → Part) : (s.modPart x f).fills = s.fills := rfl
@[simp] theorem State.modPart_drains (s : State) (x : Nat) (f : Part → Part) : (s.modPart x f).drains = s.drains := rfl
@[simp] theorem State.modPart_msgs (s : State) (x : Nat) (f : Part → Part) : (s.modPart x f).msgs = s.msgs := rfl
@[simp] theorem State.modPart_launches (s : State) (x : Nat) (f : Part → Part) : (s.modPart x f).launches = s.launches := rfl
@[simp] theorem State.modPart_fields (s : State) (x : Nat) (f : Part → Part) : (s.modPart x f).fields = s.fields := rfl
@[simp] theorem State.modPart_links (s : State) (x : Nat) (f : Part → Part) : (s.modPart x f).links = s.links := rfl
@[simp] theorem State.modPart_dev (s : State) (x : Nat) (f : Part → Part) : (s.modPart x f).dev = s.dev := rfl

@[simp] theorem State.modDie_agenda (s : State) (x : Nat) (f : Die → Die) : (s.modDie x f).agenda = s.agenda := rfl
@[simp] theorem State.modDie_freeCtr (s : State) (x : Nat) (f : Die → Die) : (s.modDie x f).freeCtr = s.freeCtr := rfl
@[simp] theorem State.modDie_cur (s : State) (x : Nat) (f : Die → Die) : (s.modDie x f).cur = s.cur := rfl
@[simp] theorem State.modDie_lent (s : State) (x : Nat) (f : Die → Die) : (s.modDie x f).lent = s.lent := rfl
@[simp] theorem State.modDie_nextId (s : State) (x : Nat) (f : Die → Die) : (s.modDie x f).nextId = s.nextId := rfl
@[simp] theorem State.modDie_clock (s : State) (x : Nat) (f : Die → Die) : (s.modDie x f).clock = s.clock := rfl
@[simp] theorem State.modDie_serial (s : State) (x : Nat) (f : Die → Die) : (s.modDie x f).serial = s.serial := rfl
@[simp] theorem State.modDie_mem (s : State) (x : Nat) (f : Die → Die) : (s.modDie x f).mem = s.mem := rfl
@[simp] theorem State.modDie_full (s : State) (x : Nat) (f : Die → Die) : (s.modDie x f).full = s.full := rfl
@[simp] theorem State.modDie_poison (s : State) (x : Nat) (f : Die → Die) : (s.modDie x f).poison = s.poison := rfl
@[simp] theorem State.modDie_errs (s : State) (x : Nat) (f : Die → Die) : (s.modDie x f).errs = s.errs := rfl
@[simp] theorem State.modDie_lines (s : State) (x : Nat) (f : Die → Die) : (s.modDie x f).lines = s.lines := rfl
@[simp] theorem State.modDie_rdc (s : State) (x : Nat) (f : Die → Die) : (s.modDie x f).rdc = s.rdc := rfl
@[simp] theorem State.modDie_rbuf (s : State) (x : Nat) (f : Die → Die) : (s.modDie x f).rbuf = s.rbuf := rfl
@[simp] theorem State.modDie_lbuf (s : State) (x : Nat) (f : Die → Die) : (s.modDie x f).lbuf = s.lbuf := rfl
@[simp] theorem State.modDie_scLog (s : State) (x : Nat) (f : Die → Die) : (s.modDie x f).scLog = s.scLog := rfl
@[simp] theorem State.modDie_strands (s : State) (x : Nat) (f : Die → Die) : (s.modDie x f).strands = s.strands := rfl
@[simp] theorem State.modDie_units (s : State) (x : Nat) (f : Die → Die) : (s.modDie x f).units = s.units := rfl
@[simp] theorem State.modDie_tens (s : State) (x : Nat) (f : Die → Die) : (s.modDie x f).tens = s.tens := rfl
@[simp] theorem State.modDie_parts (s : State) (x : Nat) (f : Die → Die) : (s.modDie x f).parts = s.parts := rfl
@[simp] theorem State.modDie_dies (s : State) (x : Nat) (f : Die → Die) : (s.modDie x f).dies = Tbl.set s.dies x (f (s.die x)) := rfl
@[simp] theorem State.modDie_clusters (s : State) (x : Nat) (f : Die → Die) : (s.modDie x f).clusters = s.clusters := rfl
@[simp] theorem State.modDie_islands (s : State) (x : Nat) (f : Die → Die) : (s.modDie x f).islands = s.islands := rfl
@[simp] theorem State.modDie_insts (s : State) (x : Nat) (f : Die → Die) : (s.modDie x f).insts = s.insts := rfl
@[simp] theorem State.modDie_tokens (s : State) (x : Nat) (f : Die → Die) : (s.modDie x f).tokens = s.tokens := rfl
@[simp] theorem State.modDie_cards (s : State) (x : Nat) (f : Die → Die) : (s.modDie x f).cards = s.cards := rfl
@[simp] theorem State.modDie_chans (s : State) (x : Nat) (f : Die → Die) : (s.modDie x f).chans = s.chans := rfl
@[simp] theorem State.modDie_fills (s : State) (x : Nat) (f : Die → Die) : (s.modDie x f).fills = s.fills := rfl
@[simp] theorem State.modDie_drains (s : State) (x : Nat) (f : Die → Die) : (s.modDie x f).drains = s.drains := rfl
@[simp] theorem State.modDie_msgs (s : State) (x : Nat) (f : Die → Die) : (s.modDie x f).msgs = s.msgs := rfl
@[simp] theorem State.modDie_launches (s : State) (x : Nat) (f : Die → Die) : (s.modDie x f).launches = s.launches := rfl
@[simp] theorem State.modDie_fields (s : State) (x : Nat) (f : Die → Die) : (s.modDie x f).fields = s.fields := rfl
@[simp] theorem State.modDie_links (s : State) (x : Nat) (f : Die → Die) : (s.modDie x f).links = s.links := rfl
@[simp] theorem State.modDie_dev (s : State) (x : Nat) (f : Die → Die) : (s.modDie x f).dev = s.dev := rfl

@[simp] theorem State.modCluster_agenda (s : State) (d c : Nat) (f : Cluster → Cluster) : (s.modCluster d c f).agenda = s.agenda := rfl
@[simp] theorem State.modCluster_freeCtr (s : State) (d c : Nat) (f : Cluster → Cluster) : (s.modCluster d c f).freeCtr = s.freeCtr := rfl
@[simp] theorem State.modCluster_cur (s : State) (d c : Nat) (f : Cluster → Cluster) : (s.modCluster d c f).cur = s.cur := rfl
@[simp] theorem State.modCluster_lent (s : State) (d c : Nat) (f : Cluster → Cluster) : (s.modCluster d c f).lent = s.lent := rfl
@[simp] theorem State.modCluster_nextId (s : State) (d c : Nat) (f : Cluster → Cluster) : (s.modCluster d c f).nextId = s.nextId := rfl
@[simp] theorem State.modCluster_clock (s : State) (d c : Nat) (f : Cluster → Cluster) : (s.modCluster d c f).clock = s.clock := rfl
@[simp] theorem State.modCluster_serial (s : State) (d c : Nat) (f : Cluster → Cluster) : (s.modCluster d c f).serial = s.serial := rfl
@[simp] theorem State.modCluster_mem (s : State) (d c : Nat) (f : Cluster → Cluster) : (s.modCluster d c f).mem = s.mem := rfl
@[simp] theorem State.modCluster_full (s : State) (d c : Nat) (f : Cluster → Cluster) : (s.modCluster d c f).full = s.full := rfl
@[simp] theorem State.modCluster_poison (s : State) (d c : Nat) (f : Cluster → Cluster) : (s.modCluster d c f).poison = s.poison := rfl
@[simp] theorem State.modCluster_errs (s : State) (d c : Nat) (f : Cluster → Cluster) : (s.modCluster d c f).errs = s.errs := rfl
@[simp] theorem State.modCluster_lines (s : State) (d c : Nat) (f : Cluster → Cluster) : (s.modCluster d c f).lines = s.lines := rfl
@[simp] theorem State.modCluster_rdc (s : State) (d c : Nat) (f : Cluster → Cluster) : (s.modCluster d c f).rdc = s.rdc := rfl
@[simp] theorem State.modCluster_rbuf (s : State) (d c : Nat) (f : Cluster → Cluster) : (s.modCluster d c f).rbuf = s.rbuf := rfl
@[simp] theorem State.modCluster_lbuf (s : State) (d c : Nat) (f : Cluster → Cluster) : (s.modCluster d c f).lbuf = s.lbuf := rfl
@[simp] theorem State.modCluster_scLog (s : State) (d c : Nat) (f : Cluster → Cluster) : (s.modCluster d c f).scLog = s.scLog := rfl
@[simp] theorem State.modCluster_strands (s : State) (d c : Nat) (f : Cluster → Cluster) : (s.modCluster d c f).strands = s.strands := rfl
@[simp] theorem State.modCluster_units (s : State) (d c : Nat) (f : Cluster → Cluster) : (s.modCluster d c f).units = s.units := rfl
@[simp] theorem State.modCluster_tens (s : State) (d c : Nat) (f : Cluster → Cluster) : (s.modCluster d c f).tens = s.tens := rfl
@[simp] theorem State.modCluster_parts (s : State) (d c : Nat) (f : Cluster → Cluster) : (s.modCluster d c f).parts = s.parts := rfl
@[simp] theorem State.modCluster_dies (s : State) (d c : Nat) (f : Cluster → Cluster) : (s.modCluster d c f).dies = s.dies := rfl
@[simp] theorem State.modCluster_clusters (s : State) (d c : Nat) (f : Cluster → Cluster) : (s.modCluster d c f).clusters = Tbl.set s.clusters (64 * d + c) (f (s.cluster d c)) := rfl
@[simp] theorem State.modCluster_islands (s : State) (d c : Nat) (f : Cluster → Cluster) : (s.modCluster d c f).islands = s.islands := rfl
@[simp] theorem State.modCluster_insts (s : State) (d c : Nat) (f : Cluster → Cluster) : (s.modCluster d c f).insts = s.insts := rfl
@[simp] theorem State.modCluster_tokens (s : State) (d c : Nat) (f : Cluster → Cluster) : (s.modCluster d c f).tokens = s.tokens := rfl
@[simp] theorem State.modCluster_cards (s : State) (d c : Nat) (f : Cluster → Cluster) : (s.modCluster d c f).cards = s.cards := rfl
@[simp] theorem State.modCluster_chans (s : State) (d c : Nat) (f : Cluster → Cluster) : (s.modCluster d c f).chans = s.chans := rfl
@[simp] theorem State.modCluster_fills (s : State) (d c : Nat) (f : Cluster → Cluster) : (s.modCluster d c f).fills = s.fills := rfl
@[simp] theorem State.modCluster_drains (s : State) (d c : Nat) (f : Cluster → Cluster) : (s.modCluster d c f).drains = s.drains := rfl
@[simp] theorem State.modCluster_msgs (s : State) (d c : Nat) (f : Cluster → Cluster) : (s.modCluster d c f).msgs = s.msgs := rfl
@[simp] theorem State.modCluster_launches (s : State) (d c : Nat) (f : Cluster → Cluster) : (s.modCluster d c f).launches = s.launches := rfl
@[simp] theorem State.modCluster_fields (s : State) (d c : Nat) (f : Cluster → Cluster) : (s.modCluster d c f).fields = s.fields := rfl
@[simp] theorem State.modCluster_links (s : State) (d c : Nat) (f : Cluster → Cluster) : (s.modCluster d c f).links = s.links := rfl
@[simp] theorem State.modCluster_dev (s : State) (d c : Nat) (f : Cluster → Cluster) : (s.modCluster d c f).dev = s.dev := rfl

@[simp] theorem State.modIsland_agenda (s : State) (x : Nat) (f : Island → Island) : (s.modIsland x f).agenda = s.agenda := rfl
@[simp] theorem State.modIsland_freeCtr (s : State) (x : Nat) (f : Island → Island) : (s.modIsland x f).freeCtr = s.freeCtr := rfl
@[simp] theorem State.modIsland_cur (s : State) (x : Nat) (f : Island → Island) : (s.modIsland x f).cur = s.cur := rfl
@[simp] theorem State.modIsland_lent (s : State) (x : Nat) (f : Island → Island) : (s.modIsland x f).lent = s.lent := rfl
@[simp] theorem State.modIsland_nextId (s : State) (x : Nat) (f : Island → Island) : (s.modIsland x f).nextId = s.nextId := rfl
@[simp] theorem State.modIsland_clock (s : State) (x : Nat) (f : Island → Island) : (s.modIsland x f).clock = s.clock := rfl
@[simp] theorem State.modIsland_serial (s : State) (x : Nat) (f : Island → Island) : (s.modIsland x f).serial = s.serial := rfl
@[simp] theorem State.modIsland_mem (s : State) (x : Nat) (f : Island → Island) : (s.modIsland x f).mem = s.mem := rfl
@[simp] theorem State.modIsland_full (s : State) (x : Nat) (f : Island → Island) : (s.modIsland x f).full = s.full := rfl
@[simp] theorem State.modIsland_poison (s : State) (x : Nat) (f : Island → Island) : (s.modIsland x f).poison = s.poison := rfl
@[simp] theorem State.modIsland_errs (s : State) (x : Nat) (f : Island → Island) : (s.modIsland x f).errs = s.errs := rfl
@[simp] theorem State.modIsland_lines (s : State) (x : Nat) (f : Island → Island) : (s.modIsland x f).lines = s.lines := rfl
@[simp] theorem State.modIsland_rdc (s : State) (x : Nat) (f : Island → Island) : (s.modIsland x f).rdc = s.rdc := rfl
@[simp] theorem State.modIsland_rbuf (s : State) (x : Nat) (f : Island → Island) : (s.modIsland x f).rbuf = s.rbuf := rfl
@[simp] theorem State.modIsland_lbuf (s : State) (x : Nat) (f : Island → Island) : (s.modIsland x f).lbuf = s.lbuf := rfl
@[simp] theorem State.modIsland_scLog (s : State) (x : Nat) (f : Island → Island) : (s.modIsland x f).scLog = s.scLog := rfl
@[simp] theorem State.modIsland_strands (s : State) (x : Nat) (f : Island → Island) : (s.modIsland x f).strands = s.strands := rfl
@[simp] theorem State.modIsland_units (s : State) (x : Nat) (f : Island → Island) : (s.modIsland x f).units = s.units := rfl
@[simp] theorem State.modIsland_tens (s : State) (x : Nat) (f : Island → Island) : (s.modIsland x f).tens = s.tens := rfl
@[simp] theorem State.modIsland_parts (s : State) (x : Nat) (f : Island → Island) : (s.modIsland x f).parts = s.parts := rfl
@[simp] theorem State.modIsland_dies (s : State) (x : Nat) (f : Island → Island) : (s.modIsland x f).dies = s.dies := rfl
@[simp] theorem State.modIsland_clusters (s : State) (x : Nat) (f : Island → Island) : (s.modIsland x f).clusters = s.clusters := rfl
@[simp] theorem State.modIsland_islands (s : State) (x : Nat) (f : Island → Island) : (s.modIsland x f).islands = Tbl.set s.islands x (f (s.island x)) := rfl
@[simp] theorem State.modIsland_insts (s : State) (x : Nat) (f : Island → Island) : (s.modIsland x f).insts = s.insts := rfl
@[simp] theorem State.modIsland_tokens (s : State) (x : Nat) (f : Island → Island) : (s.modIsland x f).tokens = s.tokens := rfl
@[simp] theorem State.modIsland_cards (s : State) (x : Nat) (f : Island → Island) : (s.modIsland x f).cards = s.cards := rfl
@[simp] theorem State.modIsland_chans (s : State) (x : Nat) (f : Island → Island) : (s.modIsland x f).chans = s.chans := rfl
@[simp] theorem State.modIsland_fills (s : State) (x : Nat) (f : Island → Island) : (s.modIsland x f).fills = s.fills := rfl
@[simp] theorem State.modIsland_drains (s : State) (x : Nat) (f : Island → Island) : (s.modIsland x f).drains = s.drains := rfl
@[simp] theorem State.modIsland_msgs (s : State) (x : Nat) (f : Island → Island) : (s.modIsland x f).msgs = s.msgs := rfl
@[simp] theorem State.modIsland_launches (s : State) (x : Nat) (f : Island → Island) : (s.modIsland x f).launches = s.launches := rfl
@[simp] theorem State.modIsland_fields (s : State) (x : Nat) (f : Island → Island) : (s.modIsland x f).fields = s.fields := rfl
@[simp] theorem State.modIsland_links (s : State) (x : Nat) (f : Island → Island) : (s.modIsland x f).links = s.links := rfl
@[simp] theorem State.modIsland_dev (s : State) (x : Nat) (f : Island → Island) : (s.modIsland x f).dev = s.dev := rfl

@[simp] theorem State.modInst_agenda (s : State) (d i : Nat) (f : Instance → Instance) : (s.modInst d i f).agenda = s.agenda := rfl
@[simp] theorem State.modInst_freeCtr (s : State) (d i : Nat) (f : Instance → Instance) : (s.modInst d i f).freeCtr = s.freeCtr := rfl
@[simp] theorem State.modInst_cur (s : State) (d i : Nat) (f : Instance → Instance) : (s.modInst d i f).cur = s.cur := rfl
@[simp] theorem State.modInst_lent (s : State) (d i : Nat) (f : Instance → Instance) : (s.modInst d i f).lent = s.lent := rfl
@[simp] theorem State.modInst_nextId (s : State) (d i : Nat) (f : Instance → Instance) : (s.modInst d i f).nextId = s.nextId := rfl
@[simp] theorem State.modInst_clock (s : State) (d i : Nat) (f : Instance → Instance) : (s.modInst d i f).clock = s.clock := rfl
@[simp] theorem State.modInst_serial (s : State) (d i : Nat) (f : Instance → Instance) : (s.modInst d i f).serial = s.serial := rfl
@[simp] theorem State.modInst_mem (s : State) (d i : Nat) (f : Instance → Instance) : (s.modInst d i f).mem = s.mem := rfl
@[simp] theorem State.modInst_full (s : State) (d i : Nat) (f : Instance → Instance) : (s.modInst d i f).full = s.full := rfl
@[simp] theorem State.modInst_poison (s : State) (d i : Nat) (f : Instance → Instance) : (s.modInst d i f).poison = s.poison := rfl
@[simp] theorem State.modInst_errs (s : State) (d i : Nat) (f : Instance → Instance) : (s.modInst d i f).errs = s.errs := rfl
@[simp] theorem State.modInst_lines (s : State) (d i : Nat) (f : Instance → Instance) : (s.modInst d i f).lines = s.lines := rfl
@[simp] theorem State.modInst_rdc (s : State) (d i : Nat) (f : Instance → Instance) : (s.modInst d i f).rdc = s.rdc := rfl
@[simp] theorem State.modInst_rbuf (s : State) (d i : Nat) (f : Instance → Instance) : (s.modInst d i f).rbuf = s.rbuf := rfl
@[simp] theorem State.modInst_lbuf (s : State) (d i : Nat) (f : Instance → Instance) : (s.modInst d i f).lbuf = s.lbuf := rfl
@[simp] theorem State.modInst_scLog (s : State) (d i : Nat) (f : Instance → Instance) : (s.modInst d i f).scLog = s.scLog := rfl
@[simp] theorem State.modInst_strands (s : State) (d i : Nat) (f : Instance → Instance) : (s.modInst d i f).strands = s.strands := rfl
@[simp] theorem State.modInst_units (s : State) (d i : Nat) (f : Instance → Instance) : (s.modInst d i f).units = s.units := rfl
@[simp] theorem State.modInst_tens (s : State) (d i : Nat) (f : Instance → Instance) : (s.modInst d i f).tens = s.tens := rfl
@[simp] theorem State.modInst_parts (s : State) (d i : Nat) (f : Instance → Instance) : (s.modInst d i f).parts = s.parts := rfl
@[simp] theorem State.modInst_dies (s : State) (d i : Nat) (f : Instance → Instance) : (s.modInst d i f).dies = s.dies := rfl
@[simp] theorem State.modInst_clusters (s : State) (d i : Nat) (f : Instance → Instance) : (s.modInst d i f).clusters = s.clusters := rfl
@[simp] theorem State.modInst_islands (s : State) (d i : Nat) (f : Instance → Instance) : (s.modInst d i f).islands = s.islands := rfl
@[simp] theorem State.modInst_insts (s : State) (d i : Nat) (f : Instance → Instance) : (s.modInst d i f).insts = Tbl.set s.insts (1024 * d + i) (f (s.inst d i)) := rfl
@[simp] theorem State.modInst_tokens (s : State) (d i : Nat) (f : Instance → Instance) : (s.modInst d i f).tokens = s.tokens := rfl
@[simp] theorem State.modInst_cards (s : State) (d i : Nat) (f : Instance → Instance) : (s.modInst d i f).cards = s.cards := rfl
@[simp] theorem State.modInst_chans (s : State) (d i : Nat) (f : Instance → Instance) : (s.modInst d i f).chans = s.chans := rfl
@[simp] theorem State.modInst_fills (s : State) (d i : Nat) (f : Instance → Instance) : (s.modInst d i f).fills = s.fills := rfl
@[simp] theorem State.modInst_drains (s : State) (d i : Nat) (f : Instance → Instance) : (s.modInst d i f).drains = s.drains := rfl
@[simp] theorem State.modInst_msgs (s : State) (d i : Nat) (f : Instance → Instance) : (s.modInst d i f).msgs = s.msgs := rfl
@[simp] theorem State.modInst_launches (s : State) (d i : Nat) (f : Instance → Instance) : (s.modInst d i f).launches = s.launches := rfl
@[simp] theorem State.modInst_fields (s : State) (d i : Nat) (f : Instance → Instance) : (s.modInst d i f).fields = s.fields := rfl
@[simp] theorem State.modInst_links (s : State) (d i : Nat) (f : Instance → Instance) : (s.modInst d i f).links = s.links := rfl
@[simp] theorem State.modInst_dev (s : State) (d i : Nat) (f : Instance → Instance) : (s.modInst d i f).dev = s.dev := rfl

@[simp] theorem State.modChan_agenda (s : State) (x : Nat) (f : Chan → Chan) : (s.modChan x f).agenda = s.agenda := rfl
@[simp] theorem State.modChan_freeCtr (s : State) (x : Nat) (f : Chan → Chan) : (s.modChan x f).freeCtr = s.freeCtr := rfl
@[simp] theorem State.modChan_cur (s : State) (x : Nat) (f : Chan → Chan) : (s.modChan x f).cur = s.cur := rfl
@[simp] theorem State.modChan_lent (s : State) (x : Nat) (f : Chan → Chan) : (s.modChan x f).lent = s.lent := rfl
@[simp] theorem State.modChan_nextId (s : State) (x : Nat) (f : Chan → Chan) : (s.modChan x f).nextId = s.nextId := rfl
@[simp] theorem State.modChan_clock (s : State) (x : Nat) (f : Chan → Chan) : (s.modChan x f).clock = s.clock := rfl
@[simp] theorem State.modChan_serial (s : State) (x : Nat) (f : Chan → Chan) : (s.modChan x f).serial = s.serial := rfl
@[simp] theorem State.modChan_mem (s : State) (x : Nat) (f : Chan → Chan) : (s.modChan x f).mem = s.mem := rfl
@[simp] theorem State.modChan_full (s : State) (x : Nat) (f : Chan → Chan) : (s.modChan x f).full = s.full := rfl
@[simp] theorem State.modChan_poison (s : State) (x : Nat) (f : Chan → Chan) : (s.modChan x f).poison = s.poison := rfl
@[simp] theorem State.modChan_errs (s : State) (x : Nat) (f : Chan → Chan) : (s.modChan x f).errs = s.errs := rfl
@[simp] theorem State.modChan_lines (s : State) (x : Nat) (f : Chan → Chan) : (s.modChan x f).lines = s.lines := rfl
@[simp] theorem State.modChan_rdc (s : State) (x : Nat) (f : Chan → Chan) : (s.modChan x f).rdc = s.rdc := rfl
@[simp] theorem State.modChan_rbuf (s : State) (x : Nat) (f : Chan → Chan) : (s.modChan x f).rbuf = s.rbuf := rfl
@[simp] theorem State.modChan_lbuf (s : State) (x : Nat) (f : Chan → Chan) : (s.modChan x f).lbuf = s.lbuf := rfl
@[simp] theorem State.modChan_scLog (s : State) (x : Nat) (f : Chan → Chan) : (s.modChan x f).scLog = s.scLog := rfl
@[simp] theorem State.modChan_strands (s : State) (x : Nat) (f : Chan → Chan) : (s.modChan x f).strands = s.strands := rfl
@[simp] theorem State.modChan_units (s : State) (x : Nat) (f : Chan → Chan) : (s.modChan x f).units = s.units := rfl
@[simp] theorem State.modChan_tens (s : State) (x : Nat) (f : Chan → Chan) : (s.modChan x f).tens = s.tens := rfl
@[simp] theorem State.modChan_parts (s : State) (x : Nat) (f : Chan → Chan) : (s.modChan x f).parts = s.parts := rfl
@[simp] theorem State.modChan_dies (s : State) (x : Nat) (f : Chan → Chan) : (s.modChan x f).dies = s.dies := rfl
@[simp] theorem State.modChan_clusters (s : State) (x : Nat) (f : Chan → Chan) : (s.modChan x f).clusters = s.clusters := rfl
@[simp] theorem State.modChan_islands (s : State) (x : Nat) (f : Chan → Chan) : (s.modChan x f).islands = s.islands := rfl
@[simp] theorem State.modChan_insts (s : State) (x : Nat) (f : Chan → Chan) : (s.modChan x f).insts = s.insts := rfl
@[simp] theorem State.modChan_tokens (s : State) (x : Nat) (f : Chan → Chan) : (s.modChan x f).tokens = s.tokens := rfl
@[simp] theorem State.modChan_cards (s : State) (x : Nat) (f : Chan → Chan) : (s.modChan x f).cards = s.cards := rfl
@[simp] theorem State.modChan_chans (s : State) (x : Nat) (f : Chan → Chan) : (s.modChan x f).chans = Tbl.set s.chans x (f (s.chan x)) := rfl
@[simp] theorem State.modChan_fills (s : State) (x : Nat) (f : Chan → Chan) : (s.modChan x f).fills = s.fills := rfl
@[simp] theorem State.modChan_drains (s : State) (x : Nat) (f : Chan → Chan) : (s.modChan x f).drains = s.drains := rfl
@[simp] theorem State.modChan_msgs (s : State) (x : Nat) (f : Chan → Chan) : (s.modChan x f).msgs = s.msgs := rfl
@[simp] theorem State.modChan_launches (s : State) (x : Nat) (f : Chan → Chan) : (s.modChan x f).launches = s.launches := rfl
@[simp] theorem State.modChan_fields (s : State) (x : Nat) (f : Chan → Chan) : (s.modChan x f).fields = s.fields := rfl
@[simp] theorem State.modChan_links (s : State) (x : Nat) (f : Chan → Chan) : (s.modChan x f).links = s.links := rfl
@[simp] theorem State.modChan_dev (s : State) (x : Nat) (f : Chan → Chan) : (s.modChan x f).dev = s.dev := rfl

@[simp] theorem State.setCard_agenda (s : State) (x : Nat) (v : Card) : (s.setCard x v).agenda = s.agenda := rfl
@[simp] theorem State.setCard_freeCtr (s : State) (x : Nat) (v : Card) : (s.setCard x v).freeCtr = s.freeCtr := rfl
@[simp] theorem State.setCard_cur (s : State) (x : Nat) (v : Card) : (s.setCard x v).cur = s.cur := rfl
@[simp] theorem State.setCard_lent (s : State) (x : Nat) (v : Card) : (s.setCard x v).lent = s.lent := rfl
@[simp] theorem State.setCard_nextId (s : State) (x : Nat) (v : Card) : (s.setCard x v).nextId = s.nextId := rfl
@[simp] theorem State.setCard_clock (s : State) (x : Nat) (v : Card) : (s.setCard x v).clock = s.clock := rfl
@[simp] theorem State.setCard_serial (s : State) (x : Nat) (v : Card) : (s.setCard x v).serial = s.serial := rfl
@[simp] theorem State.setCard_mem (s : State) (x : Nat) (v : Card) : (s.setCard x v).mem = s.mem := rfl
@[simp] theorem State.setCard_full (s : State) (x : Nat) (v : Card) : (s.setCard x v).full = s.full := rfl
@[simp] theorem State.setCard_poison (s : State) (x : Nat) (v : Card) : (s.setCard x v).poison = s.poison := rfl
@[simp] theorem State.setCard_errs (s : State) (x : Nat) (v : Card) : (s.setCard x v).errs = s.errs := rfl
@[simp] theorem State.setCard_lines (s : State) (x : Nat) (v : Card) : (s.setCard x v).lines = s.lines := rfl
@[simp] theorem State.setCard_rdc (s : State) (x : Nat) (v : Card) : (s.setCard x v).rdc = s.rdc := rfl
@[simp] theorem State.setCard_rbuf (s : State) (x : Nat) (v : Card) : (s.setCard x v).rbuf = s.rbuf := rfl
@[simp] theorem State.setCard_lbuf (s : State) (x : Nat) (v : Card) : (s.setCard x v).lbuf = s.lbuf := rfl
@[simp] theorem State.setCard_scLog (s : State) (x : Nat) (v : Card) : (s.setCard x v).scLog = s.scLog := rfl
@[simp] theorem State.setCard_strands (s : State) (x : Nat) (v : Card) : (s.setCard x v).strands = s.strands := rfl
@[simp] theorem State.setCard_units (s : State) (x : Nat) (v : Card) : (s.setCard x v).units = s.units := rfl
@[simp] theorem State.setCard_tens (s : State) (x : Nat) (v : Card) : (s.setCard x v).tens = s.tens := rfl
@[simp] theorem State.setCard_parts (s : State) (x : Nat) (v : Card) : (s.setCard x v).parts = s.parts := rfl
@[simp] theorem State.setCard_dies (s : State) (x : Nat) (v : Card) : (s.setCard x v).dies = s.dies := rfl
@[simp] theorem State.setCard_clusters (s : State) (x : Nat) (v : Card) : (s.setCard x v).clusters = s.clusters := rfl
@[simp] theorem State.setCard_islands (s : State) (x : Nat) (v : Card) : (s.setCard x v).islands = s.islands := rfl
@[simp] theorem State.setCard_insts (s : State) (x : Nat) (v : Card) : (s.setCard x v).insts = s.insts := rfl
@[simp] theorem State.setCard_tokens (s : State) (x : Nat) (v : Card) : (s.setCard x v).tokens = s.tokens := rfl
@[simp] theorem State.setCard_cards (s : State) (x : Nat) (v : Card) : (s.setCard x v).cards = Tbl.set s.cards x v := rfl
@[simp] theorem State.setCard_chans (s : State) (x : Nat) (v : Card) : (s.setCard x v).chans = s.chans := rfl
@[simp] theorem State.setCard_fills (s : State) (x : Nat) (v : Card) : (s.setCard x v).fills = s.fills := rfl
@[simp] theorem State.setCard_drains (s : State) (x : Nat) (v : Card) : (s.setCard x v).drains = s.drains := rfl
@[simp] theorem State.setCard_msgs (s : State) (x : Nat) (v : Card) : (s.setCard x v).msgs = s.msgs := rfl
@[simp] theorem State.setCard_launches (s : State) (x : Nat) (v : Card) : (s.setCard x v).launches = s.launches := rfl
@[simp] theorem State.setCard_fields (s : State) (x : Nat) (v : Card) : (s.setCard x v).fields = s.fields := rfl
@[simp] theorem State.setCard_links (s : State) (x : Nat) (v : Card) : (s.setCard x v).links = s.links := rfl
@[simp] theorem State.setCard_dev (s : State) (x : Nat) (v : Card) : (s.setCard x v).dev = s.dev := rfl

@[simp] theorem State.setFill_agenda (s : State) (x : Nat) (v : Fill) : (s.setFill x v).agenda = s.agenda := rfl
@[simp] theorem State.setFill_freeCtr (s : State) (x : Nat) (v : Fill) : (s.setFill x v).freeCtr = s.freeCtr := rfl
@[simp] theorem State.setFill_cur (s : State) (x : Nat) (v : Fill) : (s.setFill x v).cur = s.cur := rfl
@[simp] theorem State.setFill_lent (s : State) (x : Nat) (v : Fill) : (s.setFill x v).lent = s.lent := rfl
@[simp] theorem State.setFill_nextId (s : State) (x : Nat) (v : Fill) : (s.setFill x v).nextId = s.nextId := rfl
@[simp] theorem State.setFill_clock (s : State) (x : Nat) (v : Fill) : (s.setFill x v).clock = s.clock := rfl
@[simp] theorem State.setFill_serial (s : State) (x : Nat) (v : Fill) : (s.setFill x v).serial = s.serial := rfl
@[simp] theorem State.setFill_mem (s : State) (x : Nat) (v : Fill) : (s.setFill x v).mem = s.mem := rfl
@[simp] theorem State.setFill_full (s : State) (x : Nat) (v : Fill) : (s.setFill x v).full = s.full := rfl
@[simp] theorem State.setFill_poison (s : State) (x : Nat) (v : Fill) : (s.setFill x v).poison = s.poison := rfl
@[simp] theorem State.setFill_errs (s : State) (x : Nat) (v : Fill) : (s.setFill x v).errs = s.errs := rfl
@[simp] theorem State.setFill_lines (s : State) (x : Nat) (v : Fill) : (s.setFill x v).lines = s.lines := rfl
@[simp] theorem State.setFill_rdc (s : State) (x : Nat) (v : Fill) : (s.setFill x v).rdc = s.rdc := rfl
@[simp] theorem State.setFill_rbuf (s : State) (x : Nat) (v : Fill) : (s.setFill x v).rbuf = s.rbuf := rfl
@[simp] theorem State.setFill_lbuf (s : State) (x : Nat) (v : Fill) : (s.setFill x v).lbuf = s.lbuf := rfl
@[simp] theorem State.setFill_scLog (s : State) (x : Nat) (v : Fill) : (s.setFill x v).scLog = s.scLog := rfl
@[simp] theorem State.setFill_strands (s : State) (x : Nat) (v : Fill) : (s.setFill x v).strands = s.strands := rfl
@[simp] theorem State.setFill_units (s : State) (x : Nat) (v : Fill) : (s.setFill x v).units = s.units := rfl
@[simp] theorem State.setFill_tens (s : State) (x : Nat) (v : Fill) : (s.setFill x v).tens = s.tens := rfl
@[simp] theorem State.setFill_parts (s : State) (x : Nat) (v : Fill) : (s.setFill x v).parts = s.parts := rfl
@[simp] theorem State.setFill_dies (s : State) (x : Nat) (v : Fill) : (s.setFill x v).dies = s.dies := rfl
@[simp] theorem State.setFill_clusters (s : State) (x : Nat) (v : Fill) : (s.setFill x v).clusters = s.clusters := rfl
@[simp] theorem State.setFill_islands (s : State) (x : Nat) (v : Fill) : (s.setFill x v).islands = s.islands := rfl
@[simp] theorem State.setFill_insts (s : State) (x : Nat) (v : Fill) : (s.setFill x v).insts = s.insts := rfl
@[simp] theorem State.setFill_tokens (s : State) (x : Nat) (v : Fill) : (s.setFill x v).tokens = s.tokens := rfl
@[simp] theorem State.setFill_cards (s : State) (x : Nat) (v : Fill) : (s.setFill x v).cards = s.cards := rfl
@[simp] theorem State.setFill_chans (s : State) (x : Nat) (v : Fill) : (s.setFill x v).chans = s.chans := rfl
@[simp] theorem State.setFill_fills (s : State) (x : Nat) (v : Fill) : (s.setFill x v).fills = Tbl.set s.fills x v := rfl
@[simp] theorem State.setFill_drains (s : State) (x : Nat) (v : Fill) : (s.setFill x v).drains = s.drains := rfl
@[simp] theorem State.setFill_msgs (s : State) (x : Nat) (v : Fill) : (s.setFill x v).msgs = s.msgs := rfl
@[simp] theorem State.setFill_launches (s : State) (x : Nat) (v : Fill) : (s.setFill x v).launches = s.launches := rfl
@[simp] theorem State.setFill_fields (s : State) (x : Nat) (v : Fill) : (s.setFill x v).fields = s.fields := rfl
@[simp] theorem State.setFill_links (s : State) (x : Nat) (v : Fill) : (s.setFill x v).links = s.links := rfl
@[simp] theorem State.setFill_dev (s : State) (x : Nat) (v : Fill) : (s.setFill x v).dev = s.dev := rfl

@[simp] theorem State.setDrain_agenda (s : State) (x : Nat) (v : Drain) : (s.setDrain x v).agenda = s.agenda := rfl
@[simp] theorem State.setDrain_freeCtr (s : State) (x : Nat) (v : Drain) : (s.setDrain x v).freeCtr = s.freeCtr := rfl
@[simp] theorem State.setDrain_cur (s : State) (x : Nat) (v : Drain) : (s.setDrain x v).cur = s.cur := rfl
@[simp] theorem State.setDrain_lent (s : State) (x : Nat) (v : Drain) : (s.setDrain x v).lent = s.lent := rfl
@[simp] theorem State.setDrain_nextId (s : State) (x : Nat) (v : Drain) : (s.setDrain x v).nextId = s.nextId := rfl
@[simp] theorem State.setDrain_clock (s : State) (x : Nat) (v : Drain) : (s.setDrain x v).clock = s.clock := rfl
@[simp] theorem State.setDrain_serial (s : State) (x : Nat) (v : Drain) : (s.setDrain x v).serial = s.serial := rfl
@[simp] theorem State.setDrain_mem (s : State) (x : Nat) (v : Drain) : (s.setDrain x v).mem = s.mem := rfl
@[simp] theorem State.setDrain_full (s : State) (x : Nat) (v : Drain) : (s.setDrain x v).full = s.full := rfl
@[simp] theorem State.setDrain_poison (s : State) (x : Nat) (v : Drain) : (s.setDrain x v).poison = s.poison := rfl
@[simp] theorem State.setDrain_errs (s : State) (x : Nat) (v : Drain) : (s.setDrain x v).errs = s.errs := rfl
@[simp] theorem State.setDrain_lines (s : State) (x : Nat) (v : Drain) : (s.setDrain x v).lines = s.lines := rfl
@[simp] theorem State.setDrain_rdc (s : State) (x : Nat) (v : Drain) : (s.setDrain x v).rdc = s.rdc := rfl
@[simp] theorem State.setDrain_rbuf (s : State) (x : Nat) (v : Drain) : (s.setDrain x v).rbuf = s.rbuf := rfl
@[simp] theorem State.setDrain_lbuf (s : State) (x : Nat) (v : Drain) : (s.setDrain x v).lbuf = s.lbuf := rfl
@[simp] theorem State.setDrain_scLog (s : State) (x : Nat) (v : Drain) : (s.setDrain x v).scLog = s.scLog := rfl
@[simp] theorem State.setDrain_strands (s : State) (x : Nat) (v : Drain) : (s.setDrain x v).strands = s.strands := rfl
@[simp] theorem State.setDrain_units (s : State) (x : Nat) (v : Drain) : (s.setDrain x v).units = s.units := rfl
@[simp] theorem State.setDrain_tens (s : State) (x : Nat) (v : Drain) : (s.setDrain x v).tens = s.tens := rfl
@[simp] theorem State.setDrain_parts (s : State) (x : Nat) (v : Drain) : (s.setDrain x v).parts = s.parts := rfl
@[simp] theorem State.setDrain_dies (s : State) (x : Nat) (v : Drain) : (s.setDrain x v).dies = s.dies := rfl
@[simp] theorem State.setDrain_clusters (s : State) (x : Nat) (v : Drain) : (s.setDrain x v).clusters = s.clusters := rfl
@[simp] theorem State.setDrain_islands (s : State) (x : Nat) (v : Drain) : (s.setDrain x v).islands = s.islands := rfl
@[simp] theorem State.setDrain_insts (s : State) (x : Nat) (v : Drain) : (s.setDrain x v).insts = s.insts := rfl
@[simp] theorem State.setDrain_tokens (s : State) (x : Nat) (v : Drain) : (s.setDrain x v).tokens = s.tokens := rfl
@[simp] theorem State.setDrain_cards (s : State) (x : Nat) (v : Drain) : (s.setDrain x v).cards = s.cards := rfl
@[simp] theorem State.setDrain_chans (s : State) (x : Nat) (v : Drain) : (s.setDrain x v).chans = s.chans := rfl
@[simp] theorem State.setDrain_fills (s : State) (x : Nat) (v : Drain) : (s.setDrain x v).fills = s.fills := rfl
@[simp] theorem State.setDrain_drains (s : State) (x : Nat) (v : Drain) : (s.setDrain x v).drains = Tbl.set s.drains x v := rfl
@[simp] theorem State.setDrain_msgs (s : State) (x : Nat) (v : Drain) : (s.setDrain x v).msgs = s.msgs := rfl
@[simp] theorem State.setDrain_launches (s : State) (x : Nat) (v : Drain) : (s.setDrain x v).launches = s.launches := rfl
@[simp] theorem State.setDrain_fields (s : State) (x : Nat) (v : Drain) : (s.setDrain x v).fields = s.fields := rfl
@[simp] theorem State.setDrain_links (s : State) (x : Nat) (v : Drain) : (s.setDrain x v).links = s.links := rfl
@[simp] theorem State.setDrain_dev (s : State) (x : Nat) (v : Drain) : (s.setDrain x v).dev = s.dev := rfl

@[simp] theorem State.emit_agenda (s : State) (e : HostEvent) : (s.emit e).agenda = s.agenda := rfl
@[simp] theorem State.emit_freeCtr (s : State) (e : HostEvent) : (s.emit e).freeCtr = s.freeCtr := rfl
@[simp] theorem State.emit_cur (s : State) (e : HostEvent) : (s.emit e).cur = s.cur := rfl
@[simp] theorem State.emit_lent (s : State) (e : HostEvent) : (s.emit e).lent = s.lent := rfl
@[simp] theorem State.emit_nextId (s : State) (e : HostEvent) : (s.emit e).nextId = s.nextId := rfl
@[simp] theorem State.emit_clock (s : State) (e : HostEvent) : (s.emit e).clock = s.clock := rfl
@[simp] theorem State.emit_serial (s : State) (e : HostEvent) : (s.emit e).serial = s.serial := rfl
@[simp] theorem State.emit_mem (s : State) (e : HostEvent) : (s.emit e).mem = s.mem := rfl
@[simp] theorem State.emit_full (s : State) (e : HostEvent) : (s.emit e).full = s.full := rfl
@[simp] theorem State.emit_poison (s : State) (e : HostEvent) : (s.emit e).poison = s.poison := rfl
@[simp] theorem State.emit_errs (s : State) (e : HostEvent) : (s.emit e).errs = s.errs := rfl
@[simp] theorem State.emit_lines (s : State) (e : HostEvent) : (s.emit e).lines = s.lines := rfl
@[simp] theorem State.emit_rdc (s : State) (e : HostEvent) : (s.emit e).rdc = s.rdc := rfl
@[simp] theorem State.emit_rbuf (s : State) (e : HostEvent) : (s.emit e).rbuf = s.rbuf := rfl
@[simp] theorem State.emit_lbuf (s : State) (e : HostEvent) : (s.emit e).lbuf = s.lbuf := rfl
@[simp] theorem State.emit_scLog (s : State) (e : HostEvent) : (s.emit e).scLog = s.scLog := rfl
@[simp] theorem State.emit_strands (s : State) (e : HostEvent) : (s.emit e).strands = s.strands := rfl
@[simp] theorem State.emit_units (s : State) (e : HostEvent) : (s.emit e).units = s.units := rfl
@[simp] theorem State.emit_tens (s : State) (e : HostEvent) : (s.emit e).tens = s.tens := rfl
@[simp] theorem State.emit_parts (s : State) (e : HostEvent) : (s.emit e).parts = s.parts := rfl
@[simp] theorem State.emit_dies (s : State) (e : HostEvent) : (s.emit e).dies = s.dies := rfl
@[simp] theorem State.emit_clusters (s : State) (e : HostEvent) : (s.emit e).clusters = s.clusters := rfl
@[simp] theorem State.emit_islands (s : State) (e : HostEvent) : (s.emit e).islands = s.islands := rfl
@[simp] theorem State.emit_insts (s : State) (e : HostEvent) : (s.emit e).insts = s.insts := rfl
@[simp] theorem State.emit_tokens (s : State) (e : HostEvent) : (s.emit e).tokens = s.tokens := rfl
@[simp] theorem State.emit_cards (s : State) (e : HostEvent) : (s.emit e).cards = s.cards := rfl
@[simp] theorem State.emit_chans (s : State) (e : HostEvent) : (s.emit e).chans = s.chans := rfl
@[simp] theorem State.emit_fills (s : State) (e : HostEvent) : (s.emit e).fills = s.fills := rfl
@[simp] theorem State.emit_drains (s : State) (e : HostEvent) : (s.emit e).drains = s.drains := rfl
@[simp] theorem State.emit_msgs (s : State) (e : HostEvent) : (s.emit e).msgs = s.msgs := rfl
@[simp] theorem State.emit_launches (s : State) (e : HostEvent) : (s.emit e).launches = s.launches := rfl
@[simp] theorem State.emit_fields (s : State) (e : HostEvent) : (s.emit e).fields = s.fields := rfl
@[simp] theorem State.emit_links (s : State) (e : HostEvent) : (s.emit e).links = s.links := rfl
@[simp] theorem State.emit_dev (s : State) (e : HostEvent) : (s.emit e).dev = { s.dev with events := s.dev.events ++ [e] } := rfl

@[simp] theorem State.addMsg_agenda (s : State) (m : Msg) : (s.addMsg m).agenda = s.agenda := rfl
@[simp] theorem State.addMsg_freeCtr (s : State) (m : Msg) : (s.addMsg m).freeCtr = s.freeCtr := rfl
@[simp] theorem State.addMsg_cur (s : State) (m : Msg) : (s.addMsg m).cur = s.cur := rfl
@[simp] theorem State.addMsg_lent (s : State) (m : Msg) : (s.addMsg m).lent = s.lent := rfl
@[simp] theorem State.addMsg_nextId (s : State) (m : Msg) : (s.addMsg m).nextId = s.nextId + 1 := rfl
@[simp] theorem State.addMsg_clock (s : State) (m : Msg) : (s.addMsg m).clock = s.clock := rfl
@[simp] theorem State.addMsg_serial (s : State) (m : Msg) : (s.addMsg m).serial = s.serial := rfl
@[simp] theorem State.addMsg_mem (s : State) (m : Msg) : (s.addMsg m).mem = s.mem := rfl
@[simp] theorem State.addMsg_full (s : State) (m : Msg) : (s.addMsg m).full = s.full := rfl
@[simp] theorem State.addMsg_poison (s : State) (m : Msg) : (s.addMsg m).poison = s.poison := rfl
@[simp] theorem State.addMsg_errs (s : State) (m : Msg) : (s.addMsg m).errs = s.errs := rfl
@[simp] theorem State.addMsg_lines (s : State) (m : Msg) : (s.addMsg m).lines = s.lines := rfl
@[simp] theorem State.addMsg_rdc (s : State) (m : Msg) : (s.addMsg m).rdc = s.rdc := rfl
@[simp] theorem State.addMsg_rbuf (s : State) (m : Msg) : (s.addMsg m).rbuf = s.rbuf := rfl
@[simp] theorem State.addMsg_lbuf (s : State) (m : Msg) : (s.addMsg m).lbuf = s.lbuf := rfl
@[simp] theorem State.addMsg_scLog (s : State) (m : Msg) : (s.addMsg m).scLog = s.scLog := rfl
@[simp] theorem State.addMsg_strands (s : State) (m : Msg) : (s.addMsg m).strands = s.strands := rfl
@[simp] theorem State.addMsg_units (s : State) (m : Msg) : (s.addMsg m).units = s.units := rfl
@[simp] theorem State.addMsg_tens (s : State) (m : Msg) : (s.addMsg m).tens = s.tens := rfl
@[simp] theorem State.addMsg_parts (s : State) (m : Msg) : (s.addMsg m).parts = s.parts := rfl
@[simp] theorem State.addMsg_dies (s : State) (m : Msg) : (s.addMsg m).dies = s.dies := rfl
@[simp] theorem State.addMsg_clusters (s : State) (m : Msg) : (s.addMsg m).clusters = s.clusters := rfl
@[simp] theorem State.addMsg_islands (s : State) (m : Msg) : (s.addMsg m).islands = s.islands := rfl
@[simp] theorem State.addMsg_insts (s : State) (m : Msg) : (s.addMsg m).insts = s.insts := rfl
@[simp] theorem State.addMsg_tokens (s : State) (m : Msg) : (s.addMsg m).tokens = s.tokens := rfl
@[simp] theorem State.addMsg_cards (s : State) (m : Msg) : (s.addMsg m).cards = s.cards := rfl
@[simp] theorem State.addMsg_chans (s : State) (m : Msg) : (s.addMsg m).chans = s.chans := rfl
@[simp] theorem State.addMsg_fills (s : State) (m : Msg) : (s.addMsg m).fills = s.fills := rfl
@[simp] theorem State.addMsg_drains (s : State) (m : Msg) : (s.addMsg m).drains = s.drains := rfl
@[simp] theorem State.addMsg_msgs (s : State) (m : Msg) : (s.addMsg m).msgs = Tbl.set s.msgs s.nextId m := rfl
@[simp] theorem State.addMsg_launches (s : State) (m : Msg) : (s.addMsg m).launches = s.launches := rfl
@[simp] theorem State.addMsg_fields (s : State) (m : Msg) : (s.addMsg m).fields = s.fields := rfl
@[simp] theorem State.addMsg_links (s : State) (m : Msg) : (s.addMsg m).links = s.links := rfl
@[simp] theorem State.addMsg_dev (s : State) (m : Msg) : (s.addMsg m).dev = s.dev := rfl

@[simp] theorem State.waitOn_agenda (s : State) (x : Nat) (w : Wait) : (s.waitOn x w).agenda = s.agenda := rfl
@[simp] theorem State.waitOn_freeCtr (s : State) (x : Nat) (w : Wait) : (s.waitOn x w).freeCtr = s.freeCtr := rfl
@[simp] theorem State.waitOn_cur (s : State) (x : Nat) (w : Wait) : (s.waitOn x w).cur = s.cur := rfl
@[simp] theorem State.waitOn_lent (s : State) (x : Nat) (w : Wait) : (s.waitOn x w).lent = s.lent := rfl
@[simp] theorem State.waitOn_nextId (s : State) (x : Nat) (w : Wait) : (s.waitOn x w).nextId = s.nextId + 1 := rfl
@[simp] theorem State.waitOn_clock (s : State) (x : Nat) (w : Wait) : (s.waitOn x w).clock = s.clock := rfl
@[simp] theorem State.waitOn_serial (s : State) (x : Nat) (w : Wait) : (s.waitOn x w).serial = s.serial := rfl
@[simp] theorem State.waitOn_mem (s : State) (x : Nat) (w : Wait) : (s.waitOn x w).mem = s.mem := rfl
@[simp] theorem State.waitOn_full (s : State) (x : Nat) (w : Wait) : (s.waitOn x w).full = s.full := rfl
@[simp] theorem State.waitOn_poison (s : State) (x : Nat) (w : Wait) : (s.waitOn x w).poison = s.poison := rfl
@[simp] theorem State.waitOn_errs (s : State) (x : Nat) (w : Wait) : (s.waitOn x w).errs = s.errs := rfl
@[simp] theorem State.waitOn_lines (s : State) (x : Nat) (w : Wait) : (s.waitOn x w).lines = s.lines := rfl
@[simp] theorem State.waitOn_rdc (s : State) (x : Nat) (w : Wait) : (s.waitOn x w).rdc = s.rdc := rfl
@[simp] theorem State.waitOn_rbuf (s : State) (x : Nat) (w : Wait) : (s.waitOn x w).rbuf = s.rbuf := rfl
@[simp] theorem State.waitOn_lbuf (s : State) (x : Nat) (w : Wait) : (s.waitOn x w).lbuf = s.lbuf := rfl
@[simp] theorem State.waitOn_scLog (s : State) (x : Nat) (w : Wait) : (s.waitOn x w).scLog = s.scLog := rfl
@[simp] theorem State.waitOn_units (s : State) (x : Nat) (w : Wait) : (s.waitOn x w).units = s.units := rfl
@[simp] theorem State.waitOn_tens (s : State) (x : Nat) (w : Wait) : (s.waitOn x w).tens = s.tens := rfl
@[simp] theorem State.waitOn_parts (s : State) (x : Nat) (w : Wait) : (s.waitOn x w).parts = s.parts := rfl
@[simp] theorem State.waitOn_dies (s : State) (x : Nat) (w : Wait) : (s.waitOn x w).dies = s.dies := rfl
@[simp] theorem State.waitOn_clusters (s : State) (x : Nat) (w : Wait) : (s.waitOn x w).clusters = s.clusters := rfl
@[simp] theorem State.waitOn_islands (s : State) (x : Nat) (w : Wait) : (s.waitOn x w).islands = s.islands := rfl
@[simp] theorem State.waitOn_insts (s : State) (x : Nat) (w : Wait) : (s.waitOn x w).insts = s.insts := rfl
@[simp] theorem State.waitOn_tokens (s : State) (x : Nat) (w : Wait) : (s.waitOn x w).tokens = s.tokens := rfl
@[simp] theorem State.waitOn_cards (s : State) (x : Nat) (w : Wait) : (s.waitOn x w).cards = s.cards := rfl
@[simp] theorem State.waitOn_chans (s : State) (x : Nat) (w : Wait) : (s.waitOn x w).chans = s.chans := rfl
@[simp] theorem State.waitOn_fills (s : State) (x : Nat) (w : Wait) : (s.waitOn x w).fills = s.fills := rfl
@[simp] theorem State.waitOn_drains (s : State) (x : Nat) (w : Wait) : (s.waitOn x w).drains = s.drains := rfl
@[simp] theorem State.waitOn_msgs (s : State) (x : Nat) (w : Wait) : (s.waitOn x w).msgs = s.msgs := rfl
@[simp] theorem State.waitOn_launches (s : State) (x : Nat) (w : Wait) : (s.waitOn x w).launches = s.launches := rfl
@[simp] theorem State.waitOn_fields (s : State) (x : Nat) (w : Wait) : (s.waitOn x w).fields = s.fields := rfl
@[simp] theorem State.waitOn_links (s : State) (x : Nat) (w : Wait) : (s.waitOn x w).links = s.links := rfl
@[simp] theorem State.waitOn_dev (s : State) (x : Nat) (w : Wait) : (s.waitOn x w).dev = s.dev := rfl

@[simp] theorem State.setWait_agenda (s : State) (x : Nat) (w : Wait) : (s.setWait x w).agenda = s.agenda := rfl
@[simp] theorem State.setWait_freeCtr (s : State) (x : Nat) (w : Wait) : (s.setWait x w).freeCtr = s.freeCtr := rfl
@[simp] theorem State.setWait_cur (s : State) (x : Nat) (w : Wait) : (s.setWait x w).cur = s.cur := rfl
@[simp] theorem State.setWait_lent (s : State) (x : Nat) (w : Wait) : (s.setWait x w).lent = s.lent := rfl
@[simp] theorem State.setWait_nextId (s : State) (x : Nat) (w : Wait) : (s.setWait x w).nextId = s.nextId := rfl
@[simp] theorem State.setWait_clock (s : State) (x : Nat) (w : Wait) : (s.setWait x w).clock = s.clock := rfl
@[simp] theorem State.setWait_serial (s : State) (x : Nat) (w : Wait) : (s.setWait x w).serial = s.serial := rfl
@[simp] theorem State.setWait_mem (s : State) (x : Nat) (w : Wait) : (s.setWait x w).mem = s.mem := rfl
@[simp] theorem State.setWait_full (s : State) (x : Nat) (w : Wait) : (s.setWait x w).full = s.full := rfl
@[simp] theorem State.setWait_poison (s : State) (x : Nat) (w : Wait) : (s.setWait x w).poison = s.poison := rfl
@[simp] theorem State.setWait_errs (s : State) (x : Nat) (w : Wait) : (s.setWait x w).errs = s.errs := rfl
@[simp] theorem State.setWait_lines (s : State) (x : Nat) (w : Wait) : (s.setWait x w).lines = s.lines := rfl
@[simp] theorem State.setWait_rdc (s : State) (x : Nat) (w : Wait) : (s.setWait x w).rdc = s.rdc := rfl
@[simp] theorem State.setWait_rbuf (s : State) (x : Nat) (w : Wait) : (s.setWait x w).rbuf = s.rbuf := rfl
@[simp] theorem State.setWait_lbuf (s : State) (x : Nat) (w : Wait) : (s.setWait x w).lbuf = s.lbuf := rfl
@[simp] theorem State.setWait_scLog (s : State) (x : Nat) (w : Wait) : (s.setWait x w).scLog = s.scLog := rfl
@[simp] theorem State.setWait_strands (s : State) (x : Nat) (w : Wait) : (s.setWait x w).strands = Tbl.set s.strands x { s.strand x with wait := w } := rfl
@[simp] theorem State.setWait_units (s : State) (x : Nat) (w : Wait) : (s.setWait x w).units = s.units := rfl
@[simp] theorem State.setWait_tens (s : State) (x : Nat) (w : Wait) : (s.setWait x w).tens = s.tens := rfl
@[simp] theorem State.setWait_parts (s : State) (x : Nat) (w : Wait) : (s.setWait x w).parts = s.parts := rfl
@[simp] theorem State.setWait_dies (s : State) (x : Nat) (w : Wait) : (s.setWait x w).dies = s.dies := rfl
@[simp] theorem State.setWait_clusters (s : State) (x : Nat) (w : Wait) : (s.setWait x w).clusters = s.clusters := rfl
@[simp] theorem State.setWait_islands (s : State) (x : Nat) (w : Wait) : (s.setWait x w).islands = s.islands := rfl
@[simp] theorem State.setWait_insts (s : State) (x : Nat) (w : Wait) : (s.setWait x w).insts = s.insts := rfl
@[simp] theorem State.setWait_tokens (s : State) (x : Nat) (w : Wait) : (s.setWait x w).tokens = s.tokens := rfl
@[simp] theorem State.setWait_cards (s : State) (x : Nat) (w : Wait) : (s.setWait x w).cards = s.cards := rfl
@[simp] theorem State.setWait_chans (s : State) (x : Nat) (w : Wait) : (s.setWait x w).chans = s.chans := rfl
@[simp] theorem State.setWait_fills (s : State) (x : Nat) (w : Wait) : (s.setWait x w).fills = s.fills := rfl
@[simp] theorem State.setWait_drains (s : State) (x : Nat) (w : Wait) : (s.setWait x w).drains = s.drains := rfl
@[simp] theorem State.setWait_msgs (s : State) (x : Nat) (w : Wait) : (s.setWait x w).msgs = s.msgs := rfl
@[simp] theorem State.setWait_launches (s : State) (x : Nat) (w : Wait) : (s.setWait x w).launches = s.launches := rfl
@[simp] theorem State.setWait_fields (s : State) (x : Nat) (w : Wait) : (s.setWait x w).fields = s.fields := rfl
@[simp] theorem State.setWait_links (s : State) (x : Nat) (w : Wait) : (s.setWait x w).links = s.links := rfl
@[simp] theorem State.setWait_dev (s : State) (x : Nat) (w : Wait) : (s.setWait x w).dev = s.dev := rfl

@[simp] theorem State.toReady_agenda (s : State) (x : Nat) : (s.toReady x).agenda = s.agenda := rfl
@[simp] theorem State.toReady_freeCtr (s : State) (x : Nat) : (s.toReady x).freeCtr = s.freeCtr := rfl
@[simp] theorem State.toReady_cur (s : State) (x : Nat) : (s.toReady x).cur = s.cur := rfl
@[simp] theorem State.toReady_lent (s : State) (x : Nat) : (s.toReady x).lent = s.lent := rfl
@[simp] theorem State.toReady_nextId (s : State) (x : Nat) : (s.toReady x).nextId = s.nextId := rfl
@[simp] theorem State.toReady_clock (s : State) (x : Nat) : (s.toReady x).clock = s.clock := rfl
@[simp] theorem State.toReady_serial (s : State) (x : Nat) : (s.toReady x).serial = s.serial := rfl
@[simp] theorem State.toReady_mem (s : State) (x : Nat) : (s.toReady x).mem = s.mem := rfl
@[simp] theorem State.toReady_full (s : State) (x : Nat) : (s.toReady x).full = s.full := rfl
@[simp] theorem State.toReady_poison (s : State) (x : Nat) : (s.toReady x).poison = s.poison := rfl
@[simp] theorem State.toReady_errs (s : State) (x : Nat) : (s.toReady x).errs = s.errs := rfl
@[simp] theorem State.toReady_lines (s : State) (x : Nat) : (s.toReady x).lines = s.lines := rfl
@[simp] theorem State.toReady_rdc (s : State) (x : Nat) : (s.toReady x).rdc = s.rdc := rfl
@[simp] theorem State.toReady_rbuf (s : State) (x : Nat) : (s.toReady x).rbuf = s.rbuf := rfl
@[simp] theorem State.toReady_lbuf (s : State) (x : Nat) : (s.toReady x).lbuf = s.lbuf := rfl
@[simp] theorem State.toReady_scLog (s : State) (x : Nat) : (s.toReady x).scLog = s.scLog := rfl
@[simp] theorem State.toReady_strands (s : State) (x : Nat) : (s.toReady x).strands = Tbl.set s.strands x { s.strand x with status := .ready, wait := .none } := rfl
@[simp] theorem State.toReady_units (s : State) (x : Nat) : (s.toReady x).units = s.units := rfl
@[simp] theorem State.toReady_tens (s : State) (x : Nat) : (s.toReady x).tens = s.tens := rfl
@[simp] theorem State.toReady_parts (s : State) (x : Nat) : (s.toReady x).parts = s.parts := rfl
@[simp] theorem State.toReady_dies (s : State) (x : Nat) : (s.toReady x).dies = s.dies := rfl
@[simp] theorem State.toReady_clusters (s : State) (x : Nat) : (s.toReady x).clusters = s.clusters := rfl
@[simp] theorem State.toReady_islands (s : State) (x : Nat) : (s.toReady x).islands = s.islands := rfl
@[simp] theorem State.toReady_insts (s : State) (x : Nat) : (s.toReady x).insts = s.insts := rfl
@[simp] theorem State.toReady_tokens (s : State) (x : Nat) : (s.toReady x).tokens = s.tokens := rfl
@[simp] theorem State.toReady_cards (s : State) (x : Nat) : (s.toReady x).cards = s.cards := rfl
@[simp] theorem State.toReady_chans (s : State) (x : Nat) : (s.toReady x).chans = s.chans := rfl
@[simp] theorem State.toReady_fills (s : State) (x : Nat) : (s.toReady x).fills = s.fills := rfl
@[simp] theorem State.toReady_drains (s : State) (x : Nat) : (s.toReady x).drains = s.drains := rfl
@[simp] theorem State.toReady_msgs (s : State) (x : Nat) : (s.toReady x).msgs = s.msgs := rfl
@[simp] theorem State.toReady_launches (s : State) (x : Nat) : (s.toReady x).launches = s.launches := rfl
@[simp] theorem State.toReady_fields (s : State) (x : Nat) : (s.toReady x).fields = s.fields := rfl
@[simp] theorem State.toReady_links (s : State) (x : Nat) : (s.toReady x).links = s.links := rfl
@[simp] theorem State.toReady_dev (s : State) (x : Nat) : (s.toReady x).dev = s.dev := rfl

end Sys2Proof.Machine
end

