-- ==== Sys2Proof/Laws/Ops.lean ====
section
/-!
SUPPORT. What each shared operation over strands, operands and traps can do, said once: records after a write to one of them, the checks
of an issue, sources and destinations, retiring, waiting and taking a trap.
-/
namespace Sys2Proof.Machine

/- Reading one record after a write to one. -/

@[simp] theorem State.strand_setStrand (s : State) (x : Nat) (v : Strand) : (s.setStrand x v).strand x = v := by
  simp [State.setStrand, State.strand]

theorem State.strand_setStrand_ne (s : State) {x y : Nat} (v : Strand) (h : y ≠ x) : (s.setStrand x v).strand y = s.strand y := by
  simp [State.setStrand, State.strand, Tbl.get_set_ne _ _ _ h]

@[simp] theorem State.strand_modStrand (s : State) (x : Nat) (f : Strand → Strand) : (s.modStrand x f).strand x = f (s.strand x) := by
  simp [State.modStrand]

theorem State.strand_modStrand_ne (s : State) {x y : Nat} (f : Strand → Strand) (h : y ≠ x) : (s.modStrand x f).strand y = s.strand y := by
  simp [State.modStrand, State.strand_setStrand_ne _ _ h]

@[simp] theorem State.part_modPart (s : State) (k : Nat) (f : Part → Part) : (s.modPart k f).part k = f (s.part k) := by
  simp [State.modPart, State.part]

theorem State.part_modPart_ne (s : State) {k j : Nat} (f : Part → Part) (h : j ≠ k) : (s.modPart k f).part j = s.part j := by
  simp [State.modPart, State.part, Tbl.get_set_ne _ _ _ h]

@[simp] theorem State.die_modDie (s : State) (k : Nat) (f : Die → Die) : (s.modDie k f).die k = f (s.die k) := by
  simp [State.modDie, State.die]

theorem State.die_modDie_ne (s : State) {k j : Nat} (f : Die → Die) (h : j ≠ k) : (s.modDie k f).die j = s.die j := by
  simp [State.modDie, State.die, Tbl.get_set_ne _ _ _ h]

@[simp] theorem State.island_modIsland (s : State) (k : Nat) (f : Island → Island) : (s.modIsland k f).island k = f (s.island k) := by
  simp [State.modIsland, State.island]

theorem State.island_modIsland_ne (s : State) {k j : Nat} (f : Island → Island) (h : j ≠ k) : (s.modIsland k f).island j = s.island j := by
  simp [State.modIsland, State.island, Tbl.get_set_ne _ _ _ h]

@[simp] theorem State.unit_modUnit (s : State) (u : UnitId) (f : CoreUnit → CoreUnit) : (s.modUnit u f).unit u = f (s.unit u) := by
  simp [State.modUnit, State.unit]

@[simp] theorem State.ten_modTen (s : State) (d b k : Nat) (f : TenBay → TenBay) : (s.modTen d b k f).ten d b k = f (s.ten d b k) := by
  simp [State.modTen, State.ten]

@[simp] theorem State.inst_modInst (s : State) (d i : Nat) (f : Instance → Instance) : (s.modInst d i f).inst d i = f (s.inst d i) := by
  simp [State.modInst, State.inst]

@[simp] theorem State.ring_setRing (s : State) (u : UnitId) (tag k : Nat) (r : Ring) : (s.setRing u tag k r).ring u tag k = r := by
  simp [State.setRing, State.ring, State.modTen, State.ten]

@[simp] theorem State.strand_setRing (s : State) (u : UnitId) (tag k : Nat) (r : Ring) (x : Nat) : (s.setRing u tag k r).strand x = s.strand x := rfl

@[simp] theorem State.setRing_mem (s : State) (u : UnitId) (tag k : Nat) (r : Ring) : (s.setRing u tag k r).mem = s.mem := rfl

/- Registers and prefixes. -/

theorem setReg_same (t : Strand) (i : Fin 24) (v : W128) : (setReg t i v).regs[i] = v := by simp [setReg]

theorem setReg_ne (t : Strand) {i j : Fin 24} (v : W128) (h : j ≠ i) : (setReg t i v).regs[j] = t.regs[j] := by
  have : (i : Nat) ≠ j := fun e => h (Fin.ext e.symm)
  simp [setReg, this]

theorem clearPrefix_ppx (t : Strand) : ({ t with sts := clearPrefix t.sts } : Strand).ppx = false := by
  simp [Strand.ppx, clearPrefix, bit]

theorem prefixOk_of_none {t : Strand} (p : Pfx) (h : t.ppx = false) : prefixOk p t = true := by simp [prefixOk, h]

theorem guardTrue_p0 (t : Strand) : guardTrue t ⟨false, 0⟩ = true := rfl

/- An issue (R164): one of these four holds. -/

theorem State.issue_prefix {s : State} {i : Instr} {p : Pfx} {r : Role} {g : Guard} {body : State → State} (h : prefixOk p s.me = false) :
    s.issue i p r g body = .next (s.raiseEarly 0x02 (wordOf i)) := by simp [State.issue, h]

theorem State.issue_role {s : State} {i : Instr} {p : Pfx} {r : Role} {g : Guard} {body : State → State} (h1 : prefixOk p s.me = true)
    (h2 : roleOk r (s.unitOf s.cur).sp (s.slotOf s.cur) = false) : s.issue i p r g body = .next (s.raiseEarly 0x03 (wordOf i)) := by
  simp [State.issue, h1, h2]

theorem State.issue_guard {s : State} {i : Instr} {p : Pfx} {r : Role} {g : Guard} {body : State → State} (h1 : prefixOk p s.me = true)
    (h2 : roleOk r (s.unitOf s.cur).sp (s.slotOf s.cur) = true) (h3 : guardTrue s.me g = false) :
    s.issue i p r g body = .next (s.modStrand s.cur (fun t => { t with
      sts := clearPrefix t.sts, pfx := 0, pc := t.pc + 4, status := .ready, wait := .none })) := by
  simp [State.issue, h1, h2, h3, retired, nothing, result]

theorem State.issue_run {s : State} {i : Instr} {p : Pfx} {r : Role} {g : Guard} {body : State → State} (h1 : prefixOk p s.me = true)
    (h2 : roleOk r (s.unitOf s.cur).sp (s.slotOf s.cur) = true) (h3 : guardTrue s.me g = true) : s.issue i p r g body =
    .next (if s.me.ppx then (body s).prefixTaken s.cur else body s) := by
  simp [State.issue, h1, h2, h3]

/-- With no prefix pending the operation is all there is. -/
theorem State.issue_plain {s : State} {i : Instr} {p : Pfx} {r : Role} {g : Guard} {body : State → State} (h1 : s.me.ppx = false)
    (h2 : roleOk r (s.unitOf s.cur).sp (s.slotOf s.cur) = true) (h3 : guardTrue s.me g = true) : s.issue i p r g body = .next (body s) := by
  simp [State.issue, prefixOk_of_none p h1, h1, h2, h3]

/-- An instruction that leaves no prefix pending, or none that it waits for after its issue, has taken none with it (R161). -/
theorem State.prefixTaken_eq {s : State} {x : Nat} (h : ((s.strand x).ppx && (s.strand x).wait.issued) = false) : s.prefixTaken x = s := by
  simp [State.prefixTaken, h]

/-- An instruction that has issued with a prefix and waits keeps it with the wait, and none is pending (R161, R162). -/
theorem State.strand_prefixTaken {s : State} {x : Nat} (h : ((s.strand x).ppx && (s.strand x).wait.issued) = true) :
    (s.prefixTaken x).strand x = { s.strand x with pfx := (s.strand x).sts &&& 0xC03FFFFF00000000#64, sts := clearPrefix (s.strand x).sts } := by
  simp [State.prefixTaken, h]

@[simp] theorem State.prefixTaken_mem (s : State) (x : Nat) : (s.prefixTaken x).mem = s.mem := by
  unfold State.prefixTaken; dsimp only; split <;> rfl

@[simp] theorem State.metered_mem (s : State) (tag : Nat) (l : Loc) : (s.metered tag l).mem = s.mem := by cases l <;> rfl

@[simp] theorem State.meteredLink_mem (s : State) (tag : Nat) (t : Target) : (s.meteredLink tag t).mem = s.mem := by cases t <;> rfl

@[simp] theorem State.listOrd_setListOrd (s : State) (d : Nat) (o : OrderState) : (s.setListOrd d o).listOrd d = o := by
  simp [State.listOrd, State.setListOrd, State.die, State.modDie]

/-- A trap of an instruction that has taken no prefix gives none back (R165). -/
theorem prefixBack_eq {t : Strand} (h : t.pfx = 0) : prefixBack t = t := by
  cases t; simp only at h; subst h; simp [prefixBack]

/-- Every issue answers a next state. -/
theorem State.issue_next (s : State) (i : Instr) (p : Pfx) (r : Role) (g : Guard) (body : State → State) : ∃ t, s.issue i p r g body = .next t := ⟨_, rfl⟩

theorem State.coreOnly_core {s : State} {i : Instr} {body : State → State} (h : (s.unitOf s.cur).sp = false) : s.coreOnly i body = body s := by
  simp [State.coreOnly, h]

theorem State.coreOnly_spindle {s : State} {i : Instr} {body : State → State} (h : (s.unitOf s.cur).sp = true) :
    s.coreOnly i body = s.raise 0x05 (wordOf i) := by simp [State.coreOnly, h]

/- Sources and destinations (R38). -/

@[simp] theorem State.src_reg (s : State) (i : Fin 24) (k : W128 → State → State) : s.src (.w i) k = k s.me.regs[i] s := rfl

@[simp] theorem State.src_zero (s : State) (k : W128 → State → State) : s.src .wz k = k 0 s := rfl

theorem State.src_popped {s t : State} {v : W128} (h : s.popOne s.cur = .val v none t) (k : W128 → State → State) : s.src .qi k = k v t := by
  simp [State.src, h]

theorem State.src_empty {s : State} (h : s.popOne s.cur = .wait) (k : W128 → State → State) : s.src .qi k = s.unissued (.pop s.me.iring 1) := by
  simp [State.src, h]

theorem State.src_poisoned {s t : State} {v : W128} {a : W64} (h : s.popOne s.cur = .val v (some a) t) (k : W128 → State → State) :
    s.src .qi k = s.foulPop a := by simp [State.src, h]

theorem State.src_foul {s : State} {c : Nat} {q : W64} (h : s.popOne s.cur = .foul c q) (k : W128 → State → State) : s.src .qi k = s.raise c q := by
  simp [State.src, h]

/-- Two sources that are not both qi are read one after the other. -/
theorem State.src2_of_ne {s : State} {a b : Src} (h : ¬ (a = .qi ∧ b = .qi)) (k : W128 → W128 → State → State) :
    s.src2 a b k = s.src a (fun v s1 => s1.src b (fun w s2 => k v w s2)) := by
  cases a <;> cases b <;> first | rfl | exact absurd ⟨rfl, rfl⟩ h

theorem State.src2_popped {s s1 t : State} {v w : W128} (h1 : s.popOne s.cur = .val v none s1) (h2 : s1.popOne s1.cur = .val w none t)
    (k : W128 → W128 → State → State) : s.src2 .qi .qi k = k v w t := by simp [State.src2, h1, h2]

theorem State.dstBound_bound {s : State} {d : Dst} (h : d = .qo → s.me.orv = true) (k : State → State) : s.dstBound d k = k s := by
  cases d with
  | qo => simp [State.dstBound, h rfl]
  | w i => rfl
  | wz => rfl

theorem State.dstBound_unbound {s : State} (h : s.me.orv = false) (k : State → State) :
    s.dstBound .qo k = s.raise 0x23 (w64 (256 + s.me.oring.ring)) := by simp [State.dstBound, h]

/-- A pop that needs no ring bound traps (R38); with one bound, an empty open ring is waited for. -/
theorem State.popOne_unbound {s : State} {x : Nat} (h : (s.strand x).irv = false) : s.popOne x = .foul 0x23 (w64 (s.strand x).iring) := by
  simp [State.popOne, h]

/-- Reading a line's times changes nothing but what the reader's die knows of lines. -/
theorem State.readTimes_frame (s : State) (o : OrderState) (d : Nat) (l : Loc) : (s.readTimes o d l).2 = { s with lines := (s.readTimes o d l).2.lines } := by
  unfold State.readTimes
  split
  · rfl
  · dsimp only; split <;> rfl

/-- A pop writes no byte of memory and changes no strand but the popping one. -/
theorem State.popOne_frame {s t : State} {x : Nat} {v : W128} {b : Option W64} (h : s.popOne x = .val v b t) :
    t.mem = s.mem ∧ t.cur = s.cur ∧ ∀ y, y ≠ x → t.strand y = s.strand y := by
  unfold State.popOne at h
  dsimp only at h
  split at h
  · cases h
  split at h
  · injection h with _ _ e
    subst e
    exact ⟨rfl, rfl, fun y hy => State.strand_modStrand_ne _ _ hy⟩
  split at h
  · cases h
  injection h with _ _ e
  rw [State.readTimes_frame] at e
  subst e
  exact ⟨rfl, rfl, fun y hy => (State.strand_setRing _ _ _ _ _ y).trans ((State.strand_modStrand_ne _ _ hy).trans rfl)⟩

/- Waiting, retiring, trapping. -/

/-- The strand waits; no other one does anything. -/
theorem State.strand_waitOn (s : State) (x : Nat) (w : Wait) : (s.waitOn x w).strand x =
    { s.strand x with status := .waiting, wait := w, since := s.clock, arr := s.nextId, hang := 0, hangAt := s.clock } := by
  simp [State.waitOn, State.strand, State.modStrand, State.setStrand]

theorem State.strand_waitOn_ne (s : State) {x y : Nat} (w : Wait) (h : y ≠ x) : (s.waitOn x w).strand y = s.strand y := by
  simp [State.waitOn, State.strand, State.modStrand, State.setStrand, Tbl.get_set_ne _ _ _ h]

@[simp] theorem State.strand_answer (s : State) (x : Nat) (r : Reply) : (s.answer x r).strand x = { s.strand x with wait := .reply r } := by
  simp [State.answer, State.setWait]

/-- A result for a register other than w23 is in it, and the strand has retired. -/
theorem State.retireOf_w {s : State} {x : Nat} {now : Bool} {r : Reply} {i : Fin 24} (hd : r.d = .w i) (hi : i ≠ 23) :
    s.retireOf x now r = s.modStrand x (fun t => retired (setReg t i r.v) r) := by
  simp [State.retireOf, State.retireReg, hd, hi]

theorem State.retireOf_wz {s : State} {x : Nat} {now : Bool} {r : Reply} (hd : r.d = .wz) :
    s.retireOf x now r = s.modStrand x (fun t => retired t r) := by simp [State.retireOf, State.retireReg, hd]

/-- A result for qo waits for its push (R94). -/
theorem State.retireOf_qo {s : State} {x : Nat} {now : Bool} {r : Reply} (hd : r.d = .qo) : s.retireOf x now r = s.waitOn x (.push r) := by
  simp [State.retireOf, hd]

/-- A result for w23 of a strand that is not position-bound is written without a check (R142). -/
theorem State.retireOf_w23 {s : State} {x : Nat} {now : Bool} {r : Reply} (hd : r.d = .w 23) (hk : (s.strand x).kind ≠ .pos) :
    s.retireOf x now r = s.modStrand x (fun t => retired (setReg t 23 r.v) r) := by
  have h : s.checkW23 x r.v = .write := by simp [State.checkW23, hk]
  simp [State.retireOf, State.retireReg, hd, h]

theorem retired_pc (t : Strand) (r : Reply) (h : r.npc = none) : (retired t r).pc = t.pc + 4 := by simp [retired, h]

theorem retired_regs (t : Strand) (r : Reply) : (retired t r).regs = t.regs := rfl

theorem retired_ready (t : Strand) (r : Reply) : (retired t r).status = .ready ∧ (retired t r).wait = .none := ⟨rfl, rfl⟩

/-- A trap that is not taken at once is taken at the strand's next turn (R187). -/
theorem State.strand_defer (s : State) (x cause : Nat) (value : W64) : (s.defer x cause value).strand x =
    { prefixBack (s.strand x) with status := .ready, wait := .none, pend := some (cause, value) } := s.strand_modStrand x _

@[simp] theorem State.defer_mem (s : State) (x cause : Nat) (value : W64) : (s.defer x cause value).mem = s.mem := rfl

theorem State.trapAt_lent {s : State} {cause : Nat} {value resume : W64} (h : s.lent = true) :
    s.trapAt cause value resume = s.defer s.cur cause value := by simp [State.trapAt, h]

theorem State.trapAt_own {s : State} {cause : Nat} {value resume : W64} (h : s.lent = false) :
    s.trapAt cause value resume = s.takeTrap s.cur cause value resume := by simp [State.trapAt, h]

/-- A trap in user mode with a handler enters it (R187, R188). -/
theorem State.takeTrap_handler {s : State} {x cause : Nat} {value resume : W64} (hm : (s.strand x).hm = false) (hv : (s.strand x).tvec ≠ 0)
    (hc : cause ≠ 0x26) (hp : cause ≠ 0x40) : s.takeTrap x cause value resume = s.modStrand x (fun t => enterHandler t cause value resume) := by
  have hv' : (s.strand x).tvec ≠ 0#64 := hv
  simp [State.takeTrap, hm, hv', hc, hp]

/-- Any other trap is delivered to the runtime (R187). -/
theorem State.takeTrap_runtime {s : State} {x cause : Nat} {value resume : W64} (h : (s.strand x).hm = true ∨ (s.strand x).tvec = 0 ∨ cause = 0x26)
    (hp : cause ≠ 0x40) : s.takeTrap x cause value resume = s.deliver x 1 cause value resume := by
  rcases h with h | h | h <;> simp [State.takeTrap, h, hp]

/-- Entering the handler writes w20 and w21 only (R188). -/
theorem enterHandler_regs (t : Strand) (cause : Nat) (value resume : W64) (i : Fin 24) (h20 : i ≠ 20) (h21 : i ≠ 21) :
    (enterHandler t cause value resume).regs[i] = t.regs[i] := by
  have a : (20 : Nat) ≠ i := fun e => h20 (Fin.ext e.symm)
  have b : (21 : Nat) ≠ i := fun e => h21 (Fin.ext e.symm)
  simp [enterHandler, a, b]

theorem State.ifEnabled_some {s t : State} : s.ifEnabled (some t) = .next t := rfl

theorem State.ifEnabled_none {s : State} : s.ifEnabled none = .next s := rfl

end Sys2Proof.Machine
end

