-- ==== Sys2Proof/Laws/Canonical.lean ====
section
/-!
SUPPORT. The memory's canonical form through the shared operations: the three that write bytes, and the ones built on them.
-/
namespace Sys2Proof.Machine

/-- The memory of a state has its canonical form. -/
abbrev State.Canonical (s : State) : Prop := s.mem.wf = true

theorem State.putBytes_canonical {s : State} (k : Nat) (bs : List Byte) (h : s.Canonical) : (s.putBytes k bs).Canonical := Memory.wf_writeBytes k bs h

theorem State.scrub_canonical {s : State} (a n : Nat) (h : s.Canonical) : (s.scrub a n).Canonical := Memory.wf_filter _ h

theorem State.moveBytes_canonical {s : State} (a b n : Nat) (h : s.Canonical) : (s.moveBytes a b n).Canonical := Memory.wf_moveTbl a b n h

theorem State.writeAt_canonical {s : State} (tag : Nat) (l : Loc) (bs : List Byte) (h : s.Canonical) : (s.writeAt tag l bs).Canonical := by
  unfold State.writeAt
  split
  · exact State.putBytes_canonical _ _ h
  · exact State.putBytes_canonical _ _ h
  · split
    · exact h
    · split <;> exact h
  · exact h

theorem State.recordStore_canonical {s : State} (l : Loc) (bs : List Byte) (h : s.Canonical) : (s.recordStore l bs).Canonical :=
  State.writeAt_canonical 31 l bs h

theorem State.writeTrapEntries_canonical (tag die n : Nat) : ∀ {s : State} (idx : Nat) (bs : List Byte), s.Canonical →
    (s.writeTrapEntries tag die idx bs n).Canonical := by
  induction n with
  | zero => exact fun _ _ h => h
  | succ n ih => exact fun _ _ h => ih _ _ (State.recordStore_canonical _ _ h)

theorem State.trapRecord_canonical {s : State} (x : Nat) (h : s.Canonical) : (s.trapRecord x).Canonical := by
  unfold State.trapRecord
  dsimp only
  split
  · exact h
  · split
    · exact h
    split
    all_goals
      split
      · rw [State.Canonical, State.emit_mem]; exact h
      split
      · exact h
      · rw [State.Canonical, State.emit_mem, State.modStrand_mem, State.modPart_mem]
        exact State.writeTrapEntries_canonical _ _ _ _ _ h

/-- Delivery to the runtime writes at most records of the trap queue. -/
theorem State.deliver_canonical {s : State} (x evt cause : Nat) (value resume : W64) (h : s.Canonical) : (s.deliver x evt cause value resume).Canonical :=
  State.trapRecord_canonical x h

theorem State.takeTrap_canonical {s : State} (x cause : Nat) (value resume : W64) (h : s.Canonical) : (s.takeTrap x cause value resume).Canonical := by
  unfold State.takeTrap
  have h1 : (if cause = 0x40 then s.consumed (s.unitOf x).die else s).Canonical := by split <;> exact h
  dsimp only
  split
  · exact h1
  · exact State.deliver_canonical _ _ _ _ _ h1

theorem State.trapAt_canonical {s : State} (cause : Nat) (value resume : W64) (h : s.Canonical) : (s.trapAt cause value resume).Canonical := by
  unfold State.trapAt
  split
  · exact h
  · exact State.takeTrap_canonical _ _ _ _ h

theorem State.raise_canonical {s : State} (cause : Nat) (value : W64) (h : s.Canonical) : (s.raise cause value).Canonical :=
  State.trapAt_canonical _ _ _ h

theorem State.raiseOf_canonical {s : State} (x : Nat) (now : Bool) (cause : Nat) (value : W64) (h : s.Canonical) : (s.raiseOf x now cause value).Canonical := by
  unfold State.raiseOf
  split
  · exact State.raise_canonical _ _ h
  · exact h

/-- Retiring an instruction writes a byte only where it traps to the runtime. -/
theorem State.retireReg_canonical {s : State} (x : Nat) (now : Bool) (r : Reply) (h : s.Canonical) : (s.retireReg x now r).Canonical := by
  unfold State.retireReg
  split
  · split
    · split
      · exact h
      · exact h
      · exact h
      · exact State.raiseOf_canonical _ _ _ _ h
    · exact h
  · exact h
  · exact h

theorem State.retireOf_canonical {s : State} (x : Nat) (now : Bool) (r : Reply) (h : s.Canonical) : (s.retireOf x now r).Canonical := by
  unfold State.retireOf
  split
  · exact h
  · exact State.retireReg_canonical _ _ _ h

/-- An issue keeps the canonical form where its operation does. -/
theorem State.issue_canonical {s t : State} {i : Instr} {p : Pfx} {r : Role} {g : Guard} {body : State → State} (h : s.Canonical)
    (hb : (body s).Canonical) (e : s.issue i p r g body = .next t) : t.Canonical := by
  unfold State.issue at e
  injection e with e
  subst e
  split
  · exact State.raise_canonical _ _ h
  split
  · exact State.raise_canonical _ _ h
  split
  · exact h
  split
  · rw [State.Canonical, State.prefixTaken_mem]; exact hb
  · exact hb

end Sys2Proof.Machine
end

