-- ==== Sys2Proof/Laws/PerInstr.lean ====
section
/-!
SUPPORT. Per-instruction lemmas: the word that the encoder gives an instruction fits 32 bits, so that nothing is lost in `encode`.
-/
namespace Sys2Proof

theorem Src.code_lt (a : Src) : a.code < 32 := by
  cases a with
  | w i => have := i.isLt; simp only [Src.code]; omega
  | wz => decide
  | qi => decide

theorem Dst.code_lt (d : Dst) : d.code < 32 := by
  cases d with
  | w i => have := i.isLt; simp only [Dst.code]; omega
  | wz => decide
  | qo => decide

theorem RegZ.code_lt (a : RegZ) : a.code < 32 := by
  cases a with
  | w i => have := i.isLt; simp only [RegZ.code]; omega
  | wz => decide

theorem Guard.code_lt (g : Guard) : g.code < 32 := by
  have := g.p.isLt
  have := g.neg.toNat_lt
  simp only [Guard.code]; omega

theorem Cond.code_lt (c : Cond) : c.code < 16 := by cases c <;> decide

theorem Combine.code_lt (c : Combine) : c.code < 4 := by cases c <;> decide

theorem FFmt.code_lt (c : FFmt) : c.code < 4 := by cases c <;> decide

theorem IWidth.code_lt (c : IWidth) : c.code < 4 := by cases c <;> decide

theorem CvtTy.code_lt (c : CvtTy) : c.code < 8 := by cases c <;> decide

theorem MKind.code_lt (c : MKind) : c.code < 8 := by cases c <;> decide

theorem Scope.code_lt (c : Scope) : c.code < 8 := by cases c <;> decide

theorem AOrd.code_lt (c : AOrd) : c.code < 4 := by cases c <;> decide

theorem ASize.code_lt (c : ASize) : c.code < 4 := by cases c <;> decide

namespace Laws.WordRange

/-- The encoder's word of an instruction, where it has one, fits 32 bits. -/
def Statement (i : Instr) : Prop := ∀ n, encodeNat i = some n → n < 2 ^ 32

theorem add (d : Dst) (a : Src) (b : Src) (g : Guard) : Statement (.add d a b g) := by
  intro n_ h_
  have := d.code_lt
  have := a.code_lt
  have := b.code_lt
  have := g.code_lt
  have h : 0x04000000 + d.code * 2097152 + a.code * 65536 + b.code * 2048 + g.code = n_ := Option.some.inj h_
  omega

theorem sub (d : Dst) (a : Src) (b : Src) (g : Guard) : Statement (.sub d a b g) := by
  intro n_ h_
  have := d.code_lt
  have := a.code_lt
  have := b.code_lt
  have := g.code_lt
  have h : 0x04000020 + d.code * 2097152 + a.code * 65536 + b.code * 2048 + g.code = n_ := Option.some.inj h_
  omega

theorem and (d : Dst) (a : Src) (b : Src) (g : Guard) : Statement (.and d a b g) := by
  intro n_ h_
  have := d.code_lt
  have := a.code_lt
  have := b.code_lt
  have := g.code_lt
  have h : 0x04000040 + d.code * 2097152 + a.code * 65536 + b.code * 2048 + g.code = n_ := Option.some.inj h_
  omega

theorem or (d : Dst) (a : Src) (b : Src) (g : Guard) : Statement (.or d a b g) := by
  intro n_ h_
  have := d.code_lt
  have := a.code_lt
  have := b.code_lt
  have := g.code_lt
  have h : 0x04000060 + d.code * 2097152 + a.code * 65536 + b.code * 2048 + g.code = n_ := Option.some.inj h_
  omega

theorem xor (d : Dst) (a : Src) (b : Src) (g : Guard) : Statement (.xor d a b g) := by
  intro n_ h_
  have := d.code_lt
  have := a.code_lt
  have := b.code_lt
  have := g.code_lt
  have h : 0x04000080 + d.code * 2097152 + a.code * 65536 + b.code * 2048 + g.code = n_ := Option.some.inj h_
  omega

theorem andn (d : Dst) (a : Src) (b : Src) (g : Guard) : Statement (.andn d a b g) := by
  intro n_ h_
  have := d.code_lt
  have := a.code_lt
  have := b.code_lt
  have := g.code_lt
  have h : 0x040000A0 + d.code * 2097152 + a.code * 65536 + b.code * 2048 + g.code = n_ := Option.some.inj h_
  omega

theorem shl (d : Dst) (a : Src) (b : Src) (g : Guard) : Statement (.shl d a b g) := by
  intro n_ h_
  have := d.code_lt
  have := a.code_lt
  have := b.code_lt
  have := g.code_lt
  have h : 0x040000C0 + d.code * 2097152 + a.code * 65536 + b.code * 2048 + g.code = n_ := Option.some.inj h_
  omega

theorem shr (d : Dst) (a : Src) (b : Src) (g : Guard) : Statement (.shr d a b g) := by
  intro n_ h_
  have := d.code_lt
  have := a.code_lt
  have := b.code_lt
  have := g.code_lt
  have h : 0x040000E0 + d.code * 2097152 + a.code * 65536 + b.code * 2048 + g.code = n_ := Option.some.inj h_
  omega

theorem sar (d : Dst) (a : Src) (b : Src) (g : Guard) : Statement (.sar d a b g) := by
  intro n_ h_
  have := d.code_lt
  have := a.code_lt
  have := b.code_lt
  have := g.code_lt
  have h : 0x04000100 + d.code * 2097152 + a.code * 65536 + b.code * 2048 + g.code = n_ := Option.some.inj h_
  omega

theorem mul (d : Dst) (a : Src) (b : Src) (g : Guard) : Statement (.mul d a b g) := by
  intro n_ h_
  have := d.code_lt
  have := a.code_lt
  have := b.code_lt
  have := g.code_lt
  have h : 0x04000120 + d.code * 2097152 + a.code * 65536 + b.code * 2048 + g.code = n_ := Option.some.inj h_
  omega

theorem mulh (d : Dst) (a : Src) (b : Src) (g : Guard) : Statement (.mulh d a b g) := by
  intro n_ h_
  have := d.code_lt
  have := a.code_lt
  have := b.code_lt
  have := g.code_lt
  have h : 0x04000140 + d.code * 2097152 + a.code * 65536 + b.code * 2048 + g.code = n_ := Option.some.inj h_
  omega

theorem mulhu (d : Dst) (a : Src) (b : Src) (g : Guard) : Statement (.mulhu d a b g) := by
  intro n_ h_
  have := d.code_lt
  have := a.code_lt
  have := b.code_lt
  have := g.code_lt
  have h : 0x04000160 + d.code * 2097152 + a.code * 65536 + b.code * 2048 + g.code = n_ := Option.some.inj h_
  omega

theorem min (d : Dst) (a : Src) (b : Src) (g : Guard) : Statement (.min d a b g) := by
  intro n_ h_
  have := d.code_lt
  have := a.code_lt
  have := b.code_lt
  have := g.code_lt
  have h : 0x04000180 + d.code * 2097152 + a.code * 65536 + b.code * 2048 + g.code = n_ := Option.some.inj h_
  omega

theorem max (d : Dst) (a : Src) (b : Src) (g : Guard) : Statement (.max d a b g) := by
  intro n_ h_
  have := d.code_lt
  have := a.code_lt
  have := b.code_lt
  have := g.code_lt
  have h : 0x040001A0 + d.code * 2097152 + a.code * 65536 + b.code * 2048 + g.code = n_ := Option.some.inj h_
  omega

theorem minu (d : Dst) (a : Src) (b : Src) (g : Guard) : Statement (.minu d a b g) := by
  intro n_ h_
  have := d.code_lt
  have := a.code_lt
  have := b.code_lt
  have := g.code_lt
  have h : 0x040001C0 + d.code * 2097152 + a.code * 65536 + b.code * 2048 + g.code = n_ := Option.some.inj h_
  omega

theorem maxu (d : Dst) (a : Src) (b : Src) (g : Guard) : Statement (.maxu d a b g) := by
  intro n_ h_
  have := d.code_lt
  have := a.code_lt
  have := b.code_lt
  have := g.code_lt
  have h : 0x040001E0 + d.code * 2097152 + a.code * 65536 + b.code * 2048 + g.code = n_ := Option.some.inj h_
  omega

theorem clz (d : Dst) (a : Src) (g : Guard) : Statement (.clz d a g) := by
  intro n_ h_
  have := d.code_lt
  have := a.code_lt
  have := g.code_lt
  have h : 0x04000200 + d.code * 2097152 + a.code * 65536 + g.code = n_ := Option.some.inj h_
  omega

theorem ctz (d : Dst) (a : Src) (g : Guard) : Statement (.ctz d a g) := by
  intro n_ h_
  have := d.code_lt
  have := a.code_lt
  have := g.code_lt
  have h : 0x04000220 + d.code * 2097152 + a.code * 65536 + g.code = n_ := Option.some.inj h_
  omega

theorem popc (d : Dst) (a : Src) (g : Guard) : Statement (.popc d a g) := by
  intro n_ h_
  have := d.code_lt
  have := a.code_lt
  have := g.code_lt
  have h : 0x04000240 + d.code * 2097152 + a.code * 65536 + g.code = n_ := Option.some.inj h_
  omega

theorem addi (d : Dst) (a : Src) (imm : BitVec 11) (g : Guard) : Statement (.addi d a imm g) := by
  intro n_ h_
  have := d.code_lt
  have := a.code_lt
  have := imm.isLt
  have := g.code_lt
  have h : 0x08000000 + d.code * 2097152 + a.code * 65536 + imm.toNat * 32 + g.code = n_ := Option.some.inj h_
  omega

theorem andi (d : Dst) (a : Src) (imm : BitVec 11) (g : Guard) : Statement (.andi d a imm g) := by
  intro n_ h_
  have := d.code_lt
  have := a.code_lt
  have := imm.isLt
  have := g.code_lt
  have h : 0x0C000000 + d.code * 2097152 + a.code * 65536 + imm.toNat * 32 + g.code = n_ := Option.some.inj h_
  omega

theorem ori (d : Dst) (a : Src) (imm : BitVec 11) (g : Guard) : Statement (.ori d a imm g) := by
  intro n_ h_
  have := d.code_lt
  have := a.code_lt
  have := imm.isLt
  have := g.code_lt
  have h : 0x10000000 + d.code * 2097152 + a.code * 65536 + imm.toNat * 32 + g.code = n_ := Option.some.inj h_
  omega

theorem xori (d : Dst) (a : Src) (imm : BitVec 11) (g : Guard) : Statement (.xori d a imm g) := by
  intro n_ h_
  have := d.code_lt
  have := a.code_lt
  have := imm.isLt
  have := g.code_lt
  have h : 0x14000000 + d.code * 2097152 + a.code * 65536 + imm.toNat * 32 + g.code = n_ := Option.some.inj h_
  omega

theorem shli (d : Dst) (a : Src) (n : BitVec 6) (g : Guard) : Statement (.shli d a n g) := by
  intro n_ h_
  have := d.code_lt
  have := a.code_lt
  have := n.isLt
  have := g.code_lt
  have h : 0x18000000 + d.code * 2097152 + a.code * 65536 + n.toNat * 32 + g.code = n_ := Option.some.inj h_
  omega

theorem shri (d : Dst) (a : Src) (n : BitVec 6) (g : Guard) : Statement (.shri d a n g) := by
  intro n_ h_
  have := d.code_lt
  have := a.code_lt
  have := n.isLt
  have := g.code_lt
  have h : 0x18004000 + d.code * 2097152 + a.code * 65536 + n.toNat * 32 + g.code = n_ := Option.some.inj h_
  omega

theorem sari (d : Dst) (a : Src) (n : BitVec 6) (g : Guard) : Statement (.sari d a n g) := by
  intro n_ h_
  have := d.code_lt
  have := a.code_lt
  have := n.isLt
  have := g.code_lt
  have h : 0x18008000 + d.code * 2097152 + a.code * 65536 + n.toNat * 32 + g.code = n_ := Option.some.inj h_
  omega

theorem cmp (pd : PReg) (a : Src) (b : Src) (comb : Combine) (cc : Cond) (g : Guard) : Statement (.cmp pd a b comb cc g) := by
  intro n_ h_
  have := pd.isLt
  have := a.code_lt
  have := b.code_lt
  have := comb.code_lt
  have := cc.code_lt
  have := g.code_lt
  have h : 0x1C000000 + pd.val * 2097152 + a.code * 65536 + b.code * 2048 + comb.code * 512 + cc.code * 32 + g.code = n_ := Option.some.inj h_
  omega

theorem cmpi (pd : PReg) (a : Src) (cc : Cond) (imm : BitVec 7) (g : Guard) : Statement (.cmpi pd a cc imm g) := by
  intro n_ h_
  have := pd.isLt
  have := a.code_lt
  have := cc.code_lt
  have := imm.isLt
  have := g.code_lt
  have h : 0x20000000 + pd.val * 2097152 + a.code * 65536 + cc.code * 4096 + imm.toNat * 32 + g.code = n_ := Option.some.inj h_
  omega

theorem pand (pd : PReg) (pa : PReg) (pb : PReg) (g : Guard) : Statement (.pand pd pa pb g) := by
  intro n_ h_
  have := pd.isLt
  have := pa.isLt
  have := pb.isLt
  have := g.code_lt
  have h : 0x24000000 + pd.val * 2097152 + pa.val * 65536 + pb.val * 2048 + g.code = n_ := Option.some.inj h_
  omega

theorem por (pd : PReg) (pa : PReg) (pb : PReg) (g : Guard) : Statement (.por pd pa pb g) := by
  intro n_ h_
  have := pd.isLt
  have := pa.isLt
  have := pb.isLt
  have := g.code_lt
  have h : 0x24000020 + pd.val * 2097152 + pa.val * 65536 + pb.val * 2048 + g.code = n_ := Option.some.inj h_
  omega

theorem pxor (pd : PReg) (pa : PReg) (pb : PReg) (g : Guard) : Statement (.pxor pd pa pb g) := by
  intro n_ h_
  have := pd.isLt
  have := pa.isLt
  have := pb.isLt
  have := g.code_lt
  have h : 0x24000040 + pd.val * 2097152 + pa.val * 65536 + pb.val * 2048 + g.code = n_ := Option.some.inj h_
  omega

theorem pandn (pd : PReg) (pa : PReg) (pb : PReg) (g : Guard) : Statement (.pandn pd pa pb g) := by
  intro n_ h_
  have := pd.isLt
  have := pa.isLt
  have := pb.isLt
  have := g.code_lt
  have h : 0x24000060 + pd.val * 2097152 + pa.val * 65536 + pb.val * 2048 + g.code = n_ := Option.some.inj h_
  omega

theorem pnot (pd : PReg) (pa : PReg) (g : Guard) : Statement (.pnot pd pa g) := by
  intro n_ h_
  have := pd.isLt
  have := pa.isLt
  have := g.code_lt
  have h : 0x24000080 + pd.val * 2097152 + pa.val * 65536 + g.code = n_ := Option.some.inj h_
  omega

theorem pany (pd : PReg) (n : BitVec 5) (g : Guard) : Statement (.pany pd n g) := by
  intro n_ h_
  have := pd.isLt
  have := n.isLt
  have := g.code_lt
  have h : 0x240000A0 + pd.val * 2097152 + n.toNat * 65536 + g.code = n_ := Option.some.inj h_
  omega

theorem pall (pd : PReg) (n : BitVec 5) (g : Guard) : Statement (.pall pd n g) := by
  intro n_ h_
  have := pd.isLt
  have := n.isLt
  have := g.code_lt
  have h : 0x240000C0 + pd.val * 2097152 + n.toNat * 65536 + g.code = n_ := Option.some.inj h_
  omega

theorem prd (d : Dst) (g : Guard) : Statement (.prd d g) := by
  intro n_ h_
  have := d.code_lt
  have := g.code_lt
  have h : 0x240000E0 + d.code * 2097152 + g.code = n_ := Option.some.inj h_
  omega

theorem pwr (a : Src) (g : Guard) : Statement (.pwr a g) := by
  intro n_ h_
  have := a.code_lt
  have := g.code_lt
  have h : 0x24000100 + a.code * 65536 + g.code = n_ := Option.some.inj h_
  omega

theorem movi (d : Dst) (imm : BitVec 16) (g : Guard) : Statement (.movi d imm g) := by
  intro n_ h_
  have := d.code_lt
  have := imm.isLt
  have := g.code_lt
  have h : 0x28000000 + d.code * 2097152 + imm.toNat * 32 + g.code = n_ := Option.some.inj h_
  omega

theorem div (d : Dst) (a : Src) (b : Src) (g : Guard) : Statement (.div d a b g) := by
  intro n_ h_
  have := d.code_lt
  have := a.code_lt
  have := b.code_lt
  have := g.code_lt
  have h : 0x2C000000 + d.code * 2097152 + a.code * 65536 + b.code * 2048 + g.code = n_ := Option.some.inj h_
  omega

theorem divu (d : Dst) (a : Src) (b : Src) (g : Guard) : Statement (.divu d a b g) := by
  intro n_ h_
  have := d.code_lt
  have := a.code_lt
  have := b.code_lt
  have := g.code_lt
  have h : 0x2C000020 + d.code * 2097152 + a.code * 65536 + b.code * 2048 + g.code = n_ := Option.some.inj h_
  omega

theorem rem (d : Dst) (a : Src) (b : Src) (g : Guard) : Statement (.rem d a b g) := by
  intro n_ h_
  have := d.code_lt
  have := a.code_lt
  have := b.code_lt
  have := g.code_lt
  have h : 0x2C000040 + d.code * 2097152 + a.code * 65536 + b.code * 2048 + g.code = n_ := Option.some.inj h_
  omega

theorem remu (d : Dst) (a : Src) (b : Src) (g : Guard) : Statement (.remu d a b g) := by
  intro n_ h_
  have := d.code_lt
  have := a.code_lt
  have := b.code_lt
  have := g.code_lt
  have h : 0x2C000060 + d.code * 2097152 + a.code * 65536 + b.code * 2048 + g.code = n_ := Option.some.inj h_
  omega

theorem b (disp : BitVec 21) (g : Guard) : Statement (.b disp g) := by
  intro n_ h_
  have := disp.isLt
  have := g.code_lt
  have h : 0x40000000 + disp.toNat * 32 + g.code = n_ := Option.some.inj h_
  omega

theorem bl (disp : BitVec 21) (g : Guard) : Statement (.bl disp g) := by
  intro n_ h_
  have := disp.isLt
  have := g.code_lt
  have h : 0x44000000 + disp.toNat * 32 + g.code = n_ := Option.some.inj h_
  omega

theorem br (a : Src) (g : Guard) : Statement (.br a g) := by
  intro n_ h_
  have := a.code_lt
  have := g.code_lt
  have h : 0x48000000 + a.code * 65536 + g.code = n_ := Option.some.inj h_
  omega

theorem blr (d : Dst) (a : Src) (g : Guard) : Statement (.blr d a g) := by
  intro n_ h_
  have := d.code_lt
  have := a.code_lt
  have := g.code_lt
  have h : 0x48000020 + d.code * 2097152 + a.code * 65536 + g.code = n_ := Option.some.inj h_
  omega

theorem trap (n : BitVec 15) (g : Guard) : Statement (.trap n g) := by
  intro n_ h_
  have := n.isLt
  have := g.code_lt
  have h : 0x50000000 + n.toNat * 2048 + g.code = n_ := Option.some.inj h_
  omega

theorem svc (n : BitVec 15) (g : Guard) : Statement (.svc n g) := by
  intro n_ h_
  have := n.isLt
  have := g.code_lt
  have h : 0x50000020 + n.toNat * 2048 + g.code = n_ := Option.some.inj h_
  omega

theorem rft (g : Guard) : Statement (.rft g) := by
  intro n_ h_
  have := g.code_lt
  have h : 0x50000040 + g.code = n_ := Option.some.inj h_
  omega

theorem halt (g : Guard) : Statement (.halt g) := by
  intro n_ h_
  have := g.code_lt
  have h : 0x50000060 + g.code = n_ := Option.some.inj h_
  omega

theorem yield (g : Guard) : Statement (.yield g) := by
  intro n_ h_
  have := g.code_lt
  have h : 0x50000080 + g.code = n_ := Option.some.inj h_
  omega

theorem nop (g : Guard) : Statement (.nop g) := by
  intro n_ h_
  have := g.code_lt
  have h : 0x500000A0 + g.code = n_ := Option.some.inj h_
  omega

theorem csrr (d : Dst) (csr : BitVec 10) (g : Guard) : Statement (.csrr d csr g) := by
  intro n_ h_
  have := d.code_lt
  have := csr.isLt
  have := g.code_lt
  have h : 0x500000C0 + d.code * 2097152 + csr.toNat * 2048 + g.code = n_ := Option.some.inj h_
  omega

theorem csrw (csr : BitVec 10) (a : Src) (g : Guard) : Statement (.csrw csr a g) := by
  intro n_ h_
  have := a.code_lt
  have := csr.isLt
  have := g.code_lt
  have h : 0x500000E0 + a.code * 2097152 + csr.toNat * 2048 + g.code = n_ := Option.some.inj h_
  omega

theorem tlbi (a : Src) (b : Src) (g : Guard) : Statement (.tlbi a b g) := by
  intro n_ h_
  have := a.code_lt
  have := b.code_lt
  have := g.code_lt
  have h : 0x50000100 + a.code * 65536 + b.code * 2048 + g.code = n_ := Option.some.inj h_
  omega

theorem vadd (d : Dst) (a : Src) (b : Src) (f : FFmt) (g : Guard) : Statement (.vadd d a b f g) := by
  intro n_ h_
  have := d.code_lt
  have := a.code_lt
  have := b.code_lt
  have := f.code_lt
  have := g.code_lt
  have h : 0x60000000 + d.code * 2097152 + a.code * 65536 + b.code * 2048 + f.code * 32 + g.code = n_ := Option.some.inj h_
  omega

theorem vsub (d : Dst) (a : Src) (b : Src) (f : FFmt) (g : Guard) : Statement (.vsub d a b f g) := by
  intro n_ h_
  have := d.code_lt
  have := a.code_lt
  have := b.code_lt
  have := f.code_lt
  have := g.code_lt
  have h : 0x60000080 + d.code * 2097152 + a.code * 65536 + b.code * 2048 + f.code * 32 + g.code = n_ := Option.some.inj h_
  omega

theorem vmul (d : Dst) (a : Src) (b : Src) (f : FFmt) (g : Guard) : Statement (.vmul d a b f g) := by
  intro n_ h_
  have := d.code_lt
  have := a.code_lt
  have := b.code_lt
  have := f.code_lt
  have := g.code_lt
  have h : 0x60000100 + d.code * 2097152 + a.code * 65536 + b.code * 2048 + f.code * 32 + g.code = n_ := Option.some.inj h_
  omega

theorem vfma (d : RegZ) (a : Src) (b : Src) (f : FFmt) (g : Guard) : Statement (.vfma d a b f g) := by
  intro n_ h_
  have := d.code_lt
  have := a.code_lt
  have := b.code_lt
  have := f.code_lt
  have := g.code_lt
  have h : 0x60000180 + d.code * 2097152 + a.code * 65536 + b.code * 2048 + f.code * 32 + g.code = n_ := Option.some.inj h_
  omega

theorem vfms (d : RegZ) (a : Src) (b : Src) (f : FFmt) (g : Guard) : Statement (.vfms d a b f g) := by
  intro n_ h_
  have := d.code_lt
  have := a.code_lt
  have := b.code_lt
  have := f.code_lt
  have := g.code_lt
  have h : 0x60000200 + d.code * 2097152 + a.code * 65536 + b.code * 2048 + f.code * 32 + g.code = n_ := Option.some.inj h_
  omega

theorem vmin (d : Dst) (a : Src) (b : Src) (f : FFmt) (g : Guard) : Statement (.vmin d a b f g) := by
  intro n_ h_
  have := d.code_lt
  have := a.code_lt
  have := b.code_lt
  have := f.code_lt
  have := g.code_lt
  have h : 0x60000280 + d.code * 2097152 + a.code * 65536 + b.code * 2048 + f.code * 32 + g.code = n_ := Option.some.inj h_
  omega

theorem vmax (d : Dst) (a : Src) (b : Src) (f : FFmt) (g : Guard) : Statement (.vmax d a b f g) := by
  intro n_ h_
  have := d.code_lt
  have := a.code_lt
  have := b.code_lt
  have := f.code_lt
  have := g.code_lt
  have h : 0x60000300 + d.code * 2097152 + a.code * 65536 + b.code * 2048 + f.code * 32 + g.code = n_ := Option.some.inj h_
  omega

theorem vabs (d : Dst) (a : Src) (f : FFmt) (g : Guard) : Statement (.vabs d a f g) := by
  intro n_ h_
  have := d.code_lt
  have := a.code_lt
  have := f.code_lt
  have := g.code_lt
  have h : 0x60000380 + d.code * 2097152 + a.code * 65536 + f.code * 32 + g.code = n_ := Option.some.inj h_
  omega

theorem vneg (d : Dst) (a : Src) (f : FFmt) (g : Guard) : Statement (.vneg d a f g) := by
  intro n_ h_
  have := d.code_lt
  have := a.code_lt
  have := f.code_lt
  have := g.code_lt
  have h : 0x60000400 + d.code * 2097152 + a.code * 65536 + f.code * 32 + g.code = n_ := Option.some.inj h_
  omega

theorem vcmpeq (a : Src) (b : Src) (f : FFmt) (g : Guard) : Statement (.vcmpeq a b f g) := by
  intro n_ h_
  have := a.code_lt
  have := b.code_lt
  have := f.code_lt
  have := g.code_lt
  have h : 0x60000480 + a.code * 65536 + b.code * 2048 + f.code * 32 + g.code = n_ := Option.some.inj h_
  omega

theorem vcmplt (a : Src) (b : Src) (f : FFmt) (g : Guard) : Statement (.vcmplt a b f g) := by
  intro n_ h_
  have := a.code_lt
  have := b.code_lt
  have := f.code_lt
  have := g.code_lt
  have h : 0x60000500 + a.code * 65536 + b.code * 2048 + f.code * 32 + g.code = n_ := Option.some.inj h_
  omega

theorem vcmple (a : Src) (b : Src) (f : FFmt) (g : Guard) : Statement (.vcmple a b f g) := by
  intro n_ h_
  have := a.code_lt
  have := b.code_lt
  have := f.code_lt
  have := g.code_lt
  have h : 0x60000580 + a.code * 65536 + b.code * 2048 + f.code * 32 + g.code = n_ := Option.some.inj h_
  omega

theorem vcmpun (a : Src) (b : Src) (f : FFmt) (g : Guard) : Statement (.vcmpun a b f g) := by
  intro n_ h_
  have := a.code_lt
  have := b.code_lt
  have := f.code_lt
  have := g.code_lt
  have h : 0x60000600 + a.code * 65536 + b.code * 2048 + f.code * 32 + g.code = n_ := Option.some.inj h_
  omega

theorem vrsum (d : Dst) (a : Src) (f : FFmt) (g : Guard) : Statement (.vrsum d a f g) := by
  intro n_ h_
  have := d.code_lt
  have := a.code_lt
  have := f.code_lt
  have := g.code_lt
  have h : 0x60000680 + d.code * 2097152 + a.code * 65536 + f.code * 32 + g.code = n_ := Option.some.inj h_
  omega

theorem viadd (d : Dst) (a : Src) (b : Src) (w : IWidth) (g : Guard) : Statement (.viadd d a b w g) := by
  intro n_ h_
  have := d.code_lt
  have := a.code_lt
  have := b.code_lt
  have := w.code_lt
  have := g.code_lt
  have h : 0x64000000 + d.code * 2097152 + a.code * 65536 + b.code * 2048 + w.code * 32 + g.code = n_ := Option.some.inj h_
  omega

theorem visub (d : Dst) (a : Src) (b : Src) (w : IWidth) (g : Guard) : Statement (.visub d a b w g) := by
  intro n_ h_
  have := d.code_lt
  have := a.code_lt
  have := b.code_lt
  have := w.code_lt
  have := g.code_lt
  have h : 0x64000080 + d.code * 2097152 + a.code * 65536 + b.code * 2048 + w.code * 32 + g.code = n_ := Option.some.inj h_
  omega

theorem vimul (d : Dst) (a : Src) (b : Src) (w : IWidth) (g : Guard) : Statement (.vimul d a b w g) := by
  intro n_ h_
  have := d.code_lt
  have := a.code_lt
  have := b.code_lt
  have := w.code_lt
  have := g.code_lt
  have h : 0x64000100 + d.code * 2097152 + a.code * 65536 + b.code * 2048 + w.code * 32 + g.code = n_ := Option.some.inj h_
  omega

theorem vimin (d : Dst) (a : Src) (b : Src) (w : IWidth) (g : Guard) : Statement (.vimin d a b w g) := by
  intro n_ h_
  have := d.code_lt
  have := a.code_lt
  have := b.code_lt
  have := w.code_lt
  have := g.code_lt
  have h : 0x64000180 + d.code * 2097152 + a.code * 65536 + b.code * 2048 + w.code * 32 + g.code = n_ := Option.some.inj h_
  omega

theorem vimax (d : Dst) (a : Src) (b : Src) (w : IWidth) (g : Guard) : Statement (.vimax d a b w g) := by
  intro n_ h_
  have := d.code_lt
  have := a.code_lt
  have := b.code_lt
  have := w.code_lt
  have := g.code_lt
  have h : 0x64000200 + d.code * 2097152 + a.code * 65536 + b.code * 2048 + w.code * 32 + g.code = n_ := Option.some.inj h_
  omega

theorem viminu (d : Dst) (a : Src) (b : Src) (w : IWidth) (g : Guard) : Statement (.viminu d a b w g) := by
  intro n_ h_
  have := d.code_lt
  have := a.code_lt
  have := b.code_lt
  have := w.code_lt
  have := g.code_lt
  have h : 0x64000280 + d.code * 2097152 + a.code * 65536 + b.code * 2048 + w.code * 32 + g.code = n_ := Option.some.inj h_
  omega

theorem vimaxu (d : Dst) (a : Src) (b : Src) (w : IWidth) (g : Guard) : Statement (.vimaxu d a b w g) := by
  intro n_ h_
  have := d.code_lt
  have := a.code_lt
  have := b.code_lt
  have := w.code_lt
  have := g.code_lt
  have h : 0x64000300 + d.code * 2097152 + a.code * 65536 + b.code * 2048 + w.code * 32 + g.code = n_ := Option.some.inj h_
  omega

theorem vand (d : Dst) (a : Src) (b : Src) (w : IWidth) (g : Guard) : Statement (.vand d a b w g) := by
  intro n_ h_
  have := d.code_lt
  have := a.code_lt
  have := b.code_lt
  have := w.code_lt
  have := g.code_lt
  have h : 0x64000380 + d.code * 2097152 + a.code * 65536 + b.code * 2048 + w.code * 32 + g.code = n_ := Option.some.inj h_
  omega

theorem vor (d : Dst) (a : Src) (b : Src) (w : IWidth) (g : Guard) : Statement (.vor d a b w g) := by
  intro n_ h_
  have := d.code_lt
  have := a.code_lt
  have := b.code_lt
  have := w.code_lt
  have := g.code_lt
  have h : 0x64000400 + d.code * 2097152 + a.code * 65536 + b.code * 2048 + w.code * 32 + g.code = n_ := Option.some.inj h_
  omega

theorem vxor (d : Dst) (a : Src) (b : Src) (w : IWidth) (g : Guard) : Statement (.vxor d a b w g) := by
  intro n_ h_
  have := d.code_lt
  have := a.code_lt
  have := b.code_lt
  have := w.code_lt
  have := g.code_lt
  have h : 0x64000480 + d.code * 2097152 + a.code * 65536 + b.code * 2048 + w.code * 32 + g.code = n_ := Option.some.inj h_
  omega

theorem vshl (d : Dst) (a : Src) (b : Src) (w : IWidth) (g : Guard) : Statement (.vshl d a b w g) := by
  intro n_ h_
  have := d.code_lt
  have := a.code_lt
  have := b.code_lt
  have := w.code_lt
  have := g.code_lt
  have h : 0x64000500 + d.code * 2097152 + a.code * 65536 + b.code * 2048 + w.code * 32 + g.code = n_ := Option.some.inj h_
  omega

theorem vshr (d : Dst) (a : Src) (b : Src) (w : IWidth) (g : Guard) : Statement (.vshr d a b w g) := by
  intro n_ h_
  have := d.code_lt
  have := a.code_lt
  have := b.code_lt
  have := w.code_lt
  have := g.code_lt
  have h : 0x64000580 + d.code * 2097152 + a.code * 65536 + b.code * 2048 + w.code * 32 + g.code = n_ := Option.some.inj h_
  omega

theorem vsar (d : Dst) (a : Src) (b : Src) (w : IWidth) (g : Guard) : Statement (.vsar d a b w g) := by
  intro n_ h_
  have := d.code_lt
  have := a.code_lt
  have := b.code_lt
  have := w.code_lt
  have := g.code_lt
  have h : 0x64000600 + d.code * 2097152 + a.code * 65536 + b.code * 2048 + w.code * 32 + g.code = n_ := Option.some.inj h_
  omega

theorem vicmpeq (a : Src) (b : Src) (w : IWidth) (g : Guard) : Statement (.vicmpeq a b w g) := by
  intro n_ h_
  have := a.code_lt
  have := b.code_lt
  have := w.code_lt
  have := g.code_lt
  have h : 0x64000680 + a.code * 65536 + b.code * 2048 + w.code * 32 + g.code = n_ := Option.some.inj h_
  omega

theorem vicmplt (a : Src) (b : Src) (w : IWidth) (g : Guard) : Statement (.vicmplt a b w g) := by
  intro n_ h_
  have := a.code_lt
  have := b.code_lt
  have := w.code_lt
  have := g.code_lt
  have h : 0x64000700 + a.code * 65536 + b.code * 2048 + w.code * 32 + g.code = n_ := Option.some.inj h_
  omega

theorem vicmpltu (a : Src) (b : Src) (w : IWidth) (g : Guard) : Statement (.vicmpltu a b w g) := by
  intro n_ h_
  have := a.code_lt
  have := b.code_lt
  have := w.code_lt
  have := g.code_lt
  have h : 0x64000780 + a.code * 65536 + b.code * 2048 + w.code * 32 + g.code = n_ := Option.some.inj h_
  omega

theorem cvt (d : Dst) (a : Src) (fr : CvtTy) (dest : CvtTy) (g : Guard) : Statement (.cvt d a fr dest g) := by
  intro n_ h_
  have := d.code_lt
  have := a.code_lt
  have := fr.code_lt
  have := dest.code_lt
  have := g.code_lt
  have h : 0x68000000 + d.code * 2097152 + a.code * 65536 + fr.code * 256 + dest.code * 32 + g.code = n_ := Option.some.inj h_
  omega

theorem vshuf (d : Dst) (a : Src) (b : Src) (w : IWidth) (g : Guard) : Statement (.vshuf d a b w g) := by
  intro n_ h_
  have := d.code_lt
  have := a.code_lt
  have := b.code_lt
  have := w.code_lt
  have := g.code_lt
  have h : 0x6C000000 + d.code * 2097152 + a.code * 65536 + b.code * 2048 + w.code * 32 + g.code = n_ := Option.some.inj h_
  omega

theorem vsplat (d : Dst) (a : Src) (w : IWidth) (g : Guard) : Statement (.vsplat d a w g) := by
  intro n_ h_
  have := d.code_lt
  have := a.code_lt
  have := w.code_lt
  have := g.code_lt
  have h : 0x6C000080 + d.code * 2097152 + a.code * 65536 + w.code * 32 + g.code = n_ := Option.some.inj h_
  omega

theorem vsel (d : Dst) (a : Src) (b : Src) (w : IWidth) (g : Guard) : Statement (.vsel d a b w g) := by
  intro n_ h_
  have := d.code_lt
  have := a.code_lt
  have := b.code_lt
  have := w.code_lt
  have := g.code_lt
  have h : 0x6C000100 + d.code * 2097152 + a.code * 65536 + b.code * 2048 + w.code * 32 + g.code = n_ := Option.some.inj h_
  omega

theorem vext (d : Dst) (a : Src) (n : BitVec 5) (w : IWidth) (g : Guard) : Statement (.vext d a n w g) := by
  intro n_ h_
  have := d.code_lt
  have := a.code_lt
  have := n.isLt
  have := w.code_lt
  have := g.code_lt
  have h : 0x6C000180 + d.code * 2097152 + a.code * 65536 + n.toNat * 2048 + w.code * 32 + g.code = n_ := Option.some.inj h_
  omega

theorem vins (d : RegZ) (a : Src) (n : BitVec 5) (w : IWidth) (g : Guard) : Statement (.vins d a n w g) := by
  intro n_ h_
  have := d.code_lt
  have := a.code_lt
  have := n.isLt
  have := w.code_lt
  have := g.code_lt
  have h : 0x6C000200 + d.code * 2097152 + a.code * 65536 + n.toNat * 2048 + w.code * 32 + g.code = n_ := Option.some.inj h_
  omega

theorem vrot (d : Dst) (a : Src) (n : BitVec 5) (w : IWidth) (g : Guard) : Statement (.vrot d a n w g) := by
  intro n_ h_
  have := d.code_lt
  have := a.code_lt
  have := n.isLt
  have := w.code_lt
  have := g.code_lt
  have h : 0x6C000280 + d.code * 2097152 + a.code * 65536 + n.toNat * 2048 + w.code * 32 + g.code = n_ := Option.some.inj h_
  omega

theorem vzipl (d : Dst) (a : Src) (b : Src) (w : IWidth) (g : Guard) : Statement (.vzipl d a b w g) := by
  intro n_ h_
  have := d.code_lt
  have := a.code_lt
  have := b.code_lt
  have := w.code_lt
  have := g.code_lt
  have h : 0x6C000300 + d.code * 2097152 + a.code * 65536 + b.code * 2048 + w.code * 32 + g.code = n_ := Option.some.inj h_
  omega

theorem vziph (d : Dst) (a : Src) (b : Src) (w : IWidth) (g : Guard) : Statement (.vziph d a b w g) := by
  intro n_ h_
  have := d.code_lt
  have := a.code_lt
  have := b.code_lt
  have := w.code_lt
  have := g.code_lt
  have h : 0x6C000380 + d.code * 2097152 + a.code * 65536 + b.code * 2048 + w.code * 32 + g.code = n_ := Option.some.inj h_
  omega

theorem frcp (d : Dst) (a : Src) (f : FFmt) (g : Guard) : Statement (.frcp d a f g) := by
  intro n_ h_
  have := d.code_lt
  have := a.code_lt
  have := f.code_lt
  have := g.code_lt
  have h : 0x70000000 + d.code * 2097152 + a.code * 65536 + f.code * 32 + g.code = n_ := Option.some.inj h_
  omega

theorem frsq (d : Dst) (a : Src) (f : FFmt) (g : Guard) : Statement (.frsq d a f g) := by
  intro n_ h_
  have := d.code_lt
  have := a.code_lt
  have := f.code_lt
  have := g.code_lt
  have h : 0x70000080 + d.code * 2097152 + a.code * 65536 + f.code * 32 + g.code = n_ := Option.some.inj h_
  omega

theorem fsqrt (d : Dst) (a : Src) (f : FFmt) (g : Guard) : Statement (.fsqrt d a f g) := by
  intro n_ h_
  have := d.code_lt
  have := a.code_lt
  have := f.code_lt
  have := g.code_lt
  have h : 0x70000100 + d.code * 2097152 + a.code * 65536 + f.code * 32 + g.code = n_ := Option.some.inj h_
  omega

theorem fexp2 (d : Dst) (a : Src) (f : FFmt) (g : Guard) : Statement (.fexp2 d a f g) := by
  intro n_ h_
  have := d.code_lt
  have := a.code_lt
  have := f.code_lt
  have := g.code_lt
  have h : 0x70000180 + d.code * 2097152 + a.code * 65536 + f.code * 32 + g.code = n_ := Option.some.inj h_
  omega

theorem flog2 (d : Dst) (a : Src) (f : FFmt) (g : Guard) : Statement (.flog2 d a f g) := by
  intro n_ h_
  have := d.code_lt
  have := a.code_lt
  have := f.code_lt
  have := g.code_lt
  have h : 0x70000200 + d.code * 2097152 + a.code * 65536 + f.code * 32 + g.code = n_ := Option.some.inj h_
  omega

theorem fsin (d : Dst) (a : Src) (f : FFmt) (g : Guard) : Statement (.fsin d a f g) := by
  intro n_ h_
  have := d.code_lt
  have := a.code_lt
  have := f.code_lt
  have := g.code_lt
  have h : 0x70000280 + d.code * 2097152 + a.code * 65536 + f.code * 32 + g.code = n_ := Option.some.inj h_
  omega

theorem fcos (d : Dst) (a : Src) (f : FFmt) (g : Guard) : Statement (.fcos d a f g) := by
  intro n_ h_
  have := d.code_lt
  have := a.code_lt
  have := f.code_lt
  have := g.code_lt
  have h : 0x70000300 + d.code * 2097152 + a.code * 65536 + f.code * 32 + g.code = n_ := Option.some.inj h_
  omega

theorem ftanh (d : Dst) (a : Src) (f : FFmt) (g : Guard) : Statement (.ftanh d a f g) := by
  intro n_ h_
  have := d.code_lt
  have := a.code_lt
  have := f.code_lt
  have := g.code_lt
  have h : 0x70000380 + d.code * 2097152 + a.code * 65536 + f.code * 32 + g.code = n_ := Option.some.inj h_
  omega

theorem fsigm (d : Dst) (a : Src) (f : FFmt) (g : Guard) : Statement (.fsigm d a f g) := by
  intro n_ h_
  have := d.code_lt
  have := a.code_lt
  have := f.code_lt
  have := g.code_lt
  have h : 0x70000400 + d.code * 2097152 + a.code * 65536 + f.code * 32 + g.code = n_ := Option.some.inj h_
  omega

theorem fdiv (d : Dst) (a : Src) (b : Src) (f : FFmt) (g : Guard) : Statement (.fdiv d a b f g) := by
  intro n_ h_
  have := d.code_lt
  have := a.code_lt
  have := b.code_lt
  have := f.code_lt
  have := g.code_lt
  have h : 0x70000480 + d.code * 2097152 + a.code * 65536 + b.code * 2048 + f.code * 32 + g.code = n_ := Option.some.inj h_
  omega

theorem ld (d : Dst) (base : Base) (off : BitVec 8) (k : MKind) (g : Guard) : Statement (.ld d base off k g) := by
  intro n_ h_
  have := d.code_lt
  have := base.isLt
  have := off.isLt
  have := k.code_lt
  have := g.code_lt
  have h : 0x80000000 + d.code * 2097152 + base.val * 65536 + off.toNat * 256 + k.code * 32 + g.code = n_ := Option.some.inj h_
  omega

theorem st (a : Src) (base : Base) (off : BitVec 8) (k : MKind) (g : Guard) : Statement (.st a base off k g) := by
  intro n_ h_
  have := a.code_lt
  have := base.isLt
  have := off.isLt
  have := k.code_lt
  have := g.code_lt
  have h : 0x84000000 + a.code * 2097152 + base.val * 65536 + off.toNat * 256 + k.code * 32 + g.code = n_ := Option.some.inj h_
  omega

theorem ldx (d : Dst) (base : Base) (off : BitVec 8) (sc : Scope) (g : Guard) : Statement (.ldx d base off sc g) := by
  intro n_ h_
  have := d.code_lt
  have := base.isLt
  have := off.isLt
  have := sc.code_lt
  have := g.code_lt
  have h : 0x88000000 + d.code * 2097152 + base.val * 65536 + off.toNat * 256 + sc.code * 32 + g.code = n_ := Option.some.inj h_
  omega

theorem stx (a : Src) (base : Base) (off : BitVec 8) (sc : Scope) (g : Guard) : Statement (.stx a base off sc g) := by
  intro n_ h_
  have := a.code_lt
  have := base.isLt
  have := off.isLt
  have := sc.code_lt
  have := g.code_lt
  have h : 0x8C000000 + a.code * 2097152 + base.val * 65536 + off.toNat * 256 + sc.code * 32 + g.code = n_ := Option.some.inj h_
  omega

theorem aadd (base : Base) (b : RegZ) (o : AOrd) (sc : Scope) (z : ASize) (g : Guard) : Statement (.aadd base b o sc z g) := by
  intro n_ h_
  have := base.isLt
  have := b.code_lt
  have := o.code_lt
  have := sc.code_lt
  have := z.code_lt
  have := g.code_lt
  have h : 0x90000000 + base.val * 2097152 + b.code * 65536 + o.code * 1024 + sc.code * 128 + z.code * 32 + g.code = n_ := Option.some.inj h_
  omega

theorem aand (base : Base) (b : RegZ) (o : AOrd) (sc : Scope) (z : ASize) (g : Guard) : Statement (.aand base b o sc z g) := by
  intro n_ h_
  have := base.isLt
  have := b.code_lt
  have := o.code_lt
  have := sc.code_lt
  have := z.code_lt
  have := g.code_lt
  have h : 0x90001000 + base.val * 2097152 + b.code * 65536 + o.code * 1024 + sc.code * 128 + z.code * 32 + g.code = n_ := Option.some.inj h_
  omega

theorem aor (base : Base) (b : RegZ) (o : AOrd) (sc : Scope) (z : ASize) (g : Guard) : Statement (.aor base b o sc z g) := by
  intro n_ h_
  have := base.isLt
  have := b.code_lt
  have := o.code_lt
  have := sc.code_lt
  have := z.code_lt
  have := g.code_lt
  have h : 0x90002000 + base.val * 2097152 + b.code * 65536 + o.code * 1024 + sc.code * 128 + z.code * 32 + g.code = n_ := Option.some.inj h_
  omega

theorem axor (base : Base) (b : RegZ) (o : AOrd) (sc : Scope) (z : ASize) (g : Guard) : Statement (.axor base b o sc z g) := by
  intro n_ h_
  have := base.isLt
  have := b.code_lt
  have := o.code_lt
  have := sc.code_lt
  have := z.code_lt
  have := g.code_lt
  have h : 0x90003000 + base.val * 2097152 + b.code * 65536 + o.code * 1024 + sc.code * 128 + z.code * 32 + g.code = n_ := Option.some.inj h_
  omega

theorem amin (base : Base) (b : RegZ) (o : AOrd) (sc : Scope) (z : ASize) (g : Guard) : Statement (.amin base b o sc z g) := by
  intro n_ h_
  have := base.isLt
  have := b.code_lt
  have := o.code_lt
  have := sc.code_lt
  have := z.code_lt
  have := g.code_lt
  have h : 0x90004000 + base.val * 2097152 + b.code * 65536 + o.code * 1024 + sc.code * 128 + z.code * 32 + g.code = n_ := Option.some.inj h_
  omega

theorem amax (base : Base) (b : RegZ) (o : AOrd) (sc : Scope) (z : ASize) (g : Guard) : Statement (.amax base b o sc z g) := by
  intro n_ h_
  have := base.isLt
  have := b.code_lt
  have := o.code_lt
  have := sc.code_lt
  have := z.code_lt
  have := g.code_lt
  have h : 0x90005000 + base.val * 2097152 + b.code * 65536 + o.code * 1024 + sc.code * 128 + z.code * 32 + g.code = n_ := Option.some.inj h_
  omega

theorem aminu (base : Base) (b : RegZ) (o : AOrd) (sc : Scope) (z : ASize) (g : Guard) : Statement (.aminu base b o sc z g) := by
  intro n_ h_
  have := base.isLt
  have := b.code_lt
  have := o.code_lt
  have := sc.code_lt
  have := z.code_lt
  have := g.code_lt
  have h : 0x90006000 + base.val * 2097152 + b.code * 65536 + o.code * 1024 + sc.code * 128 + z.code * 32 + g.code = n_ := Option.some.inj h_
  omega

theorem amaxu (base : Base) (b : RegZ) (o : AOrd) (sc : Scope) (z : ASize) (g : Guard) : Statement (.amaxu base b o sc z g) := by
  intro n_ h_
  have := base.isLt
  have := b.code_lt
  have := o.code_lt
  have := sc.code_lt
  have := z.code_lt
  have := g.code_lt
  have h : 0x90007000 + base.val * 2097152 + b.code * 65536 + o.code * 1024 + sc.code * 128 + z.code * 32 + g.code = n_ := Option.some.inj h_
  omega

theorem aswp (base : Base) (b : RegZ) (o : AOrd) (sc : Scope) (z : ASize) (g : Guard) : Statement (.aswp base b o sc z g) := by
  intro n_ h_
  have := base.isLt
  have := b.code_lt
  have := o.code_lt
  have := sc.code_lt
  have := z.code_lt
  have := g.code_lt
  have h : 0x90008000 + base.val * 2097152 + b.code * 65536 + o.code * 1024 + sc.code * 128 + z.code * 32 + g.code = n_ := Option.some.inj h_
  omega

theorem acas (base : Base) (b : RegZ) (o : AOrd) (sc : Scope) (z : ASize) (g : Guard) : Statement (.acas base b o sc z g) := by
  intro n_ h_
  have := base.isLt
  have := b.code_lt
  have := o.code_lt
  have := sc.code_lt
  have := z.code_lt
  have := g.code_lt
  have h : 0x90009000 + base.val * 2097152 + b.code * 65536 + o.code * 1024 + sc.code * 128 + z.code * 32 + g.code = n_ := Option.some.inj h_
  omega

theorem afadd (base : Base) (b : RegZ) (o : AOrd) (sc : Scope) (z : ASize) (g : Guard) : Statement (.afadd base b o sc z g) := by
  intro n_ h_
  have := base.isLt
  have := b.code_lt
  have := o.code_lt
  have := sc.code_lt
  have := z.code_lt
  have := g.code_lt
  have h : 0x9000A000 + base.val * 2097152 + b.code * 65536 + o.code * 1024 + sc.code * 128 + z.code * 32 + g.code = n_ := Option.some.inj h_
  omega

theorem ldo (base : Base) (b : RegZ) (o : AOrd) (sc : Scope) (z : ASize) (g : Guard) : Statement (.ldo base b o sc z g) := by
  intro n_ h_
  have := base.isLt
  have := b.code_lt
  have := o.code_lt
  have := sc.code_lt
  have := z.code_lt
  have := g.code_lt
  have h : 0x9000B000 + base.val * 2097152 + b.code * 65536 + o.code * 1024 + sc.code * 128 + z.code * 32 + g.code = n_ := Option.some.inj h_
  omega

theorem sto (base : Base) (b : RegZ) (o : AOrd) (sc : Scope) (z : ASize) (g : Guard) : Statement (.sto base b o sc z g) := by
  intro n_ h_
  have := base.isLt
  have := b.code_lt
  have := o.code_lt
  have := sc.code_lt
  have := z.code_lt
  have := g.code_lt
  have h : 0x9000C000 + base.val * 2097152 + b.code * 65536 + o.code * 1024 + sc.code * 128 + z.code * 32 + g.code = n_ := Option.some.inj h_
  omega

theorem fenceAcq (sc : Scope) (g : Guard) : Statement (.fenceAcq sc g) := by
  intro n_ h_
  have := sc.code_lt
  have := g.code_lt
  have h : 0x94000000 + sc.code * 256 + g.code = n_ := Option.some.inj h_
  omega

theorem fenceRel (sc : Scope) (g : Guard) : Statement (.fenceRel sc g) := by
  intro n_ h_
  have := sc.code_lt
  have := g.code_lt
  have h : 0x94000020 + sc.code * 256 + g.code = n_ := Option.some.inj h_
  omega

theorem fenceAr (sc : Scope) (g : Guard) : Statement (.fenceAr sc g) := by
  intro n_ h_
  have := sc.code_lt
  have := g.code_lt
  have h : 0x94000040 + sc.code * 256 + g.code = n_ := Option.some.inj h_
  omega

theorem fenceSc (sc : Scope) (g : Guard) : Statement (.fenceSc sc g) := by
  intro n_ h_
  have := sc.code_lt
  have := g.code_lt
  have h : 0x94000060 + sc.code * 256 + g.code = n_ := Option.some.inj h_
  omega

theorem tdef (a : Src) (t : BitVec 6) (g : Guard) : Statement (.tdef a t g) := by
  intro n_ h_
  have := a.code_lt
  have := t.isLt
  have := g.code_lt
  have h : 0x98000000 + a.code * 2097152 + t.toNat * 128 + g.code = n_ := Option.some.inj h_
  omega

theorem trd (a : Src) (t : BitVec 6) (g : Guard) : Statement (.trd a t g) := by
  intro n_ h_
  have := a.code_lt
  have := t.isLt
  have := g.code_lt
  have h : 0x98002000 + a.code * 2097152 + t.toNat * 128 + g.code = n_ := Option.some.inj h_
  omega

theorem trdMc (a : Src) (b : Src) (t : BitVec 6) (g : Guard) : Statement (.trdMc a b t g) := by
  intro n_ h_
  have := a.code_lt
  have := b.code_lt
  have := t.isLt
  have := g.code_lt
  have h : 0x98004000 + a.code * 2097152 + b.code * 65536 + t.toNat * 128 + g.code = n_ := Option.some.inj h_
  omega

theorem twr (a : Src) (t : BitVec 6) (g : Guard) : Statement (.twr a t g) := by
  intro n_ h_
  have := a.code_lt
  have := t.isLt
  have := g.code_lt
  have h : 0x98006000 + a.code * 2097152 + t.toNat * 128 + g.code = n_ := Option.some.inj h_
  omega

theorem trel (t : BitVec 6) (g : Guard) : Statement (.trel t g) := by
  intro n_ h_
  have := t.isLt
  have := g.code_lt
  have h : 0x98008000 + t.toNat * 128 + g.code = n_ := Option.some.inj h_
  omega

theorem tstat (d : Dst) (t : BitVec 6) (g : Guard) : Statement (.tstat d t g) := by
  intro n_ h_
  have := d.code_lt
  have := t.isLt
  have := g.code_lt
  have h : 0x9800A000 + d.code * 2097152 + t.toNat * 128 + g.code = n_ := Option.some.inj h_
  omega

theorem sbindIn (a : Src) (r : BitVec 3) (g : Guard) : Statement (.sbindIn a r g) := by
  intro n_ h_
  have := a.code_lt
  have := r.isLt
  have := g.code_lt
  have h : 0x9C000000 + a.code * 2097152 + r.toNat * 1024 + g.code = n_ := Option.some.inj h_
  omega

theorem sbindOut (a : Src) (r : BitVec 3) (g : Guard) : Statement (.sbindOut a r g) := by
  intro n_ h_
  have := a.code_lt
  have := r.isLt
  have := g.code_lt
  have h : 0x9C000200 + a.code * 2097152 + r.toNat * 1024 + g.code = n_ := Option.some.inj h_
  omega

theorem qwait (d : Dst) (r : BitVec 3) (lim : BitVec 5) (g : Guard) : Statement (.qwait d r lim g) := by
  intro n_ h_
  have := d.code_lt
  have := r.isLt
  have := lim.isLt
  have := g.code_lt
  have h : 0x9C002000 + d.code * 2097152 + r.toNat * 1024 + lim.toNat * 32 + g.code = n_ := Option.some.inj h_
  omega

theorem seos (g : Guard) : Statement (.seos g) := by
  intro n_ h_
  have := g.code_lt
  have h : 0x9C004000 + g.code = n_ := Option.some.inj h_
  omega

theorem sclose (r : BitVec 3) (g : Guard) : Statement (.sclose r g) := by
  intro n_ h_
  have := r.isLt
  have := g.code_lt
  have h : 0x9C006000 + r.toNat * 1024 + g.code = n_ := Option.some.inj h_
  omega

theorem dlv (a : Src) (b : Src) (n : Base) (g : Guard) : Statement (.dlv a b n g) := by
  intro n_ h_
  have := a.code_lt
  have := b.code_lt
  have := n.isLt
  have := g.code_lt
  have h : 0xA0000000 + a.code * 2097152 + b.code * 65536 + n.val * 2048 + g.code = n_ := Option.some.inj h_
  omega

theorem mdlv (a : Src) (b : Src) (n : Base) (g : Guard) : Statement (.mdlv a b n g) := by
  intro n_ h_
  have := a.code_lt
  have := b.code_lt
  have := n.isLt
  have := g.code_lt
  have h : 0xA0000100 + a.code * 2097152 + b.code * 65536 + n.val * 2048 + g.code = n_ := Option.some.inj h_
  omega

theorem waitp (a : Base) (lim : BitVec 5) (g : Guard) : Statement (.waitp a lim g) := by
  intro n_ h_
  have := a.isLt
  have := lim.isLt
  have := g.code_lt
  have h : 0xA0000200 + a.val * 2097152 + lim.toNat * 2048 + g.code = n_ := Option.some.inj h_
  omega

theorem clrp (a : Base) (g : Guard) : Statement (.clrp a g) := by
  intro n_ h_
  have := a.isLt
  have := g.code_lt
  have h : 0xA0000300 + a.val * 2097152 + g.code = n_ := Option.some.inj h_
  omega

theorem mbx (a : Src) (m : BitVec 2) (g : Guard) : Statement (.mbx a m g) := by
  intro n_ h_
  have := a.code_lt
  have := m.isLt
  have := g.code_lt
  have h : 0xA4000000 + a.code * 2097152 + m.toNat * 2048 + g.code = n_ := Option.some.inj h_
  omega

theorem mbr (d : Dst) (m : BitVec 2) (g : Guard) : Statement (.mbr d m g) := by
  intro n_ h_
  have := d.code_lt
  have := m.isLt
  have := g.code_lt
  have h : 0xA4002000 + d.code * 2097152 + m.toNat * 2048 + g.code = n_ := Option.some.inj h_
  omega

theorem mwait (a : Src) (c : BitVec 4) (l : BitVec 4) (g : Guard) : Statement (.mwait a c l g) := by
  intro n_ h_
  have := a.code_lt
  have := c.isLt
  have := l.isLt
  have := g.code_lt
  have h : 0xA4004000 + a.code * 2097152 + c.toNat * 512 + l.toNat * 32 + g.code = n_ := Option.some.inj h_
  omega

theorem cnti (d : Dst) (a : Src) (g : Guard) : Statement (.cnti d a g) := by
  intro n_ h_
  have := d.code_lt
  have := a.code_lt
  have := g.code_lt
  have h : 0xA8000000 + d.code * 2097152 + a.code * 65536 + g.code = n_ := Option.some.inj h_
  omega

theorem cntd (d : Dst) (a : Src) (g : Guard) : Statement (.cntd d a g) := by
  intro n_ h_
  have := d.code_lt
  have := a.code_lt
  have := g.code_lt
  have h : 0xA8000020 + d.code * 2097152 + a.code * 65536 + g.code = n_ := Option.some.inj h_
  omega

theorem cbar (d : Dst) (a : Src) (g : Guard) : Statement (.cbar d a g) := by
  intro n_ h_
  have := d.code_lt
  have := a.code_lt
  have := g.code_lt
  have h : 0xA8000040 + d.code * 2097152 + a.code * 65536 + g.code = n_ := Option.some.inj h_
  omega

theorem cwait (a : Src) (b : Src) (g : Guard) : Statement (.cwait a b g) := by
  intro n_ h_
  have := a.code_lt
  have := b.code_lt
  have := g.code_lt
  have h : 0xA8000060 + a.code * 65536 + b.code * 2048 + g.code = n_ := Option.some.inj h_
  omega

theorem cqry (d : Dst) (a : Src) (g : Guard) : Statement (.cqry d a g) := by
  intro n_ h_
  have := d.code_lt
  have := a.code_lt
  have := g.code_lt
  have h : 0xA8000080 + d.code * 2097152 + a.code * 65536 + g.code = n_ := Option.some.inj h_
  omega

theorem spawnBound (d : Dst) (a : Src) (b : Src) (g : Guard) : Statement (.spawnBound d a b g) := by
  intro n_ h_
  have := d.code_lt
  have := a.code_lt
  have := b.code_lt
  have := g.code_lt
  have h : 0xAC000000 + d.code * 2097152 + a.code * 65536 + b.code * 2048 + g.code = n_ := Option.some.inj h_
  omega

theorem spawnFollow (d : Dst) (a : Src) (b : Src) (g : Guard) : Statement (.spawnFollow d a b g) := by
  intro n_ h_
  have := d.code_lt
  have := a.code_lt
  have := b.code_lt
  have := g.code_lt
  have h : 0xAC000020 + d.code * 2097152 + a.code * 65536 + b.code * 2048 + g.code = n_ := Option.some.inj h_
  omega

theorem spawnPos (d : Dst) (a : Src) (b : Src) (g : Guard) : Statement (.spawnPos d a b g) := by
  intro n_ h_
  have := d.code_lt
  have := a.code_lt
  have := b.code_lt
  have := g.code_lt
  have h : 0xAC000040 + d.code * 2097152 + a.code * 65536 + b.code * 2048 + g.code = n_ := Option.some.inj h_
  omega

theorem spawnShuttle (d : Dst) (a : Src) (b : Src) (g : Guard) : Statement (.spawnShuttle d a b g) := by
  intro n_ h_
  have := d.code_lt
  have := a.code_lt
  have := b.code_lt
  have := g.code_lt
  have h : 0xAC000080 + d.code * 2097152 + a.code * 65536 + b.code * 2048 + g.code = n_ := Option.some.inj h_
  omega

theorem reap (d : Dst) (a : Src) (g : Guard) : Statement (.reap d a g) := by
  intro n_ h_
  have := d.code_lt
  have := a.code_lt
  have := g.code_lt
  have h : 0xAC000100 + d.code * 2097152 + a.code * 65536 + g.code = n_ := Option.some.inj h_
  omega

theorem stop (a : Src) (g : Guard) : Statement (.stop a g) := by
  intro n_ h_
  have := a.code_lt
  have := g.code_lt
  have h : 0xAC000200 + a.code * 65536 + g.code = n_ := Option.some.inj h_
  omega

theorem migr (a : Src) (g : Guard) : Statement (.migr a g) := by
  intro n_ h_
  have := a.code_lt
  have := g.code_lt
  have h : 0xAC000300 + a.code * 65536 + g.code = n_ := Option.some.inj h_
  omega

theorem widf (d : Dst) (a : Src) (k : BitVec 3) (g : Guard) : Statement (.widf d a k g) := by
  intro n_ h_
  have := d.code_lt
  have := a.code_lt
  have := k.isLt
  have := g.code_lt
  have h : 0xAC000400 + d.code * 2097152 + a.code * 65536 + k.toNat * 32 + g.code = n_ := Option.some.inj h_
  omega

theorem slotid (d : Dst) (g : Guard) : Statement (.slotid d g) := by
  intro n_ h_
  have := d.code_lt
  have := g.code_lt
  have h : 0xAC000500 + d.code * 2097152 + g.code = n_ := Option.some.inj h_
  omega

theorem posr (d : Dst) (g : Guard) : Statement (.posr d g) := by
  intro n_ h_
  have := d.code_lt
  have := g.code_lt
  have h : 0xB0000000 + d.code * 2097152 + g.code = n_ := Option.some.inj h_
  omega

theorem nbrFirst (d : Dst) (a : Src) (g : Guard) : Statement (.nbrFirst d a g) := by
  intro n_ h_
  have := d.code_lt
  have := a.code_lt
  have := g.code_lt
  have h : 0xB0000100 + d.code * 2097152 + a.code * 65536 + g.code = n_ := Option.some.inj h_
  omega

theorem nbrNext (d : Dst) (g : Guard) : Statement (.nbrNext d g) := by
  intro n_ h_
  have := d.code_lt
  have := g.code_lt
  have h : 0xB0000120 + d.code * 2097152 + g.code = n_ := Option.some.inj h_
  omega

theorem settle (g : Guard) : Statement (.settle g) := by
  intro n_ h_
  have := g.code_lt
  have h : 0xB0000200 + g.code = n_ := Option.some.inj h_
  omega

theorem fmap (d : Dst) (a : Src) (g : Guard) : Statement (.fmap d a g) := by
  intro n_ h_
  have := d.code_lt
  have := a.code_lt
  have := g.code_lt
  have h : 0xB0000300 + d.code * 2097152 + a.code * 65536 + g.code = n_ := Option.some.inj h_
  omega

theorem forkSeq (a : RegZ) (b : RegZ) (h : BitVec 5) (g : Guard) : Statement (.forkSeq a b h g) := by
  intro n_ h_
  have := a.code_lt
  have := b.code_lt
  have := h.isLt
  have := g.code_lt
  have h : 0xB4000000 + a.code * 2097152 + b.code * 65536 + h.toNat * 32 + g.code = n_ := Option.some.inj h_
  omega

theorem forkLoad (a : RegZ) (b : RegZ) (h : BitVec 5) (g : Guard) : Statement (.forkLoad a b h g) := by
  intro n_ h_
  have := a.code_lt
  have := b.code_lt
  have := h.isLt
  have := g.code_lt
  have h : 0xB4000400 + a.code * 2097152 + b.code * 65536 + h.toNat * 32 + g.code = n_ := Option.some.inj h_
  omega

theorem forkStore (a : RegZ) (b : RegZ) (h : BitVec 5) (g : Guard) : Statement (.forkStore a b h g) := by
  intro n_ h_
  have := a.code_lt
  have := b.code_lt
  have := h.isLt
  have := g.code_lt
  have h : 0xB4000800 + a.code * 2097152 + b.code * 65536 + h.toNat * 32 + g.code = n_ := Option.some.inj h_
  omega

theorem forkCopy (a : RegZ) (b : RegZ) (h : BitVec 5) (g : Guard) : Statement (.forkCopy a b h g) := by
  intro n_ h_
  have := a.code_lt
  have := b.code_lt
  have := h.isLt
  have := g.code_lt
  have h : 0xB4000C00 + a.code * 2097152 + b.code * 65536 + h.toNat * 32 + g.code = n_ := Option.some.inj h_
  omega

theorem rdv (h : BitVec 5) (g : Guard) : Statement (.rdv h g) := by
  intro n_ h_
  have := h.isLt
  have := g.code_lt
  have h : 0xB4002000 + h.toNat * 32 + g.code = n_ := Option.some.inj h_
  omega

theorem job (a : RegZ) (g : Guard) : Statement (.job a g) := by
  intro n_ h_
  have := a.code_lt
  have := g.code_lt
  have h : 0xB4004000 + a.code * 2097152 + g.code = n_ := Option.some.inj h_
  omega

theorem xid (a : RegZ) (b : RegZ) (g : Guard) : Statement (.xid a b g) := by
  intro n_ h_
  have := a.code_lt
  have := b.code_lt
  have := g.code_lt
  have h : 0xB4006000 + a.code * 2097152 + b.code * 65536 + g.code = n_ := Option.some.inj h_
  omega

theorem xwait (a : RegZ) (b : RegZ) (g : Guard) : Statement (.xwait a b g) := by
  intro n_ h_
  have := a.code_lt
  have := b.code_lt
  have := g.code_lt
  have h : 0xB4008000 + a.code * 2097152 + b.code * 65536 + g.code = n_ := Option.some.inj h_
  omega

theorem mxcfg (a : RegZ) (g : Guard) : Statement (.mxcfg a g) := by
  intro n_ h_
  have := a.code_lt
  have := g.code_lt
  have h : 0xB8000000 + a.code * 65536 + g.code = n_ := Option.some.inj h_
  omega

theorem mxz (g : Guard) : Statement (.mxz g) := by
  intro n_ h_
  have := g.code_lt
  have h : 0xB8000100 + g.code = n_ := Option.some.inj h_
  omega

theorem mxrun (a : RegZ) (b : RegZ) (g : Guard) : Statement (.mxrun a b g) := by
  intro n_ h_
  have := a.code_lt
  have := b.code_lt
  have := g.code_lt
  have h : 0xB8000200 + a.code * 65536 + b.code * 2048 + g.code = n_ := Option.some.inj h_
  omega

theorem mxprom (a : RegZ) (g : Guard) : Statement (.mxprom a g) := by
  intro n_ h_
  have := a.code_lt
  have := g.code_lt
  have h : 0xB8000300 + a.code * 65536 + g.code = n_ := Option.some.inj h_
  omega

theorem mxst (a : RegZ) (b : RegZ) (g : Guard) : Statement (.mxst a b g) := by
  intro n_ h_
  have := a.code_lt
  have := b.code_lt
  have := g.code_lt
  have h : 0xB8000400 + a.code * 65536 + b.code * 2048 + g.code = n_ := Option.some.inj h_
  omega

theorem mxperm (d : RegZ) (a : RegZ) (b : RegZ) (g : Guard) : Statement (.mxperm d a b g) := by
  intro n_ h_
  have := d.code_lt
  have := a.code_lt
  have := b.code_lt
  have := g.code_lt
  have h : 0xB8000500 + d.code * 2097152 + a.code * 65536 + b.code * 2048 + g.code = n_ := Option.some.inj h_
  omega

theorem semw (sem : BitVec 3) (g : Guard) : Statement (.semw sem g) := by
  intro n_ h_
  have := sem.isLt
  have := g.code_lt
  have h : 0xBC000000 + sem.toNat * 32 + g.code = n_ := Option.some.inj h_
  omega

theorem sems (sem : BitVec 3) (g : Guard) : Statement (.sems sem g) := by
  intro n_ h_
  have := sem.isLt
  have := g.code_lt
  have h : 0xBC000100 + sem.toNat * 32 + g.code = n_ := Option.some.inj h_
  omega

theorem asn (a : RegZ) (b : RegZ) (h : BitVec 5) (g : Guard) : Statement (.asn a b h g) := by
  intro n_ h_
  have := a.code_lt
  have := b.code_lt
  have := h.isLt
  have := g.code_lt
  have h : 0xC0000000 + a.code * 2097152 + b.code * 65536 + h.toNat * 32 + g.code = n_ := Option.some.inj h_
  omega

theorem imm (v : BitVec 22) : Statement (.imm v) := by
  intro n_ h_
  have := v.isLt
  have h : 0xFC000000 + v.toNat = n_ := Option.some.inj h_
  omega

theorem fmt (sat : Bool) (mask : Bool) (rnd : BitVec 3) (ty : BitVec 4) : Statement (.fmt sat mask rnd ty) := by
  intro n_ h_
  have := sat.toNat_lt
  have := mask.toNat_lt
  have := rnd.isLt
  have := ty.isLt
  have h : 0xFD000000 + sat.toNat * 256 + mask.toNat * 128 + rnd.toNat * 16 + ty.toNat = n_ := Option.some.inj h_
  omega

theorem hintBranchTarget (o : BitVec 16) : Statement (.hintBranchTarget o) := by
  intro n_ h_
  have := o.isLt
  have h : 0xFE000001 + o.toNat * 256 = n_ := Option.some.inj h_
  omega

theorem hintNoBorrow (o : BitVec 16) : Statement (.hintNoBorrow o) := by
  intro n_ h_
  have := o.isLt
  have h : 0xFE000002 + o.toNat * 256 = n_ := Option.some.inj h_
  omega

theorem hint (o : BitVec 16) (code : BitVec 8) : Statement (.hint o code) := by
  intro n_ h_
  have := o.isLt
  have := code.isLt
  have h : 0xFE000000 + o.toNat * 256 + code.toNat = n_ := Option.some.inj h_
  omega

theorem illegalInstruction (w : W32) : Statement (.illegalInstruction w) := by
  intro n h; cases h

theorem launch (tag : Nat) (q : Nat) : Statement (.launch tag q) := by
  intro n h; cases h

theorem waitfc (tag : Nat) (q : Nat) : Statement (.waitfc tag q) := by
  intro n h; cases h

theorem sigfc (tag : Nat) (q : Nat) : Statement (.sigfc tag q) := by
  intro n h; cases h

theorem skipif (tag : Nat) (q : Nat) : Statement (.skipif tag q) := by
  intro n h; cases h

theorem jump (tag : Nat) (q : Nat) : Statement (.jump tag q) := by
  intro n h; cases h

theorem call (tag : Nat) (q : Nat) : Statement (.call tag q) := by
  intro n h; cases h

theorem ret (tag : Nat) (q : Nat) : Statement (.ret tag q) := by
  intro n h; cases h

theorem patch (tag : Nat) (q : Nat) : Statement (.patch tag q) := by
  intro n h; cases h

theorem listJob (tag : Nat) (q : Nat) : Statement (.listJob tag q) := by
  intro n h; cases h

theorem deferredTrap (x : Nat) : Statement (.deferredTrap x) := by
  intro n h; cases h

theorem trapRecordWrite (x : Nat) : Statement (.trapRecordWrite x) := by
  intro n h; cases h

theorem xtrResume (tag : Nat) (seq : Nat) : Statement (.xtrResume tag seq) := by
  intro n h; cases h

theorem xtrStop (tag : Nat) (seq : Nat) : Statement (.xtrStop tag seq) := by
  intro n h; cases h

theorem dbgcResume (u : UnitId) (slots : BitVec 16) : Statement (.dbgcResume u slots) := by
  intro n h; cases h

theorem svcq (u : UnitId) (tag : Nat) (d : Dst) : Statement (.svcq u tag d) := by
  intro n h; cases h

theorem svcdone (u : UnitId) (tag : Nat) (v : W64) : Statement (.svcdone u tag v) := by
  intro n h; cases h

theorem fefill (die : Nat) (bay : Nat) (v : W64) : Statement (.fefill die bay v) := by
  intro n h; cases h

theorem feempty (die : Nat) (bay : Nat) (v : W64) : Statement (.feempty die bay v) := by
  intro n h; cases h

theorem registerWrite (writer : Nat) (die : Nat) (off : Nat) (v : W64) (part : WPart) : Statement (.registerWrite writer die off v part) := by
  intro n h; cases h

theorem counterDescriptorWrite (writer : Nat) (die : Nat) (inst : Nat) (word : Nat) (v : W64) (part : WPart) : Statement (.counterDescriptorWrite writer die inst word v part) := by
  intro n h; cases h

theorem xfrReplay (tag : Nat) (fid : Nat) : Statement (.xfrReplay tag fid) := by
  intro n h; cases h

theorem xfrFail (tag : Nat) (fid : Nat) : Statement (.xfrFail tag fid) := by
  intro n h; cases h

theorem missQueueEntry (die : Nat) (i : Nat) : Statement (.missQueueEntry die i) := by
  intro n h; cases h

theorem walkTableRead (die : Nat) (i : Nat) : Statement (.walkTableRead die i) := by
  intro n h; cases h

theorem walkEnd (die : Nat) (i : Nat) : Statement (.walkEnd die i) := by
  intro n h; cases h

theorem faultRecordDeferredWrite (tag : Nat) : Statement (.faultRecordDeferredWrite tag) := by
  intro n h; cases h

theorem tlbiComplete (x : Nat) : Statement (.tlbiComplete x) := by
  intro n h; cases h

theorem writeBufferDrain (die : Nat) (dest : Target) : Statement (.writeBufferDrain die dest) := by
  intro n h; cases h

theorem linkWriteAck (die : Nat) (dev : Nat) : Statement (.linkWriteAck die dev) := by
  intro n h; cases h

theorem rdcExpiry (die : Nat) (i : Nat) : Statement (.rdcExpiry die i) := by
  intro n h; cases h

theorem homeAccess (x : Nat) : Statement (.homeAccess x) := by
  intro n h; cases h

theorem deviceRelease (r : Releaser) : Statement (.deviceRelease r) := by
  intro n h; cases h

theorem streamModeEnd (u : UnitId) (k : Nat) : Statement (.streamModeEnd u k) := by
  intro n h; cases h

theorem parkTableTimeout (die : Nat) (bay : Nat) (i : Nat) : Statement (.parkTableTimeout die bay i) := by
  intro n h; cases h

theorem retryReissue (x : Nat) : Statement (.retryReissue x) := by
  intro n h; cases h

theorem fillRead (id : Nat) (line : Nat) : Statement (.fillRead id line) := by
  intro n h; cases h

theorem fillReadStep (die : Nat) (bay : Nat) (i : Nat) : Statement (.fillReadStep die bay i) := by
  intro n h; cases h

theorem tileLanding (id : Nat) (i : Nat) : Statement (.tileLanding id i) := by
  intro n h; cases h

theorem multicastStartAccept (id : Nat) (i : Nat) : Statement (.multicastStartAccept id i) := by
  intro n h; cases h

theorem tileDrainStore (id : Nat) (line : Nat) : Statement (.tileDrainStore id line) := by
  intro n h; cases h

theorem tileDrainReady (id : Nat) : Statement (.tileDrainReady id) := by
  intro n h; cases h

theorem streamPush (x : Nat) : Statement (.streamPush x) := by
  intro n h; cases h

theorem streamPushTimeout (x : Nat) : Statement (.streamPushTimeout x) := by
  intro n h; cases h

theorem streamTimeout (x : Nat) : Statement (.streamTimeout x) := by
  intro n h; cases h

theorem heddleStep (die : Nat) (inst : Nat) (i : Nat) : Statement (.heddleStep die inst i) := by
  intro n h; cases h

theorem exitStep (die : Nat) (inst : Nat) (i : Nat) : Statement (.exitStep die inst i) := by
  intro n h; cases h

theorem barrierTimeout (x : Nat) : Statement (.barrierTimeout x) := by
  intro n h; cases h

theorem migrationDepart (x : Nat) : Statement (.migrationDepart x) := by
  intro n h; cases h

theorem migrationLanding (id : Nat) : Statement (.migrationLanding id) := by
  intro n h; cases h

theorem creelQuantumEnd (x : Nat) : Statement (.creelQuantumEnd x) := by
  intro n h; cases h

theorem messageDelivery (id : Nat) : Statement (.messageDelivery id) := by
  intro n h; cases h

theorem mdlvSlotDelivery (x : Nat) (slot : Nat) : Statement (.mdlvSlotDelivery x slot) := by
  intro n h; cases h

theorem presenceWaitTimeout (x : Nat) : Statement (.presenceWaitTimeout x) := by
  intro n h; cases h

theorem mailboxCountTimeout (x : Nat) : Statement (.mailboxCountTimeout x) := by
  intro n h; cases h

theorem sfuQueueHead (u : UnitId) : Statement (.sfuQueueHead u) := by
  intro n h; cases h

theorem operationReply (x : Nat) : Statement (.operationReply x) := by
  intro n h; cases h

theorem watchdogExpiry (x : Nat) : Statement (.watchdogExpiry x) := by
  intro n h; cases h

theorem jobStart (id : Nat) : Statement (.jobStart id) := by
  intro n h; cases h

theorem jobElement (id : Nat) (i : Nat) : Statement (.jobElement id i) := by
  intro n h; cases h

theorem jobCompletion (id : Nat) : Statement (.jobCompletion id) := by
  intro n h; cases h

theorem packetLanding (id : Nat) (i : Nat) : Statement (.packetLanding id i) := by
  intro n h; cases h

theorem programStrandStart (id : Nat) : Statement (.programStrandStart id) := by
  intro n h; cases h

theorem sequencerStep (die : Nat) (bay : Nat) (tag : Nat) : Statement (.sequencerStep die bay tag) := by
  intro n h; cases h

theorem mxuOpStart (die : Nat) (bay : Nat) (tag : Nat) : Statement (.mxuOpStart die bay tag) := by
  intro n h; cases h

theorem mxuOpComplete (die : Nat) (bay : Nat) (tag : Nat) : Statement (.mxuOpComplete die bay tag) := by
  intro n h; cases h

theorem operandMessage (id : Nat) : Statement (.operandMessage id) := by
  intro n h; cases h

theorem scaleRequest (id : Nat) : Statement (.scaleRequest id) := by
  intro n h; cases h

theorem operandTimeout (die : Nat) (bay : Nat) (tag : Nat) : Statement (.operandTimeout die bay tag) := by
  intro n h; cases h

theorem scaleTimeout (die : Nat) (bay : Nat) (tag : Nat) : Statement (.scaleTimeout die bay tag) := by
  intro n h; cases h

theorem asnStart (die : Nat) (cluster : Nat) : Statement (.asnStart die cluster) := by
  intro n h; cases h

theorem asnRound (die : Nat) (cluster : Nat) : Statement (.asnRound die cluster) := by
  intro n h; cases h

theorem transferWaitTimeout (x : Nat) : Statement (.transferWaitTimeout x) := by
  intro n h; cases h

theorem launchPacket (id : Nat) : Statement (.launchPacket id) := by
  intro n h; cases h

theorem sliceExpiry (island : Nat) : Statement (.sliceExpiry island) := by
  intro n h; cases h

theorem handOver (island : Nat) (tag : Nat) : Statement (.handOver island tag) := by
  intro n h; cases h

theorem rangeLoaded (die : Nat) (bay : Nat) (tag : Nat) : Statement (.rangeLoaded die bay tag) := by
  intro n h; cases h

theorem partitionReset (tag : Nat) : Statement (.partitionReset tag) := by
  intro n h; cases h

theorem pf0Reset : Statement .pf0Reset := by
  intro n h; cases h

theorem powerGood (dev : BitVec 14) (domain : List Nat) : Statement (.powerGood dev domain) := by
  intro n h; cases h

theorem islandStart (island : Nat) (pass : Bool) : Statement (.islandStart island pass) := by
  intro n h; cases h

theorem linkRetrain (dev : Nat) : Statement (.linkRetrain dev) := by
  intro n h; cases h

theorem linkFailure (dev : Nat) : Statement (.linkFailure dev) := by
  intro n h; cases h

theorem foreignRequest (r : ForeignReq) : Statement (.foreignRequest r) := by
  intro n h; cases h

theorem laneRecalibration (die : Nat) (host : Bool) (out : Bool) : Statement (.laneRecalibration die host out) := by
  intro n h; cases h

theorem baySparing (die : Nat) (bay : Nat) : Statement (.baySparing die bay) := by
  intro n h; cases h

theorem islandUpdate (island : Nat) (pass : Bool) : Statement (.islandUpdate island pass) := by
  intro n h; cases h

theorem uncorrectableError (die : Nat) (bay : Nat) (line : Nat) : Statement (.uncorrectableError die bay line) := by
  intro n h; cases h

theorem getVersion : Statement .getVersion := by
  intro n h; cases h

theorem getCapabilities : Statement .getCapabilities := by
  intro n h; cases h

theorem negotiateAlgorithms (p521 : Bool) (sha512 : Bool) : Statement (.negotiateAlgorithms p521 sha512) := by
  intro n h; cases h

theorem getDigests : Statement .getDigests := by
  intro n h; cases h

theorem getCertificate (off : Nat) (len : Nat) : Statement (.getCertificate off len) := by
  intro n h; cases h

theorem challenge (nonce : BitVec 256) : Statement (.challenge nonce) := by
  intro n h; cases h

theorem getMeasurements (nonce : BitVec 256) : Statement (.getMeasurements nonce) := by
  intro n h; cases h

theorem meterIncrement (tag : Nat) (meter : Nat) (amount : Nat) : Statement (.meterIncrement tag meter amount) := by
  intro n h; cases h

theorem meterSnapshot (tag : Nat) (nonce : BitVec 256) : Statement (.meterSnapshot tag nonce) := by
  intro n h; cases h

theorem budgetExhausted (island : Nat) : Statement (.budgetExhausted island) := by
  intro n h; cases h

theorem thermalThrottleEvent (die : Nat) (bay : Nat) (begins : Bool) : Statement (.thermalThrottleEvent die bay begins) := by
  intro n h; cases h

theorem correctedError (die : Nat) : Statement (.correctedError die) := by
  intro n h; cases h

theorem flitRetry (die : Nat) : Statement (.flitRetry die) := by
  intro n h; cases h

end Laws.WordRange

end Sys2Proof
end

