-- ==== Sys2Proof/Safety.lean ====
section
/-!
DEFINITION. What counts as a safe run: a number of steps that neither fault nor are refused.
-/
namespace Sys2Proof

/-- `n` steps from a state, stopping at the first fault or refusal. -/
def runFor : Nat → Machine.State → Machine.Out
  | 0, s => .next s
  | n + 1, s =>
    match Machine.step s with
    | .next t => runFor n t
    | .fault f => .fault f
    | .refused r => .refused r

/-- A run of `n` steps reaches a state. -/
def Safe (n : Nat) (s : Machine.State) : Prop := ∃ t, runFor n s = .next t

end Sys2Proof
end

