-- ==== Sys2Proof/Tests/Slice0.lean ====
section
/-!
SUPPORT. Tests: words of the spec's encodings, well-formedness, and concrete states and operands that meet the hypotheses of the
statements, with what one step makes of them.
-/
namespace Sys2Proof.Tests
open Sys2Proof.Machine
set_option Elab.async false

/-- The guard p0, which is always true. -/
def always : Guard := ⟨false, 0⟩

/-- The guard p1, which is false in these states. -/
def never : Guard := ⟨false, 1⟩

/-- Compute core and spindle of bay 0, and another bay's. -/
def core0 : UnitId := ⟨0, 0, false⟩
def spin0 : UnitId := ⟨0, 0, true⟩
def core1 : UnitId := ⟨0, 1, false⟩

/-- A ready strand of partition 3 in a slot: w1 = 7, w2 = −3 (64 bits), w3 = 0x40. -/
def strandIn (u : UnitId) (n : Nat) : Strand :=
  { Strand.init with
    tag := 3, place := .slot u n, status := .ready, nslot := n, gen := 7, pc := 0x1000
    regs := ((Strand.init.regs.set 1 7).set 2 0xFFFFFFFFFFFFFFFD#128).set 3 0x40 }

/-- Segment entry 0: the scratchpads of row 0 of die 0, writable (Table 1-6). -/
def segment0 : W128 := .ofNat 128 (2 ^ 127 + 2 ^ 126 + 1 * 2 ^ 124 + 1 * 2 ^ 79 + 64 * 2 ^ 72 + 0x40000 * 2 ^ 35)

/-- A machine that runs partition 3 on island 0, its strand 1 in a slot of a unit and issuing. -/
def small (u : UnitId) (n : Nat) (f : Strand → Strand) : State :=
  { State.reset with
    nextId := 9, cur := 1, clock := 160
    strands := [(1, f (strandIn u n))]
    islands := [(0, { Island.init with cfg := 0x83, started := true, resident := [3], running := some 3 })]
    tens := [(3, { TenBay.init with loaded := true }), (35, { TenBay.init with loaded := true })]
    units := [(0, { CoreUnit.init with segs := [⟨3, 0, segment0⟩] }), (1, { CoreUnit.init with segs := [⟨3, 0, segment0⟩] })]
    dev := { Device.init with stage := 3 } }

/-- Strand 1 in slot 2 of the core. -/
def plain : State := small core0 2 id

/-- An IMM is pending for strand 1, with payload 5. -/
def withImm : State := small core0 2 (fun t => { t with sts := 0x8000000500000000#64 })

/-- An FMT is pending for strand 1: TYPE 0, RND 2, MASK. -/
def withFmt : State := small core0 2 (fun t => { t with sts := 0xC00000A000000000#64 })

/-- Strand 1 in slot 0 and on the spindle. -/
def head : State := small core0 0 id
def onSpindle : State := small spin0 2 id

/-- Strand 1 has ring 1 bound to qi. The ring has 4 entries at offset 0x100, HEAD 65,535 and TAIL as given. -/
def withRing (st : RingState) (tail : Nat) (f : State → State) : State :=
  f ({ small core0 2 (fun t => { t with iring := 1, irv := true }) with
       mem := [(spadKey 0 0 0x130, 0x34), (spadKey 0 0 0x131, 0x12)] }.setRing core0 3 1
    { Ring.init with st := st, pmask := 1, log2n := 2, limexp := 10, head := 65535, tail := tail, base := 0x10 })

theorem guard_always (s : State) : Claims.GuardOn s always := ⟨fun _ => rfl, fun _ => Or.inl rfl⟩

theorem guard_never {s : State} (h : s.me.preds = 1) : ¬ Claims.GuardOn s never := by
  unfold Claims.GuardOn Claims.pred; rw [h]; decide

theorem issues_always {s : State} (h : Claims.NoPrefix s) : Claims.Issues s always := ⟨h, guard_always s⟩

theorem reads_two (s : State) (i j : Fin 24) : Claims.Reads2 s (.w i) (.w j) s.me.regs[i] s.me.regs[j] s := ⟨s, .reg s i, .reg s j⟩

/-- Whether an outcome is a next state. -/
def gives (o : Out) (t : State) : Bool :=
  match o with
  | .next t' => decide (t' = t)
  | _ => false

theorem next_of {o : Out} {t : State} (h : gives o t = true) : o = .next t := by
  unfold gives at h; split at h
  · rw [of_decide_eq_true h]
  · exact nomatch h

/-- The state after an instruction. -/
def after (i : Instr) (s : State) : State :=
  match exec i s with
  | .next t => t
  | _ => s

/-- The state after a step. -/
def stepped (s : State) : State :=
  match step s with
  | .next t => t
  | _ => s

/- Witnesses: prefix, role and guard; write-back; rings; traps. -/

theorem witness_FalseGuard : Claims.guardOf (.add (.w 4) (.w 1) (.w 2) never) = some never ∧
    Claims.PrefixTaken (.add (.w 4) (.w 1) (.w 2) never) plain ∧ Claims.RoleHolds (.add (.w 4) (.w 1) (.w 2) never) plain ∧
    ¬ Claims.GuardOn plain never ∧
    exec (.add (.w 4) (.w 1) (.w 2) never) plain = .next (small core0 2 (fun t => { t with pc := 0x1004 })) :=
  ⟨rfl, Or.inl rfl, Or.inr (fun _ h => nomatch h), guard_never (by decide +kernel), next_of (by decide +kernel)⟩

theorem witness_FalseGuard_prefix : Claims.PrefixTaken (.addi (.w 4) (.w 1) 1 never) withImm ∧
    exec (.addi (.w 4) (.w 1) 1 never) withImm = .next (small core0 2 (fun t => { t with pc := 0x1004 })) :=
  ⟨Or.inr (Or.inl ⟨rfl, 5, by decide, by decide, by decide⟩), next_of (by decide +kernel)⟩

theorem witness_FalseGuard_format : Claims.PrefixTaken (.vadd (.w 4) (.w 1) (.w 1) .f32 never) withFmt :=
  Or.inr (Or.inr ⟨_, ⟨0, 2, true, false⟩, rfl, by unfold Claims.FmtPending; decide, by decide, by decide, by decide, by decide⟩)

theorem witness_PrefixRefused : ¬ Claims.PrefixTaken (.add (.w 4) (.w 1) (.w 2) never) withImm := by
  rintro (h | ⟨h, _⟩ | ⟨_, _, h, _⟩)
  · exact absurd h (by unfold Claims.NoPrefix; decide)
  · exact absurd h (by decide)
  · exact nomatch h

theorem test_prefix_refused : exec (.add (.w 4) (.w 1) (.w 2) never) withImm =
    .next (plain.raise 0x02 (wordOf (.add (.w 4) (.w 1) (.w 2) never))) := next_of (by decide +kernel)

theorem witness_SlotRoleRefused : Claims.PrefixTaken (.mxz never) plain ∧ ¬ Claims.RoleHolds (.mxz never) plain := by
  refine ⟨Or.inl rfl, ?_⟩
  rintro (h | h)
  · exact absurd h (by unfold Claims.OnSpindle; decide)
  · obtain ⟨n, hn, h⟩ := h _ rfl
    rw [List.mem_singleton.mp hn] at h
    exact absurd h (by decide)

theorem test_slot_role : exec (.mxz never) plain = .next (plain.raise 0x03 (wordOf (.mxz never))) := next_of (by decide +kernel)

theorem test_illegal_word : exec (.illegalInstruction 0) withImm = .next (plain.raise 0x01 0) := next_of (by decide +kernel)

theorem witness_WriteBack : (Reply.mk (.w 4) 9 none 0 none).d ≠ .qo ∧ ((.w 4 : Dst) = .w 23 → plain.me.kind ≠ .pos) := by decide

theorem test_write_back : plain.retire (Reply.mk .wz 9 (some 0x80) 1 (some 0x2000)) =
    small core0 2 (fun t => { t with preds := 0x81, sts := 1, pc := 0x2000 }) := by decide +kernel

/-- A field of two boxes, bays 0 and 1, from (0, 0) to (4, 2) in the plane. -/
def fieldDesc : List W64 := [.ofNat 64 (2 * 2 ^ 56 + 1 * 2 ^ 50 + 1 * 2 ^ 44 + 2 * 2 ^ 26), 0, 0, 0x0002000000020000, 0, 0, 0, 0]
def boxOf (bay : Nat) (x : Int) : FieldBay := ⟨bay, true, ⟨x, 0, 0⟩, ⟨x + 0x20000, 0x20000, 0⟩, false, false, false, false, 0, 0, 0, 0⟩
def field0 : Machine.Field := ⟨true, 3, 0, fieldDesc, [boxOf 0 0, boxOf 1 0x20000], [], [], 0⟩

/-- Strand 1 is bound to a position of that field. -/
def inField (f : Strand → Strand) : State := { small core0 2 (fun t => f { t with kind := .pos }) with fields := [(5, field0)] }

theorem witness_CoordinateWrite_outside : (inField id).fieldAt 3 0 0 = some (5, field0) ∧
    ∀ c ∈ field0.bays, ¬ Claims.inside field0 c (Claims.coords 0x40000) := by unfold Claims.inside; decide +kernel

theorem witness_CoordinateWrite_inside : boxOf 1 0x20000 ∈ field0.bays ∧ Claims.inside field0 (boxOf 1 0x20000) (Claims.coords 0x3FFFF) ∧
    ∀ c ∈ field0.bays, Claims.inside field0 c (Claims.coords 0x3FFFF) → c = boxOf 1 0x20000 := by unfold Claims.inside; decide +kernel

theorem test_coordinate_write : (inField id).retire (Reply.mk (.w 23) 0x40000 none 0 none) = (inField id).raise 0x38 0x40000 ∧
    (inField id).retire (Reply.mk (.w 23) 0x3FFFF none 0 none) =
      inField (fun t => { t with regs := t.regs.set 23 0x3FFFF, pc := 0x1004, leaving := some ⟨core1, 0⟩ }) ∧
    (inField id).retire (Reply.mk (.w 23) 0x1FFFF none 0 none) = inField (fun t => { t with regs := t.regs.set 23 0x1FFFF, pc := 0x1004 }) ∧
    (inField (fun t => { t with irv := true, iring := 2 })).retire (Reply.mk (.w 23) 0x20000 none 0 none) =
      (inField (fun t => { t with irv := true, iring := 2 })).raise 0x23 2 ∧
    (inField (fun t => { t with orv := true })).retire (Reply.mk (.w 23) 0x20000 none 0 none) =
      (inField (fun t => { t with orv := true })).raise 0x23 256 := by decide +kernel

theorem witness_RingPop : (withRing .opened 0 id).me.irv = true ∧ ((withRing .opened 0 id).ring core0 3 1).st = .opened ∧
    ((withRing .opened 0 id).ring core0 3 1).head ≠ ((withRing .opened 0 id).ring core0 3 1).tail ∧
    (withRing .opened 0 id).badAt 3 (.spad 0 0 (Claims.entryAt ((withRing .opened 0 id).ring core0 3 1) 65535)) 16 = false := by decide +kernel

theorem witness_RingPop_end : ((withRing .ended 65535 id).ring core0 3 1).st = .ended ∧
    (Claims.ended ((withRing .ended 65535 id).ring core0 3 1)).st = .ended := by decide +kernel

theorem test_ring_pop : (after (.add (.w 4) .qi .wz always) (withRing .opened 0 id)).me.regs[4] = 0x1234 ∧
    (after (.add (.w 4) .qi .wz always) (withRing .opened 0 id)).ring core0 3 1 =
      { Ring.init with st := .opened, pmask := 1, log2n := 2, limexp := 10, head := 0, tail := 0, base := 0x10 } ∧
    exec (.add (.w 4) .qi .wz always) (withRing .ended 65535 id) = .next
      ((withRing .ended 65535 id).modStrand 1 (fun t => { t with sts := 0x1000000000000000, pc := 0x1004 })) :=
  ⟨by decide +kernel, by decide +kernel, next_of (by decide +kernel)⟩

/-- The entry at HEAD is poisoned. -/
def poisoned (s : State) : State := { s with poison := [spadKey 0 0 0x130 / 8] }

theorem witness_RingOperandStops : plain.me.irv = false ∧ plain.me.orv = false ∧
    ((withRing .opened 65535 id).ring core0 3 1).head = ((withRing .opened 65535 id).ring core0 3 1).tail ∧
    ((withRing .opened 65535 id).ring core0 3 1).pmask &&& ~~~((withRing .opened 65535 id).ring core0 3 1).eos ≠ 0 ∧
    (withRing .opened 0 poisoned).badAt 3 (.spad 0 0 (Claims.entryAt ((withRing .opened 0 poisoned).ring core0 3 1) 65535)) 16 = true := by decide +kernel

theorem test_ring_stops : gives (exec (.add .qo (.w 1) .qi always) plain) (plain.raise 0x23 256) ∧
    gives (exec (.add (.w 4) (.w 1) .qi always) plain) (plain.raise 0x23 0) ∧
    gives (exec (.add (.w 4) .qi .qi always) (withRing .opened 65535 id)) ((withRing .opened 65535 id).waitOn 1 (.pop 1 2)) ∧
    gives (exec (.add (.w 4) .qi .wz always) (withRing .opened 0 poisoned)) (((withRing .opened 0 poisoned).eat 0 3 (.spad 0 0 0x130) 16).raise 0x40 0x130) := by decide +kernel

/-- A strand with a handler at 0x8000; one in handler mode. -/
def handled (f : Strand → Strand) : State := small core0 2 (fun t => f { t with tvec := 0x8000, sts := 0x8000000500000001 })

theorem witness_HandlerEntry : ((handled id).strand 1).sts.getLsbD 61 = false ∧ ((handled id).strand 1).tvec ≠ 0 ∧ 0x40 ≠ 0x26 ∧
    (handled id).takeTrap 1 0x40 0x77 0x1000 = ((handled (fun t => { t with
      regs := (t.regs.set 20 0x80000005000000010000000000001000).set 21 0x00000000000000770000000000000040
      sts := 0x2000000000000001, pc := 0x8000 })).modDie 0 (fun d => { d with raslog := 0x100000000 })) := by decide +kernel

theorem witness_TrapToRuntime : (plain.strand 1).tvec = 0 ∧ ((handled (fun t => { t with sts := 0x2000000000000000 })).strand 1).sts.getLsbD 61 = true ∧
    ((plain.takeTrap 1 0x09 0x1002 0x1000).strand 1).status = .halted := by decide +kernel

theorem witness_TrapAtItsTurn : plain.lent = false ∧ ({ plain with lent := true } : State).lent = true ∧
    ((small core0 2 (fun t => { t with pend := some (0x20, 5) })).strand 1).pend = some (0x20, 5) ∧
    ((small core0 2 (fun t => { t with pend := some (0x20, 5) })).strand 1).status = .ready ∧
    ({ plain with lent := true } : State).raise 0x09 3 = { small core0 2 (fun t => { t with pend := some (0x09, 3) }) with lent := true } := by decide +kernel

theorem test_deferred_trap : gives (exec (.deferredTrap 1) (handled (fun t => { t with pend := some (0x20, 5) }))) ((handled id).takeTrap 1 0x20 5 0x1000) ∧ gives (exec (.deferredTrap 1) plain) plain := by decide +kernel

/-- In handler mode with a saved STS and pc. -/
def inHandler (pc : W128) : State := small core0 2 (fun t => { t with
  sts := 0x2000000000000000, regs := t.regs.set 20 (0xF1FFFFFFFFFFFFFF0000000000000000#128 + pc) })

theorem witness_ReturnFromHandler : (inHandler 0x2004).me.sts.getLsbD 61 = true ∧ (lo64 (inHandler 0x2004).me.regs[20]).toNat % 4 = 0 ∧
    (lo64 (inHandler 0x2006).me.regs[20]).toNat % 4 ≠ 0 ∧ plain.me.sts.getLsbD 61 = false ∧ Claims.NoPrefix (inHandler 0x2004) := by
  unfold Claims.NoPrefix; decide +kernel

theorem test_rft : (after (.rft always) (inHandler 0x2004)).me.sts = 0xD03FFFFF00003F80 ∧ (after (.rft always) (inHandler 0x2004)).me.pc = 0x2004 ∧
    gives (exec (.rft always) (inHandler 0x2006)) ((inHandler 0x2006).raise 0x09 0x2006) ∧
    gives (exec (.rft always) plain) (plain.raise 0x04 (wordOf (.rft always))) := by decide +kernel

/-- DBGC.HEN of slot 2 is set. -/
def halts : State := plain.modUnit core0 (fun c => { c with hen := 4 })

theorem witness_TrapAndHalt : Claims.NoPrefix plain ∧ plain.slotOf plain.cur = some 2 ∧ (halts.unit (halts.unitOf 1)).hen.getLsbD 2 = true ∧
    (plain.unit (plain.unitOf 1)).hen.getLsbD 2 = false := by unfold Claims.NoPrefix; decide +kernel

theorem test_trap_halt : gives (exec (.trap 0x7FFF always) plain) (plain.takeTrap 1 0x32 0x7FFF 0x1004) ∧
    gives (exec (.halt always) plain) (plain.raise 0x31 0) ∧ (after (.halt always) halts).me.status = .halted ∧
    (after (.halt always) halts).me.pc = 0x1004 := by decide +kernel

/- Witnesses: scalar instructions, branches, system instructions. -/

/-- Results in w4 of some instructions, low 64 bits. -/
def resultsIn4 (s : State) (l : List (Instr × W64)) : Bool := l.all (fun p => lo64 (after p.1 s).me.regs[4] == p.2)

theorem witness_ScalarTwoSourceResult : Claims.Issues plain always ∧ Claims.Bound plain (.w 4) ∧
    Claims.Reads2 plain (.w 1) (.w 2) 7 0xFFFFFFFFFFFFFFFD#128 plain := ⟨issues_always rfl, nofun, reads_two plain 1 2⟩

theorem test_two_sources : resultsIn4 plain
    [(.add (.w 4) (.w 1) (.w 2) always, 4), (.sub (.w 4) (.w 2) (.w 1) always, 0xFFFFFFFFFFFFFFF6), (.and (.w 4) (.w 1) (.w 2) always, 5),
     (.or (.w 4) (.w 1) (.w 2) always, 0xFFFFFFFFFFFFFFFF), (.xor (.w 4) (.w 1) (.w 2) always, 0xFFFFFFFFFFFFFFFA), (.andn (.w 4) (.w 1) (.w 2) always, 2),
     (.shl (.w 4) (.w 1) (.w 2) always, 0xE000000000000000), (.shr (.w 4) (.w 2) (.w 2) always, 7), (.sar (.w 4) (.w 2) (.w 1) always, 0xFFFFFFFFFFFFFFFF),
     (.shl (.w 4) (.w 1) (.w 3) always, 7), (.mul (.w 4) (.w 1) (.w 2) always, 0xFFFFFFFFFFFFFFEB), (.mulh (.w 4) (.w 1) (.w 2) always, 0xFFFFFFFFFFFFFFFF),
     (.mulhu (.w 4) (.w 1) (.w 2) always, 6), (.min (.w 4) (.w 1) (.w 2) always, 0xFFFFFFFFFFFFFFFD), (.max (.w 4) (.w 1) (.w 2) always, 7),
     (.minu (.w 4) (.w 1) (.w 2) always, 7), (.maxu (.w 4) (.w 1) (.w 2) always, 0xFFFFFFFFFFFFFFFD)] = true := by decide +kernel

theorem witness_ScalarOneSourceResult : Claims.Issues plain always ∧ Claims.Bound plain (.w 4) ∧ Claims.Reads plain .wz 0 plain :=
  ⟨issues_always rfl, nofun, .zero plain⟩

theorem test_one_source : resultsIn4 plain
    [(.clz (.w 4) (.w 1) always, 61), (.clz (.w 4) .wz always, 64), (.ctz (.w 4) (.w 3) always, 6), (.ctz (.w 4) .wz always, 64),
     (.popc (.w 4) (.w 2) always, 63), (.shli (.w 4) (.w 1) 63 always, 0x8000000000000000), (.shri (.w 4) (.w 2) 60 always, 15),
     (.sari (.w 4) (.w 2) 1 always, 0xFFFFFFFFFFFFFFFE)] = true := by decide +kernel

theorem witness_ScalarImmediateResult : Claims.simm plain (0x400 : BitVec 11) (-1024) ∧ Claims.zimm plain (0x400 : BitVec 11) 1024 ∧
    Claims.simm withImm (0x400 : BitVec 11) (5 * 2048 + 1024) ∧ Claims.zimm withImm (0x400 : BitVec 11) (5 * 2048 + 1024) ∧
    Claims.simm plain (0x8000 : BitVec 16) (-32768) :=
  ⟨Or.inl ⟨rfl, by decide⟩, Or.inl ⟨rfl, by decide⟩, Or.inr ⟨5, ⟨by decide, by decide, by decide⟩, by decide⟩,
   Or.inr ⟨5, ⟨by decide, by decide, by decide⟩, by decide⟩, Or.inl ⟨rfl, by decide⟩⟩

theorem test_immediates : resultsIn4 plain
    [(.addi (.w 4) (.w 1) 0x400 always, 0xFFFFFFFFFFFFFC07), (.andi (.w 4) (.w 2) 0x400 always, 0x400), (.ori (.w 4) (.w 1) 0x400 always, 0x407),
     (.xori (.w 4) (.w 1) 0x405 always, 0x402), (.movi (.w 4) 0x8000 always, 0xFFFFFFFFFFFF8000)] = true ∧ resultsIn4 withImm
    [(.addi (.w 4) (.w 1) 0x400 always, 0x2C07), (.andi (.w 4) (.w 2) 0x400 always, 0x2C00), (.movi (.w 4) 0x8000 always, 0x58000)] = true := by decide +kernel

theorem witness_CompareResult : Claims.NoPrefix plain ∧ Claims.Reads2 plain (.w 1) (.w 2) 7 0xFFFFFFFFFFFFFFFD#128 plain ∧
    Claims.simm plain (0x40 : BitVec 7) (-64) ∧ Claims.zimm plain (0x40 : BitVec 7) 64 :=
  ⟨rfl, reads_two plain 1 2, Or.inl ⟨rfl, by decide⟩, Or.inl ⟨rfl, by decide⟩⟩

/-- Predicate words after some instructions, with p5 and p17 set before. -/
def predsAfter (l : List (Instr × W32)) : Bool :=
  l.all (fun p => (after p.1 (small core0 2 (fun t => { t with preds := 0x20021 }))).me.preds == p.2)

theorem test_compare : predsAfter
    [(.cmp 6 (.w 1) (.w 2) .set .lt always, 0x20021), (.cmp 6 (.w 1) (.w 2) .set .ltu always, 0x20061), (.cmp 5 (.w 1) (.w 1) .and .ne always, 0x20001),
     (.cmp 5 (.w 1) (.w 2) .or .eq always, 0x20021), (.cmp 0 (.w 1) (.w 2) .set .eq always, 0x20021), (.cmpi 6 (.w 3) .ge 0x40 always, 0x20061),
     (.cmpi 6 (.w 3) .geu 0x41 always, 0x20021)] = true := by decide +kernel

theorem test_predicate_logic : predsAfter
    [(.pand 6 5 17 always, 0x20061), (.por 6 4 3 always, 0x20021), (.pxor 6 5 0 always, 0x20021), (.pandn 6 5 4 always, 0x20061), (.pnot 6 4 always, 0x20061),
     (.pany 6 1 always, 0x20021), (.pany 6 2 always, 0x20061), (.pall 6 2 always, 0x20021), (.pwr (.w 2) always, 0xFFFFFFFD)] = true ∧
    (after (.prd (.w 4) always) (small core0 2 (fun t => { t with preds := 0x20021 }))).me.regs[4] = 0x20021 := by decide +kernel

theorem witness_BranchResult : Claims.Issues plain always ∧ Claims.Reads plain (.w 3) 0x40 plain ∧ (lo64 0x40).toNat % 4 = 0 ∧
    Claims.Reads plain (.w 1) 7 plain ∧ (lo64 7).toNat % 4 ≠ 0 := ⟨issues_always rfl, .reg plain 3, by decide, .reg plain 1, by decide⟩

theorem test_branches : (after (.b 0x1FFFFF always) plain).me.pc = 0xFFC ∧ (after (.bl 2 always) plain).me.pc = 0x1008 ∧
    (after (.bl 2 always) plain).me.regs[22] = 0x1004 ∧ (after (.br (.w 3) always) plain).me.pc = 0x40 ∧
    (after (.blr (.w 3) (.w 3) always) plain).me.pc = 0x40 ∧ (after (.blr (.w 3) (.w 3) always) plain).me.regs[3] = 0x1004 ∧
    exec (.br (.w 1) always) plain = .next (plain.raise 0x09 7) := ⟨by decide +kernel, by decide +kernel, by decide +kernel, by decide +kernel,
      by decide +kernel, by decide +kernel, next_of (by decide +kernel)⟩

/-- The divider's queue holds a request of strand 1. -/
def dividing (op : SfuOp) (a b : W128) : State :=
  (small core0 2 (fun t => { t with status := .waiting, wait := .sfu })).modUnit core0 (fun c => { c with sfuq := [SfuReq.mk 1 op .f64 a b (.w 4) 0] })

theorem witness_DivisionResult : Claims.Issues plain always ∧ ((dividing .div 7 0).unit core0).sfuq = SfuReq.mk 1 .div .f64 7 0 (.w 4) 0 :: [] ∧
    ((dividing .div 7 0).strand 1).wait = .sfu ∧ lo64 (0 : W128) = 0 ∧ lo64 (7 : W128) ≠ 0 := ⟨issues_always rfl, by decide +kernel⟩

theorem test_division : ((after (.sfuQueueHead core0) (dividing .div 0xFFFFFFFFFFFFFFF8 3)).strand 1).wait = .reply (Reply.mk (.w 4) 0xFFFFFFFFFFFFFFFE none 0 none) ∧
    ((after (.sfuQueueHead core0) (dividing .rem 0xFFFFFFFFFFFFFFF8 3)).strand 1).wait = .reply (Reply.mk (.w 4) 0xFFFFFFFFFFFFFFFE none 0 none) ∧
    ((after (.sfuQueueHead core0) (dividing .divu 0xFFFFFFFFFFFFFFF8 3)).strand 1).wait = .reply (Reply.mk (.w 4) 0x5555555555555552 none 0 none) ∧
    ((after (.sfuQueueHead core0) (dividing .remu 0xFFFFFFFFFFFFFFF8 3)).strand 1).wait = .reply (Reply.mk (.w 4) 2 none 0 none) ∧
    ((after (.sfuQueueHead core0) (dividing .div 0x8000000000000000 0xFFFFFFFFFFFFFFFF)).strand 1).wait =
      .reply (Reply.mk (.w 4) 0x8000000000000000 none 0 none) ∧
    ((after (.sfuQueueHead core0) (dividing .div 7 0)).strand 1).pend = some (0x30, 0) := by decide +kernel

theorem test_division_issue : ((after (.div (.w 4) (.w 1) (.w 2) always) plain).unit core0).sfuq = [SfuReq.mk 1 .div .f64 7 0xFFFFFFFFFFFFFFFD (.w 4) 0] ∧
    (after (.div (.w 4) (.w 1) (.w 2) always) plain).me.wait = .sfu := by decide +kernel

theorem witness_PrefixAndHintWords : Claims.NoPrefix plain ∧ ¬ Claims.NoPrefix withImm := by unfold Claims.NoPrefix; decide +kernel

theorem test_prefix_words : gives (exec (.imm 5) plain) (small core0 2 (fun t => { t with sts := 0x8000000500000000, pc := 0x1004 })) ∧
    (after (.fmt true true 4 8) plain).me.sts = 0xC00001C800000000 ∧ gives (exec (.imm 5) withFmt) (plain.raise 0x02 (wordOf (.imm 5))) ∧
    (after (.hintNoBorrow 3) plain).me.noBorrow = 16 ∧ gives (exec (.hint 3 9) plain) (small core0 2 (fun t => { t with pc := 0x1004 })) := by decide +kernel

/-- A strand waits in the creel of the core. -/
def withCreel (f : Strand → Strand) : State :=
  { small core0 2 f with
    strands := [(1, f (strandIn core0 2)), (2, { strandIn core0 0 with place := .creel core0 })]
    tens := [(3, { TenBay.init with loaded := true, creel := [2] })] }

theorem witness_NopAndYield : Claims.Issues plain always ∧ plain.creelOf (plain.unitOf 1) 3 = [] ∧ (withCreel id).creelOf ((withCreel id).unitOf 1) 3 ≠ [] ∧
    (withCreel id).me.place = .slot ((withCreel id).unitOf 1) 2 ∧ (withCreel id).handlesAt ((withCreel id).unitOf 1) 3 2 = [] ∧ (withCreel id).me.wait ≠ .svc :=
  ⟨issues_always rfl, by decide +kernel⟩

theorem test_yield : gives (exec (.nop always) plain) (small core0 2 (fun t => { t with pc := 0x1004 })) ∧
    gives (exec (.yield always) plain) (small core0 2 (fun t => { t with pc := 0x1004 })) ∧ (after (.yield always) (withCreel id)).me.yielded = true ∧
    (after (.yield always) (withCreel (fun t => { t with irv := true }))).me.yielded = false := by decide +kernel

/-- The bay's SVC queue holds a call of strand 1. -/
def withSvc : State := (small core0 2 (fun t => { t with status := .waiting, wait := .svc })).modTen 0 0 3 (fun t => { t with svcq := [⟨2, 7, 0x7FFF⟩, ⟨3, 1, 0⟩] })

theorem witness_SvcAndItsQueue : Claims.Issues plain always ∧ Claims.InSlot plain 2 ∧ Claims.InSlot head 0 ∧ Claims.OnSpindle onSpindle ∧
    (plain.ten 0 0 3).svcq = [] ∧ (withSvc.ten 0 0 3).svcq = ⟨2, 7, 0x7FFF⟩ :: [⟨3, 1, 0⟩] ∧ withSvc.inSlot core0 3 2 = some 1 ∧
    (withSvc.strand 1).gen = 7 ∧ (withSvc.strand 1).wait = .svc ∧ (plain.strand 1).wait ≠ .svc := by
  refine ⟨issues_always rfl, ?_⟩; unfold Claims.InSlot Claims.OnSpindle; decide +kernel

theorem test_svc : (after (.svc 9 always) plain).me.wait = .svc ∧ ((after (.svc 9 always) plain).ten 0 0 3).svcq = [⟨2, 7, 9⟩] ∧
    gives (exec (.svc 9 always) head) (head.raise 0x04 (wordOf (.svc 9 always))) ∧
    (after (.svcq core0 3 (.w 4)) withSvc).me.regs[4] = 0x8002000700007FFF ∧ ((after (.svcq core0 3 (.w 4)) withSvc).ten 0 0 3).svcq = [⟨3, 1, 0⟩] ∧
    ((after (.svcdone core0 3 0x0002000700000000) withSvc).strand 1).wait = .reply (.mk .wz 0 none 0 none) ∧
    gives (exec (.svcdone core0 3 0x0002000800000000) withSvc) withSvc := by decide +kernel

theorem witness_CsrAccess : Claims.Issues plain always ∧ (0x002, .ofNat 64 plain.me.tag) ∈ Claims.csrs plain ∧ Claims.InSlot head 0 ∧ Claims.InSlot plain 2 ∧
    Claims.Reads plain (.w 2) 0xFFFFFFFFFFFFFFFD#128 plain ∧ ¬ Claims.OnSpindle plain :=
  ⟨issues_always rfl, by decide +kernel, by unfold Claims.InSlot; decide +kernel, by unfold Claims.InSlot; decide +kernel, .reg plain 2,
   by unfold Claims.OnSpindle; decide +kernel⟩

theorem test_csr : (after (.csrr (.w 4) 2 always) plain).me.regs[4] = 3 ∧ (after (.csrr (.w 4) 1 always) plain).me.regs[4] = 160 ∧
    (after (.csrr (.w 4) 1 always) onSpindle).me.regs[4] = 80 ∧ (after (.csrw 0 (.w 2) always) plain).me.sts = 0x1000000000003F80 ∧
    gives (exec (.csrr (.w 4) 4 always) plain) (plain.raise 0x01 (wordOf (.csrr (.w 4) 4 always))) ∧
    gives (exec (.csrw 1 (.w 1) always) plain) (plain.raise 0x01 (wordOf (.csrw 1 (.w 1) always))) ∧
    gives (exec (.csrr (.w 4) 0x42 always) plain) (plain.raise 0x04 (wordOf (.csrr (.w 4) 0x42 always))) ∧
    gives (exec (.csrw 0x46 (.w 1) always) plain) (plain.raise 0x04 (wordOf (.csrw 0x46 (.w 1) always))) := by decide +kernel

/-- In slot 0 with TLBI operands in w5 and w6, and cached translations. -/
def tlbiState (a b : W64) : State :=
  { small core0 0 (fun t => { t with regs := (t.regs.set 5 (zext128 a)).set 6 (zext128 b) }) with
    units := [(0, { CoreUnit.init with tlb := [⟨3, 3, 0x1234, 0⟩, ⟨3, 3, 0x1236, 0⟩, ⟨4, 3, 0x1234, 0⟩] })] }

theorem witness_TlbiResult : Claims.Reads2 (tlbiState 0x12345678 2) (.w 5) (.w 6) (zext128 0x12345678) (zext128 2) (tlbiState 0x12345678 2) ∧
    (lo64 (zext128 2)).toNat = 0 * 2 ^ 62 + 2 ∧ (lo64 (zext128 0x4000000000000000)).toNat = 1 * 2 ^ 62 + 0 ∧ Claims.InSlot (tlbiState 0 0) 0 ∧
    ((small core0 0 (fun t => { t with wait := .tlbi 0 0x12345678 2 })).strand 1).wait = .tlbi 0 0x12345678 2 ∧
    (small core0 0 (fun t => { t with wait := .tlbi 0 0x12345678 2 })).coveredPending (.mk 3 0 0x12340000 0x12360000) 0 = false :=
  ⟨reads_two _ 5 6, by decide, by decide, by unfold Claims.InSlot; decide +kernel, by decide +kernel⟩

theorem test_tlbi : ((after (.tlbi (.w 5) (.w 6) always) (tlbiState 0x12345678 2)).unit core0).tlb = [⟨3, 3, 0x1236, 0⟩, ⟨4, 3, 0x1234, 0⟩] ∧
    gives (exec (.tlbi (.w 5) (.w 6) always) (tlbiState 0 0xC000000000000000)) ((tlbiState 0 0xC000000000000000).raise 0x01 (wordOf (.tlbi (.w 5) (.w 6) always))) ∧
    gives (exec (.tlbi (.w 5) (.w 6) always) (tlbiState 0x100000000000000 1)) ((tlbiState 0x100000000000000 1).raise 0x08 0x100000000000000) ∧
    (after (.tlbi (.w 5) (.w 6) always) (tlbiState 5 0)).me.pc = 0x1004 ∧
    gives (exec (.tlbi (.w 1) (.w 2) always) plain) (plain.raise 0x04 (wordOf (.tlbi (.w 1) (.w 2) always))) := by decide +kernel

/- Witnesses: vector instructions. -/

/-- Four FP32 lanes, lane 0 first. -/
def lanes4 (a b c d : Nat) : W128 := .ofNat 128 (a + b * 2 ^ 32 + c * 2 ^ 64 + d * 2 ^ 96)

/-- w5 = 1, 2, NaN, −0.5 and w6 = 0.5, 3, 1, ∞ in FP32; w7 = 0, 1, 2, 0xFFFFFFFF; predicates 16, 17 and 19 set. -/
def vecRegs (t : Strand) : Strand :=
  { t with preds := 0x000B0001
           regs := (((t.regs.set 4 (lanes4 9 9 9 9)).set 5 (lanes4 0x3F800000 0x40000000 0x7FC00000 0xBF000000)).set 6
             (lanes4 0x3F000000 0x40400000 0x3F800000 0x7F800000)).set 7 (lanes4 0 1 2 0xFFFFFFFF) }
def vec : State := small core0 2 vecRegs

/-- The same with an FMT pending: its fields by value. -/
def vecFmt (sat mask rnd ty : Nat) : State :=
  small core0 2 (fun t => { vecRegs t with sts := .ofNat 64 (3 * 2 ^ 62 + (sat * 256 + mask * 128 + rnd * 16 + ty) * 2 ^ 32) })

theorem witness_VectorFloatResult : Claims.Formatted vec ⟨0, 0, false, false⟩ ∧ Claims.mode 0 = some .rne ∧
    Claims.Formatted (vecFmt 0 1 4 0) ⟨0, 4, true, false⟩ ∧ Claims.mode 4 = some .rdn ∧ Claims.Bound vec .qo = (vec.me.orv = true) ∧
    Claims.Reads2 vec (.w 5) (.w 6) (lanes4 0x3F800000 0x40000000 0x7FC00000 0xBF000000) (lanes4 0x3F000000 0x40400000 0x3F800000 0x7F800000) vec :=
  ⟨Or.inl ⟨rfl, rfl⟩, rfl, Or.inr (by unfold Claims.FmtPending; decide +kernel), rfl, by simp [Claims.Bound], reads_two vec 5 6⟩

/-- Whole results in w4, with STS flags (bits 13 to 7). -/
def vectorsIn4 (s : State) (l : List (Instr × W128 × W64)) : Bool :=
  l.all (fun p => (after p.1 s).me.regs[4] == p.2.1 && (after p.1 s).me.sts == p.2.2)

theorem test_vector_float : vectorsIn4 vec
    [(.vadd (.w 4) (.w 5) (.w 6) .f32 always, lanes4 0x3FC00000 0x40A00000 0x7FC00000 0x7F800000, 0),
     (.vsub (.w 4) (.w 5) (.w 6) .f32 always, lanes4 0x3F000000 0xBF800000 0x7FC00000 0xFF800000, 0),
     (.vmul (.w 4) (.w 5) (.w 6) .f32 always, lanes4 0x3F000000 0x40C00000 0x7FC00000 0xFF800000, 0),
     (.vmin (.w 4) (.w 5) (.w 6) .f32 always, lanes4 0x3F000000 0x40000000 0x3F800000 0xBF000000, 0),
     (.vmax (.w 4) (.w 5) (.w 6) .f32 always, lanes4 0x3F800000 0x40400000 0x3F800000 0x7F800000, 0),
     (.vabs (.w 4) (.w 5) .f32 always, lanes4 0x3F800000 0x40000000 0x7FC00000 0x3F000000, 0),
     (.vneg (.w 4) (.w 5) .f32 always, lanes4 0xBF800000 0xC0000000 0xFFC00000 0x3F000000, 0),
     (.vrsum (.w 4) (.w 6) .f32 always, lanes4 0x7F800000 0 0 0, 0)] = true := by decide +kernel

theorem test_vector_mask : (after (.vadd (.w 4) (.w 5) (.w 6) .f32 always) (vecFmt 0 1 0 0)).me.regs[4] = lanes4 0x3FC00000 0x40A00000 9 0x7F800000 ∧
    (after (.vfma (.w 5) (.w 6) (.w 6) .f32 always) vec).me.regs[5] = lanes4 0x3FA00000 0x41300000 0x7FC00000 0x7F800000 ∧
    (after (.vfms (.w 5) (.w 6) (.w 6) .f32 always) vec).me.regs[5] = lanes4 0x3F400000 0xC0E00000 0x7FC00000 0xFF800000 := by decide +kernel

theorem witness_VectorFloatOneSource : Claims.Formatted vec ⟨0, 0, false, false⟩ ∧ Claims.Reads vec (.w 5) vec.me.regs[5] vec ∧
    (32 : Nat) = FFmt.bits .f32 := ⟨Or.inl ⟨rfl, rfl⟩, .reg vec 5, rfl⟩

theorem witness_VectorCompareResult : Claims.Formatted (vecFmt 0 1 0 0) ⟨0, 0, true, false⟩ ∧
    Claims.Reads2 (vecFmt 0 1 0 0) (.w 5) (.w 6) (vecFmt 0 1 0 0).me.regs[5] (vecFmt 0 1 0 0).me.regs[6] (vecFmt 0 1 0 0) :=
  ⟨Or.inr (by unfold Claims.FmtPending; decide +kernel), reads_two _ 5 6⟩

theorem test_vector_compare : ([(.vcmpeq (.w 5) (.w 5) .f32 always, 0xB0001, 0), (.vcmplt (.w 5) (.w 6) .f32 always, 0xA0001, 0x800),
     (.vcmple (.w 6) (.w 5) .f32 always, 0x10001, 0x800), (.vcmpun (.w 5) (.w 6) .f32 always, 0x40001, 0), (.vicmpeq (.w 7) (.w 7) .i32 always, 0xF0001, 0),
     (.vicmplt (.w 7) (.w 5) .i32 always, 0xF0001 - 0x80000, 0), (.vicmpltu (.w 5) (.w 7) .i32 always, 0x80001, 0)] : List (Instr × W32 × W64)).all (fun p =>
       (after p.1 vec).me.preds == p.2.1 && (after p.1 vec).me.sts == p.2.2) = true := by decide +kernel

theorem witness_VectorIntegerResult : Claims.Formatted (vecFmt 1 0 0 0) ⟨0, 0, false, true⟩ ∧
    (Instr.viadd (.w 4) (.w 5) (.w 6) .i8 always, fun (sat : Bool) w x y => Claims.clamped sat w (laneInt w x + laneInt w y)) ∈
      Claims.vint2 (.w 4) (.w 5) (.w 6) .i8 always := ⟨Or.inr (by unfold Claims.FmtPending; decide +kernel), List.mem_cons_self ..⟩

theorem test_vector_integer : vectorsIn4 vec
    [(.viadd (.w 4) (.w 5) (.w 7) .i32 always, lanes4 0x3F800000 0x40000001 0x7FC00002 0xBEFFFFFF, 0),
     (.visub (.w 4) (.w 7) (.w 5) .i32 always, lanes4 0xC0800000 0xC0000001 0x80400002 0x40FFFFFF, 0),
     (.vimul (.w 4) (.w 7) (.w 5) .i32 always, lanes4 0 0x40000000 0xFF800000 0x41000000, 0),
     (.vimin (.w 4) (.w 7) (.w 5) .i32 always, lanes4 0 1 2 0xBF000000, 0), (.vimax (.w 4) (.w 7) (.w 5) .i32 always, lanes4 0x3F800000 0x40000000 0x7FC00000 0xFFFFFFFF, 0),
     (.viminu (.w 4) (.w 7) (.w 5) .i32 always, lanes4 0 1 2 0xBF000000, 0), (.vimaxu (.w 4) (.w 7) (.w 5) .i32 always, lanes4 0x3F800000 0x40000000 0x7FC00000 0xFFFFFFFF, 0),
     (.vand (.w 4) (.w 7) (.w 5) .i32 always, lanes4 0 0 0 0xBF000000, 0), (.vor (.w 4) (.w 7) (.w 5) .i32 always, lanes4 0x3F800000 0x40000001 0x7FC00002 0xFFFFFFFF, 0),
     (.vxor (.w 4) (.w 7) (.w 5) .i32 always, lanes4 0x3F800000 0x40000001 0x7FC00002 0x40FFFFFF, 0),
     (.vshl (.w 4) (.w 7) (.w 7) .i32 always, lanes4 0 2 8 0x80000000, 0), (.vshr (.w 4) (.w 5) (.w 7) .i32 always, lanes4 0x3F800000 0x20000000 0x1FF00000 1, 0),
     (.vsar (.w 4) (.w 5) (.w 7) .i32 always, lanes4 0x3F800000 0x20000000 0x1FF00000 0xFFFFFFFF, 0)] = true ∧ vectorsIn4 (vecFmt 1 0 0 0)
    [(.viadd (.w 4) (.w 5) (.w 6) .i32 always, lanes4 0x7E800000 0x7FFFFFFF 0x7FFFFFFF 0x3E800000, 0x1000),
     (.visub (.w 4) (.w 5) (.w 6) .i32 always, lanes4 0x00800000 0xFFC00000 0x40400000 0x80000000, 0x1000)] = true := by decide +kernel

theorem witness_LaneMoveResult : Claims.Formatted vec ⟨0, 0, false, false⟩ ∧ (3 : BitVec 5).toNat < 128 / IWidth.bits .i32 ∧
    Claims.Reads2 vec (.w 5) (.w 7) vec.me.regs[5] vec.me.regs[7] vec ∧ Claims.Reads vec (.w 5) vec.me.regs[5] vec :=
  ⟨Or.inl ⟨rfl, rfl⟩, by decide, reads_two vec 5 7, .reg vec 5⟩

theorem test_lane_moves : vectorsIn4 vec
    [(.vshuf (.w 4) (.w 5) (.w 7) .i32 always, lanes4 0x3F800000 0x40000000 0x7FC00000 0, 0), (.vsplat (.w 4) (.w 6) .i32 always, lanes4 0x3F000000 0x3F000000 0x3F000000 0x3F000000, 0),
     (.vsel (.w 4) (.w 5) (.w 6) .i32 always, lanes4 0x3F800000 0x40000000 0x3F800000 0xBF000000, 0), (.vext (.w 4) (.w 5) 3 .i32 always, 0xBF000000, 0),
     (.vins (.w 4) (.w 5) 3 .i32 always, lanes4 9 9 9 0x3F800000, 0), (.vrot (.w 4) (.w 7) 3 .i32 always, lanes4 0xFFFFFFFF 0 1 2, 0),
     (.vzipl (.w 4) (.w 5) (.w 7) .i32 always, lanes4 0x3F800000 0 0x40000000 1, 0),
     (.vziph (.w 4) (.w 5) (.w 7) .i32 always, lanes4 0x7FC00000 2 0xBF000000 0xFFFFFFFF, 0)] = true := by decide +kernel

theorem witness_ConversionResult : Claims.Formatted (vecFmt 0 0 0 5) ⟨5, 0, false, false⟩ ∧ Claims.cvtInt 5 = some (8, false) ∧
    Claims.Converts ⟨5, 0, false, false⟩ .rne .rtz .f32 .int 32 8 (fun c =>
      (intLane 8 (toInteger .rtz 0 (2 ^ 8 - 1) (fp32.val c)).1, (toInteger .rtz 0 (2 ^ 8 - 1) (fp32.val c)).2)) ∧
    Claims.Converts ⟨0, 0, false, false⟩ .rne .rtz .f32 .e2m1 32 4 (fun c => e2m1.convert .rne false (fp32.val c)) ∧
    Claims.Converts ⟨0, 0, false, false⟩ .rne .rtz .int .f64 32 64 (fun c => fp64.roundInt .rne false (laneInt 32 c) 0 false) :=
  ⟨Or.inr (by unfold Claims.FmtPending; decide +kernel), rfl, .toInt .f32 fp32 8 false rfl rfl, .float .f32 .e2m1 fp32 e2m1 (by decide) rfl rfl,
   .ofInt .f64 fp64 32 true rfl rfl⟩

theorem test_convert : vectorsIn4 vec
    [(.cvt (.w 4) (.w 5) .f32 .f64 always, 0x40000000000000003FF0000000000000, 0), (.cvt (.w 4) (.w 5) .f32 .int always, lanes4 1 2 0 0, 0x880),
     (.cvt (.w 4) (.w 5) .f32 .e2m1 always, 0x9042, 0x800), (.cvt (.w 4) (.w 5) .f32 .f16 always, 0xB8007E0040003C00, 0),
     (.cvt (.w 4) (.w 7) .int .bf16 always, 0xBF8040003F800000, 0)] = true := by decide +kernel

theorem witness_RoundedOnce : fp32 ∈ [fp64, fp32, fp16, bf16, e5m2, e4m3, e2m1] ∧ 0 < 1 ∧ 0 < 3 := by decide

theorem test_rounding : fp32.round .rne false false 1 3 = (0x3EAAAAAB, { nx := true }) ∧ fp32.round .rtz false true 1 3 = (0xBEAAAAAA, { nx := true }) ∧
    fp16.round .rne false false 65520 1 = (0x7C00, { of := true, nx := true }) ∧ fp16.round .rtz false false 65520 1 = (0x7BFF, { nx := true }) ∧ fp16.round .rtz false false 65536 1 = (0x7BFF, { of := true, nx := true }) ∧
    e4m3.round .rne false false 1000 1 = (0x7F, { of := true, nx := true }) ∧ e4m3.round .rne true true 1000 1 = (0xFE, { of := true, nx := true }) ∧
    fp16.round .rne false false 1 (2 ^ 24) = (1, {}) ∧ fp16.round .rup false false 1 (2 ^ 30) = (1, { uf := true, nx := true }) := by decide +kernel

/-- A special-function request of strand 1 at the head of the queue. -/
def special (op : SfuOp) (a b : W128) : State :=
  (small core0 2 (fun t => { t with status := .waiting, wait := .sfu })).modUnit core0 (fun c => { c with sfuq := [SfuReq.mk 1 op .f32 a b (.w 4) 0] })

theorem witness_SpecialFunctionResult : Claims.Formatted (vecFmt 0 0 2 0) ⟨0, 2, false, false⟩ ∧ ¬ Claims.OnSpindle (vecFmt 0 0 2 0) ∧
    ((special .rcp 0 0).unit core0).sfuq = SfuReq.mk 1 .rcp .f32 0 0 (.w 4) 0 :: [] ∧ ((special .rcp 0 0).strand 1).wait = .sfu :=
  ⟨Or.inr (by unfold Claims.FmtPending; decide +kernel), by unfold Claims.OnSpindle; decide +kernel, by decide +kernel⟩

theorem test_special : (after (.fsqrt (.w 4) (.w 5) .f32 always) (vecFmt 0 0 2 0)).me.wait = .sfu ∧
    ((after (.fsqrt (.w 4) (.w 5) .f32 always) (vecFmt 0 0 2 0)).unit core0).sfuq = [SfuReq.mk 1 .sqrt .f32 vec.me.regs[5] 0 (.w 4) 2] ∧
    ((after (.sfuQueueHead core0) (special .sqrt (lanes4 0x40800000 0x41100000 0x80000000 0xBF800000) 0)).strand 1).wait =
      .reply (Reply.mk (.w 4) (lanes4 0x40000000 0x40400000 0x80000000 0x7FC00000) none 0x800 none) ∧
    ((after (.sfuQueueHead core0) (special .fdiv (lanes4 0x40C00000 0 0x3F800000 0) (lanes4 0x40000000 0 0 0x3F800000))).strand 1).wait =
      .reply (Reply.mk (.w 4) (lanes4 0x40400000 0x7FC00000 0x7F800000 0) none 0xC00 none) := by decide +kernel

theorem witness_UnitError : Claims.notOnSpindle (.frcp (.w 4) (.w 5) .f32 always) = true ∧ Claims.PrefixTaken (.frcp (.w 4) (.w 5) .f32 always) onSpindle ∧
    Claims.GuardOn onSpindle always ∧ Claims.OnSpindle onSpindle := ⟨rfl, Or.inl rfl, guard_always _, rfl⟩

theorem test_unit_error : exec (.frcp (.w 4) (.w 5) .f32 always) onSpindle = .next (onSpindle.raise 0x05 (wordOf (.frcp (.w 4) (.w 5) .f32 always))) :=
  next_of (by decide +kernel)

/- Witnesses: memory. -/

/-- w8 addresses the core's own scratchpad at 0x200, w9 the scratchpad of bay 1 at 0x200, w10 the paged region. The own scratchpad holds
0x80, 0xF1, 0x22, 0x33 there. -/
def memRegs (t : Strand) : Strand :=
  { t with regs := ((t.regs.set 8 0xF0000000000200).set 9 0xF0000000040200).set 10 0x12340000 }
def memory0 : Memory := [(spadKey 0 0 0x200, 0x80), (spadKey 0 0 0x201, 0xF1), (spadKey 0 0 0x202, 0x22), (spadKey 0 0 0x203, 0x33)]
def mem (u : UnitId) (f : Strand → Strand) : State := { small u 2 (fun t => f (memRegs t)) with mem := memory0 }

/-- A place of the own scratchpad, as segment 0 translates it. -/
def own (off : Nat) : XLoc := ⟨.spad 0 0 off, true, false, false, 18⟩

theorem witness_LoadStoreChecks : Claims.simm (mem core0 id) (0x80 : BitVec 8) (-128) ∧ Claims.Bound (mem core0 id) (.w 4) ∧
    Claims.Reads (mem core0 id) (.w 1) 7 (mem core0 id) ∧ (mem core0 id).me.card = none ∧
    (2 ^ 56 ≤ (Claims.eaOf (mem core0 id) 2 0 8).toNat) ∧ (Claims.eaOf (mem core0 id) 1 0 4).toNat % MKind.bytes .uw ≠ 0 ∧
    Claims.Aligned (Claims.eaOf (mem core0 id) 10 1 8) 8 ∧ ¬ Claims.windowed (Claims.eaOf (mem core0 id) 10 1 8) ∧ ¬ Claims.OnSpindle (mem core0 id) ∧
    (mem core0 id).me.kind ≠ .follow := by
  refine ⟨Or.inl ⟨rfl, by decide⟩, nofun, .reg _ 1, ?_⟩
  unfold Claims.Aligned Claims.windowed Claims.OnSpindle; decide +kernel

theorem test_load_store_checks : gives (exec (.ld (.w 4) 2 0 .d always) (mem core0 id)) ((mem core0 id).raise 0x08 0xFFFFFFFFFFFFFFFD) ∧
    gives (exec (.st (.w 1) 1 0 .uw always) (mem core0 id)) ((mem core0 id).raise 0x09 7) ∧
    gives (exec (.ld (.w 4) 10 1 .d always) (mem core0 id)) ((mem core0 id).raise 0x0B 0x12340008) := by decide +kernel

theorem witness_OwnScratchpadAccess : Claims.eaOf (mem core0 id) 8 1 2 = 0xF0000000000202 ∧ Claims.Aligned 0xF0000000000202 2 ∧
    Claims.windowed 0xF0000000000202 ∧ ((mem core0 id).xlate core0 3 0xF0000000000202 2 .load).1 = .ok (own 0x202) ∧
    ((mem core0 id).xlate core0 3 0xF0000000000202 2 .store).1 = .ok (own 0x202) ∧
    ((mem core0 id).xlate core0 3 0xF0000000000202 2 .load).2.badAt 3 (.spad 0 0 0x202) 2 = false ∧
    ((mem core0 id).xlate core0 3 0xF0000000000202 2 .load).2.me = (mem core0 id).me := by
  unfold Claims.Aligned Claims.windowed; decide +kernel

theorem test_own_load : [(MKind.ub, (0x80 : W128)), (.uh, 0xF180), (.uw, 0x3322F180), (.d, 0x3322F180), (.sb, 0xFFFFFFFFFFFFFF80), (.sh, 0xFFFFFFFFFFFFF180),
    (.sw, 0x3322F180)].all (fun p => (after (.ld (.w 4) 8 0 p.1 always) (mem core0 id)).me.regs[4] == p.2) = true := by decide +kernel

theorem test_own_store : (after (.st (.w 2) 8 1 .uh always) (mem core0 id)).mem.readBytes (spadKey 0 0 0x200) 5 = [0x80, 0xF1, 0xFD, 0xFF, 0] ∧
    (after (.st .wz 8 0 .uw always) (mem core0 id)).mem = [] ∧ (after (.st (.w 2) 8 1 .uh always) (mem core0 id)).me.pc = 0x1004 := by decide +kernel

theorem witness_AccessElsewhere : Claims.AtHome (mem core0 id) 0xF0000000040200 (.spad 0 1 0x200) ∧
    ((mem core0 id).xlate core0 3 0xF0000000040200 8 .load).1 = .ok ⟨.spad 0 1 0x200, true, false, false, 18⟩ ∧
    ((mem core0 id).xlate core0 3 0xF0000000040200 8 .store).1 = .ok ⟨.spad 0 1 0x200, true, false, false, 18⟩ ∧
    (mem core0 id).recordRoom core0 = true ∧
    Claims.Follows (mem core0 (fun t => { t with kind := .follow })) (.spad 0 1 0x200) core1 ∧
    Claims.Follows (mem core0 (fun t => { t with kind := .follow })) (.vault 2 5 0) ⟨2, 5, true⟩ := by
  refine ⟨⟨by decide, Or.inr ⟨by unfold Claims.windowed; decide, nofun, by simp [Claims.here]; decide⟩⟩, by decide +kernel, by decide +kernel, by decide +kernel,
    ⟨rfl, rfl, rfl, by decide, Or.inr ⟨0, 1, 0x200, rfl, rfl, by decide⟩⟩, ⟨rfl, rfl, rfl, by decide, Or.inl ⟨2, 5, 0, rfl, rfl⟩⟩⟩

theorem test_access_elsewhere : (after (.ld (.w 4) 9 0 .d always) (mem core0 id)).me.wait =
      .mem (MemOp.mk (.load .d) 0xF0000000040200 8 0 (.w 4) (some ⟨.spad 0 1 0x200, true, false, false, 18⟩) .go 0 true 0 0 none false) ∧
    (after (.st (.w 1) 9 0 .d always) (mem core0 (fun t => { t with kind := .follow }))).me.leaving = some ⟨core1, 0⟩ ∧
    (after (.st (.w 1) 9 0 .d always) (mem core0 (fun t => { t with kind := .follow }))).me.pc = 0x1000 := by decide +kernel

/-- Strand 1 has an access at its home to perform. -/
def atHome (act : MemAct) (n : Nat) (v : W128) (l : Loc) (f : State → State) : State :=
  f { small core0 2 (fun t => { t with status := .waiting, wait := .mem (MemOp.mk act 0xF0000000040200 n v (.w 4) (some ⟨l, true, false, false, 18⟩) .go 0 true 0 0 none false)
                                       ord := ⟨5, .zero, ⟨3, 0, 0, 0⟩, .zero⟩ }) with
      mem := [(vaultKey 0 1 0x200, 0x34), (vaultKey 2 1 0x200, 0x56)]
      lines := [((Loc.vault 0 1 0x200).line, ⟨7, 9, ⟨1, 2, 3, 4⟩⟩)] }

theorem witness_HomeAccessResult : Claims.HasKey (atHome (.load .ub) 1 0 (.vault 0 1 0x200) id) 3 (.vault 0 1 0x200) (vaultKey 0 1 0x200) ∧
    (Loc.vault 0 1 0x200).die? = some 0 ∧ (atHome (.load .ub) 1 0 (.vault 0 1 0x200) id).badAt 3 (.vault 0 1 0x200) 1 = false ∧
    (atHome (.load .ub) 1 0 (.vault 2 1 0x200) id).buffered 0 (.vault 2 1 0x200) = [] ∧
    (atHome (.load .ub) 1 0 (.vault 2 1 0x200) id).rdcCopy 0 (.vault 2 1 0x200) = none := by unfold Claims.HasKey; decide +kernel

/-- A store of 2 bytes to die 2 is buffered on die 0. -/
def entry1 : BufEntry := BufEntry.mk 0 3 (.bytes (.vault 2 1 0x200) [0x11, 0x22]) ⟨6, 0, 0, 0⟩ none .none false
def withBuffer (s : State) : State := s.setFifo 0 (.die 2) [entry1]

theorem witness_HomeAccess_buffered : youngest ((atHome (.load .ub) 1 0 (.vault 2 1 0x201) withBuffer).buffered 0 (.vault 2 1 0x201)) = some entry1 ∧
    entry1.covers (.vault 2 1 0x201) 1 = some [0x22] ∧ entry1.covers (.vault 2 1 0x200) 4 = none ∧
    (atHome (.load .ub) 1 0 (.vault 2 1 0x201) withBuffer).fifo 0 (.die 2) = entry1 :: [] := by decide +kernel

theorem test_home_access : ((after (.homeAccess 1) (atHome (.load .ub) 1 0 (.vault 0 1 0x200) id)).strand 1).wait = .reply (Reply.mk (.w 4) 0x34 none 0 none) ∧
    ((after (.homeAccess 1) (atHome (.load .ub) 1 0 (.vault 0 1 0x200) id)).strand 1).ord = ⟨7, .zero, ⟨3, 0, 0, 0⟩, ⟨1, 2, 3, 4⟩⟩ ∧
    (after (.homeAccess 1) (atHome .store 2 0xABCD (.vault 0 1 0x200) id)).mem.readBytes (vaultKey 0 1 0x200) 3 = [0xCD, 0xAB, 0] ∧
    (after (.homeAccess 1) (atHome .store 2 0xABCD (.vault 0 1 0x200) id)).lineAt (.vault 0 1 0x200) = ⟨10, 10, ⟨3, 0, 0, 0⟩⟩ ∧
    ((after (.homeAccess 1) (atHome (.load .ub) 1 0 (.vault 2 1 0x201) withBuffer)).strand 1).wait = .reply (Reply.mk (.w 4) 0x22 none 0 none) ∧
    gives (exec (.homeAccess 1) (atHome (.load .uw) 4 0 (.vault 2 1 0x200) withBuffer)) (atHome (.load .uw) 4 0 (.vault 2 1 0x200) withBuffer) ∧
    ((after (.homeAccess 1) (atHome (.load .ub) 1 0 (.vault 2 1 0x200) id)).strand 1).wait = .reply (Reply.mk (.w 4) 0x56 none 0 none) ∧
    (after (.homeAccess 1) (atHome .store 2 0xABCD (.vault 2 1 0x200) id)).fifo 0 (.die 2) =
      [BufEntry.mk 0 3 (.bytes (.vault 2 1 0x200) [0xCD, 0xAB]) ⟨3, 0, 0, 0⟩ none (.strand 1 0xF0000000040200) false] := by decide +kernel

/-- A copy in the RDC of die 0 and a detector in stream mode. -/
def copy0 : RdcCopy := ⟨0, 2, (Loc.vault 2 1 0x200).line, List.replicate 128 0, [], 1, 1, .zero, 0x1000⟩
def caches : State := { plain.modUnit core0 (fun c => { c with dets := [⟨1, 0, 5, 3, true, 0⟩, ⟨2, 0, 5, 3, true, 100⟩] }) with rdc := [copy0, { copy0 with die := 1 }] }
def withLink : State := { plain with dev := { plain.dev with domain := [7] } }.setFifo 0 (.dev 7) [{ entry1 with act := .bytes (.foreign 7 0x100) [1] }]

theorem witness_BufferDrains : (withBuffer plain).fifo 0 (.die 2) = entry1 :: [] ∧ Tbl.find (withBuffer plain).drains entry1.src.id = none ∧
    Claims.HasKey (withBuffer plain) 3 (.vault 2 1 0x200) (vaultKey 2 1 0x200) ∧ (withLink.fifo 0 (.dev 7)).head?.isSome = true ∧
    (Tbl.get Link.init withLink.links 7).failed = false ∧ (caches.rdc.filter (fun c => c.die == 0))[0]? = some copy0 ∧
    (caches.unit core0).dets[0]? = some ⟨1, 0, 5, 3, true, 0⟩ ∧ 0 + 128 ≤ caches.clock ∧ caches.clock < 100 + 128 := by unfold Claims.HasKey; decide +kernel

theorem test_drains : (after (.writeBufferDrain 0 (.die 2)) (withBuffer plain)).mem = [(vaultKey 2 1 0x200, 0x11), (vaultKey 2 1 0x201, 0x22)] ∧
    ((after (.writeBufferDrain 0 (.die 2)) (withBuffer plain)).die 0).dd = ⟨0, 0, 1, 0⟩ ∧
    ((after (.writeBufferDrain 0 (.dev 7)) withLink).fifo 0 (.dev 7)).map (·.sent) = [true] ∧
    (after (.linkWriteAck 0 7) (after (.writeBufferDrain 0 (.dev 7)) withLink)).fifo 0 (.dev 7) = [] ∧
    (after (.rdcExpiry 0 0) caches).rdc = [{ copy0 with die := 1 }] ∧ ((after (.streamModeEnd core0 0) caches).unit core0).dets.map (·.stream) = [false, true] ∧
    gives (exec (.streamModeEnd core0 1) caches) caches := by decide +kernel

theorem witness_AtomicResult : (Instr.aadd 8 (.w 1) .rlx .bay .w always, AtOp.add) ∈ Claims.atomics 8 (.w 1) .rlx .bay .w always ∧
    Claims.Aligned (lo64 (mem core0 id).me.regs[(8 : Fin 24)]) 4 ∧ ((mem core0 id).xlate core0 3 0xF0000000000200 4 .atomic).1 = .ok (own 0x200) ∧
    Claims.HasKey (mem core0 id) 3 (.spad 0 0 0x200) (spadKey 0 0 0x200) ∧ (mem core0 id).me.card = none := by
  unfold Claims.Aligned Claims.HasKey; exact ⟨List.mem_cons_self .., by decide +kernel⟩

/-- Memory and reply of an atomic on 0x34 with its operand. -/
def atomicGives (op : AtOp) (n : Nat) (v : W128) (out : List Byte) (r : W128) : Bool :=
  let t := after (.homeAccess 1) (atHome (.atomic op .rlx .bay .w) n v (.vault 0 1 0x200) id)
  decide (t.mem.readBytes (vaultKey 0 1 0x200) n = out) && decide ((t.strand 1).wait = .reply (Reply.mk (if op = .sto then .wz else .w 4) r none 0 none))

theorem test_atomics : ([(AtOp.add, 0xFFFFFFFF, [0x33, 0, 0, 0], 0x34), (.and, 0x14, [0x14, 0, 0, 0], 0x34), (.or, 3, [0x37, 0, 0, 0], 0x34),
    (.xor, 0x30, [4, 0, 0, 0], 0x34), (.min, 0x80000000, [0, 0, 0, 0x80], 0x34), (.max, 0x80000000, [0x34, 0, 0, 0], 0x34),
    (.minu, 0x80000000, [0x34, 0, 0, 0], 0x34), (.maxu, 0x80000000, [0, 0, 0, 0x80], 0x34), (.swp, 5, [5, 0, 0, 0], 0x34),
    (.cas, 0x90000000000000034, [9, 0, 0, 0], 0x10000000000000034), (.cas, 0x90000000000000035, [0x34, 0, 0, 0], 0x34),
    (.fadd, 0x3F800000, [0, 0, 0x80, 0x3F], 0x34), (.ldo, 5, [0x34, 0, 0, 0], 0x34), (.sto, 5, [5, 0, 0, 0], 0)] :
    List (AtOp × W128 × List Byte × W128)).all (fun p => atomicGives p.1 4 p.2.1 p.2.2.1 p.2.2.2) = true := by decide +kernel

theorem test_atomic_issue : (after (.acas 8 (.w 1) .ar .dev .d always) (mem core0 id)).me.wait =
    .mem (MemOp.mk (.atomic .cas .ar .dev .d) 0xF0000000000200 8 7 (.w 1) (some (own 0x200)) .go 0 false 0 0 none false) := by decide +kernel

/-- A device-scope fence of strand 1 waits for the buffer entries below 1. -/
def fencing (acq : Bool) (f : State → State) : State :=
  f (small core0 2 (fun t => { t with status := .waiting, wait := .fence true acq false .dev 1, ord := ⟨5, ⟨0, 1, 0, 0⟩, .zero, ⟨9, 0, 0, 0⟩⟩ }))

theorem witness_FenceResult : Claims.Issues plain always ∧ ((fencing true id).strand 1).wait = .fence true true false .dev 1 ∧
    (fencing true id).drained 0 (Scope.dev == .dom) 1 = true ∧ (fencing true withBuffer).drained 0 (Scope.dev == .dom) 1 = false :=
  ⟨issues_always rfl, by decide +kernel⟩

theorem test_fences : gives (exec (.fenceAcq .bay always) plain) (small core0 2 (fun t => { t with pc := 0x1004 })) ∧
    (after (.fenceSc .clu always) plain).scLog = [⟨1, .clu, core0, .zero, [1]⟩] ∧ (after (.fenceRel .dom always) plain).me.wait = .fence true false false .dom 0 ∧
    gives (exec (.deviceRelease (.strand 1)) (fencing true withBuffer)) (fencing true withBuffer) ∧
    ((after (.deviceRelease (.strand 1)) (fencing true id)).strand 1).ord = ⟨9, ⟨0, 1, 0, 0⟩, ⟨5, 1, 0, 0⟩, .zero⟩ ∧
    ((after (.deviceRelease (.strand 1)) (fencing false id)).strand 1).ord = ⟨5, ⟨0, 1, 0, 0⟩, ⟨5, 1, 0, 0⟩, ⟨9, 0, 0, 0⟩⟩ := by decide +kernel

/-- Strand 1 has an LDX or STX on its own scratchpad to perform; a parked one; one to reissue. -/
def sync (act : MemAct) (st : MemStage) (tries : Nat) (full : Bool) (n : Nat) : State :=
  { (small core0 2 (fun t => { t with status := .waiting, wait := .mem (MemOp.mk act 0xF0000000000200 8 0x55 (.w 4) (some (own 0x200)) st 0 true tries 0 none false) })).modUnit core0
      (fun c => { c with park := if st = .park then [⟨(Loc.spad 0 0 0x200).word, 1, 0⟩] else List.replicate n ⟨1, 6, 0⟩ }) with
    mem := memory0, full := if full then [plain.bitNo 3 (.spad 0 0 0x200)] else [], clock := 0x20000 }

theorem witness_SynchronisingAccess : (sync (.ldx .bay) .go 0 true 0).unitOf 1 = coreOf 0 0 ∧ (sync (.ldx .bay) .go 0 true 0).bitNo 3 (.spad 0 0 0x200) ∈ (sync (.ldx .bay) .go 0 true 0).full ∧
    (sync (.stx .bay) .go 0 false 0).bitNo 3 (.spad 0 0 0x200) ∉ (sync (.stx .bay) .go 0 false 0).full ∧
    (∀ e ∈ ((sync (.ldx .bay) .go 0 true 31).unit (coreOf 0 0)).park, e.word ≠ (Loc.spad 0 0 0x200).word) ∧
    ((sync (.ldx .bay) .go 0 false 31).unit (coreOf 0 0)).park.length < 32 ∧ 32 ≤ ((sync (.ldx .bay) .go 0 false 32).unit (coreOf 0 0)).park.length ∧
    3 < ((sync (.ldx .bay) .retry 3 false 0).part 3).fectl.toNat / 2 ^ 28 % 16 ∧ ((sync (.ldx .bay) .retry 4 false 0).part 3).fectl.toNat / 2 ^ 28 % 16 ≤ 4 ∧
    ((sync (.ldx .bay) .park 0 false 0).unit (coreOf 0 0)).park[0]? = some ⟨(Loc.spad 0 0 0x200).word, 1, 0⟩ ∧
    0 + 2 * (((sync (.ldx .bay) .park 0 false 0).part 3).fectl.toNat % 2 ^ 24) ≤ (sync (.ldx .bay) .park 0 false 0).clock := by decide +kernel

theorem test_synchronising : (after (.homeAccess 1) (sync (.ldx .bay) .go 0 true 0)).full = [] ∧
    ((after (.homeAccess 1) (sync (.ldx .bay) .go 0 true 0)).strand 1).wait = .reply (Reply.mk (.w 4) 0x3322F180 none 0 none) ∧
    (after (.homeAccess 1) (sync (.stx .bay) .go 0 false 0)).full = [plain.bitNo 3 (.spad 0 0 0x200)] ∧
    (after (.homeAccess 1) (sync (.stx .bay) .go 0 false 0)).mem = [(spadKey 0 0 0x200, 0x55)] ∧
    ((after (.homeAccess 1) (sync (.ldx .bay) .go 0 false 31)).unit core0).park.length = 32 ∧
    (after (.homeAccess 1) (sync (.ldx .bay) .go 0 false 32)) = { sync (.ldx .bay) .retry 0 false 32 with units := (sync (.ldx .bay) .go 0 false 32).units } ∧
    gives (exec (.retryReissue 1) (sync (.stx .bay) .retry 3 true 0)) (sync (.stx .bay) .go 4 true 0) ∧
    gives (exec (.retryReissue 1) (sync (.stx .bay) .retry 4 true 0)) ((sync (.stx .bay) .retry 4 true 0).defer 1 0x20 0xF0000000000201) ∧
    ((after (.parkTableTimeout 0 0 0) (sync (.ldx .bay) .park 0 false 0)).unit core0).park = [] := by decide +kernel

theorem test_synchronising_issue : (after (.ldx (.w 4) 8 0 .bay always) (mem core0 id)).me.wait =
      .mem (MemOp.mk (.ldx .bay) 0xF0000000000200 8 0 (.w 4) (some (own 0x200)) .go 0 true 0 0 none false) ∧
    (after (.stx (.w 1) 8 0 .dev always) (mem core0 id)).me.wait = .mem (MemOp.mk (.stx .dev) 0xF0000000000200 8 7 .wz (some (own 0x200)) .go 0 false 0 0 none false) := by decide +kernel

/-- Strand 1 of a unit waits for an access that is ready to be performed. -/
def accessing (u : UnitId) (m : MemOp) (f : State → State) : State :=
  f (small u 2 (fun t => { t with status := .waiting, wait := .mem m, ord := ⟨5, .zero, ⟨3, 0, 0, 0⟩, .zero⟩ }))

/-- An access at a place under a leaf with SD and RDC set. -/
def opOf (act : MemAct) (n : Nat) (l : Loc) (half : Option (Bool × List Byte)) : MemOp :=
  MemOp.mk act 0xF0000000040200 n 0x1122334455667788990A0B0C0D0E0F10 (.w 4) (some ⟨l, true, true, true, 18⟩) .go 0 true 0 0 half false

theorem witness_ReadyAccess : Claims.ReadyAccess (accessing spin0 (opOf (.load .d) 8 (.vault 0 1 0x200) none) id) 1 (opOf (.load .d) 8 (.vault 0 1 0x200) none)
      ⟨.vault 0 1 0x200, true, true, true, 18⟩ ∧ ((accessing spin0 (opOf (.load .d) 8 (.vault 0 1 0x200) none) id).unitOf 1).sp = true ∧
    (accessing spin0 (opOf (.load .d) 8 (.vault 2 1 0x200) none) id).rdcCopy 0 (.vault 2 1 0x200) = none ∧
    MKind.bytes .q = 16 ∧ Claims.Aligned 0xF0000000000200 16 := by
  unfold Claims.ReadyAccess Claims.Aligned; decide +kernel

theorem test_spindle_access : (((after (.homeAccess 1) (accessing spin0 (opOf (.load .d) 8 (.vault 0 1 0x200) none) id)).unit spin0).dets.map (·.run)) = [1] ∧
    ((after (.homeAccess 1) (accessing spin0 (opOf (.load .d) 8 (.vault 2 1 0x200) none) id)).unit ⟨2, 1, true⟩).merge.map (·.line) =
      [(Loc.vault 2 1 0x200).line] := by decide +kernel

theorem test_second_half : ((after (.homeAccess 1) (accessing core0 (opOf (.load .q) 16 (.vault 0 1 0x200) (some (true, List.replicate 8 1))) id)).strand 1).wait =
      .reply (.mk (.w 4) 0x01010101010101010000000000000000 none 0 none) ∧
    (after (.homeAccess 1) (accessing core0 (opOf .store 16 (.vault 0 1 0x200) (some (true, []))) id)).mem.readBytes (vaultKey 0 1 0x200) 9 =
      [0x10, 0x0F, 0x0E, 0x0D, 0x0C, 0x0B, 0x0A, 0x99, 0] := by decide +kernel

/-- The link to device 7 has failed. -/
def linkFailed (s : State) : State := { s with links := [(7, ⟨true, []⟩)] }

/-- A store of 2 bytes to device 7 is buffered on die 0. -/
def toDevice (s : State) : State := s.setFifo 0 (.dev 7) [{ entry1 with act := .bytes (.foreign 7 0x100) [0x11, 0x22], src := .strand 1 0x77 }]

theorem witness_ForeignAccess : Claims.ReadyAccess (accessing core0 (opOf (.load .ub) 1 (.foreign 7 0x101) none) toDevice) 1 (opOf (.load .ub) 1 (.foreign 7 0x101) none)
      ⟨.foreign 7 0x101, true, true, true, 18⟩ ∧
    (Tbl.get Link.init (accessing core0 (opOf (.load .ub) 1 (.foreign 7 0x101) none) toDevice).links 7).failed = false ∧
    ((accessing core0 (opOf (.load .ub) 1 (.foreign 7 0x101) none) toDevice).buffered 0 (.foreign 7 0x101)).length = 1 ∧
    (accessing core0 (opOf (.load .ub) 1 (.foreign 7 0x180) none) toDevice).buffered 0 (.foreign 7 0x180) = [] ∧
    (Tbl.get Link.init (accessing core0 (opOf .store 1 (.foreign 7 0x101) none) linkFailed).links 7).failed = true := by
  unfold Claims.ReadyAccess; decide +kernel

theorem test_foreign_access : ((after (.homeAccess 1) (accessing core0 (opOf (.load .ub) 1 (.foreign 7 0x101) none) toDevice)).strand 1).wait =
      .reply (.mk (.w 4) 0x22 none 0 none) ∧
    gives (exec (.homeAccess 1) (accessing core0 (opOf (.load .uw) 4 (.foreign 7 0x100) none) toDevice)) (accessing core0 (opOf (.load .uw) 4 (.foreign 7 0x100) none) toDevice) ∧
    ((after (.homeAccess 1) (accessing core0 (opOf .store 2 (.foreign 7 0x101) none) id)).fifo 0 (.dev 7)).length = 1 ∧
    ((after (.homeAccess 1) (accessing core0 (opOf .store 2 (.foreign 7 0x101) none) linkFailed)).strand 1).pend = some (0x18, 0xF0000000040200) ∧
    ((after (.writeBufferDrain 0 (.dev 7)) (linkFailed (toDevice plain))).strand 1).lost = [0x77] ∧
    gives (exec (.deferredTrap 1) (handled (fun t => { t with lost := [0x77, 0x78] }))) ((handled (fun t => { t with lost := [0x78] })).takeTrap 1 0x18 0x77 0x1000) := by decide +kernel

/-- Strand 2 is in slot 4 of bay 1. -/
def beside (s : State) : State := { s with strands := s.strands ++ [(2, strandIn core1 4)] }

theorem witness_WindowAccess : Claims.ReadyAccess (accessing core0 (opOf (.load .uh) 2 (.rwin 0 1 4 1 0) none) beside) 1 (opOf (.load .uh) 2 (.rwin 0 1 4 1 0) none)
      ⟨.rwin 0 1 4 1 0, true, true, true, 18⟩ ∧
    (accessing core0 (opOf (.load .uh) 2 (.rwin 0 1 4 1 0) none) beside).inSlot core1 3 4 = some 2 ∧
    (accessing core0 (opOf .store 2 (.rwin 0 1 5 1 0) none) beside).inSlot core1 3 5 = none := by unfold Claims.ReadyAccess; decide +kernel

theorem test_window_access : ((after (.homeAccess 1) (accessing core0 (opOf (.load .uh) 2 (.rwin 0 1 4 1 0) none) beside)).strand 1).wait =
      .reply (.mk (.w 4) 7 none 0 none) ∧
    ((after (.homeAccess 1) (accessing core0 (opOf .store 2 (.rwin 0 1 4 1 2) none) beside)).strand 2).regs[1] = 0x0F100007 ∧
    ((after (.homeAccess 1) (accessing core0 (opOf .store 2 (.rwin 0 1 5 1 0) none) beside)).unit core1).orph = 1 := by decide +kernel

theorem witness_RdcCopies : (plain.die 0).rdcctl.getLsbD 16 = false ∧ plain.buffered 0 (.vault 2 1 0x200) = [] ∧ (withBuffer plain).buffered 0 (.vault 2 1 0x200) ≠ [] ∧
    plain.rdcCopy 0 (.vault 2 1 0x200) = none ∧ (plain.modDie 0 (fun d => { d with rdcctl := 0x10000 })).die 0 = { plain.die 0 with rdcctl := 0x10000 } := by
  decide +kernel

theorem test_rdc_fill : ((plain.rdcFill 0 ⟨.vault 2 1 0x200, true, true, false, 18⟩).rdc.map (fun c => (c.die, c.home, c.lease))) = [(0, 2, 160 + 0x2000)] ∧
    ((withBuffer caches).rdcFill 0 ⟨.vault 2 1 0x200, true, true, false, 18⟩).rdc = [{ copy0 with die := 1 }] ∧
    (rdcSlot (Loc.vault 2 5 0x180).line).1 = 6 := by decide +kernel

/-- Four accesses of requester 5 to lines 8 to 11 of a page with SD set. -/
def streamed : State := [8, 9, 10, 11].foldl (fun s n => s.detect core0 5 ⟨.vault 0 0 (128 * n), true, false, true, 18⟩ (.ofNat 64 (128 * n))) plain

theorem test_stream_detector : (streamed.unit core0).dets.map (fun e => (e.who, e.next, e.run, e.stream)) = [(5, 12, 4, true)] ∧
    ((streamed.detect core0 5 ⟨.vault 0 0 0, true, false, true, 18⟩ 0).unit core0).dets.map (fun e => (e.run, e.stream)) = [(1, false)] ∧
    ((streamed.detect core0 5 ⟨.vault 0 0 0, true, false, false, 18⟩ 0).unit core0).dets = [] := by decide +kernel

theorem witness_AtomicAtHome : Claims.ReadyAccess (atHome (.atomic .add .acq .dev .w) 4 1 (.vault 2 1 0x200) withBuffer) 1
      (MemOp.mk (.atomic .add .acq .dev .w) 0xF0000000040200 4 1 (.w 4) (some ⟨.vault 2 1 0x200, true, false, false, 18⟩) .go 0 true 0 0 none false)
      ⟨.vault 2 1 0x200, true, false, false, 18⟩ ∧
    (atHome (.atomic .add .acq .dev .w) 4 1 (.vault 2 1 0x200) withBuffer).buffered 0 (.vault 2 1 0x200) ≠ [] ∧
    (atHome (.atomic .add .acq .dev .w) 4 1 (.vault 2 1 0x200) id).fifoDrained 0 (.vault 2 1 0x200) 0 = true ∧
    ({ atHome (.atomic .add .acq .dev .w) 4 1 (.vault 0 1 0x200) id with poison := [vaultKey 0 1 0x200 / 8] } : State).badAt 3 (.vault 0 1 0x200) 4 = true ∧
    (atHome (.atomic .add .acq .dev .w) 4 1 (.vault 0 1 0x200) id).badAt 3 (.vault 0 1 0x200) 4 = false := by
  unfold Claims.ReadyAccess; decide +kernel

theorem test_atomic_acquire : gives (exec (.homeAccess 1) (atHome (.atomic .add .acq .dev .w) 4 1 (.vault 2 1 0x200) withBuffer)) (atHome (.atomic .add .acq .dev .w) 4 1 (.vault 2 1 0x200) withBuffer) ∧
    ((after (.homeAccess 1) (atHome (.atomic .add .acq .dev .w) 4 1 (.vault 0 1 0x200) id)).strand 1).ord = ⟨10, ⟨0, 2, 3, 4⟩, ⟨3, 0, 0, 0⟩, ⟨1, 2, 3, 4⟩⟩ ∧
    ((after (.homeAccess 1) ({ atHome (.atomic .add .acq .dev .w) 4 1 (.vault 0 1 0x200) id with poison := [vaultKey 0 1 0x200 / 8] })).strand 1).pend =
      some (0x40, 0xF0000000040200) := by decide +kernel

theorem witness_AtomicForeign : Claims.ReadyAccess (accessing core0 (opOf (.atomic .add .acq .dom .d) 8 (.foreign 7 0x100) none) id) 1
      (opOf (.atomic .add .acq .dom .d) 8 (.foreign 7 0x100) none) ⟨.foreign 7 0x100, true, true, true, 18⟩ ∧
    (accessing core0 (opOf (.atomic .add .acq .dom .d) 8 (.foreign 7 0x100) none) id).fifoDrained 0 (.foreign 7 0x100) 0 = true ∧
    (accessing core0 (opOf (.atomic .add .acq .dom .d) 8 (.foreign 7 0x100) none) id).buffered 0 (.foreign 7 0x100) = [] := by
  unfold Claims.ReadyAccess; decide +kernel

/-- Copies on dies 0 and 1, beside what strand 1 of bay 0 waits for. -/
def copies (s : State) : State := { s with rdc := caches.rdc }

theorem test_foreign_acquire : (after (.homeAccess 1) (accessing core0 (opOf (.atomic .add .acq .dom .d) 8 (.foreign 7 0x100) none) copies)).rdc =
    [{ copy0 with die := 1 }] := by decide +kernel

/-- Segment entry 1: the register windows of row 0 of die 0. -/
def segment1 : W128 := .ofNat 128 (2 ^ 127 + 2 ^ 126 + 2 * 2 ^ 124 + 1 * 2 ^ 79 + 64 * 2 ^ 72 + 0x2000 * 2 ^ 35)

/-- w8 addresses register 2 of slot 5 of bay 1. -/
def windowed1 : State := (mem core0 (fun t => { t with regs := t.regs.set 8 0xF0100000040A20 })).modUnit core0 (fun c => { c with segs := [⟨3, 1, segment1⟩] })

theorem witness_SynchronisingIssue : Claims.Aligned (Claims.eaOf (mem core0 id) 10 0 8) 8 ∧ ¬ Claims.windowed (Claims.eaOf (mem core0 id) 10 0 8) ∧
    Claims.windowed (Claims.eaOf windowed1 8 0 8) ∧ (windowed1.xlate core0 3 0xF0100000040A20 8 .load).1 = .ok ⟨.rwin 0 1 5 2 0, true, false, false, 18⟩ := by
  unfold Claims.Aligned Claims.windowed; decide +kernel

theorem test_synchronising_elsewhere : gives (exec (.ldx (.w 4) 10 0 .bay always) (mem core0 (fun t => { t with kind := .follow }))) ((mem core0 (fun t => { t with kind := .follow })).raise 0x0A 0x12340000) ∧
    gives (exec (.stx (.w 1) 8 0 .dev always) windowed1) (windowed1.raise 0x0A 0xF0100000040A20) ∧
    gives (exec (.aadd 8 (.w 1) .rlx .bay .w always) windowed1) (windowed1.raise 0x0A 0xF0100000040A20) := by decide +kernel

theorem witness_parked : (sync (.ldx .bay) .park 0 true 0).parkFirst core0 (Loc.spad 0 0 0x200).word = some 1 ∧ (sync (.ldx .bay) .park 0 true 0).present 1 = true ∧
    (sync (.stx .bay) .park 0 true 0).parkFirst core0 (Loc.spad 0 0 0x200).word = none ∧
    ((sync (.ldx .bay) .go 0 true 0).modTen 0 0 3 (fun b => { b with loaded := false })).present 1 = false := by decide +kernel

theorem test_parked : ((after (.homeAccess 1) (sync (.ldx .bay) .park 0 true 0)).unit core0).park = [] ∧ (after (.homeAccess 1) (sync (.ldx .bay) .park 0 true 0)).full = [] ∧
    gives (exec (.homeAccess 1) ((sync (.ldx .bay) .go 0 true 0).modTen 0 0 3 (fun b => { b with loaded := false }))) ((sync (.ldx .bay) .go 0 true 0).modTen 0 0 3 (fun b => { b with loaded := false })) := by decide +kernel

/- Witnesses: tiles, streams, deliveries, mailboxes. -/

/-- A leaf that puts a 64 KiB page at the start of bay 0 of die 0 (Table 1-4). -/
def leaf0 : W64 := 0xE000000000000000
def withTlb (s : State) : State := (s.modUnit core0 (fun c => { c with tlb := [⟨3, 3, 0x1234, leaf0⟩] })).modPart 3 (fun k => { k with xtb := 1 })

/-- Tile 5 of bay 0 in a state, of 2 lines at offset 0x400; w5 is TDEF's word for it, w6 an address of the paged region, w7 TRD.mc's mask. -/
def tiled (n : Nat) (st : TileState) (pend : Nat) : State :=
  withTlb ({ small core0 n (fun t => { t with regs := ((t.regs.set 5 0x40400).set 6 0x12340080).set 7 0x1900000003 }) with
    mem := [(vaultKey 0 0 0x80, 0xAA), (spadKey 0 0 0x400, 0xBB), (spadKey 0 0 0x480, 0xCC)] }.setTile 3 0 0 5 { Tile.init with st := st, pend := pend, len := 1, base := 8, cs := ⟨4, 0, 0, 0⟩ })

theorem witness_TileInstructionResult : Claims.OwnTile (tiled 2 .empty 0) 5 ((tiled 2 .empty 0).tile 3 0 0 5) ∧
    ((tiled 2 .filling 2).tile 3 0 0 5).st = .filling ∧ ((tiled 2 .draining 2).tile 3 0 0 5).st = .draining ∧ ((tiled 2 .ready 0).tile 3 0 0 5).st = .ready ∧
    (lo64 0x40400).toNat = 8 * 2 ^ 7 + 1 * 2 ^ 18 ∧ inPart ((tiled 2 .empty 0).spadPart 3 0 0) (8 * 128) ((1 + 1) * 128) = true ∧
    (tiled 2 .empty 0).tileRange core0 3 0x12340080 (1 + 1) .fill = none ∧ (tiled 2 .ready 0).tileRange core0 3 0x12340080 (1 + 1) .store = none ∧
    Claims.InSlot (tiled 15 .empty 0) 15 ∧ (0x1900000003 : W128).toNat < 2 ^ 37 ∧ (0x1900000003 : W128).toNat % 2 ^ 32 ≠ 0 ∧
    ∀ c ∈ ((List.range 32).filter (fun j => (0x1900000003 : W128).getLsbD j)).map (clusterBay (clusterOf 0)), (tiled 15 .empty 0).ownsBay 3 0 c = true := by
  unfold Claims.OwnTile Claims.InSlot; decide +kernel

theorem test_tile_instructions : ((after (.tdef (.w 5) 6 always) (tiled 2 .ready 0)).tile 3 0 0 6) = { Tile.init with defd := true, base := 8, len := 1 } ∧
    gives (exec (.tdef (.w 5) 5 always) (tiled 2 .ready 0)) ((tiled 2 .ready 0).raise 0x24 5) ∧
    gives (exec (.trel 5 always) (tiled 2 .filling 1)) ((tiled 2 .filling 1).waitOn 1 (.tile 5)) ∧
    ((after (.trd (.w 6) 5 always) (tiled 2 .ready 0)).tile 3 0 0 5).st = .filling ∧ (after (.trd (.w 6) 5 always) (tiled 2 .ready 0)).me.ord.pts = 4 ∧
    ((after (.trd (.w 6) 5 always) (tiled 2 .ready 0)).fills.map (fun f => (f.2.src, f.2.lines))) = [(0x12340080, 2)] ∧
    ((after (.twr (.w 6) 5 always) (tiled 2 .ready 0)).drains.map (fun f => (f.2.dst, f.2.lines))) = [(0x12340080, 2)] ∧
    ((after (.trel 5 always) (tiled 2 .ready 0)).tile 3 0 0 5).st = .empty ∧ (after (.tstat (.w 4) 5 always) (tiled 2 .draining 1)).me.regs[4] = 0xC001000000040400 ∧
    (after (.trdMc (.w 6) (.w 7) 5 always) (tiled 15 .empty 0)).me.wait = .trdmc 9 ∧
    ((after (.trdMc (.w 6) (.w 7) 5 always) (tiled 15 .empty 0)).fills.map (fun f => (f.2.ctr, f.2.bays.map (·.bay)))) = [(some 9, [0, 1])] := by decide +kernel

/-- A unicast fill of the tile from the page, and a drain to it. -/
def fill0 : Fill :=
  { tag := 3, die := 0, bay := 0, tile := 5, src := 0x12340080, lines := 2, ord := .zero, multi := false, ctr := none, bays := [⟨0, true, false, none, false⟩],
    open_ := true, slot := 2, sent := [], read := [], packets := [], parked := [], foreign := false, failed := false }
def filling (f : Fill) (pend : Nat) : State := { tiled 2 .filling pend with fills := [(7, f)] }
def merging : State := (filling { fill0 with sent := [0] } 2).modUnit spin0 (fun c => { c with merge := [⟨3, (Loc.vault 0 0 0x80).line, [⟨.fill 7 0, false, 0x12340080, 16⟩]⟩] })
def packet0 : FillPacket := ⟨7, 1, 0, List.replicate 128 0x11, [], .zero⟩
def multi0 : Fill := { fill0 with multi := true, open_ := false, bays := [⟨0, false, false, none, false⟩, ⟨1, false, false, none, false⟩] }
def drain0 : Drain :=
  { tag := 3, die := 0, bay := 0, tile := 5, dst := 0x12340000, lines := 2, ord := .zero, slot := 2, stored := [], upto := none, foreign := false, parked := [], failed := false,
    lost := 0 }
def draining (g : Drain) (pend : Nat) : State := { tiled 2 .draining pend with drains := [(7, g)] }

theorem witness_TileTransfer : Tbl.find (filling fill0 2).fills 7 = some fill0 ∧
    ((filling fill0 2).xlate core0 3 0x12340080 128 .fill).1 = .ok ⟨.vault 0 0 0x80, true, false, false, 16⟩ ∧ ((filling fill0 2).xlate core0 3 0x12340080 128 .fill).2.buffered 0 (.vault 0 0 0x80) = [] ∧
    ((filling fill0 2).unit core0).dets = [] ∧ ((filling fill0 2).unit (spOf 0 0)).merge = [] ∧ (merging.unit spin0).merge = ⟨3, (Loc.vault 0 0 0x80).line, [⟨.fill 7 0, false, 0x12340080, 16⟩]⟩ :: [] ∧
    vaultLine (Loc.vault 0 0 0x80).line = .vault 0 0 0x80 ∧ (filling { fill0 with packets := [packet0] } 1).drained 0 false (filling fill0 1).serial = true ∧
    Tbl.find (filling multi0 0).fills 7 = some multi0 ∧ Tbl.find (draining drain0 2).drains 7 = some drain0 ∧
    ((draining drain0 2).xlate core0 3 0x12340000 128 .store).1 = .ok ⟨.vault 0 0 0, true, false, false, 16⟩ ∧
    Claims.HasKey (draining drain0 2) 3 (.vault 0 0 0) (vaultKey 0 0 0) ∧ ((draining { drain0 with stored := [0, 1] } 0).tile 3 0 0 5).pend = 0 := by
  unfold Claims.HasKey; decide +kernel

theorem test_tile_transfer : ((after (.fillRead 7 0) (filling fill0 2)).unit spin0).merge = [⟨3, (Loc.vault 0 0 0x80).line, [⟨.fill 7 0, false, 0x12340080, 16⟩]⟩] ∧
    (after (.fillReadStep 0 0 0) merging).fills.map (fun f => (f.2.read, f.2.packets.map (fun p => (p.bay, p.bytes.take 2)))) = [([0], [(0, [0xAA, 0])])] ∧
    ((after (.tileLanding 7 0) (filling { fill0 with packets := [packet0] } 1)).tile 3 0 0 5).st = .ready ∧
    (after (.tileLanding 7 0) (filling { fill0 with packets := [packet0] } 2)).mem.readBytes (spadKey 0 0 0x47F) 2 = [0, 0x11] ∧
    ((after (.tileLanding 7 0) (filling { fill0 with packets := [packet0] } 2)).tile 3 0 0 5).pend = 1 ∧
    ((after (.multicastStartAccept 7 0) { tiled 2 .empty 0 with fills := [(7, multi0)] }).tile 3 0 0 5).st = .filling ∧
    ((after (.multicastStartAccept 7 0) { tiled 2 .empty 0 with fills := [(7, { multi0 with lines := 3 })] }).tile 3 0 0 5).err = true ∧
    (after (.tileDrainStore 7 1) (draining drain0 2)).mem.readBytes (vaultKey 0 0 0x80) 1 = [0xCC] ∧
    ((after (.tileDrainReady 7) (draining { drain0 with stored := [0, 1] } 0)).tile 3 0 0 5).st = .ready ∧
    (after (.tileDrainReady 7) (draining { drain0 with stored := [0, 1] } 0)).drains = [] ∧ gives (exec (.tileDrainReady 7) (draining drain0 1)) (draining drain0 1) := by decide +kernel

/-- SBIND.in's word in w5: 4 entries at 0x100, limit 10, producers 0x8001; SBIND.out's in w6: this core, index 15. Ring 1 in a state. -/
def streamRegs (t : Strand) : Strand :=
  { t with regs := (t.regs.set 5 (.ofNat 128 (0x10 * 2 ^ 4 + 10 * 2 ^ 85 + 2 * 2 ^ 90 + 0x8001 * 2 ^ 110))).set 6 0xF00000000 }
def ring1 (st : RingState) (eos : BitVec 16) (hd tl : Nat) : Ring :=
  { Ring.init with st := st, pmask := 0x8001, eos := eos, log2n := 2, limexp := 10, head := hd, tail := tl, base := 0x10 }
def streams (r : Ring) (f : Strand → Strand) : State := { (small core0 2 (fun t => f (streamRegs t))).setRing core0 3 1 r with clock := 5000 }
def producer (t : Strand) : Strand :=
  { t with orv := true, oring := ⟨1, ⟨0, core0⟩, 15⟩, status := .waiting, wait := .push (Reply.mk .qo 0x4321 none 0 none) }

theorem witness_StreamResult : (streams Ring.init id).ring core0 3 1 = Ring.init ∧ Claims.OwnRing (streams Ring.init id) 1 ∧
    inPart ((streams Ring.init id).spadPart 3 0 0) (16 * 0x10) (16 * 2 ^ 2) = true ∧ (streams Ring.init id).me.regs[5].toNat / 2 ^ 110 % 2 ^ 16 = 0x8001 ∧
    (lo64 (streams Ring.init id).me.regs[6]).toNat % 2 ^ 32 = 0 ∧ (Claims.ended (ring1 .opened 0x8001 3 3)).st = .ended ∧
    (ring1 .opened 1 3 3).pmask &&& ~~~(ring1 .opened 1 3 3).eos ≠ 0 ∧ ((streams (ring1 .opened 0 3 3) producer).strand 1).wait = .push (Reply.mk .qo 0x4321 none 0 none) ∧
    (streams (ring1 .opened 0 3 3) producer).ownsBay 3 0 0 = true ∧ (streams (ring1 .opened 0 3 3) producer).ringForeign core0 3 1 = false ∧
    (ring1 .opened 0 65534 2).pmask.getLsbD 15 = true ∧ 2 ^ 2 ≤ (2 + 65536 - 65534) % 65536 ∧ Claims.WaitedOut (streams (ring1 .opened 0 65534 2) producer) 1 (2 ^ 10) := by
  unfold Claims.OwnRing Claims.WaitedOut; decide +kernel

theorem test_streams : (after (.sbindIn (.w 5) 1 always) (streams Ring.init id)).ring core0 3 1 = ring1 .opened 0 0 0 ∧
    (after (.sbindIn (.w 5) 1 always) (streams Ring.init id)).me.iring = 1 ∧ (after (.sbindOut (.w 6) 1 always) (streams Ring.init id)).me.oring = ⟨1, ⟨0, core0⟩, 15⟩ ∧
    (after (.qwait (.w 4) 1 10 always) (streams (ring1 .opened 0 65535 2) id)).me.regs[4] = 3 ∧ (after (.qwait (.w 4) 1 10 always) (streams (ring1 .opened 0x8001 3 3) id)).me.sts = 0x1000000000000000 ∧
    (after (.qwait (.w 4) 1 10 always) (streams (ring1 .opened 1 3 3) id)).me.wait = .qwait (.w 4) 1 10 ∧
    ((after (.seos always) (streams (ring1 .opened 0 3 3) (fun t => { producer t with status := .ready, wait := .none }))).ring core0 3 1).eos = 0x8000 ∧
    ((after (.sclose 1 always) (streams (ring1 .opened 0 3 3) id)).ring core0 3 1).st = .free := by decide +kernel

theorem test_push : ((after (.streamPush 1) (streams (ring1 .opened 0 3 3) producer)).ring core0 3 1).tail = 4 ∧
    (after (.streamPush 1) (streams (ring1 .opened 0 3 3) producer)).mem = [(spadKey 0 0 0x130, 0x21), (spadKey 0 0 0x131, 0x43)] ∧
    gives (exec (.streamPush 1) (streams (ring1 .opened 0 65534 2) producer)) (streams (ring1 .opened 0 65534 2) producer) ∧
    ((after (.streamPushTimeout 1) (streams (ring1 .opened 0 65534 2) producer)).strand 1).pend = some (0x21, 0x2FFFE0001) ∧
    ((after (.streamTimeout 1) (streams (ring1 .opened 0 3 3) (fun t => { t with status := .waiting, wait := .qwait (.w 4) 1 12 }))).strand 1).pend = some (0x21, 0x300030001) := by decide +kernel

/-- Strand 2 in slot 5 of the core; w5 names it, w6 the slots 5 and 6 of the core, w7 a slot of a unit on die 2. -/
def deliverRegs (t : Strand) : Strand := { t with regs := ((t.regs.set 5 0x500000007).set 6 0x600000).set 7 0x2000500000007 }
def pairOf (f g : Strand → Strand) : State :=
  { small core0 2 (fun t => f (deliverRegs t)) with strands := [(1, f (deliverRegs (strandIn core0 2))), (2, g (strandIn core0 5))], clock := 5000 }
def withMsg (name : W64) : State := { pairOf id (fun t => { t with pres := 0 }) with msgs := [(8, .deliver 3 name 23 0x77 1 0 0 .zero)] }
def multiDeliver (p : BitVec 24) (left : List Nat) (neg : Bool) : State :=
  pairOf (fun t => { t with status := .waiting, wait := .mdlv 0x600000 ⟨0, core0⟩ 9 0x88 left neg 0 }) (fun t => { t with pres := p })

theorem witness_DeliveryResult : badName 0x500000007 = false ∧ unitField 0x500000007 = ⟨0, core0⟩ ∧ (unitField 0x2000500000007).u.die = 2 ∧
    (0x600000 : W64).toNat % 2 ^ 36 = 0x60 * 2 ^ 16 ∧ (pairOf id id).me.pres.getLsbD 9 = true ∧ Tbl.find (withMsg 0x500000007).msgs 8 = some (.deliver 3 0x500000007 23 0x77 1 0 0 .zero) ∧
    (withMsg 0x500000007).named 3 0x500000007 = some 2 ∧ (withMsg 0x500000008).named 3 0x500000008 = none ∧
    ((multiDeliver 0 [5, 6] false).strand 1).wait = .mdlv 0x600000 ⟨0, core0⟩ 9 0x88 [5, 6] false 0 ∧ (multiDeliver 0 [5, 6] false).inSlot core0 3 5 = some 2 ∧
    ((multiDeliver 0x200 [5] false).strand 2).pres.getLsbD 9 = true ∧ Claims.WaitedOut (pairOf (fun t => { t with status := .waiting, wait := .waitp 9 12, pres := 0 }) id) 1 (2 ^ 12) := by
  unfold Claims.WaitedOut; decide +kernel

theorem test_delivery : (after (.dlv (.w 5) (.w 1) 23 always) (pairOf id id)).msgs = [(9, .deliver 3 0x500000007 23 7 1 0 0 .zero)] ∧
    (after (.dlv (.w 7) (.w 1) 23 always) (pairOf id id)).fifo 0 (.die 2) = [BufEntry.mk 0 3 (.deliver 0x2000500000007 23 7) .zero none (.strand 1 0x2000500000007) false] ∧
    (after (.mdlv (.w 6) (.w 1) 9 always) (pairOf id id)).me.wait = .mdlv 0x600000 ⟨0, core0⟩ 9 7 [5, 6] false 0 ∧
    ((after (.messageDelivery 8) (withMsg 0x500000007)).strand 2).regs[23] = 0x77 ∧ ((after (.messageDelivery 8) (withMsg 0x500000007)).strand 2).pres = 0x800000 ∧
    ((after (.messageDelivery 8) (withMsg 0x500000008)).unit core0).orph = 1 ∧
    ((after (.mdlvSlotDelivery 1 5) (multiDeliver 0 [5, 6] false)).strand 1).wait = .mdlv 0x600000 ⟨0, core0⟩ 9 0x88 [6] false 0 ∧
    ((after (.mdlvSlotDelivery 1 5) (multiDeliver 0 [5] false)).strand 1).wait = .reply (.mk .wz 0 none 0 none) ∧
    ((after (.mdlvSlotDelivery 1 5) (multiDeliver 0 [5] true)).strand 1).pend = some (0x25, 0x600000) ∧
    ((after (.mdlvSlotDelivery 1 6) (multiDeliver 0 [6] false)).strand 1).pend = some (0x25, 0x600000) ∧
    gives (exec (.mdlvSlotDelivery 1 5) (multiDeliver 0x200 [5] false)) (multiDeliver 0x200 [5] false) := by decide +kernel

theorem test_presence : (after (.waitp 9 12 always) (pairOf id id)).me.pc = 0x1004 ∧ (after (.waitp 9 12 always) (pairOf (fun t => { t with pres := 0 }) id)).me.wait = .waitp 9 12 ∧
    (after (.clrp 9 always) (pairOf id id)).me.pres = 0xFFFDFF ∧
    ((after (.presenceWaitTimeout 1) (pairOf (fun t => { t with status := .waiting, wait := .waitp 9 12, pres := 0 }) id)).strand 1).pend = some (0x27, 9) := by decide +kernel

/-- Mailbox 2 and counter 4 of the bay. -/
def boxed (n : Nat) (b : Mbox) (q : Counter) : State :=
  { (small core0 n (fun t => { t with regs := t.regs.set 5 2 })).modTen 0 0 3 (fun t => { t with mbox := [(2, b)], ctrs := [(4, q)] }) with clock := 2 ^ 20 }

theorem witness_MailboxResult : (boxed 2 Mbox.init Counter.init).mailbox 0 0 3 2 = Mbox.init ∧ ¬ Claims.OnSpindle (boxed 2 Mbox.init Counter.init) ∧
    Claims.InSlot (boxed 15 ⟨true, 7, .init⟩ Counter.init) 15 ∧ (lo64 (boxed 2 Mbox.init ⟨2, [.zero, .zero]⟩).me.regs[5]).toNat = 2 ∧
    (boxed 2 Mbox.init ⟨2, [.zero, .zero]⟩).mwaitOlder 1 4 2 9 = false ∧
    Claims.WaitedOut ({ boxed 2 Mbox.init ⟨1, [.zero]⟩ with strands := [(1, { strandIn core0 2 with status := .waiting, wait := .mwait 4 2 5 })] }) 1 (2 ^ (15 + 5)) := by
  unfold Claims.OnSpindle Claims.InSlot Claims.WaitedOut; decide +kernel

theorem test_mailbox : (after (.mbx (.w 1) 2 always) (boxed 2 Mbox.init Counter.init)).mailbox 0 0 3 2 = ⟨true, 7, ⟨1, 1, .zero⟩⟩ ∧
    (after (.mbx (.w 1) 2 always) (boxed 2 ⟨true, 9, .init⟩ Counter.init)).me.wait = .mbx 2 7 ∧
    (after (.mbr (.w 4) 2 always) (boxed 15 ⟨true, 9, .init⟩ Counter.init)).me.regs[4] = 9 ∧ ((after (.mbr (.w 4) 2 always) (boxed 15 ⟨true, 9, .init⟩ Counter.init)).mailbox 0 0 3 2).full = false ∧
    (after (.mbr (.w 4) 2 always) (boxed 15 Mbox.init Counter.init)).me.wait = .mbr 2 (.w 4) ∧
    (after (.mwait (.w 5) 4 5 always) (boxed 2 Mbox.init ⟨2, [.zero, .zero]⟩)).counter 0 0 3 4 = ⟨0, []⟩ ∧
    (after (.mwait (.w 5) 4 5 always) (boxed 2 Mbox.init ⟨1, [.zero]⟩)).me.wait = .mwait 4 2 5 ∧
    ((after (.mailboxCountTimeout 1) ({ boxed 2 Mbox.init ⟨1, [.zero]⟩ with strands := [(1, { strandIn core0 2 with status := .waiting, wait := .mwait 4 2 5 })] })).strand 1).pend =
      some (0x2D, 4) := by decide +kernel

/-- Tenant 4 is resident beside tenant 3, and has defined tile 5 and opened ring 1. -/
def coTenant (s : State) : State :=
  ((s.modIsland 0 (fun i => { i with resident := [3, 4], cfg := 0x80000000C4000083#64 })).setTile 4 0 0 5 { Tile.init with defd := true }).setRing core0 4 1
    { Ring.init with st := .opened }

/-- Every in-flight record of the core is in use. -/
def noRecord (s : State) : State :=
  { s with strands := s.strands ++ (List.range 32).map (fun k => (100 + k, { strandIn core0 3 with status := .waiting, wait := .mem (opOf .store 1 (.vault 0 0 0) none) })) }

theorem witness_tile_stops : ((coTenant plain).tile 3 0 0 5).defd = false ∧ (∃ k ∈ (coTenant plain).coTenants core0 3, ((coTenant plain).tile k 0 0 5).defd = true) ∧
    (noRecord (tiled 2 .empty 0)).recordRoom core0 = false ∧ 2 ^ 18 < 0x7FF * 128 + (1 + 1) * 128 :=
  ⟨by decide +kernel, ⟨4, by decide +kernel⟩, by decide +kernel⟩

theorem test_tile_stops : gives (exec (.trd (.w 6) 5 always) (coTenant plain)) ((coTenant plain).raise 0x0C 5) ∧
    gives (exec (.trd (.w 6) 5 always) (noRecord (tiled 2 .empty 0))) (noRecord (tiled 2 .empty 0)) ∧
    gives (exec (.twr (.w 6) 5 always) (noRecord (tiled 2 .ready 0))) (noRecord (tiled 2 .ready 0)) := by decide +kernel

/-- A fill from the scratchpad of bay 1; one from a window of an invalid segment; and one that has failed. -/
def fromBay : Fill := { fill0 with src := 0xF0000000040200 }
def fromNowhere : Fill := { fill0 with src := 0xF0200000040200 }

theorem witness_FillReads : Claims.MayRead fromBay 0 ∧ Claims.Filling fromBay ∧ Claims.MayRead { multi0 with open_ := true } 0 ∧
    ((filling fromBay 2).xlate core0 3 fromBay.src 128 .fill).1 = .ok ⟨.spad 0 1 0x200, true, false, false, 18⟩ ∧
    ((filling fromNowhere 2).xlate core0 3 fromNowhere.src 128 .fill).1 = .trap 0x0A ∧ (filling fromNowhere 2).drained 0 false 0 = true := by
  unfold Claims.MayRead Claims.Filling; decide +kernel

theorem test_fill_reads : (after (.fillRead 7 0) (filling fromBay 2)).fills.map (fun f => (f.2.sent, f.2.read, f.2.packets.length)) = [([0], [0], 1)] ∧
    (after (.fillRead 7 0) (filling fromNowhere 2)).fills = [] ∧ ((after (.fillRead 7 0) (filling fromNowhere 2)).tile 3 0 0 5).err = true ∧
    takeEntries [⟨3, 1, []⟩] [⟨3, 2, []⟩] = ([⟨3, 1, []⟩, ⟨3, 2, []⟩], []) ∧
    (takeEntries (List.replicate 32 ⟨3, 0, []⟩) [⟨3, 1, []⟩]).2 = [⟨3, 1, []⟩] := by decide +kernel

/-- Strand 1 waits for the read of a line of the vault at the slice of bay 1 of die 0. -/
def atSlice : State :=
  (accessing core0 { opOf (.load .ub) 1 (.vault 2 1 0x200) none with stage := .slice } id).modUnit ⟨2, 1, true⟩
    (fun c => { c with merge := [⟨3, (Loc.vault 2 1 0x200).line, [⟨.strand 1, false, 0xF0000000040200, 18⟩]⟩] })

theorem witness_slice_load : (atSlice.strand 1).wait = .mem { opOf (.load .ub) 1 (.vault 2 1 0x200) none with stage := .slice } ∧
    (atSlice.unit (spOf 2 1)).merge = ⟨3, (Loc.vault 2 1 0x200).line, [⟨.strand 1, false, 0xF0000000040200, 18⟩]⟩ :: [] ∧
    (vaultLine (Loc.vault 2 1 0x200).line).plus (0xF0000000040200 % 128) = .vault 2 1 0x200 := by decide +kernel

theorem test_slice_load : ((after (.fillReadStep 2 1 0) atSlice).strand 1).wait = .reply (.mk (.w 4) 0 none 0 none) ∧
    ((after (.fillReadStep 2 1 0) atSlice).unit ⟨2, 1, true⟩).merge = [] := by decide +kernel

theorem test_failed_drain : ((after (.tileDrainReady 7) (draining { drain0 with stored := [0], failed := true } 1)).tile 3 0 0 5).err = true ∧
    1 + [0].length = 2 + 0 := by decide +kernel

theorem witness_stream_stops : (ring1 .opened 0x8000 0 0).eos.getLsbD 15 = true ∧ (coTenant (streams Ring.init producer)).ringForeign core0 3 1 = true ∧
    ((streams (ring1 .opened 0 3 4) (fun t => { t with status := .waiting, wait := .pop 1 2 })).strand 1).wait = .pop 1 2 ∧
    (4 + 65536 - 3) % 65536 < 2 ∧ Claims.WaitedOut (streams (ring1 .opened 0 3 4) (fun t => { t with status := .waiting, wait := .pop 1 2 })) 1 (2 ^ 10) := by
  unfold Claims.WaitedOut; decide +kernel

theorem test_stream_stops : gives (exec (.streamPush 1) (streams (ring1 .opened 0x8000 0 0) producer)) (Claims.trapped (streams (ring1 .opened 0x8000 0 0) producer) 1 0x22 1) ∧
    gives (exec (.streamPush 1) (coTenant (streams Ring.init producer))) (Claims.trapped (coTenant (streams Ring.init producer)) 1 0x0C 1) ∧
    ((after (.streamTimeout 1) (streams (ring1 .opened 0 3 4) (fun t => { t with status := .waiting, wait := .pop 1 2 }))).strand 1).pend = some (0x21, 0x400030001) ∧
    gives (exec (.streamPush 1) (linkFailed (streams (ring1 .opened 0 3 3) (fun t => { producer t with oring := ⟨1, ⟨7, core0⟩, 15⟩ })))) (Claims.trapped (linkFailed (streams (ring1 .opened 0 3 3) (fun t => { producer t with oring := ⟨1, ⟨7, core0⟩, 15⟩ }))) 1 0x18 1) := by decide +kernel

/-- An MDLV of strand 1 to slot 5 of a core of die 2, behind a buffered entry, and to slots 5 and 6 of bay 0, of which 6 is free. -/
def farDeliver (f : State → State) : State :=
  f { multiDeliver 0 [5] false with strands := [(1, { deliverRegs (strandIn core0 2) with status := .waiting, wait := .mdlv 0x600000 ⟨0, ⟨2, 0, false⟩⟩ 9 0x88 [5] false 1 }),
                                                 (2, { strandIn ⟨2, 0, false⟩ 5 with pres := 0 })] }

theorem witness_mdlv_stops : ((farDeliver withBuffer).strand 1).wait = .mdlv 0x600000 ⟨0, ⟨2, 0, false⟩⟩ 9 0x88 [5] false 1 ∧
    (∃ e ∈ (farDeliver withBuffer).fifo 0 (.die 2), e.serial < 1) ∧ (farDeliver withBuffer).inSlot ⟨2, 0, false⟩ 3 5 = some 2 ∧
    (multiDeliver 0 [5, 6] false).inSlot core0 3 6 = none ∧ Claims.parkLimit plain 3 = 2 ^ 17 ∧
    Claims.WaitedOut { multiDeliver 0x200 [5] false with clock := 2 ^ 20 } 1 (2 ^ 17 * (4 + 1)) :=
  ⟨by decide +kernel, ⟨entry1, by decide +kernel⟩, by decide +kernel, by decide +kernel, by decide +kernel, by unfold Claims.WaitedOut; decide +kernel⟩

theorem test_mdlv_stops : gives (exec (.mdlvSlotDelivery 1 5) (farDeliver withBuffer)) (farDeliver withBuffer) ∧
    ((after (.mdlvSlotDelivery 1 5) (farDeliver id)).strand 2).regs[9] = 0x88 ∧
    ((after (.mdlvSlotDelivery 1 6) (multiDeliver 0 [5, 6] false)).unit core0).orph = 1 ∧
    ((after (.mdlvSlotDelivery 1 6) (multiDeliver 0 [5, 6] false)).strand 1).wait = .mdlv 0x600000 ⟨0, core0⟩ 9 0x88 [5] true 0 ∧
    ((after (.presenceWaitTimeout 1) { multiDeliver 0x200 [5] false with clock := 2 ^ 20 }).strand 1).pend = some (0x27, 9) ∧
    gives (exec (.presenceWaitTimeout 1) { multiDeliver 0 [5] false with clock := 2 ^ 20 }) { multiDeliver 0 [5] false with clock := 2 ^ 20 } := by decide +kernel

/- Witnesses: counter instances, strands, replies, fields. -/

/-- Descriptor word 0 of an instance of partition 3: valid, package scope, barrier, log2 of its width, owner. -/
def instWord (pk br w : Nat) : W64 := .ofNat 64 (2 ^ 63 + pk * 2 ^ 62 + br * 2 ^ 61 + w * 2 ^ 58 + 3 * 2 ^ 53)

/-- Instances 1 (a counter of width 4, base 100, stride 2) and 2 (a barrier of width 1 and 2 parties); w5 = 1, w6 = 2, w7 = phase 9 with limit 12. -/
def heddleRegs (t : Strand) : Strand := { t with regs := ((t.regs.set 5 1).set 6 2).set 7 0xC00000009 }
def counter1 : Instance := { Instance.init with w0 := instWord 0 0 2 + 2, w1 := 100 }
def barrier2 : Instance := { Instance.init with w0 := instWord 0 1 0, w2 := 2 }
def heddle (f : Strand → Strand) (ts : List Token) (i1 i2 : Instance) : State :=
  { small core0 2 (fun t => f (heddleRegs t)) with insts := [(1, i1), (2, i2)], tokens := ts, clock := 2 ^ 20 }
def hd0 : State := heddle id [] counter1 barrier2
def token0 (inst : Nat) (k : HedKind) (a : TokenAt) : Token := ⟨8, 0, inst, 1, k, 2, ⟨6, 0, 0, 0⟩, a⟩
def inNet (inst : Nat) (k : HedKind) (a : TokenAt) (i1 i2 : Instance) : State :=
  heddle (fun t => { t with status := .waiting, wait := .token 8 k (.w 4) }) [token0 inst k a] i1 i2

theorem witness_HeddleInstructionResult : Claims.MayUse hd0 0 1 (some false) ∧ Claims.MayUse hd0 0 2 (some true) ∧ Claims.MayUse hd0 0 1 none ∧
    hd0.recordRoom (Claims.here hd0) = true ∧ (lo64 hd0.me.regs[7]).toNat = 9 + 12 * 2 ^ 32 ∧
    (Instance.init).w0.toNat / 2 ^ 53 % 32 ≠ hd0.me.tag ∧ 1024 ≤ (lo64 hd0.me.regs[7]).toNat :=
  ⟨⟨rfl, by decide, by decide +kernel, Or.inl (by decide +kernel), fun b h => by cases h; decide +kernel⟩,
   ⟨rfl, by decide, by decide +kernel, Or.inl (by decide +kernel), fun b h => by cases h; decide +kernel⟩,
   ⟨rfl, by decide, by decide +kernel, Or.inl (by decide +kernel), nofun⟩, by decide +kernel⟩

theorem test_heddle_instructions : (after (.cnti (.w 4) (.w 5) always) hd0).tokens = [⟨9, 0, 1, 1, .token, 2, .zero, .wire 0 0 2⟩] ∧
    (after (.cntd (.w 4) (.w 5) always) hd0).me.wait = .token 9 .anti (.w 4) ∧ (after (.cbar (.w 4) (.w 6) always) hd0).tokens.map (·.at_) = [.exit 0 0] ∧
    (after (.cqry (.w 4) (.w 5) always) hd0).me.wait = .query 0 1 true 0 0 0 (.w 4) ∧ (after (.cwait (.w 6) (.w 7) always) hd0).me.wait = .cwait 0 2 9 12 ∧
    gives (exec (.cnti (.w 4) (.w 6) always) hd0) (hd0.raise 0x28 2) ∧ gives (exec (.cnti (.w 4) (.w 1) always) hd0) (hd0.raise 0x0C 7) ∧
    gives (exec (.cqry (.w 4) (.w 7) always) hd0) (hd0.raise 0x01 (wordOf (.cqry (.w 4) (.w 7) always))) := by decide +kernel

theorem witness_HeddleSteps : Claims.InFlight (inNet 1 .token (.wire 0 0 2) counter1 barrier2) 0 1 8 (token0 1 .token (.wire 0 0 2)) ∧
    Claims.InFlight (inNet 1 .anti (.exit 0 3) counter1 barrier2) 0 1 8 (token0 1 .anti (.exit 0 3)) ∧ Claims.Local counter1 ∧ Claims.Local barrier2 ∧
    ((inNet 1 .token (.exit 0 3) counter1 barrier2).strand 1).wait = .token 8 .token (.w 4) ∧ barrier2.w2.toNat % 2 ^ 24 = 2 ∧
    ({ barrier2 with k := [(0, 1)] } : Instance).met 0 0 = false ∧ ({ barrier2 with k := [(0, 2)] } : Instance).met 0 0 = true ∧ ({ barrier2 with k := [(0, 2)] } : Instance).met 0 1 = false ∧
    (heddle id [] counter1 barrier2).fieldsOf 0 2 = [] ∧ barrier2.released 9 = none ∧
    Claims.WaitedOut (heddle (fun t => { t with status := .waiting, wait := .cwait 0 2 9 12 }) [] counter1 barrier2) 1 (2 ^ 12) ∧
    (instWord 0 0 5).toNat / 2 ^ 32 % 2 ^ 21 = 0 ∧ (instWord 0 0 5).toNat / 2 ^ 58 % 8 ≤ 5 := by
  unfold Claims.InFlight Claims.Local Claims.WaitedOut; decide +kernel

theorem test_heddle_steps : (after (.heddleStep 0 1 8) (inNet 1 .token (.wire 0 0 2) counter1 barrier2)).tokens.map (·.at_) = [.wire 0 1 2] ∧
    (after (.heddleStep 0 1 8) (inNet 1 .token (.wire 0 0 2) { counter1 with tog := [1] } barrier2)).tokens.map (·.at_) = [.wire 0 1 3] ∧
    (after (.heddleStep 0 1 8) (inNet 1 .anti (.wire 0 2 2) counter1 barrier2)).tokens.map (·.at_) = [.exit 0 3] ∧
    ((after (.exitStep 0 1 8) (inNet 1 .token (.exit 0 3) { counter1 with k := [(3, 2)] } barrier2)).strand 1).wait = .reply (.mk (.w 4) (122 + 11 * 2 ^ 64) none 0 none) ∧
    ((after (.exitStep 0 1 8) (inNet 1 .anti (.exit 0 3) { counter1 with k := [(3, 2)] } barrier2)).strand 1).wait = .reply (.mk (.w 4) (114 + 7 * 2 ^ 64) none 0 none) ∧
    (after (.exitStep 0 1 8) (inNet 1 .anti (.exit 0 3) counter1 barrier2)).tokens.map (·.at_) = [.parked 0 3] ∧
    ((after (.exitStep 0 2 8) (inNet 2 .arrive (.exit 0 0) counter1 barrier2)).strand 1).wait = .reply (.mk (.w 4) 0 none 0 none) ∧
    ((after (.exitStep 0 2 8) (inNet 2 .arrive (.exit 0 0) counter1 { barrier2 with k := [(0, 1)] })).inst 0 2).lrp = 1 ∧
    ((after (.barrierTimeout 1) (heddle (fun t => { t with status := .waiting, wait := .cwait 0 2 9 12 }) [] counter1 barrier2)).strand 1).pend = some (0x2B, 0x2402) ∧
    ((after (.counterDescriptorWrite 3 0 1 0 (instWord 0 0 5) .full) (heddle id [] { counter1 with k := [(0, 4)] } barrier2)).inst 0 1) = { counter1 with w0 := instWord 0 0 5, entered := 1 } ∧
    gives (exec (.counterDescriptorWrite 4 0 1 0 0 .full) hd0) (hd0.emit (.refused 0x0C 1)) ∧
    gives (exec (.counterDescriptorWrite 3 0 1 0 (instWord 1 0 5) .full) hd0) (hd0.emit (.refused 0x29 1)) := by decide +kernel

/-- Strand 2 of partition 3 in a slot, as given; w5 = 0x2000 (an entry), w6 = 2, w7 the spindle of bay 1. -/
def strandRegs (t : Strand) : Strand := { t with regs := ((t.regs.set 5 0x2000).set 6 2).set 7 0x3000000000 }
def crew (n : Nat) (f : Strand → Strand) (others : List (Nat × Strand)) : State :=
  { small core0 n (fun t => f (strandRegs t)) with strands := (1, f (strandRegs (strandIn core0 n))) :: others }
def stopped2 : Strand := { strandIn core0 2 with status := .stopped, exitw := 0x99 }

theorem witness_StrandInstructionResult : Claims.InSlot (crew 0 id [(2, strandIn core0 1)]) 0 ∧ Tbl.find (crew 0 id [(2, strandIn core0 1)]).strands 9 = none ∧
    (lo64 (0x2000 : W128)).toNat < 2 ^ 56 ∧ (∀ m, 1 ≤ m → m ≤ 2 → ((crew 0 id [(2, strandIn core0 1)]).inSlot core0 3 m = none ↔ m = 2)) ∧
    (crew 0 id []).inSlot core0 3 15 = none ∧ (crew 0 id [(2, strandIn core0 15)]).inSlot core0 3 15 ≠ none ∧ (crew 0 id [(2, stopped2)]).inSlot core0 3 2 = some 2 ∧
    ((crew 0 id [(2, stopped2)]).strand 2).status = .stopped ∧ (crew 2 id []).me.launch = none ∧ (unitField 0x3000000000).u = ⟨0, 1, true⟩ ∧
    (crew 2 id []).ownsBay 3 0 1 = true ∧ (0x3000000000 : W64).toNat % 2 ^ 36 = 0 := by
  refine ⟨by unfold Claims.InSlot; decide +kernel, by decide +kernel, by decide, fun m h1 h2 => ?_, by decide +kernel⟩
  obtain rfl | rfl : m = 1 ∨ m = 2 := by omega
  · decide +kernel
  · decide +kernel

theorem test_spawn : (after (.spawnFollow (.w 4) (.w 5) (.w 6) always) (crew 0 id [(2, strandIn core0 1)])).me.wait = .reply (.mk (.w 4) 0x200000001 none 0 none) ∧
    ((after (.spawnFollow (.w 4) (.w 5) (.w 6) always) (crew 0 id [(2, strandIn core0 1)])).strand 9).regs[0] = 2 ∧
    ((after (.spawnFollow (.w 4) (.w 5) (.w 6) always) (crew 0 id [(2, strandIn core0 1)])).strand 9).pc = 0x2000 ∧
    ((after (.spawnShuttle (.w 4) (.w 5) (.w 6) always) (crew 0 id [])).strand 9).place = .slot core0 15 ∧
    (after (.spawnShuttle (.w 4) (.w 5) (.w 6) always) (crew 0 id [(2, strandIn core0 15)])).me.wait = .spawn15 0x2000 2 (.w 4) ∧
    gives (exec (.spawnPos (.w 4) (.w 5) (.w 6) always) (crew 0 id [])) ((crew 0 id []).raise 0x3B 0) ∧
    gives (exec (.spawnBound (.w 4) (.w 6) (.w 6) always) (crew 0 id [])) ((crew 0 id []).raise 0x09 2) := by decide +kernel

theorem test_strand_instructions : (after (.reap (.w 4) (.w 6) always) (crew 0 id [(2, stopped2)])).me.regs[4] = 0x99 ∧
    ((after (.reap (.w 4) (.w 6) always) (crew 0 id [(2, stopped2)])).strands.map (·.1)) = [1] ∧ (after (.reap (.w 4) (.w 6) always) (crew 0 id [])).me.regs[4] = 0 ∧
    (after (.reap (.w 4) (.w 6) always) (crew 0 id [(2, strandIn core0 2)])).me.wait = .reap 2 (.w 4) ∧ (after (.stop (.w 6) always) (crew 2 id [])).me.status = .stopped ∧
    (after (.stop (.w 6) always) (crew 2 id [])).me.exitw = 2 ∧ (after (.migr (.w 7) always) (crew 2 (fun t => { t with kind := .follow }) [])).me.leaving = some ⟨⟨0, 1, true⟩, 0⟩ ∧
    (after (.widf (.w 4) (.w 5) 1 always) (crew 2 (fun t => { t with wid := 0x10C }) [])).me.regs[4] = 2 ∧ (after (.slotid (.w 4) always) (crew 2 id [])).me.regs[4] = 0x200000007 := by decide +kernel

/-- Strand 1 is marked to depart; it is on its way to the spindle of bay 1; its quantum has ended with strand 2 in the creel. -/
def leavingFor (u : UnitId) (f : State → State) : State := f (small core0 2 (fun t => { t with leaving := some ⟨u, 1⟩ }))
def onItsWay (d : Nat) : State :=
  { small core0 2 (fun t => { t with place := .transit 8, gen := 65536, ord := ⟨5, ⟨0, 6, 0, 0⟩, .zero, .zero⟩ }) with msgs := [(8, .migrate 1 d ⟨0, 1, true⟩)] }
def quantumOver (f : Strand → Strand) : State := withCreel (fun t => f { t with yielded := true })

theorem witness_StrandMovement : ((leavingFor core1 id).strand 1).leaving = some ⟨core1, 1⟩ ∧ (leavingFor core1 id).handlesAt core0 3 2 = [] ∧
    (leavingFor ⟨2, 0, true⟩ withBuffer).drained 0 false 1 = false ∧ (leavingFor ⟨2, 0, true⟩ id).drained 0 false 1 = true ∧
    Tbl.find (onItsWay 0).msgs 8 = some (.migrate 1 0 ⟨0, 1, true⟩) ∧ (∀ m ≤ 0, (onItsWay 0).inSlot ⟨0, 1, true⟩ 3 m = none ↔ m = 0) ∧
    (quantumOver id).creelOf core0 3 = 2 :: [] ∧ ((quantumOver id).strand 1).yielded = true ∧ ((quantumOver id).strand 2).tag = ((quantumOver id).strand 1).tag := by decide +kernel

theorem test_movement : gives (exec (.migrationDepart 1) (leavingFor core0 id)) (small core0 2 id) ∧
    ((after (.migrationDepart 1) (leavingFor core1 id)).strand 1).place = .transit 9 ∧ Tbl.find (after (.migrationDepart 1) (leavingFor core1 id)).msgs 9 = some (.migrate 1 0 core1) ∧
    gives (exec (.migrationDepart 1) (leavingFor ⟨2, 0, true⟩ withBuffer)) (leavingFor ⟨2, 0, true⟩ withBuffer) ∧
    ((after (.migrationLanding 8) (onItsWay 0)).strand 1).place = .slot ⟨0, 1, true⟩ 0 ∧ ((after (.migrationLanding 8) (onItsWay 0)).strand 1).gen = 1 ∧
    ((after (.migrationLanding 8) (onItsWay 1)).strand 1).ord = ⟨0, ⟨0, 6, 0, 0⟩, .zero, .zero⟩ ∧
    ((after (.creelQuantumEnd 1) (quantumOver id)).strand 2).place = .slot core0 2 ∧ (after (.creelQuantumEnd 1) (quantumOver id)).creelOf core0 3 = [1] ∧
    (after (.creelQuantumEnd 1) (quantumOver (fun t => { t with irv := true }))).creelOf core0 3 = [2] := by decide +kernel

/-- Strand 1 waits. -/
def waiting (w : Wait) (f : State → State) : State := f (small core0 2 (fun t => { t with status := .waiting, wait := w }))

theorem witness_ReplyResult : (waiting .sfu id).present 1 = true ∧ ((waiting .sfu id).strand 1).status = .waiting ∧
    ((waiting (.tile 5) (fun s => s.setTile 3 0 0 5 { Tile.init with st := .ready })).tile 3 0 0 5).st = .ready ∧
    ((waiting (.pop 1 1) (fun s => s.setRing core0 3 1 (ring1 .opened 0 3 4))).ring core0 3 1).st = .opened ∧
    ((waiting (.cwait 0 2 9 12) (fun s => { s with insts := [(2, { barrier2 with lrp := 10 })] })).inst 0 2).lrp = 10 ∧ (10 + 2 ^ 32 - 9) % 2 ^ 32 ≤ 2 ^ 31 ∧
    2 ^ 31 < (8 + 2 ^ 32 - 9) % 2 ^ 32 := by decide +kernel

theorem test_reply : (after (.operationReply 1) (waiting (.reply (.mk (.w 4) 5 none 0x80 none)) id)).me.regs[4] = 5 ∧
    (after (.operationReply 1) (waiting (.tile 5) (fun s => s.setTile 3 0 0 5 { Tile.init with st := .ready }))).me.status = .ready ∧
    gives (exec (.operationReply 1) (waiting (.tile 5) (fun s => s.setTile 3 0 0 5 { Tile.init with st := .filling }))) (waiting (.tile 5) (fun s => s.setTile 3 0 0 5 { Tile.init with st := .filling })) ∧
    (after (.operationReply 1) (waiting (.pop 1 1) (fun s => s.setRing core0 3 1 (ring1 .opened 0 3 4)))).me.status = .ready ∧
    (after (.operationReply 1) (waiting (.cwait 0 2 9 12) (fun s => { s with insts := [(2, { barrier2 with lrp := 10 })] }))).me.pc = 0x1004 ∧
    gives (exec (.operationReply 1) (waiting (.cwait 0 2 9 12) (fun s => { s with insts := [(2, { barrier2 with lrp := 9 })] }))) (waiting (.cwait 0 2 9 12) (fun s => { s with insts := [(2, { barrier2 with lrp := 9 })] })) ∧
    gives (exec (.operationReply 1) (waiting .sfu id)) (waiting .sfu id) := by decide +kernel

/-- A field with halo width 1, cell banks of 4 at 0x1000, halo banks of 4 at 0x1800, barrier 2 and 2 strands; phase 1. Strand 1 is its second entry, at
(0.5, 0.5), and the first is at (1, 0.5). -/
def fieldWords : List W64 :=
  [.ofNat 64 (2 ^ 63 + 2 * 2 ^ 56 + 1 * 2 ^ 50 + 1 * 2 ^ 44 + 2 * 2 ^ 26), 0, 0, 0x0002000000020000, 0x0000000000010000,
   .ofNat 64 (0x100 * 2 ^ 18 + 4 * 2 ^ 8 + 12 * 2 ^ 3), .ofNat 64 (0x180 * 2 ^ 50 + 4 * 2 ^ 40 + 2 * 2 ^ 27 + 2 * 2 ^ 3), 0]
def boxes : List FieldBay := [{ boxOf 0 0 with cnt0 := 2, ovf := true }, boxOf 1 0x20000]
def field1 : Machine.Field := ⟨true, 3, 0, fieldWords, boxes, [], [], 1⟩
def settledIn (f : Strand → Strand) : State :=
  { small core0 2 (fun t => f { t with kind := .pos, regs := (t.regs.set 23 0x0000800000008000).set 5 0x10000, settled := [(0, 0x200000007)] }) with
    fields := [(5, field1)], insts := [(2, barrier2)]
    mem := (Memory.writeBytes [] (spadKey 0 0 0x1000) (leBytes 16 0x0000800000010000)).writeBytes (spadKey 0 0 0x1020) (leBytes 16 0x0000800000008000 ++ leBytes 8 0x200000007) }

theorem witness_FieldInstructionResult : (settledIn id).fieldAt 3 0 0 = some (5, field1) ∧ (settledIn id).me.place = .slot core0 2 ∧
    (settledIn id).settledEntry 1 = some (field1, { boxOf 0 0 with cnt0 := 2, ovf := true }, 0, 1) ∧ (settledIn (fun t => { t with settled := [] })).settledEntry 1 = none ∧
    field1.halo = 0x10000 ∧ (settledIn id).neighbours field1 { boxOf 0 0 with cnt0 := 2, ovf := true } 0 1 0x10000 = [0x0000800000010000] ∧
    (settledIn id).neighbours field1 { boxOf 0 0 with cnt0 := 2, ovf := true } 0 1 0x7FFF = [] ∧
    Claims.inside field1 { boxOf 0 0 with cnt0 := 2, ovf := true } (Claims.coords (settledIn id).me.regs[23]) ∧ field1.bi = 2 ∧
    (∀ c ∈ field1.bays, Claims.inside field1 c (Claims.coords 0x20000) ↔ c = boxOf 1 0x20000) := by
  unfold Claims.inside; decide +kernel

theorem witness_InField : Claims.InField (settledIn id) 5 field1 := ⟨rfl, by decide +kernel, 2, rfl⟩

theorem witness_FieldInstructionResult_settle : Claims.MayUse (settledIn id) 0 2 (some true) :=
  ⟨rfl, by decide, by decide +kernel, Or.inl (by decide +kernel), fun b h => by cases h; decide +kernel⟩

theorem test_field_instructions : (after (.fmap (.w 4) (.w 23) always) (settledIn (fun t => { t with regs := t.regs.set 23 0x20000 }))).me.wait = .reply (.mk (.w 4) 0x2000000000 none 0 none) ∧
    gives (exec (.fmap (.w 4) (.w 2) always) (settledIn id)) ((settledIn id).raise 0x38 0xFFFFFFFFFFFFFFFD) ∧
    (after (.posr (.w 4) always) (settledIn id)).me.wait = .reply (.mk (.w 4) 0x0000800000008000 none 0 none) ∧
    gives (exec (.posr (.w 4) always) (settledIn (fun t => { t with settled := [] }))) ((settledIn (fun t => { t with settled := [] })).raise 0x3B 0) ∧
    (after (.settle always) (settledIn id)).me.wait = .token 9 (.settle 1 12 false) .wz ∧ ((after (.settle always) (settledIn id)).inst 0 2).entered = 1 ∧
    ((after (.settle always) (settledIn id)).fields.map (fun f => f.2.bays.map (fun b => (b.cnt0, b.cnt1)))) = [[(2, 1), (0, 0)]] := by decide +kernel

/-- The cursor of slot 2 is made. -/
def settledCursor (c : List W128) : State :=
  (settledIn (fun t => { t with preds := 0x8001 })).modTen 0 0 3 (fun b => { b with cursors := [(2, c)] })

theorem test_neighbours_none : (after (.nbrNext (.w 4) always) (settledCursor [])).me.wait = .reply (.mk (.w 4) 0 (some 1) 0 none) := by
  decide +kernel

/- Witnesses: heddle refusals and queries, a SETTLE in flight, landings at a core and in a creel, cursors. -/

/-- 64 strands of the core hold in-flight records (R29). -/
def recordsFull : State :=
  { hd0 with strands := (1, heddleRegs (strandIn core0 2)) :: (List.range 64).map (fun i =>
      (10 + i, { strandIn core0 1 with status := .waiting, wait := .token (100 + i) .token .wz })) }

theorem witness_HeddleInstruction_refused : Claims.Refuses hd0 0 2 (some false) 0x28 ∧ Claims.Refuses hd0 0 1 (some true) 0x28 ∧ Claims.Refuses hd0 0 7 none 0x0C ∧
    recordsFull.recordRoom (Claims.here recordsFull) = false ∧ Claims.MayUse recordsFull 0 1 (some false) ∧ (0 : W128).toNat < 2 ^ 37 :=
  ⟨Or.inr ⟨Or.inl (by decide +kernel), rfl, Or.inr ⟨false, rfl, by decide +kernel⟩⟩, Or.inr ⟨Or.inl (by decide +kernel), rfl, Or.inr ⟨true, rfl, by decide +kernel⟩⟩,
   Or.inl (by decide +kernel), by decide +kernel, ⟨rfl, by decide, by decide +kernel, Or.inl (by decide +kernel), fun b h => by cases h; decide +kernel⟩, by decide⟩

theorem test_heddle_refusals : gives (exec (.cwait (.w 5) (.w 7) always) hd0) (hd0.raise 0x28 1) ∧ gives (exec (.cbar (.w 4) (.w 5) always) hd0) (hd0.raise 0x28 1) ∧
    gives (exec (.cntd (.w 4) (.w 5) always) recordsFull) recordsFull := by decide +kernel

/-- A query of instance 1 that has swept `m` exits with a sum of 5; the exits have 2, 0, 1 and 0 counts. -/
def querying (m : Nat) : State :=
  heddle (fun t => { t with status := .waiting, wait := .query 0 1 true 0 m 5 (.w 4) }) [] { counter1 with k := [(0, 2), (2, 1)] } barrier2

theorem witness_HeddleSteps_query : ((querying 2).strand 1).wait = .query 0 1 true 0 2 5 (.w 4) ∧ ((querying 2).strand 1).status = .waiting ∧
    (∀ w, ((querying 2).strand 1).place ≠ .creel w) ∧ 2 < ((querying 2).inst 0 1).width ∧ 4 = ((querying 4).inst 0 1).width ∧ ((querying 4).inst 0 1).entered = 0 ∧
    (querying 4).tokens = [] := ⟨by decide +kernel, by decide +kernel, fun _ => nofun, by decide +kernel⟩

theorem test_query : ((after (.operationReply 1) (querying 2)).strand 1).wait = .query 0 1 true 0 3 6 (.w 4) ∧
    (after (.operationReply 1) (querying 4)).me.regs[4] = 0x8000000000000005 ∧ (after (.operationReply 1) (querying 4)).me.pc = 0x1004 := by decide +kernel

/-- An arrival that SETTLE made in phase 1 stands at its exit. -/
def settling : State :=
  heddle (fun t => { t with status := .waiting, wait := .token 8 (.settle 1 12 false) .wz }) [token0 2 (.settle 1 12 false) (.exit 0 0)] counter1 barrier2

theorem witness_HeddleSteps_settle : Claims.InFlight settling 0 2 8 (token0 2 (.settle 1 12 false) (.exit 0 0)) ∧ Claims.Local barrier2 ∧
    (0 + barrier2.width * Tbl.get 0 barrier2.k 0) / 2 < barrier2.lrp + 16 ∧ (settling.strand 1).wait = .token 8 (.settle 1 12 false) .wz := by
  unfold Claims.InFlight Claims.Local; decide +kernel

theorem test_settle_arrives : ((after (.exitStep 0 2 8) settling).strand 1).wait = .settle 2 1 12 false ∧
    ((after (.exitStep 0 2 8) settling).strand 1).since = 2 ^ 20 := by decide +kernel

/-- A strand on its way to the core of bay 1, slot 1 of which another has; or all of whose slots others have. -/
def toCore (full : Bool) : State :=
  let s := { small core0 2 (fun t => { t with place := .transit 8, gen := 65536, ord := ⟨5, ⟨0, 6, 0, 0⟩, .zero, .zero⟩ }) with
    msgs := [(8, .migrate 1 0 core1)], parts := [(3, { Part.init with crvlt := 4 })] }
  { s with strands := s.strands ++ (if full then [1, 2, 3, 4, 5, 6, 7, 8, 9, 10, 11, 12, 13, 14] else [1]).map (fun n => (10 + n, strandIn core1 n)) }

theorem witness_StrandMovement_core : 2 ∈ Claims.landingSlots (toCore false) core1 3 ∧
    (∀ m ∈ Claims.landingSlots (toCore false) core1 3, m ≤ 2 → ((toCore false).inSlot core1 3 m = none ↔ m = 2)) ∧
    (∀ m ∈ Claims.landingSlots (toCore true) core1 3, (toCore true).inSlot core1 3 m ≠ none) ∧
    ((toCore true).creelOf core1 3).length < (toCore true).creelRoom core1 3 := by decide +kernel

theorem test_landing_core : ((after (.migrationLanding 8) (toCore false)).strand 1).place = .slot core1 2 ∧
    ((after (.migrationLanding 8) (toCore true)).strand 1).place = .creel core1 ∧ (after (.migrationDepart 1) (leavingFor core1 (fun s => s.modStrand 1 (fun t => { t with irv := true })))).me.place = .slot core0 2 ∧
    (after (.migr (.w 7) always) (crew 2 (fun t => { t with kind := .follow, irv := true, iring := 3 }) [])).me.pend = none := by decide +kernel

theorem witness_NbrNext : (settledCursor [0x55]).cursorOf 1 = some [0x55] ∧ (settledCursor [0x55]).me.kind = .pos ∧ (settledIn id).cursorOf 1 = none := by decide +kernel

theorem test_neighbour_next : exec (.nbrNext (.w 4) always) (settledIn id) = .next ((settledIn id).raise 0x3B 0) := next_of (by decide +kernel)

/- Witnesses: heddles and phases, exhausted counters, antitokens of held strands, halves in rotation. -/

/-- A held strand's record. -/
def held0 : Held := { seq := some 4, evt := 0, cause := 0x22, value := 5, pc := 0x1004, sts := 0, cycle := 8, upto := 0 }
/-- A token of strand 1 at exit 3 of an instance, as `inNet` has it, and the strand as given. -/
def atExit (k : HedKind) (i1 : Instance) (f : Strand → Strand) : State :=
  heddle (fun t => f { t with status := .waiting, wait := .token 8 k (.w 4) }) [token0 1 k (.exit 0 3)] i1 barrier2

theorem witness_CounterExhaustion : Claims.InFlight (atExit .anti { counter1 with exh := true } id) 0 1 8 (token0 1 .anti (.exit 0 3)) ∧
    Tbl.get 0 ({ counter1 with k := [(3, 2 ^ 43 - 1)] } : Instance).k (32 * 0 + 3) = 2 ^ 43 - 1 ∧ ((atExit .anti { counter1 with exh := true } id).strand 1).held = none ∧
    ((atExit .anti { counter1 with exh := true } id).strand 1).wait = .token 8 .anti (.w 4) := by unfold Claims.InFlight; decide +kernel

theorem test_counter_exhaustion : ((after (.exitStep 0 1 8) (atExit .token { counter1 with k := [(3, 2 ^ 43 - 1)] } id)).strand 1).pend = some (0x2A, 1) ∧
    ((after (.exitStep 0 1 8) (atExit .token { counter1 with k := [(3, 2 ^ 43 - 1)] } id)).inst 0 1).exh = true ∧
    ((after (.exitStep 0 1 8) (atExit .anti { counter1 with exh := true, k := [(3, 2)] } id)).strand 1).pend = some (0x2A, 1) ∧
    ((after (.exitStep 0 1 8) (atExit .token { counter1 with k := [(3, 2 ^ 43 - 2)] } id)).strand 1).pend = none := by decide +kernel

theorem test_held_antitoken : ((after (.exitStep 0 1 8) (atExit .anti { counter1 with k := [(3, 2)] } (fun t => { t with held := some held0 }))).strand 1).regs[4] =
    114 + 7 * 2 ^ 64 := by decide +kernel

theorem test_phases : (heddleAt 2 5).1 = 2 ∧ Claims.partner 2 5 = 4 ∧ ({ barrier2 with k := [(0, 3)] } : Instance).met 0 0 = true ∧
    ({ barrier2 with w0 := instWord 1 1 0, w2 := 3, k := [(0, 1), (32, 1)] } : Instance).met 0 0 = false ∧
    ({ barrier2 with w0 := instWord 1 1 0, w2 := 3, k := [(0, 1), (32, 1), (64, 1)] } : Instance).met 0 0 = true := by decide +kernel

/-- Strand 1 is in rotation with a half of its access of 16 bytes left. -/
def halved (act : MemAct) (hi : Bool) (fst : List Byte) (bad : List Nat) : State :=
  { small core0 2 (fun t => { t with wait := .mem (opOf act 16 (.spad 0 0 0x800) (some (hi, fst))) }) with poison := bad }

theorem witness_SecondHalfInRotation : ((halved (.load .q) true (List.replicate 8 1) []).strand 1).status = .ready ∧ Claims.halfAt (.spad 0 0 0x800) false = .spad 0 0 0x800 ∧
    (Loc.spad 0 0 0x800).die? = some ((halved (.load .q) true (List.replicate 8 1) []).unitOf 1).die ∧ Claims.HasKey (halved .store true [] []) 3 (.spad 0 0 0x800) (spadKey 0 0 0x800) ∧
    (halved (.load .q) true (List.replicate 8 1) [spadKey 0 0 0x800 / 8]).badAt 3 (.spad 0 0 0x800) 8 = true := by unfold Claims.HasKey; decide +kernel

theorem test_half_in_rotation : ((after (.homeAccess 1) (halved (.load .q) true (List.replicate 8 1) [])).strand 1).regs[4] = 0x01010101010101010000000000000000 ∧
    ((after (.homeAccess 1) (halved (.load .q) true (List.replicate 8 1) [])).strand 1).pc = 0x1004 ∧ ((after (.homeAccess 1) (halved (.load .q) true (List.replicate 8 1) [])).strand 1).wait = .none ∧
    (after (.homeAccess 1) (halved .store true [] [])).mem.readBytes (spadKey 0 0 0x800) 2 = [0x10, 0x0F] ∧
    ((after (.homeAccess 1) (halved (.load .q) true (List.replicate 8 1) [spadKey 0 0 0x800 / 8])).strand 1).pend = some (0x40, 0xF0000000040200) := by decide +kernel

/- Witnesses: job cards. -/

/-- Words in memory from a key up. -/
def wordsAt (m : Memory) (k : Nat) (ws : List W64) : Memory := m.writeBytes k (ws.flatMap (fun w => leBytes 8 w.toNat))

/-- A copy card: channel 2 of engine 1 of a die, 32 bytes from 0x12340000 to 0x12340170, with one region that is read and written; a load card. -/
def copyCard (die : Nat) : List W64 :=
  [.ofNat 64 (2 * 2 ^ 59 + 1 * 2 ^ 55 + die * 2 ^ 53), 0x12340000, 0x12340170, 32, 0, 0, 0, 0, 0x12340000, 0xC000000000001000, 0, 0, 0, 0, 0, 0]
def loadCard : List W64 := [.ofNat 64 (1 * 2 ^ 62), 0, 0, 0, 0x2000, 0x77, 0, 0, 0, 0, 0, 0, 0, 0, 0, 0]

/-- The card stands at 0x800 of the own scratchpad; w5 points at it, w6 = 9, w7 = 10 × 2^32, w8 names channel 10 of die 0. -/
def jobRegs (t : Strand) : Strand := { t with regs := (((t.regs.set 5 0x800).set 6 9).set 7 0x0C00000009).set 8 0xA00000000 }
def posting (n : Nat) (ws : List W64) (cards : Tbl Card) (f : Strand → Strand) : State :=
  { small core0 n (fun t => f (jobRegs t)) with mem := wordsAt [] (spadKey 0 0 0x800) ws, cards := cards, clock := 5000 }

/-- The card as the spec's table describes it, posted or not. -/
def copied (die : Nat) : Card := Claims.tableCard 3 0 0 (copyCard die)

theorem witness_JobInstructionResult : (posting 2 (copyCard 0) [] id).handleOf 1 4 = none ∧ (lo64 (regz (posting 2 (copyCard 0) [] id).me (.w 5))).toNat = 0x800 ∧
    cardOk (copyCard 0) = true ∧ cardOk (copyCard 1) = true ∧ cardOk loadCard = true ∧ Claims.cardBits loadCard 0 62 2 = 1 ∧ (posting 2 loadCard [] id).ownsBay 3 0 0 = true ∧
    (copied 0).die = 0 ∧ (copied 1).die = 1 := by decide +kernel

theorem witness_JobInstructionResult_words : Claims.OwnWords (posting 2 (copyCard 0) [] id) 0x800 16 (copyCard 0) := by
  unfold Claims.OwnWords; decide +kernel

theorem test_job : (after (.job (.w 5) always) (posting 2 (copyCard 0) [] id)).me.wait = .reply (.mk (.w 5) 0xA00000000 none 0 none) ∧
    Tbl.find (after (.job (.w 5) always) (posting 2 (copyCard 0) [] id)).cards 9 = some { copied 0 with posted := true } ∧
    ((after (.job (.w 5) always) (posting 2 (copyCard 0) [] id)).chan 10).next = 1 ∧
    (after (.forkCopy (.w 5) (.w 6) 4 always) (posting 2 (copyCard 0) [] id)).handleOf 1 4 = some 9 ∧
    (after (.forkLoad (.w 5) (.w 6) 4 always) (posting 2 loadCard [] id)).handleOf 1 4 = some 9 ∧
    ((after (.forkLoad (.w 5) (.w 6) 4 always) (posting 2 loadCard [] id)).cards.map (fun c => (c.2.kind, c.2.w1, c.2.pentry))) = [(.load, 9, 0x2000)] ∧
    ((after (.job (.w 5) always) (posting 2 (copyCard 1) [] id)).me.wait = .post (.job (.w 5)) 9 0) ∧
    gives (exec (.forkStore (.w 5) (.w 6) 4 always) (posting 2 loadCard [] id)) (((posting 2 loadCard [] id).ownBytes 0x800 2).2.2.raise 0x4E 0x800) := by decide +kernel

/-- A job of handle 4 in a state of completion; a post under way; a wait for transfer 0 of channel 10. -/
def joined (cs : Option V4) : State := (posting 2 [] [(7, { copied 0 with posted := true, cs := cs })] id).modTen 0 0 3 (fun t => { t with handles := [(2, [(4, 7)])] })
def postWait (f : State → State) : State := f (posting 2 [] [(7, copied 1)] (fun t => { t with status := .waiting, wait := .post (.job (.w 5)) 7 1 }))
def transferWait (c : Chan) : State := { posting 2 [] [] (fun t => { t with status := .waiting, wait := .xwait 10 0 12 }) with chans := [(10, c)] }

theorem witness_JobInstructionResult_waits : (joined none).handleOf 1 4 = some 7 ∧ ((joined none).strand 1).place = .slot core0 2 ∧
    ((postWait id).strand 1).wait = .post (.job (.w 5)) 7 1 ∧ (postWait withBuffer).drained 0 false 1 = false ∧ (postWait id).drained 0 false 1 = true ∧
    (lo64 (regz (posting 2 [] [] id).me (.w 8))).toNat = 10 * 2 ^ 32 ∧ (lo64 (regz (posting 2 [] [] id).me (.w 7))).toNat = 9 + 12 * 2 ^ 32 ∧
    Claims.TransferDone ⟨1, 1, 0, 0, [⟨6, 0, 2, 0⟩]⟩ 0 ∧ ¬ Claims.TransferDone ⟨1, 0, 0, 0, []⟩ 0 ∧ (transferWait ⟨1, 1, 0, 0, []⟩).present 1 = true ∧
    Claims.WaitedOut (transferWait ⟨1, 0, 0, 0, []⟩) 1 (2 ^ 12) := by
  unfold Claims.TransferDone Claims.WaitedOut; decide +kernel

theorem test_join : (after (.rdv 4 always) (joined none)).me.wait = .rdv 4 ∧ (after (.rdv 4 always) (joined (some ⟨6, 0, 0, 0⟩))).me.ord.pts = 6 ∧
    (after (.rdv 4 always) (joined (some ⟨6, 0, 0, 0⟩))).handleOf 1 4 = none ∧ (after (.rdv 5 always) (joined none)).me.pc = 0x1004 ∧
    gives (exec (.deviceRelease (.strand 1)) (postWait withBuffer)) (postWait withBuffer) ∧
    ((after (.deviceRelease (.strand 1)) (postWait id)).cards.map (fun c => (c.2.posted, c.2.xid))) = [(true, 0)] ∧
    (after (.xid (.w 8) (.w 6) always) { posting 2 [] [] id with chans := [(10, ⟨5, 4, 3, 2, []⟩)] }).me.wait = .reply (.mk (.w 6) 0x00000002000000030000000500000004 none 0 none) ∧
    (after (.xwait (.w 8) (.w 7) always) (posting 2 [] [] id)).me.wait = .xwait 10 9 12 ∧
    ((after (.operationReply 1) (transferWait ⟨1, 1, 0, 0, [⟨6, 0, 2, 0⟩]⟩)).strand 1).ord = ⟨6, ⟨0, 0, 2, 0⟩, .zero, .zero⟩ ∧
    ((after (.transferWaitTimeout 1) (transferWait ⟨1, 0, 0, 0, []⟩)).strand 1).pend = some (0x4D, 0xA00000000) := by decide +kernel

/-- Card 7 as it stands, with the page of 0x12340000 in the TLB of its engine's cluster. -/
def jobState (c : Card) (cards : Tbl Card) : State :=
  { plain with cards := (7, c) :: cards, mem := [(vaultKey 0 0 0, 0x5A)], parts := [(3, { Part.init with xtb := 1 })] }.modCluster 0 (clusterOf 16)
    (fun u => { u with tlb := [⟨3, 3, 0x1234, leaf0⟩] })
def begun (e : Tbl Elem) : Card := { copied 0 with posted := true, started := true, elems := e }
def program (x : Option Nat) : Card := { Claims.tableCard 3 0 9 loadCard with posted := true, started := true, strand := x }

theorem witness_JobSteps : Tbl.find (jobState { copied 0 with posted := true, preds := [8] } [(8, begun [])]).cards 8 = some (begun []) ∧
    Claims.ElementOf (begun []) 0 0 16 ∧ Claims.ElementOf (begun []) 1 16 16 ∧ (begun []).unit = coreOf 0 16 ∧
    ((jobState (begun []) []).engineXlate (coreOf 0 16) 3 0x12340000 16 .copy).1 = .ok ⟨.vault 0 0 0, true, false, false, 16⟩ ∧
    ((jobState (begun []) []).engineXlate (coreOf 0 16) 3 0x12340180 16 .copyWrite).1 = .ok ⟨.vault 0 0 0x180, true, false, false, 16⟩ ∧
    Claims.HasKey (jobState (begun []) []) 3 (.vault 0 0 0) (vaultKey 0 0 0) ∧ (begun [(0, .done), (1, .done)]).elems.length = (0x12340170 % 128 + 32 + 127) / 128 ∧
    (∀ m ≤ 0, (jobState (program none) []).inSlot (spOf 0 0) 3 m = none ↔ m = 0) := by
  unfold Claims.ElementOf Claims.HasKey; decide +kernel

theorem witness_JobSteps_regions : Claims.Permits (begun []) 0x12340000 16 false ∧ ¬ Claims.Permits { begun [] with regions := [] } 0x12340000 16 false :=
  ⟨fun b h1 h2 => ⟨⟨0x12340000, 0x1000, true, true, false⟩, by decide +kernel, rfl, h1, Nat.lt_trans h2 (by decide)⟩,
   fun h => let ⟨_, h, _⟩ := h 0x12340000 (by decide) (by decide); nomatch h⟩

/-- Card 7 after a step. -/
def card7 (i : Instr) (s : State) : Card := (Tbl.find (after i s).cards 7).getD (begun [])

theorem test_job_steps : gives (exec (.jobStart 7) (jobState { copied 0 with posted := true, preds := [8] } [(8, begun [])])) (jobState { copied 0 with posted := true, preds := [8] } [(8, begun [])]) ∧
    (card7 (.jobStart 7) (jobState { copied 0 with posted := true, preds := [8] } [(8, { begun [] with cs := some ⟨4, 0, 0, 0⟩ })])).ord.pts = 4 ∧
    (card7 (.jobElement 7 0) (jobState (begun []) [])).elems = [(0, .reading (0x5A :: List.replicate 15 0) .zero)] ∧
    (after (.jobElement 7 1) (jobState (begun [(1, .reading (List.replicate 16 9) .zero)]) [])).mem.readBytes (vaultKey 0 0 0x17F) 2 = [0, 9] ∧
    (card7 (.jobElement 7 0) (jobState { begun [] with regions := [] } [])).code = 1 ∧
    ((after (.jobCompletion 7) (jobState (begun [(0, .done), (1, .done)]) [])).chan 10).wm = 1 ∧
    (card7 (.jobCompletion 7) (jobState (begun [(0, .done), (1, .done)]) [])).cs = some .zero ∧
    ((after (.programStrandStart 7) (jobState (program none) [])).strand 9).place = .slot spin0 0 ∧ ((after (.programStrandStart 7) (jobState (program none) [])).strand 9).regs[0] = 0x77 ∧
    ((after (.programStrandStart 7) (jobState (program none) [])).strand 9).regs[1] = 9 := by decide +kernel

theorem test_packet_landing : (after (.packetLanding 7 0) (jobState { begun [(0, .landing [7, 8] (.spad 0 1 0x10) ⟨3, 0, 0, 0⟩)] with cen := true, mc := 2 } [])).mem.readBytes (spadKey 0 1 0x10) 2 = [7, 8] ∧
    (after (.packetLanding 7 0) (jobState { begun [(0, .landing [7, 8] (.spad 0 1 0x10) ⟨3, 0, 0, 0⟩)] with cen := true, mc := 2 } [])).counter 0 1 3 2 = ⟨1, [⟨3, 0, 0, 0⟩]⟩ ∧
    (after (.packetLanding 7 0) (jobState { begun [(0, .landing [7, 8] (.spad 0 1 0x10) ⟨3, 0, 0, 0⟩)] with wb := true } [])).mem.readBytes (wbufKey 0 1 0x10) 2 = [7, 8] := by decide +kernel

/-- Element 1 of the copy is parked until its record is replayed (R28, R31). -/
def stuck (freed : Bool) : Card := { begun [(1, .reading [] .zero)] with parked := [⟨1, 6, freed⟩] }

theorem witness_JobSteps_parked : (stuck false).parked ≠ [] ∧ (∀ r ∈ (stuck false).parked, r.freed = false) ∧ (∃ r ∈ (stuck false).parked, r.item = 1) ∧
    Tbl.find (stuck false).elems 0 = none := by decide +kernel

theorem test_parked_elements : exec (.jobElement 7 0) (jobState (stuck false) []) = .next (jobState (stuck false) []) ∧
    exec (.jobElement 7 1) (jobState (stuck false) []) = .next (jobState (stuck false) []) := ⟨next_of (by decide +kernel), next_of (by decide +kernel)⟩

/- Witnesses: looms and the assignment engine. -/

/-- Words 0 and 1 of a loom of one bay: INT8, wait limit 10, accumulator at 0x4000, semaphore counts 5 in semaphore 1. -/
def loomWords : List W64 := [.ofNat 64 (2 ^ 63 + 3 * 2 ^ 60 + 3 * 2 ^ 57 + 10 * 2 ^ 32), 0x1000000000000050, 0, 0, 0, 0, 0, 0]
def loom1 : Loom := { Loom.init with act := true, w0 := nth 0 loomWords 0, w1 := 0x1000000000000050, mxf := 0x800 }
/-- w5 = 0x800, w6 = 0x80 with a signal to semaphore 2, w7 = 0x90002 (64 × its map etc.), w8 = 3. -/
def loomRegs (t : Strand) : Strand := { t with regs := (((t.regs.set 5 0x800).set 6 0xA0080).set 7 0xA0000).set 8 3 }
def loomed (n : Nat) (l : Loom) (f : Strand → Strand) : State :=
  { (small core0 n (fun t => f (loomRegs t))).modTen 0 0 3 (fun t => { t with loom := l, sems := [(1, 5), (3, 255)] }) with
    mem := wordsAt [] (spadKey 0 0 0x800) loomWords, clock := 5000 }
def banked (st : BankState) (l : Loom) : Loom := { l with bank0 := { Bank.init with st := st } }

theorem witness_LoomInstructionResult : Claims.BeaterRuns (loomed 13 loom1 id) ∧ 8 ≤ ({ loom1 with queue := List.replicate 8 ⟨.z, none, none, none⟩ } : Loom).queue.length ∧
    Claims.NoMxz loom1 ∧ (lo64 (regz (loomed 13 loom1 id).me (.w 6))).toNat = 0x80 + 2 * 2 ^ 16 + 1 * 2 ^ 19 ∧ (loom1.col 0 = 0) ∧
    (loomed 13 loom1 id).rangeTrap 0 0 3 0x800 (fragA 3) = none ∧ (loomed 13 loom1 id).wbufTrap 0 0 3 0x80 (fragB 3 false) = none ∧ loom1.afmt = 3 ∧
    (lo64 (regz (loomed 13 loom1 id).me (.w 7))).toNat = 2 * 2 ^ 16 + 1 * 2 ^ 19 ∧ (nth 0 loomWords 0).getLsbD 63 = true ∧
    (∀ o, (loomed 13 Loom.init id).loomOk 3 0 0 { loom1 with mxf := 0, ord := o } loomWords = true) := by
  refine ⟨⟨by unfold Claims.InSlot; decide +kernel, by decide +kernel⟩, by decide, nofun, by decide +kernel, by decide +kernel, by decide +kernel, by decide +kernel,
    by decide +kernel, by decide +kernel, by decide +kernel, fun o => ?_⟩
  have h : (loomed 13 Loom.init id).loomOk 3 0 0 { loom1 with mxf := 0, ord := o } loomWords =
    (loomed 13 Loom.init id).loomOk 3 0 0 { loom1 with mxf := 0, ord := .zero } loomWords := by
    simp only [State.loomOk, State.loomServer, Loom.orgy, Loom.orgx, Loom.rows, Loom.cols, Loom.accOff, Loom.sclen, Loom.asbase, Loom.bsbase]
    rfl
  rw [h]; decide +kernel

theorem witness_LoomInstructionResult_words : Claims.OwnWords (loomed 13 Loom.init id) 0x800 8 loomWords := by unfold Claims.OwnWords; decide +kernel

/-- The loom of the bay after an instruction. -/
def loomAfter (i : Instr) (s : State) : Loom := (after i s).loom 0 0 3

theorem test_loom_instructions : (loomAfter (.mxz always) (loomed 13 loom1 id)).queue = [⟨.z, none, none, none⟩] ∧
    (loomAfter (.mxrun (.w 5) (.w 6) always) (loomed 13 loom1 id)).queue = [⟨.run 0 0x800 0x80 (some 2), none, none, none⟩] ∧
    (loomAfter (.mxrun (.w 5) (.w 6) always) (loomed 13 loom1 id)).bank0.st = .running ∧ (loomAfter (.mxrun (.w 5) (.w 6) always) (loomed 13 loom1 id)).runk = 1 ∧
    gives (exec (.mxrun (.w 5) (.w 6) always) (loomed 13 (banked .full loom1) id)) ((loomed 13 (banked .full loom1) id).raise 0x48 (wordOf (.mxrun (.w 5) (.w 6) always))) ∧
    (loomAfter (.mxprom (.w 7) always) (loomed 13 (banked .full loom1) id)).bank0.st = .promoting ∧
    gives (exec (.mxprom (.w 7) always) (loomed 13 loom1 id)) ((loomed 13 loom1 id).raise 0x48 (wordOf (.mxprom (.w 7) always))) ∧
    (loomAfter (.mxst (.w 5) (.w 6) always) (loomed 13 loom1 (fun t => { t with regs := t.regs.set 5 0x8000 |>.set 6 5 }))).queue = [⟨.st 0x8000 5 false none none, none, none, none⟩] ∧
    (after (.mxz always) (loomed 13 { loom1 with queue := List.replicate 8 ⟨.z, none, none, none⟩ } id)).me.wait = .mxq := by decide +kernel

theorem test_mxcfg : loomAfter (.mxcfg (.w 5) always) (loomed 13 { Loom.init with mxf := 0x800 } id) = { loom1 with mxf := 0 } ∧
    (after (.mxcfg (.w 5) always) (loomed 13 { Loom.init with mxf := 0x800 } id)).me.sts = 0x800 ∧
    (after (.mxcfg (.w 5) always) (loomed 13 Loom.init id)).semCount 0 0 3 1 = 5 ∧
    (after (.mxcfg (.w 5) always) ({ loomed 13 loom1 id with mem := [] })).me.wait = .mxoff ∧
    gives (exec (.mxcfg (.w 5) always) ({ loomed 13 Loom.init id with mem := wordsAt [] (spadKey 0 0 0x800) (loomWords.set 3 1) })) ((({ loomed 13 Loom.init id with mem := wordsAt [] (spadKey 0 0 0x800) (loomWords.set 3 1) }).ownBytes 0x800 1).2.2.raise 0x49 0x800) := by decide +kernel

theorem witness_LoomInstructionResult_semaphores : Claims.InSlot (loomed 14 loom1 id) 14 ∧ (loomed 14 loom1 id).semCount 0 0 3 3 = 255 ∧
    (loomed 14 loom1 id).semCount 0 0 3 1 = 5 ∧ (loomed 14 loom1 id).semCount 0 0 3 0 = 0 ∧ (∀ e ∈ (loomed 14 loom1 id).strands, e.2.wait ≠ .semw 1) ∧
    (loomed 13 loom1 id).handleOf 1 4 = none ∧ (lo64 (regz (loomed 13 loom1 id).me (.w 8))).toNat = 3 ∧ (loomed 13 loom1 id).rangeTrap 0 0 3 0x800 (32 * 3) = none := by
  unfold Claims.InSlot; decide +kernel

theorem test_semaphores : (after (.sems 1 always) (loomed 14 loom1 id)).semCount 0 0 3 1 = 6 ∧ (loomAfter (.sems 3 always) (loomed 14 loom1 id)).semovf = true ∧
    (after (.semw 1 always) (loomed 14 loom1 id)).semCount 0 0 3 1 = 4 ∧ (after (.semw 0 always) (loomed 14 loom1 id)).me.wait = .semw 0 ∧
    (after (.semw 1 always) (loomed 13 loom1 id)).me.sts = 0x800 ∧ (loomAfter (.semw 1 always) (loomed 13 loom1 id)).mxf = 0 ∧
    (loomAfter (.forkSeq (.w 5) (.w 8) 4 always) (loomed 13 loom1 id)).seq = some ⟨9, 0x800, 3, 0, none, 0⟩ ∧
    (after (.mxperm (.w 5) (.w 6) (.w 7) always) (loomed 13 Loom.init (fun t => { t with regs := ((t.regs.set 5 0x10000).set 6 0).set 7 0x8004 }))).me.wait =
      .mxperm 0x10000 0 0x8000 1 true := by decide +kernel

/-- Operations of the MXU under way. -/
def op (o : MxOp) (c : Option Nat) (a b : Option (List Byte)) (l : Loom) : State := loomed 13 { l with queue := [⟨o, c, a, b⟩] } id
def message (isA : Bool) (ident : Nat) (l : Loom) : State := { loomed 13 l id with msgs := [(8, .operand 3 0 0 isA 0 ident [1, 2, 3] 0)] }
def frag : List Byte := List.replicate 8192 1
def sums0 : List ChunkSum := List.replicate 4096 (.fin (5 * 2 ^ 320))

theorem witness_LoomSteps : Claims.Live (op .z none none none loom1) 0 0 3 ∧ (op (.run 0 0x800 0x80 none) none none none loom1).badAt 3 (.spad 0 0 0x800) (fragA 3) = false ∧
    ({ banked .full loom1 with bank0 := ⟨.promoting, sums0, [], []⟩ } : Loom).scalesOf 0 = some (List.replicate 64 0x3F800000, 0x3F800000) ∧
    (op (.prom 0 none) none none none loom1).badAt 3 (.spad 0 0 0x4000) 16384 = false ∧ (op (.run 0 0 0 none) none none none loom1).unaccepted 0 0 3 0 = false ∧
    Tbl.find (message true loom1.ident loom1).msgs 8 = some (.operand 3 0 0 true 0 loom1.ident [1, 2, 3] 0) ∧ 0 + 2 ^ loom1.oplim < (op .z none none none loom1).clock ∧
    ({ loom1 with w0 := loom1.w0 + 2 ^ 55 } : Loom).scalesOf 0 = none := by unfold Claims.Live; decide +kernel

theorem witness_LoomSteps_run : (fragCols 3 false frag).isSome = true ∧ frag.length = 8192 := by decide +kernel

theorem test_loom_steps : (loomAfter (.mxuOpStart 0 0 3) (op .z none none none (banked .running loom1))).queue = [⟨.z, some 5000, none, none⟩] ∧
    ((loomAfter (.mxuOpStart 0 0 3) (op (.run 0 0x800 0x80 none) none none none loom1)).queue.map (fun e => e.start)) = [some 5000] ∧
    (loomAfter (.mxuOpComplete 0 0 3) (op .z (some 9) none none loom1)).queue = [] ∧ (loomAfter (.operandMessage 8) (message true 1 loom1)).ecode = 2 ∧
    ((loomAfter (.operandMessage 8) ((message true loom1.ident { loom1 with queue := [⟨.run 0 0x800 0x80 none, some 1, none, none⟩] }))).queue.map (·.a)) = [some [1, 2, 3]] ∧
    gives (exec (.operandMessage 8) (message true loom1.ident loom1)) (message true loom1.ident loom1) ∧
    (loomAfter (.operandTimeout 0 0 3) (op (.run 0 0x800 0x80 none) (some 9) none none loom1)).ecode = 3 ∧
    (loomAfter (.scaleTimeout 0 0 3) (op (.prom 0 none) (some 9) none none { loom1 with w0 := loom1.w0 + 2 ^ 55 })).ecode = 4 ∧
    promoteElem 3 0x7FFFFFFF [.fin (1 * 2 ^ 320)] 0 0 [] [] = (0x7FFFFFFF, { sat := true }) ∧
    (loomAfter (.operationReply 1) ({ loomed 13 loom1 (fun t => { t with status := .waiting, wait := .mxoff }) with mem := [] })).act = false := by decide +kernel

/-- The sequencer at a step. -/
def sequencing (ws : List W64) : State :=
  { loomed 13 { loom1 with seq := some ⟨7, 0x800, 3, 0, none, 0⟩ } id with
    mem := wordsAt [] (spadKey 0 0 0x800) ws, cards := [(7, { Card.init .seq 3 0 0 with posted := true, started := true })] }

theorem witness_LoomSteps_sequencer : ((sequencing [1]).loom 0 0 3).seq = some ⟨7, 0x800, 3, 0, none, 0⟩ ∧ (sequencing [1]).badAt 3 (.spad 0 0 0x800) 32 = false ∧
    (List.range 4).map (fun i => leNat ((sequencing [0x29]).bytesAt 3 (.spad 0 0 (0x800 + 8 * i)) 8)) = [9 + 2 * 16, 0, 0, 0] := by decide +kernel

theorem test_sequencer : (loomAfter (.sequencerStep 0 0 3) (sequencing [1])).queue = [⟨.z, none, none, none⟩] ∧
    (loomAfter (.sequencerStep 0 0 3) (sequencing [1])).seq = some ⟨7, 0x800, 3, 1, none, 0⟩ ∧ (after (.sequencerStep 0 0 3) (sequencing [0x29])).semCount 0 0 3 2 = 1 ∧
    ((after (.sequencerStep 0 0 3) (sequencing [0])).cards.map (fun c => (c.2.stopped, c.2.code))) = [(true, 1)] := by decide +kernel

/-- An assignment job: 2 rows, 2 columns, 2-byte scores at 0x12340000, capacities at 0x12340080, limit 100, epsilon 0.5. -/
def asnWords : List W64 := [.ofNat 64 (1 * 2 ^ 56 + 1 * 2 ^ 50 + 100 * 2 ^ 32), 0x12340000, 0x12340080, 0x000000003F000000, 0, 0x7F80000000000000, 0, 0]
def asnRegs (t : Strand) : Strand := { t with regs := (t.regs.set 5 0x800).set 6 0x12340400 }
def asnPost (ws : List W64) : State := { small core0 2 asnRegs with mem := wordsAt [] (spadKey 0 0 0x800) ws }
def asnCard (started : Bool) : Card :=
  { Card.init .asn 3 0 0 with dst := 0x12340400, desc := asnWords, posted := true, started := started,
                              regions := [⟨0x12340000, 8, true, false, false⟩, ⟨0x12340080, 2, true, false, false⟩, ⟨0x12340400, 1024, false, true, false⟩] }
def auction0 : Auction := ⟨7, 2, 2, [1, 1], [[0x3F800000, 0], [0x40000000, 0x3F000000]], [false, false], [[0], [0]], [[none], [none]], [false, false], 0x3F000000, 0, 1⟩
def auctioning (a : Option Auction) (c : Card) : State :=
  { plain with cards := [(7, c)], parts := [(3, { Part.init with xtb := 1 })]
               clusters := [(0, { Cluster.init with asn := a, tlb := [⟨3, 3, 0x1234, leaf0⟩] })]
               mem := wordsAt [] (vaultKey 0 0 0) [0x3F00400000003F80, 0] |>.writeBytes (vaultKey 0 0 0x80) [1, 1] }

theorem witness_AssignmentResult : Claims.OwnWords (asnPost asnWords) 0x800 8 asnWords ∧ Claims.Shape asnWords 2 2 2 ∧ Claims.AsnWords asnWords 2 ∧
    ¬ Claims.AsnWords (asnWords.set 6 1) 2 ∧ (asnPost asnWords).handleOf 1 4 = none ∧ Claims.NextJob (auctioning none (asnCard false)) 0 0 7 (asnCard false) ∧
    ((auctioning (some auction0) (asnCard true)).cluster 0 0).asn = some auction0 := by
  unfold Claims.OwnWords Claims.Shape Claims.AsnWords Claims.NextJob; decide +kernel

theorem witness_AssignmentResult_values : Claims.EpsilonOk asnWords ∧ Claims.BoundsOk asnWords ∧ ¬ Claims.EpsilonOk (asnWords.set 3 0) ∧
    ¬ Claims.BoundsOk (asnWords.set 3 0x7F8000003F000000) ∧ Claims.cardBits (asnWords.set 3 0) 0 32 16 ≠ 0 := by
  unfold Claims.EpsilonOk Claims.BoundsOk Claims.Positive Claims.Below; decide +kernel

/-- Both inputs are read: the scores are element 16, the capacities 17. -/
def asnRead : Card := { asnCard true with elems := [(16, .reading [0x80, 0x3F, 0, 0, 0, 0x40, 0, 0x3F] .zero), (17, .reading [1, 1] .zero)] }

theorem witness_AssignmentResult_inputs : Claims.NextJob (auctioning none (asnCard true)) 0 0 7 (asnCard true) ∧ Claims.pieceOf 0x12340000 8 0 0 8 ∧
    Claims.pieceOf 0x12340080 2 0 0 2 ∧ Claims.pieces 0x12340000 8 = 1 ∧ (asnCard true).code = 0 ∧ Tbl.find (asnCard true).elems 16 = none ∧
    ((auctioning none (asnCard true)).engineXlate (asnCard true).unit 3 0x12340080 2 .copy).1 = .ok ⟨.vault 0 0 0x80, true, false, false, 16⟩ ∧
    Tbl.find asnRead.elems (16 + 0) = some (.reading (([0x80, 0x3F, 0, 0, 0, 0x40, 0, 0x3F].drop 0).take 8) .zero) ∧
    Tbl.find asnRead.elems (16 + 1 + 0) = some (.reading (([1, 1].drop 0).take 2) .zero) := by
  unfold Claims.NextJob Claims.pieceOf; decide +kernel

theorem witness_AssignmentResult_result : Claims.blockElem 0x12340400 8 = some (768, 8) ∧ Claims.lastElem 0x12340400 = 8 ∧ Claims.lastElem 0x12340440 = 10 ∧
    Claims.blockElem 0x12340440 7 = some (776, 56) ∧
    ((auctioning none (asnCard true)).engineXlate (asnCard true).unit 3 0x12340700 8 .copyWrite).1 = .ok ⟨.vault 0 0 0x700, true, false, false, 16⟩ := by decide +kernel

theorem witness_Performed : Claims.Performed (auctioning none (asnCard true)) 7 := ⟨nofun, nofun⟩

theorem witness_AssignmentResult_bids : (Claims.bidOf auction0 0 0).map (fun b => (b.row, b.col, b.slot, b.amount)) = some (0, 0, 0, some 0x3FC00000) ∧ (Claims.bidOf auction0 0 1).map (fun b => (b.row, b.col, b.slot, b.amount)) = some (1, 0, 0, some 0x40000000) ∧
    (Claims.bidOf { auction0 with frozen := [true, true] } 0 0).isNone = true ∧ ({ auction0 with holders := [[some 1], [none]] } : Auction).slotOf 1 = some (0, 0) := by decide +kernel

theorem test_assignment : Tbl.find (after (.asn (.w 5) (.w 6) 4 always) (asnPost asnWords)).cards 9 = some { asnCard false with } ∧
    gives (exec (.asn (.w 5) (.w 6) 4 always) (asnPost (asnWords.set 6 1))) (((asnPost (asnWords.set 6 1)).ownBytes 0x800 1).2.2.raise 0x4B 0x800) ∧
    ((after (.asnRound 0 0) (auctioning (some auction0) (asnCard true))).cluster 0 0).asn.map (fun a => (a.rounds, a.prices, a.holders)) = some (1, [[0x40000000], [0]], [[some 1], [none]]) := by decide +kernel

theorem test_assignment_starts : ((after (.asnStart 0 0) (auctioning none asnRead)).cluster 0 0).asn.map (fun a => (a.rows, a.cols, a.caps, a.eps)) = some (2, 2, [1, 1], 0x3F000000) ∧
    ((after (.asnStart 0 0) (auctioning none { asnCard false with desc := asnWords.set 3 0 })).cards.map (fun c => c.2.code)) = [0x81] ∧
    ((after (.jobElement 7 17) (auctioning none (asnCard true))).cards.map (fun c => c.2.elems)) = [[(17, .reading [1, 1] .zero)]] ∧
    ((after (.asnStart 0 0) (auctioning none { asnCard false with desc := asnWords.set 0 0x0104000000000000 })).cards.map (fun c => c.2.code)) = [0x83] := by decide +kernel

theorem test_result_block : (({ auction0 with holders := [[some 1], [none]] } : Auction).block 1).take 4 = [0xFF, 0xFF, 0, 0] ∧
    (({ auction0 with holders := [[some 1], [none]] } : Auction).block 1).length = 1024 ∧
    (after (.jobElement 7 0) (auctioning none { asnCard true with result := auction0.block 0 })).mem.readBytes (vaultKey 0 0 0x400) 3 = [0xFF, 0xFF, 0xFF] := by decide +kernel

/- Witnesses: the sequencer's steps of every kind, late fragments and scales, MXCFG with V = 0. -/

/-- A sequencer at a step of 4 words, with the loom as given; the errors of a loom; a loom that is being ended. -/
def sequencer (ws : List W64) (l : Loom) (parked : Option Nat) : State :=
  { loomed 13 { l with seq := some ⟨7, 0x800, 3, 0, parked, 0⟩ } id with
    mem := wordsAt [] (spadKey 0 0 0x800) ws, cards := [(7, { Card.init .seq 3 0 0 with posted := true, started := true })] }
def ending (l : Loom) : State :=
  { loomed 13 l (fun t => { t with status := .waiting, wait := .mxoff }) with msgs := [(8, .operand 3 0 0 true 0 1 [1, 2, 3] 0)] }

theorem witness_LoomSteps_sequencer_steps :
    (loom1.bank loom1.runk).st = .empty ∧ (sequencer [2, 0x800, 0x80 + 2 * 2 ^ 16 + 2 ^ 19, 0] loom1 none).rangeTrap 0 0 3 0x800 (fragA loom1.afmt) = none ∧
    (sequencer [2, 0x800, 0x80 + 2 * 2 ^ 16 + 2 ^ 19, 0] loom1 none).wbufTrap 0 0 3 0x80 (fragB loom1.bfmt loom1.sparse) = none ∧ loom1.afmt = 3 ∧
    (sequencer [4, 0x8000, 5, 0] loom1 none).rangeTrap 0 0 3 0x8000 (4096 * outSize 5) = none ∧ loom1.accOff + 16384 ≤ 0x8000 ∧
    (sequencer [8] loom1 none).semCount 0 0 3 0 = 0 ∧ (sequencer [8 + 16] loom1 none).semCount 0 0 3 1 ≠ 0 ∧
    (∀ x ∈ (sequencer [8 + 16] loom1 none).strands, x.2.wait ≠ .semw 1) ∧ Claims.Live (sequencer [1] loom1 none) 0 0 3 := by
  unfold Claims.Live; decide +kernel

theorem test_sequencer_steps :
    (loomAfter (.sequencerStep 0 0 3) (sequencer [2, 0x800, 0x80 + 2 * 2 ^ 16 + 2 ^ 19, 0] loom1 none)).queue = [⟨.run 0 0x800 0x80 (some 2), none, none, none⟩] ∧
    (loomAfter (.sequencerStep 0 0 3) (sequencer [3, 2 * 2 ^ 16 + 2 ^ 19, 0, 0] (banked .full loom1) none)).queue = [⟨.prom 0 (some 2), none, none, none⟩] ∧
    (loomAfter (.sequencerStep 0 0 3) (sequencer [4, 0x8000, 5, 0] loom1 none)).queue = [⟨.st 0x8000 5 false none none, none, none, none⟩] ∧
    ((loomAfter (.sequencerStep 0 0 3) (sequencer [8] loom1 none)).seq.map (·.parked)) = some (some 0) ∧
    (after (.sequencerStep 0 0 3) (sequencer [8 + 16] loom1 none)).semCount 0 0 3 1 = 4 ∧
    ((after (.sequencerStep 0 0 3) (sequencer [1] { loom1 with err := true } none)).cards.map (fun c => (c.2.stopped, c.2.code))) = [(true, 1)] := by decide +kernel

theorem witness_LoomSteps_off : (ending loom1).present 1 = true ∧ ((ending loom1).strand 1).status = .waiting ∧ ((ending loom1).loom 0 0 3).queue = [] ∧
    ({ ending loom1 with mem := [] } : State).tenantOf core0 13 = some 3 ∧ Tbl.find (message true 1 { loom1 with act := false, gone := some 1 }).msgs 8 = some (.operand 3 0 0 true 0 1 [1, 2, 3] 0) ∧
    ({ loom1 with act := false, gone := some 1 } : Loom).gone = some 1 := by decide +kernel

theorem test_loom_off : (loomAfter (.operationReply 1) (ending { loom1 with runk := 4, promk := 3, bank0 := ⟨.full, [], [], []⟩ })).runk = 0 ∧
    (loomAfter (.operationReply 1) (ending { loom1 with bank0 := ⟨.full, [], [], []⟩ })).bank0.st = .empty ∧ (after (.operationReply 1) (ending loom1)).msgs = [] ∧
    (after (.operandMessage 8) (message true 1 { loom1 with act := false, gone := some 1 })).msgs = [] ∧
    gives (exec (.operandMessage 8) (message true 2 { loom1 with act := false, gone := some 1 })) (message true 2 { loom1 with act := false, gone := some 1 }) ∧
    (loomAfter (.mxuOpStart 0 0 3) (op .z none none none { loom1 with scales := [(true, 0, [1])] })).scales = [] := by decide +kernel

/-- A scale request of chunk 2 that stands at the server; a permutation that has the loom idle. -/
def scaling : State := { loomed 13 { loom1 with w0 := loom1.w0 + 2 ^ 55 } id with msgs := [(8, .scale 3 0 0 true 2)] }
def permuting (l : Loom) : State := loomed 13 l (fun t => { t with status := .waiting, wait := .mxperm 0x10000 0 0x8000 1 false })

theorem witness_LoomSteps_permute : (permuting loom1).present 1 = true ∧ ((permuting loom1).loom 0 0 3).queue = [] ∧ (permuting loom1).badAt 3 (.spad 0 0 0x8000) 64 = false ∧
    (permuting loom1).badAt 3 (.spad 0 0 0) (4096 * 1) = false ∧ (∀ i < 64, (Claims.spadByte (permuting loom1) 3 0 0 (0x8000 + i)).toNat / 64 % 2 = 0) := by decide +kernel

theorem witness_LoomSteps_scale : (scaling.loomServer 0 (scaling.loom 0 0 3)).isSome = true ∧ Tbl.find scaling.msgs 8 = some (.scale 3 0 0 true 2) ∧
    0 = ((scaling.loom 0 0 3).orgy + (scaling.loom 0 0 3).row 0) * 64 + (scaling.loom 0 0 3).orgx + (scaling.loom 0 0 3).col 0 ∧
    (scaling.loom 0 0 3).col 0 < (scaling.loom 0 0 3).cols ∧ (scaling.loom 0 0 3).row 0 < (scaling.loom 0 0 3).rows := by decide +kernel

/- Witnesses: neighbours, looms allowed, those served first, promotions, result blocks that fail. -/

theorem witness_NeighboursOfAnEntry : field1.phase ≠ 0 ∧ 0 = (field1.phase + 1) % 2 ∧ Tbl.find ((settledIn id).strand 1).settled 0 = some 0x200000007 ∧
    { boxOf 0 0 with cnt0 := 2, ovf := true } ∈ field1.bays ∧ 1 < ({ boxOf 0 0 with cnt0 := 2, ovf := true } : FieldBay).cells 0 ∧
    (Claims.filedAt (settledIn id) field1 0 (field1.cellOff 0 1)).2 = 0x200000007 ∧ (Claims.filedAt (settledIn id) field1 0 (field1.cellOff 0 1)).1 = 0x0000800000008000 ∧
    field1.cellOff 0 1 = 0x1020 ∧ field1.haloOff 1 2 = 0x18C0 := by decide +kernel

theorem witness_LoomAllowed : Claims.LoomAllowed (loomed 13 Loom.init id) loomWords ∧ ¬ Claims.LoomAllowed (loomed 13 Loom.init id) (loomWords.set 3 1) ∧
    ¬ Claims.LoomAllowed (loomed 13 Loom.init id) (loomWords.set 0 (.ofNat 64 (2 ^ 63 + 3 * 2 ^ 60 + 3 * 2 ^ 57 + 9 * 2 ^ 32))) := by
  refine ⟨⟨by decide +kernel, by decide +kernel, by decide +kernel, fun i h1 h2 => ?_, by decide +kernel, by decide +kernel, by decide +kernel, by decide +kernel,
    by decide +kernel, by decide +kernel, by decide +kernel, by decide +kernel, by decide +kernel, by decide +kernel, by decide +kernel,
    by decide +kernel, by decide +kernel⟩, fun h => ?_, fun h => ?_⟩
  · obtain rfl | rfl | rfl | rfl | rfl : i = 3 ∨ i = 4 ∨ i = 5 ∨ i = 6 ∨ i = 7 := by omega
    all_goals rfl
  · exact absurd (h.2.2.2.1 3 (by decide) (by decide)) (by decide +kernel)
  · exact absurd h.2.2.2.2.2.2.2.2.2.1 (by decide +kernel)

/-- Semaphore 1 has a count of 1, and strand 2 or the sequencer has waited on it since before. -/
def contended (seq : Bool) : State :=
  let l : Loom := { loom1 with seq := if seq then some ⟨7, 0x800, 3, 0, some 1, 0⟩ else none }
  let s := (loomed 14 l id).modTen 0 0 3 (fun t => { t with sems := [(1, 1)] })
  { s with strands := s.strands ++ (if seq then [] else [(2, { strandIn core0 1 with status := .waiting, wait := .semw 1, arr := 0 })]) }

theorem witness_servedFirst : Claims.servedFirst (contended true) 1 = 1 ∧ Claims.servedFirst (contended false) 1 = 1 ∧ Claims.servedFirst (contended false) 2 = 0 ∧
    (contended false).semCount 0 0 3 1 = 1 := by decide +kernel

theorem test_semaphore_order : (after (.semw 1 always) (contended true)).me.wait = .semw 1 ∧ (after (.semw 1 always) (contended false)).me.wait = .semw 1 ∧
    (after (.semw 1 always) (contended false)).semCount 0 0 3 1 = 1 := by decide +kernel

theorem witness_LoomPromotion : Claims.StandsFor (.inf true) (.inf true) ∧ (List.replicate 4096 0).length = 4096 ∧ sums0.length = 4096 * 1 ∧
    ((2 : Nat), fp16) ∈ [(0, fp32), (1, bf16), (2, fp16), (3, e4m3), (4, e5m2)] ∧ Claims.infinite (.inf false) ∧ Claims.finite (.fin false 1 0) := by
  refine ⟨rfl, by decide +kernel, by decide +kernel, by decide, ⟨_, rfl⟩, ?_⟩
  unfold Claims.finite; decide

/-- 1.5 + 1.25 × 2 × 0.5 in FP8; 5 + 0.5 in BF16; four blocks of 1.0 with scales 1 and 2 in E2M1; a sum beyond FP32's range. -/
theorem test_promotion : (promoteElem 0 0x3FC00000 [.fin (5 * 2 ^ 318)] 0x40000000 0x3F000000 [] []).1 = 0x40300000 ∧
    promoteElem 4 0x3F000000 [.fin (5 * 2 ^ 320)] 0 0 [] [] = (0x40B00000, {}) ∧
    promoteElem 2 0 (List.replicate 4 (.fin (2 ^ 320))) 0 0 (List.replicate 4 0x7F) (List.replicate 4 0x80) = (0x41000000, {}) ∧
    (promoteElem 4 0 [.inf true] 0 0 [] []).1 = 0xFF800000 := by decide +kernel

theorem test_output : outElem 1 false none 0x3FC00000 = (0x3FC0, {}) ∧ outElem 2 false (some 0x40000000) 0x3FC00000 = (0x4200, {}) ∧
    outElem 5 false (some 0x40000000) 7 = (7, {}) ∧ (outElem 0 false (some 0) 0x7F800000).2.nv = true := by decide +kernel

/-- A job whose element 3 of the result block could not be written, or a store of whose block was lost; the status word's element is 8. -/
def failing (code : Nat) : Card := { asnCard true with result := auction0.block 0, code := code, elems := [(0, .done)] }

theorem witness_AssignmentResult_failed : (failing (256 * (3 + 2) + 0x84)).result ≠ [] ∧ (Claims.blockFailed (failing 256) false 0x85).elems.length = 8 ∧
    (Claims.blockFailed (failing 256) true 0x85).stopped = true ∧ Claims.lastElem (failing 0).dst = 8 ∧ 0x12340400 % 64 = 0 := by decide +kernel

theorem test_block_fails : (after (.jobElement 7 1) (auctioning none (failing (256 * (3 + 2) + 0x84)))).cards = [(7, Claims.blockFailed (failing (256 * (3 + 2) + 0x84)) false 0x84)] ∧
    (after (.jobElement 7 1) (auctioning none (failing (256 * (8 + 2) + 0x84)))).cards.map (fun c => (c.2.stopped, c.2.code)) = [(true, 0x84)] ∧
    (after (.jobElement 7 1) (auctioning none (failing (256 + 0x85)))).cards.map (fun c => (c.2.stopped, c.2.elems.length)) = [(false, 8)] ∧
    ((after (.jobElement 7 8) (auctioning none (Claims.blockFailed (failing 256) false 0x85))).mem.readBytes (vaultKey 0 0 0x707) 1) = [0x85] := by decide +kernel

/- Witnesses: translation, walks, command lists, launches. -/

/-- A window onto the registers of row 0 (Table 1-6). -/
def segmentR : W128 := .ofNat 128 (2 ^ 127 + 2 ^ 126 + 2 * 2 ^ 124 + 1 * 2 ^ 79 + 64 * 2 ^ 72 + 0x2000 * 2 ^ 35)
def cached (e : TlbEntry) : State :=
  { plain with parts := [(3, { Part.init with xtb := 1 })], dev := { plain.dev with domain := [7] } }.modUnit core0
    (fun c => { c with tlb := [e], segs := [⟨3, 0, segment0⟩, ⟨3, 1, segmentR⟩] })

/-- Only the core's cluster has the page of 0x12340000. -/
def clustered : State := { plain with parts := [(3, { Part.init with xtb := 1 })], clusters := [(0, { Cluster.init with tlb := [⟨3, 3, 0x1234, leaf0⟩] })] }

theorem witness_TranslationResult : ¬ Claims.windowed 0x12340080 ∧
    ((cached ⟨3, 3, 0x1234, leaf0⟩).unit core0).tlb.find? (fun e => e.tag == 3 && e.page == (0x12340080 : W64).toNat / Claims.covered e.level) = some ⟨3, 3, 0x1234, leaf0⟩ ∧
    Claims.Permitted leaf0 .store ∧ Claims.field leaf0 38 14 = 0 ∧ (∀ e ∈ (clustered.unit core0).tlb, e.tag ≠ 3 ∨ e.page ≠ (0x12340080 : W64).toNat / Claims.covered e.level) ∧
    ((clustered.cluster 0 (clusterOf 0)).tlb.find? (fun e => e.tag == 3 && e.page == (0x12340080 : W64).toNat / Claims.covered e.level) = some ⟨3, 3, 0x1234, leaf0⟩) ∧
    (plain.part 3).xtb.getLsbD 0 = false ∧ (clustered.part 3).xtb.getLsbD 0 = true ∧
    Claims.windowed 0xF0100000000408 ∧ ((cached ⟨3, 3, 0x1234, leaf0⟩).unit core0).segs.find? (fun g => g.tag == 3 && g.idx == Claims.field (0xF0100000000408 : W64) 44 8) = some ⟨3, 1, segmentR⟩ ∧
    Claims.InSegment segmentR 0xF0100000000408 true ∧ ¬ Claims.InSegment segmentR 0xF0100000002000 true ∧ ¬ Claims.InSegment segmentR 0xF0100001000000 true ∧
    (cached ⟨3, 3, 0x1234, leaf0⟩).ownsBay 3 0 0 = true ∧ (cached ⟨3, 3, 0x1234, leaf0⟩).ownsBay 3 0 16 = false ∧ Claims.field leaf0 60 2 = 2 := by
  unfold Claims.windowed Claims.Permitted Claims.InSegment; decide +kernel

theorem test_cluster_translation : (clustered.xlate core0 3 0x12340080 8 .store).1 = .ok ⟨.vault 0 0 0x80, true, false, false, 16⟩ ∧
    ((clustered.xlate core0 3 0x12340080 8 .store).2.unit core0).tlb = [⟨3, 3, 0x1234, leaf0⟩] := by decide +kernel

theorem test_translation : ((cached ⟨3, 3, 0x1234, leaf0⟩).xlate core0 3 0x12340080 8 .store).1 = .ok ⟨.vault 0 0 0x80, true, false, false, 16⟩ ∧
    (plain.xlate core0 3 0x12340080 8 .load).1 = .miss ∧ (((cached ⟨3, 3, 0x1234, 0xC000000000000000⟩).xlate core0 3 0x12341080 8 .load).1 =
      .ok ⟨.vault 0 33 0, true, false, false, 16⟩) ∧ ((cached ⟨3, 3, 0x1234, leaf0⟩).xlate core0 3 0xF0000000440000 8 .load).1 = .trap 0x0C ∧
    ((cached ⟨3, 3, 0x1234, leaf0⟩).xlate core0 3 0xF0000001000000 8 .load).1 = .trap 0x0A ∧ ((cached ⟨3, 3, 0x1234, leaf0⟩).xlate core0 3 0xF0000000000010 8 .load).1 =
      .ok ⟨.spad 0 0 0x10, true, false, false, 18⟩ ∧ ((cached ⟨3, 3, 0x1234, leaf0⟩).xlate core0 3 0xF0100000000180 8 .load).1 = .trap 0x0A := by decide +kernel

/-- A walk of page 0x1234 by strand 1 of the core, whose table entry stands at 0x100 of bay 0; its requester waits. -/
def req1 : WalkReq := ⟨.strand 1, .load, 0x12340080, 0, 0, true, 1, 2⟩
def walk1 (lvl : Nat) (r : Option WalkResult) : Walk := ⟨6, 3, 0x1234, [req1], true, 0, lvl, 2, 0, 0x100, r⟩
def walking (w : Walk) (pte : W64) (p : Part) : State :=
  { (small spin0 2 (fun t => { t with status := .waiting, wait := .mem (MemOp.mk (.load .d) 0x12340080 8 0 (.w 4) none .walk 0 true 0 0 none false) })) with
    dies := [(0, { Die.init with walks := [w] })], mem := wordsAt [] (vaultKey 0 0 0x100) [pte], parts := [(3, p)] }
/-- A partition with a fault queue of 2 records at 0x1000 of bay 0 and all frames of the device. -/
def part1 (p : Part) : Part := { p with xfq := .ofNat 64 (1 * 2 ^ 60 + 2 * 2 ^ 58 + 0x1000) }

theorem witness_WalkResults : Claims.Reading (walking (walk1 3 none) leaf0 Part.init) 0 (walk1 3 none) (walk1 3 none) ∧ leaf0.getLsbD 63 = true ∧ leaf0.getLsbD 62 = true ∧
    Claims.field leaf0 52 4 = 0 ∧ Claims.field leaf0 0 16 = 0 ∧ Claims.field leaf0 38 14 = (walking (walk1 3 none) leaf0 Part.init).dev.num ∧
    ((walking (walk1 3 (some (.leaf 3 leaf0))) 0 Part.init).die 0).walks = [walk1 3 (some (.leaf 3 leaf0))] ∧ Claims.Permitted leaf0 .load ∧
    (part1 Part.init).heldRecs = [] ∧ Claims.FaultRoom (part1 Part.init) ∧ Claims.NextRecord (part1 Part.init) 0 0 0 0x1000 := by
  refine ⟨Or.inl (by decide +kernel), ?_⟩; unfold Claims.Permitted Claims.FaultRoom Claims.NextRecord; decide +kernel

/-- Strand 1 is parked under fault 5. -/
def parked1 : State :=
  { small spin0 2 (fun t => { t with status := .parked, wait := .mem (MemOp.mk (.load .d) 0x12340080 8 0 (.w 4) none .walk 0 true 0 0 none false) }) with
    parts := [(3, { part1 Part.init with parked := [⟨5, 2, [req1]⟩], heldRecs := [(0, ⟨0x12340080, 2, 5, 0, 0, 1, 2, 0, 1, 0⟩, 0)] })], dies := [(0, { Die.init with held := [(3, req1)], heldCount := 1 })] }

theorem witness_WalkResults_parked : (parked1.part 3).parked.find? (fun p => p.fid == 5) = some ⟨5, 2, [req1]⟩ ∧ parked1.residentAt 1 = true ∧
    (parked1.strand 1).status = .parked ∧ (parked1.die 0).held[0]? = some (3, req1) ∧ (0x1234 : Nat) = Claims.field req1.va 16 40 ∧
    (∀ k ∈ (parked1.part 3).parked, k.fid ≠ 6) := by decide +kernel

theorem test_walks : ((after (.walkTableRead 0 6) (walking (walk1 3 none) leaf0 Part.init)).die 0).walks.map (·.result) = [some (.leaf 3 leaf0)] ∧
    ((after (.walkTableRead 0 6) (walking (walk1 3 none) 0 Part.init)).die 0).walks.map (·.result) = [some (.bad 4 0)] ∧
    ((after (.walkTableRead 0 6) (walking (walk1 2 none) 0xA000000000045600 Part.init)).die 0).walks.map (fun w => (w.level, w.plc, w.off)) = [(3, 2, 0x45600 + 8 * (0x1234 % 32))] ∧
    ((after (.walkEnd 0 6) (walking (walk1 3 (some (.bad 2 0))) 0 (part1 Part.init))).strand 1).status = .parked ∧
    ((after (.walkEnd 0 6) (walking (walk1 3 (some (.bad 2 0))) 0 (part1 Part.init))).part 3).xfqt = 1 ∧
    ((after (.walkEnd 0 6) (walking (walk1 3 (some (.leaf 3 leaf0))) 0 Part.init)).strand 1).pend = some (0x0C, 0x12340080) ∧
    ((after (.xfrFail 3 5) parked1).strand 1).pend = some (0x12, 0x12340080) ∧ ((after (.xfrReplay 3 5) parked1).strand 1).status = .waiting ∧
    ((after (.faultRecordDeferredWrite 3) parked1).part 3).heldRecs = [] ∧ ((after (.missQueueEntry 0 0) parked1).die 0).walks.map (·.vpn) = [0x1234] ∧
    gives (exec (.xfrReplay 3 6) parked1) parked1 := by decide +kernel

/-- Queue 1 of partition 3 on die 0, at 0x12340040, with an entry there; w at 0x12340100 holds 0x55. -/
def listed (ws : List W64) (c : CmdQueue → CmdQueue) (more : List W64) : State :=
  { plain with
    clusters := [(0, { Cluster.init with tlb := [⟨3, 3, 0x1234, leaf0⟩] })]
    parts := [(3, { Part.init with xtb := 1, queues := [(1, c { CmdQueue.init with cfg := 0x8000000000000000, pc := 0x12340040, end_ := 0x12340080 })], fcs := [(5, ⟨7, [⟨4, 0, 0, 0⟩]⟩)] })]
    mem := (wordsAt (wordsAt [] (vaultKey 0 0 0x40) ws) (vaultKey 0 0 0x100) (0x55 :: more)) }
def queueAfter (i : Instr) (s : State) : CmdQueue := (after i s).queue 3 1
def vault0 (off : Nat) : XLoc := ⟨.vault 0 0 off, true, false, false, 16⟩

theorem witness_CommandListResult : Claims.Entry (listed [Claims.opWord 5 0, 0x12340000, 0, 0] id []) 3 1 [Claims.opWord 5 0, 0x12340000, 0, 0]
      ((listed [Claims.opWord 5 0, 0x12340000, 0, 0] id []).engineXlate (coreOf 0 0) 3 0x12340040 32 .load).2 ∧
    Claims.Named 0x12340100 128 ∧ ((listed [] id []).engineXlate (coreOf 0 0) 3 0x12340100 8 .load).1 = .ok (vault0 0x100) ∧ ((listed [] id []).engineXlate (coreOf 0 0) 3 0x12340100 8 .atomic).1 = .ok (vault0 0x100) ∧
    Claims.ListWords (listed [] id []) 3 (.vault 0 0 0x100) 1 [0x55] ∧ Claims.ListDrained (listed [] id []) 3 1 ∧ Claims.ListWords (listed [] id ((copyCard 0).drop 1)) 3 (.vault 0 0 0x100) 16 (0x55 :: (copyCard 0).drop 1) := by
  refine ⟨⟨by decide +kernel, by decide +kernel, by decide +kernel, by decide +kernel, by decide +kernel, by decide +kernel, by unfold Claims.Named Claims.windowed; decide +kernel,
    vault0 0x40, ?_, ⟨0, 0, 0x40, rfl⟩, by decide +kernel⟩, by unfold Claims.Named Claims.windowed; decide +kernel, by decide +kernel, by decide +kernel,
    ⟨⟨0, 0, 0x100, rfl⟩, by decide +kernel⟩, by unfold Claims.ListDrained; decide +kernel, ⟨⟨0, 0, 0x100, rfl⟩, by decide +kernel⟩⟩
  exact Prod.ext (by decide +kernel) rfl

theorem test_lists : (queueAfter (.jump 3 1) (listed [Claims.opWord 5 0, 0x12340000, 0, 0] id [])).pc = 0x12340000 ∧
    (queueAfter (.call 3 1) (listed [Claims.opWord 6 0, 0x12340000, 0, 0] id [])).stack = [0x12340060] ∧
    (queueAfter (.call 3 1) (listed [Claims.opWord 6 0, 0x12340000, 0, 0] (fun c => { c with stack := [1, 2, 3, 4] }) [])).st = 0x8300000000000000 ∧
    (queueAfter (.ret 3 1) (listed [Claims.opWord 7 0, 0, 0, 0] (fun c => { c with stack := [0x12340020] }) [])).pc = 0x12340020 ∧
    (queueAfter (.ret 3 1) (listed [Claims.opWord 7 0, 0, 0, 0] id [])).st = 0x8300000000000000 ∧
    (Tbl.get FenceCtr.init ((after (.sigfc 3 1) (listed [Claims.opWord 3 5, 9, 0, 0] id [])).part 3).fcs 5).v = 16 ∧
    gives (exec (.waitfc 3 1) (listed [Claims.opWord 2 5, 8, 0, 0] id [])) (listed [Claims.opWord 2 5, 8, 0, 0] id []) ∧
    (queueAfter (.waitfc 3 1) (listed [Claims.opWord 2 5, 7, 0, 0] id [])).pc = 0x12340060 ∧ ((after (.waitfc 3 1) (listed [Claims.opWord 2 5, 7, 0, 0] id [])).die 0).listOrd.pts = 4 ∧
    (queueAfter (.skipif 3 1) (listed [Claims.opWord 4 0, 0x12340100, 5, 0xF] id [])).pc = 0x12340080 ∧
    (queueAfter (.skipif 3 1) (listed [Claims.opWord 4 2, 0x12340100, 5, 0xF] id [])).pc = 0x12340060 ∧
    (after (.patch 3 1) (listed [Claims.opWord 8 0, 0x12340100, 0xAA, 0xF0] id [])).mem.readBytes (vaultKey 0 0 0x100) 1 = [0xA5] := by decide +kernel

/-- A launch header of bays 0 and 1 of die 0, at 0x12340200, and a card at 0x12340180. -/
def header : List W64 := [0x2000, 0x3000, 0x104, .ofNat 64 (1 * 2 ^ 25 + 2 * 2 ^ 7 + 1), 0x77, 0, 0, 0]
def launching (ws : List W64) (hdr : List W64) : State :=
  { listed ws id [] with mem := wordsAt (wordsAt (listed ws id []).mem (vaultKey 0 0 0x200) hdr) (vaultKey 0 0 0x180) (copyCard 0) }

theorem witness_CommandListResult_launch : (launching [] header).headerOk 3 header = true ∧ (launching [] header).headerOk 3 (header.set 6 1) = false ∧ Claims.Named 0x12340200 64 ∧
    (islandOf 0 1 = 0) ∧ ((launching [] header).island 0).running = some 3 ∧ ((launching [] header).island 0).started = true ∧ header.getD 5 0 = 0 ∧
    cardOk (copyCard 0) = true ∧ cardOk ((copyCard 0).set 4 1) = false := by unfold Claims.Named Claims.windowed; decide +kernel

theorem test_launch : ((after (.launch 3 1) (launching [Claims.opWord 1 (2 ^ 6 + 5), 0x12340200, 0, 0] header)).launches.map (fun l => (l.2.entry, l.2.fc, l.2.left, l.2.arg))) =
      [(0x2000, some 5, [0, 1], 0x77)] ∧
    (after (.launch 3 1) (launching [Claims.opWord 1 (2 ^ 6 + 5), 0x12340200, 0, 0] header)).msgs.map (·.2) = [.launch 9 0 0, .launch 9 0 1] ∧
    (queueAfter (.launch 3 1) (launching [Claims.opWord 1 0, 0x12340200, 0, 0] (header.set 6 1))).st = 0x8400000000000000 ∧
    ((after (.listJob 3 1) (launching [Claims.opWord 9 (2 ^ 6 + 5), 0x12340180, 0, 0] header)).cards.map (fun c => (c.2.posted, c.2.len, c.2.fc))) = [(true, 32, some 5)] := by decide +kernel

/-- A launch under way on bay 0, its head not started; one whose last strand is about to stop. -/
def launch0 (start : List Nat) : Launch :=
  { tag := 3, prio := 0, die := 0, fc := some 5, entry := 0x2000, tvec := 0x3000, wid := 0x104, arg := 0x77, hdr := 0x12340200, ord := ⟨4, .zero, .zero, .zero⟩
    left := [0], toStart := start, field := none, acc := .zero, dies := [], upto := none, landed := [] }
def launched (n : Nat) : State := { small core0 n (fun t => { t with place := if n = 0 then .slot core0 0 else .slot core0 4 }) with msgs := [(8, .launch 7 0 0)], launches := [(7, launch0 [0])] }
def lastStrand : State := { small core0 2 (fun t => { t with launch := some 7 }) with launches := [(7, launch0 [])] }

theorem witness_LaunchResult : Tbl.find (launched 0).msgs 8 = some (.launch 7 0 0) ∧ (launched 0).inSlot (coreOf 0 0) 3 0 ≠ none ∧ (launched 1).tenantOf (coreOf 0 0) 0 = some 3 ∧
    (launched 1).inSlot (coreOf 0 0) 3 0 = none ∧ lastStrand.me.launch = some 7 ∧ lastStrand.me.place = .slot (coreOf 0 0) 2 ∧
    Tbl.find lastStrand.launches 7 = some (launch0 []) := by decide +kernel

theorem witness_LaunchResult_drained (d : Nat) (dom : Bool) : lastStrand.drained d dom lastStrand.serial = true := by
  cases dom <;> unfold State.drained <;> simp [lastStrand, small, State.reset]

theorem test_launch_steps : gives (exec (.launchPacket 8) (launched 0)) (launched 0) ∧ ((after (.launchPacket 8) (launched 1)).strand 9).place = .slot core0 0 ∧
    ((after (.launchPacket 8) (launched 1)).strand 9).regs[1] = 0x77 ∧ ((after (.launchPacket 8) (launched 1)).strand 9).regs[2] = 0x12340200 ∧
    ((after (.launchPacket 8) (launched 1)).strand 9).pc = 0x2000 ∧ (after (.stop (.w 1) always) lastStrand).launches = [] ∧ (after (.stop (.w 1) always) lastStrand).strands = [] ∧
    (Tbl.get FenceCtr.init ((after (.stop (.w 1) always) lastStrand).part 3).fcs 5).v = 1 := by decide +kernel

/- Witnesses: walks that begin, merge and are refused; faults of absent tenants and of fills; other devices' windows; queues before stage 2. -/

/-- A segment of the scratchpads of row 0 of die 0 of device 7, and of device 8, which is not of the domain (Table 1-6). -/
def segmentAt7 (dev : Nat) : W128 := .ofNat 128 (2 ^ 127 + 2 ^ 126 + 1 * 2 ^ 124 + dev * 2 ^ 98 + 1 * 2 ^ 79 + 64 * 2 ^ 72 + 0x40000 * 2 ^ 35)
def abroad (dev : Nat) : State := (cached ⟨3, 3, 0x1234, leaf0⟩).modUnit core0 (fun c => { c with segs := [⟨3, 2, segmentAt7 dev⟩] })

theorem witness_TranslationResult_foreign : Claims.InSegment (segmentAt7 7) 0xF0200000000010 true ∧ Claims.field (segmentAt7 7) 98 14 ≠ (abroad 7).dev.num ∧
    Claims.field (segmentAt7 7) 98 14 ∈ (abroad 7).dev.domain ∧ Claims.field (segmentAt7 8) 98 14 ∉ (abroad 8).dev.domain ∧ 0x10 + 8 ≤ 2 ^ 18 ∧ 2 ^ 18 < 0x3FFFC + 8 := by
  unfold Claims.InSegment; decide +kernel

theorem test_foreign_windows : ((abroad 8).xlate core0 3 0xF0200000000010 8 .load).1 = .trap 0x0A ∧
    ((abroad 7).xlate core0 3 0xF020000003FFFC 8 .load).1 = .trap 0x0A := by decide +kernel

/-- A walk that waits in the queue; a partition with paging enabled; one whose fault queue is full. -/
def queued1 (en : BitVec 64) : State := walking { walk1 3 none with active := false } leaf0 { Part.init with xtb := en }
def full1 : Part := { part1 Part.init with xfqt := 2, heldRecs := [(0, ⟨0x12340080, 2, 5, 0, 0, 1, 2, 0, 1, 0⟩, 0)] }

theorem witness_MissesAndReads : Claims.Startable (queued1 0) 0 { walk1 3 none with active := false } ∧ ((queued1 0).part 3).xtb.getLsbD 0 = false ∧
    Claims.Startable (queued1 1) 0 { walk1 3 none with active := false } ∧ ((queued1 1).part 3).xtb.getLsbD 0 = true ∧
    (queued1 1).cachedPointer 0 { walk1 3 none with active := false } = none ∧ (∀ w ∈ (parked1.die 0).walks, w.tag ≠ 3 ∨ w.vpn ≠ 0x1234) ∧
    ((parked1.die 0).walks.filter (fun w => !w.active)).length < 256 := by unfold Claims.Startable; decide +kernel

theorem test_walks_begin : ((after (.walkTableRead 0 6) (queued1 0)).die 0).walks.map (·.result) = [some (.bad 1 0)] ∧
    ((after (.walkTableRead 0 6) (queued1 1)).die 0).walks.map (fun w => (w.active, w.level)) = [(true, 0)] ∧
    ((after (.missQueueEntry 0 0) { parked1 with dies := [(0, { Die.init with held := [(3, req1)], walks := [walk1 3 none] })] }).die 0).walks.map (fun w => w.reqs.length) = [1] := by
  decide +kernel

/-- A strand of a tenant that does not run, parked under fault 5; a fill with a line parked under fault 5. -/
def parkedAway : State := { parked1 with islands := [(0, { Island.init with cfg := 0x83, started := true, resident := [], running := none })] }
def fillReq : WalkReq := ⟨.fill 6 1, .fill, 0x12340080, 0, 0, false, 0, 2⟩

theorem witness_FaultsResolved : parkedAway.residentAt 1 = false ∧ (parkedAway.part 3).parked.find? (fun p => p.fid == 5) = some ⟨5, 2, [req1]⟩ ∧
    full1.heldRecs = (0, ⟨0x12340080, 2, 5, 0, 0, 1, 2, 0, 1, 0⟩, 0) :: [] ∧ ¬ Claims.FaultRoom full1 ∧ fillReq.who = .fill 6 1 := by
  unfold Claims.FaultRoom; decide +kernel

theorem test_faults_resolved : ((after (.xfrReplay 3 5) parkedAway).part 3).resolved = [(1, true, 2, 0x12340080)] ∧
    ((after (.xfrFail 3 5) parkedAway).part 3).resolved = [(1, false, 2, 0x12340080)] ∧
    gives (exec (.faultRecordDeferredWrite 3) { parked1 with parts := [(3, full1)] }) { parked1 with parts := [(3, full1)] } ∧
    (after (.faultRecordDeferredWrite 3) parked1).mem.readBytes (vaultKey 0 0 0x1000) 8 = [2, 0x80, 0, 0x34, 0x12, 0, 0, 0] := by decide +kernel

/-- The device in stage 1, with a command list to walk. -/
def early : State := let s := listed [Claims.opWord 5 0, 0x12340000, 0, 0] id []; { s with dev := { s.dev with stage := 2 } }

theorem test_no_lists_before_stage_2 : early.dev.stage < 3 ∧ exec (.jump 3 1) early = .next early := ⟨by decide, next_of (by decide +kernel)⟩

/- Witnesses: records written and held, fills that fail, list errors of every kind, what headers, cards and fields must be. -/

/-- An older store of die 0 toward die 1 is buffered (its number is 0), so that a release made now has to wait. -/
def behind (s : State) : State := { s.setFifo 0 (.die 1) [{ entry1 with serial := 0 }] with serial := 1 }

theorem witness_Drained : ¬ Claims.Drained (behind (walking (walk1 3 (some (.bad 2 0))) 0 (part1 Part.init))) 0 1 ∧
    Claims.Drained (behind (walking (walk1 3 (some (.bad 2 0))) 0 (part1 Part.init))) 0 0 ∧ Claims.Drained parked1 0 parked1.serial ∧
    Claims.Released { parked1 with dies := [(0, { Die.init with dd := ⟨9, 7, 0, 0⟩ })] } 0 ⟨0, 7, 0, 0⟩ := by
  unfold Claims.Drained Claims.Released; decide +kernel

theorem test_records : (after (.walkEnd 0 6) (walking (walk1 3 (some (.bad 2 0))) 0 (part1 Part.init))).mem.readBytes (vaultKey 0 0 0x1000) 2 = [2, 0x80] ∧
    ((after (.walkEnd 0 6) (behind (walking (walk1 3 (some (.bad 2 0))) 0 (part1 Part.init)))).part 3).heldRecs = [(0, ⟨0x12340080, 2, 0, 0, 0, 1, 2, 0, 1, 0⟩, 1)] ∧
    ((after (.walkEnd 0 6) (behind (walking (walk1 3 (some (.bad 2 0))) 0 (part1 Part.init)))).dev.events) = [] ∧
    gives (exec (.faultRecordDeferredWrite 3) (behind { parked1 with parts := [(3, { part1 Part.init with heldRecs := [(0, ⟨0x12340080, 2, 5, 0, 0, 1, 2, 0, 1, 0⟩, 1)] })] }))
      (behind { parked1 with parts := [(3, { part1 Part.init with heldRecs := [(0, ⟨0x12340080, 2, 5, 0, 0, 1, 2, 0, 1, 0⟩, 1)] })] }) ∧
    ((after (.faultRecordDeferredWrite 3) { parked1 with dies := [(0, { Die.init with dd := ⟨9, 7, 0, 0⟩, heldCount := 1 })] }).lineAt (.vault 0 0 0x1000)).stamp = ⟨0, 7, 0, 0⟩ := by decide +kernel

/-- Line 1 of a fill of 2 lines is parked under fault 5, its line 0 sent and landed, or sent and on its way. -/
def parkedFill (read : List Nat) : State :=
  { tiled 2 .filling 1 with
    fills := [(6, { fill0 with sent := [0], read := read, parked := [⟨1, 5, false⟩] })]
    parts := [(3, { Part.init with parked := [⟨5, 2, [fillReq]⟩] })] }

theorem witness_FaultsResolved_fill : ((parkedFill [0]).part 3).parked.find? (fun p => p.fid == 5) = some ⟨5, 2, [fillReq]⟩ ∧ fillReq.who = .fill 6 1 ∧
    fill0.packets = [] ∧ fill0.bays = [⟨0, true, false, none, false⟩] ∧ (parkedFill [0]).drained 0 false (parkedFill [0]).serial = true ∧
    (∃ l ∈ [0], l ∉ ([] : List Nat)) ∧ ∀ l ∈ [0], l ∈ [0] := by decide +kernel

theorem test_fill_fails : (after (.xfrFail 3 5) (parkedFill [0])).fills = [] ∧ ((after (.xfrFail 3 5) (parkedFill [0])).tile 3 0 0 5).st = .empty ∧
    ((after (.xfrFail 3 5) (parkedFill [0])).tile 3 0 0 5).err = true ∧ ((after (.xfrFail 3 5) (parkedFill [])).fills.map (fun f => (f.2.failed, f.2.parked))) = [(true, [])] ∧
    ((after (.xfrReplay 3 5) (parkedFill [])).fills.map (fun f => f.2.parked)) = [[⟨1, 5, true⟩]] := by decide +kernel

/-- The state of the queue after an instruction at an entry; after the interpreter's turn at it. -/
def stAfter (i : Instr) (ws : List W64) (pc : W64) : W64 := (queueAfter i (listed ws (fun c => { c with pc := pc }) [])).st
def stWalked (ws : List W64) : W64 := ((stepped { listed ws id [] with agenda := [⟨0, .interp 3 1⟩] }).queue 3 1).st

theorem witness_CommandListResult_errors : Claims.Unreadable (listed [] (fun c => { c with pc := 0x12340048 }) []) 3 1 ∧ ¬ Claims.Named 0x12340104 8 ∧ Claims.Named 0x12340104 4 ∧
    (1, 128, 1, Instr.launch 3 1) ∈ Claims.entries 3 1 ∧ ([Claims.opWord 5 0, 0x12340000, 1, 0] : List W64).getD 2 0 ≠ 0 := by
  refine ⟨⟨by decide +kernel, by decide +kernel, by decide +kernel, by decide +kernel, by decide +kernel, .inr (.inl ?_)⟩, ?_, ?_, by decide +kernel, by decide +kernel⟩
  · unfold Claims.Named Claims.windowed; decide +kernel
  · unfold Claims.Named Claims.windowed; decide +kernel
  · unfold Claims.Named Claims.windowed; decide +kernel

theorem test_list_errors : stAfter (.jump 3 1) [Claims.opWord 5 0, 0x12340000, 1, 0] 0x12340040 = 0x8100000000000000 ∧
    stAfter (.jump 3 1) [Claims.opWord 5 1, 0x12340000, 0, 0] 0x12340040 = 0x8100000000000000 ∧
    stAfter (.jump 3 1) [Claims.opWord 5 0, 0x12340000, 0, 0] 0x12340048 = 0x8200000000000000 ∧
    stAfter (.skipif 3 1) [Claims.opWord 4 0, 0x12340104, 0, 0] 0x12340040 = 0x8200000000000000 ∧
    stAfter (.skipif 3 1) [Claims.opWord 4 5, 0x12340100, 0, 0] 0x12340040 = 0x8100000000000000 ∧
    stWalked [Claims.opWord 10 0, 0, 0, 0] = 0x8100000000000000 ∧ stWalked [0, 0, 0, 0] = 0x8100000000000000 ∧
    ((stepped { listed [Claims.opWord 5 0, 0x12340000, 0, 0] id [] with agenda := [⟨0, .interp 3 1⟩] }).queue 3 1).pc = 0x12340000 := by decide +kernel

/-- The header of a launch with a field, whose descriptor stands at 0x12340300. -/
def fieldHeader : List W64 := header.set 5 0x12340300
def goodField : List W64 := fieldWords.set 4 0x0002000000010000
def withField (fd : List W64) : State :=
  let s := launching [Claims.opWord 1 0, 0x12340200, 0, 0] fieldHeader
  { s with mem := wordsAt s.mem (vaultKey 0 0 0x300) fd, insts := [(2, barrier2)] }

theorem witness_FieldRight : (withField goodField).fieldOk 3 goodField = true ∧ (withField goodField).fieldOk 3 (goodField.set 4 0x8000000000010000) = false ∧
    (withField goodField).fieldOk 3 (goodField.set 4 0x00000000FFFFFFFF) = false ∧ (withField goodField).headerOk 3 fieldHeader = true ∧
    ({ withField goodField with fields := [(5, field1)] } : State).fieldOk 3 goodField = false := by decide +kernel

theorem test_launch_field : (queueAfter (.launch 3 1) (withField goodField)).st = 0 ∧
    (queueAfter (.launch 3 1) (withField (goodField.set 4 0x00020000FFFFFFFF))).st = 0x8500000000000000 ∧
    (after (.launch 3 1) (withField goodField)).fields.map (fun f => f.2.bays.map (fun b => (b.bay, b.lo.x, b.hi.x))) = [[(0, 0, 0x20000), (1, 0x20000, 0x40000)]] := by decide +kernel

/- Witnesses: writes to control space, full/empty ranges, held strands. -/

/-- The machine after the start, with nothing placed. -/
def idle : State := { State.reset with dev := { Device.init with stage := 3 }, clock := 200000 }
/-- Control space of partition 3. -/
def block3 (reg : Nat) : Nat := 2 ^ 20 + 2 ^ 16 * 3 + reg
def write3 (s : State) (reg : Nat) (v : W64) : State := after (.registerWrite 31 0 (block3 reg) v .full) s

theorem witness_PartitionRegisterWrite : Claims.NoStrands idle 3 ∧ ¬ Claims.NoStrands plain 3 ∧ Claims.Sound (Claims.written .full 0 0x4000000000010001) 62 0xC000003FFFFF0001#64 ∧
    ¬ Claims.Sound (Claims.written .high 0 0xC0000000) 62 0xC000003FFFFF0001#64 ∧ Claims.written .low 0x1122334455667788 0xFF00000001 = 0x1122334400000001 ∧
    20 ≤ (Claims.written .full 0 0x8000000000000024).toNat % 64 ∧ (idle.queue 3 7).cfg.getLsbD 63 = false ∧ (idle.queue 3 7).cfg &&& 0x7FFFFFFFFFFFE7E0#64 = 0 ∧
    (0x4000000000000005 : W64).toNat = 1 * 2 ^ 62 + 5 ∧ (0x8000000000000005 : W64).toNat = 2 * 2 ^ 62 + 5 := by
  unfold Claims.NoStrands Claims.ResidentOn Claims.Sound; decide +kernel

theorem test_partition_registers : gives (exec (.registerWrite 5 0 (block3 0) 1 .full) idle) (Claims.refusedWrite idle 0x04 (block3 0)) ∧
    ((write3 idle 0 0x4000000000010001).part 3).xtb = 0x4000000000010001 ∧ gives (exec (.registerWrite 31 0 (block3 0) 0x4000000000010001 .full) plain) (Claims.refusedWrite plain 0x04 (block3 0)) ∧ ((write3 idle 0x40 0xFFFFFFFFFFFFFFFF).part 3).fectl = 0xF0FFFFFF ∧
    gives (exec (.registerWrite 3 0 (block3 0x50) 19 .full) idle) (Claims.refusedWrite idle 0x04 (block3 0x50)) ∧
    ((write3 idle 0x80 0x0000006407D00002).part 3).vdsch = 0x0000006407D00002 ∧ gives (exec (.registerWrite 31 0 (block3 0x80) 0 .full) idle) (Claims.refusedWrite idle 0x04 (block3 0x80)) ∧ ((write3 idle 0x9C0 0x8000000000000000).queue 3 7).cfg = 0x8000000000000000 ∧
    ((write3 parked1 0x30 0x4000000000000005).strand 1).status = .waiting ∧ ((write3 parked1 0x30 0x8000000000000005).strand 1).pend = some (0x12, 0x12340080) ∧
    (Tbl.get FenceCtr.init ((write3 idle 0x5F8 9).part 3).fcs 63).v = 9 := by decide +kernel

theorem witness_ControlSpaceWrite : ((0x8384 : W64).toNat / 2 ^ (8 * 0)) % 2 ^ 8 / 2 ^ 7 = 1 ∧ ((0x8384 : W64).toNat / 2 ^ (8 * 1)) % 2 ^ 8 / 2 ^ 7 = 1 ∧ (idle.island 17).resident = [] ∧
    (plain.island 0).resident ≠ [] ∧ (idle.island (islandOf 1 (clusterBay 63 0))).resident = [] ∧ (plain.island (islandOf 0 (clusterBay 0 0))).resident ≠ [] ∧
    (0xFFFF0000FFFF : W64).toNat / 2 ^ 16 % 2 ^ 16 = 0 := by decide +kernel

theorem witness_ControlSpaceWrite_islands : ∀ a < 4, ((0x8384 : W64).toNat / 2 ^ (8 * a)) % 2 ^ 8 / 2 ^ 7 = 1 → ((0x8384 : W64).toNat / 2 ^ (8 * a)) % 2 ^ 5 < 20 ∧
      ∀ b < 4, a ≠ b → ((0x8384 : W64).toNat / 2 ^ (8 * b)) % 2 ^ 8 / 2 ^ 7 = 1 → ((0x8384 : W64).toNat / 2 ^ (8 * a)) % 2 ^ 5 ≠ ((0x8384 : W64).toNat / 2 ^ (8 * b)) % 2 ^ 5 := by
  intro a ha
  interval_cases a <;> decide

theorem test_control_space : ((after (.registerWrite 31 1 (2 ^ 16 + 2 ^ 8) 0x8384 .full) idle).island 17).cfg = 0x8384 ∧
    gives (exec (.registerWrite 31 1 (2 ^ 16 + 2 ^ 8) 0x8383 .full) idle) (Claims.refusedWrite idle 0x04 0x10100) ∧
    gives (exec (.registerWrite 31 0 (2 ^ 16) 0x8384 .full) plain) (Claims.refusedWrite plain 0x04 0x10000) ∧
    ((after (.registerWrite 31 0 0 0xFFFFFFFF .full) idle).die 0).rdcctl = 0x1FFFF ∧ ((after (.registerWrite 31 1 (2 ^ 17 + 2 ^ 8 * 63) 3 .full) idle).cluster 1 63).scsrv = 3 ∧
    ((after (.registerWrite 31 2 (2 ^ 32 + 2 ^ 16 * 5 + 0x8010) 0xFF .full) idle).unit ⟨2, 5, true⟩).hen = 0xFF := by decide +kernel

/-- w5 names the two words at offset 0x100; words 0x100 and 0x110 are full. -/
def ranged : State := { small core0 2 (fun t => { t with regs := t.regs.set 5 0x40100 }) with full := [Claims.wordNo 0 0 0x100, Claims.wordNo 0 0 0x110] }

theorem witness_FullEmptyRange : Claims.FeRange 0x40100 0x100 2 ∧ Claims.FeRange 0x3FFF8 0x3FFF8 1 ∧ (∀ e ∈ (ranged.unit ⟨0, 0, false⟩).park, e.word < Claims.wordNo 0 0 0x100) ∧
    inPart (ranged.spadPart ranged.me.tag 0 0) 0x100 (8 * 2) = true ∧ Claims.here ranged = ⟨0, 0, false⟩ ∧ lo64 ranged.me.regs[5] = 0x40100 ∧ ¬ Claims.OnSpindle ranged := by
  unfold Claims.FeRange Claims.OnSpindle; decide +kernel

theorem witness_FullEmptyRange_half : inPart (State.spadPart { ranged with islands := [(0, { Island.init with cfg := 0x80000000_00000083, resident := [3], running := some 3 })] } 3 0 0) 0x20000 8 = false := by
  decide +kernel

theorem witness_FullEmptyRange_reads : Claims.Reads ranged (.w 5) ranged.me.regs[5] ranged ∧ Claims.NoPrefix ranged := ⟨.reg ranged 5, by unfold Claims.NoPrefix; decide +kernel⟩

theorem witness_FullEmptyRange_refused : ∀ o k, ¬ Claims.FeRange 4 o k := by
  rintro o k ⟨h, _⟩
  have : (4 : W64).toNat = 4 := rfl
  omega

/-- One word is left of a range that CSRW of strand 1 asked to be made full or empty, or control space. -/
def marking (full : Bool) (left : Nat) (x : Option Nat) : State :=
  { ranged with msgs := [(8, .fe 3 0 0 full 0x20 left x)] }

theorem witness_FullEmptyRange_steps : Claims.Marking (marking true 2 none) 8 3 0 0 true 0x20 2 none ∧ Claims.presence (marking true 2 none) 3 0 0 0x20 = Claims.wordNo 0 0 0x100 ∧
    Claims.Marking (marking false 1 (some 1)) 8 3 0 0 false 0x20 1 (some 1) := by unfold Claims.Marking; decide +kernel

theorem test_full_empty : gives (exec (.feempty 0 0 0x40100) ranged) (ranged.addMsg (.fe 31 0 0 false 0x20 2 none)) ∧
    (after (.csrw 0x040 (.w 5) always) ranged).msgs.map (·.2) = [.fe 3 0 0 true 0x20 2 (some 1)] ∧ (after (.csrw 0x041 (.w 5) always) ranged).me.wait = .fe ∧
    (after (.messageDelivery 8) (marking true 2 none)).msgs = [(8, .fe 3 0 0 true 0x21 1 none)] ∧
    (after (.messageDelivery 8) (marking false 1 (some 1))).full = [Claims.wordNo 0 0 0x110] ∧
    ((after (.messageDelivery 8) (marking false 1 (some 1))).strand 1).wait = .reply Claims.noResult ∧
    gives (exec (.csrw 0x040 (.w 3) always) (small core0 2 (fun t => { t with regs := t.regs.set 3 4 }))) ((small core0 2 (fun t => { t with regs := t.regs.set 3 4 })).raise 0x01 (wordOf (.csrw 0x040 (.w 3) always))) := by decide +kernel

/-- Strand 1 is held by a trap, with or without a record's number; partition 3 has a trap queue of 2 records at 0x1000 of bay 0. -/
def heldBy (seq : Option Nat) : State :=
  { small core0 2 (fun t => { t with status := .halted, held := some { seq := seq, evt := 0, cause := 0x22, value := 5, pc := 0x1004, sts := 0, cycle := 8, upto := 0 } }) with
    parts := [(3, { Part.init with xtq := .ofNat 64 (1 * 2 ^ 60 + 2 * 2 ^ 58 + 0x1000) })] }
/-- Strand 1 has waited for a mailbox since cycle 160. -/
def waitingLong (clock : Nat) : State :=
  { small core0 2 (fun t => { t with status := .waiting, wait := .mbx 1 5, hang := 0, hangAt := 160 }) with
    clock := clock, parts := [(3, { Part.init with wdctl := 0x8000000000000014 })] }

theorem witness_HeldStrands : (heldBy none).me.held.map (·.seq) = some none ∧ (((heldBy none).part 3).xtqt - ((heldBy none).part 3).xtqh).toNat < 2 ^ 1 ∧
    place (((heldBy none).part 3).xtq.toNat / 2 ^ 58 % 4) (((heldBy none).part 3).xtq.toNat / 2 ^ 36 % 4) (((heldBy none).part 3).xtq.toNat / 2 ^ 6 % 2 ^ 30 * 64 + 0) 0 = .vault 0 0 0x1000 ∧
    (heldBy (some 4)).me.place = .slot core0 2 ∧ (heldBy (some 4)).me.launch = none ∧ (heldBy none).tenantOf core0 2 = some 3 ∧ (heldBy none).inSlot core0 3 2 = some 1 ∧
    ((waitingLong 9).unit core0).throttled = false ∧ ((waitingLong 9).part 3).wdctl.getLsbD 63 = true ∧ 2 ^ (((waitingLong 9).part 3).wdctl.toNat % 64) ≤ (2 ^ 20 + 160 - 160 : Nat) := by
  decide +kernel

theorem witness_HeldStrands_resolved : Claims.HeldAs (heldBy (some 4)) 3 4 1 { seq := some 4, evt := 0, cause := 0x22, value := 5, pc := 0x1004, sts := 0, cycle := 8, upto := 0 } :=
  ⟨rfl, by decide +kernel, by decide +kernel, by decide +kernel, fun e h _ _ _ _ => by
    have h' : e ∈ [(1, (heldBy (some 4)).strand 1)] := h
    rwa [List.mem_singleton] at h'⟩

theorem test_held : ((after (.trapRecordWrite 1) (heldBy none)).mem.readBytes (vaultKey 0 0 0x1010) 2) = [0x04, 0x10] ∧
    ((after (.trapRecordWrite 1) (heldBy none)).part 3).xtqt = 1 ∧ ((after (.xtrResume 3 4) (heldBy (some 4))).strand 1).status = .ready ∧
    ((after (.xtrResume 3 4) (heldBy (some 4))).strand 1).pc = 0x1004 ∧ ((after (.xtrStop 3 4) (heldBy (some 4))).strand 1).exitw = 0x8000000000000022 ∧
    gives (exec (.xtrStop 3 5) (heldBy (some 4))) (heldBy (some 4)) ∧
    ((after (.dbgcResume core0 4) (small core0 2 (fun t => { t with status := .halted }))).strand 1).status = .ready ∧
    ((after (.dbgcResume core0 4) (heldBy none)).strand 1).status = .halted ∧
    ((after (.watchdogExpiry 1) (waitingLong (2 ^ 20 + 159))).strand 1).status = .waiting ∧ ((after (.watchdogExpiry 1) (waitingLong (2 ^ 20 + 160))).strand 1).status = .halted ∧
    ((after (.watchdogExpiry 1) (waitingLong (2 ^ 20 + 160))).strand 1).held.map (·.evt) = some 3 ∧
    ((write3 (heldBy (some 4)) 0x78 0x4000000000000004).strand 1).status = .ready := by decide +kernel

/-- The watchdog of partition 3 counts a CNTD whose antitoken is parked; a strand that HALT has stopped. -/
def parkedToken (clock : Nat) : State :=
  { waitingLong clock with strands := [(1, { (waitingLong clock).me with wait := .token 8 .anti (.w 4) })], tokens := [token0 1 .anti (.parked 0 3)] }

theorem witness_HeldStrands_token : (∃ k ∈ (parkedToken 9).tokens, k.id = 8 ∧ k.at_ = .parked 0 3) ∧ (parkedToken 9).me.wait = .token 8 .anti (.w 4) ∧
    ((parkedToken 9).island 0).running = some 3 := by decide +kernel

theorem test_watchdog_token : ((after (.watchdogExpiry 1) (parkedToken (2 ^ 20 + 160))).strand 1).status = .halted := by decide +kernel

/-- Registers that control space reads: a halted strand in slot 2, a loom, a field of bays 0 and 1. -/
def readable : State :=
  { small core0 2 (fun t => { t with status := .halted }) with fields := [(5, field1)], tens := [(3, { TenBay.init with loaded := true, loom := loom1, sems := [(1, 5)] })] }

theorem witness_ControlSpaceRead : readable.tenantOf ⟨0, 0, false⟩ 2 = some 3 ∧ readable.inSlot ⟨0, 0, false⟩ 3 2 = some 1 ∧ (readable.strand 1).status = .halted ∧
    (readable.island (islandOf 0 0)).running = some 3 ∧ Claims.LatestField readable 0 0 5 field1 { boxOf 0 0 with cnt0 := 2, ovf := true } := by
  unfold Claims.LatestField; decide +kernel

theorem test_control_reads : readable.controlRead 0 (2 ^ 32 + 0x010) .high = 4 ∧ readable.controlRead 0 (2 ^ 32 + 0x028) .full = 0x8000000000000800 ∧
    readable.controlRead 0 (2 ^ 32 + 0x030) .full = 0x500 ∧ readable.controlRead 0 (2 ^ 32 + 0x040) .full = 0x8000008000000001 ∧
    readable.controlRead 0 (2 ^ 32 + 0x040) .low = 1 ∧ readable.controlRead 0 (2 ^ 32 + 0x048) .full = 0x20000 := by decide +kernel

/-- A tenant that has left the island, with a scratchpad word it left full; its new way is accepted with the word empty. -/
def vacant : State := { idle with tens := [(3, TenBay.init)], full := [Claims.presence idle 3 0 0 0x20] }

theorem witness_ControlSpaceWrite_new : Claims.Vacant vacant 0 ∧ (Tbl.find vacant.tens (32 * (2048 * 0 + 0) + 3)).isSome = true ∧ islandOf 0 0 = 0 ∧
    (0x83 : W64).toNat / 2 ^ (8 * 0) % 2 ^ 8 = 2 ^ 7 + 3 := by unfold Claims.Vacant; decide +kernel

theorem test_new_way : (after (.registerWrite 31 0 (2 ^ 16) 0x83 .full) vacant).full = [] ∧
    ((after (.registerWrite 31 0 (2 ^ 16) 0x83 .full) vacant).island 0).cfg = 0x83 := by decide +kernel

/- Witnesses: control-space writes with a rule of their own, presence bits behind a parked access, trap records behind a release. -/

/-- Queue 7 of partition 3 on die 0, which has passed an increment of fence counter 5; new tenants on an island that still charges tenant 6. -/
def queued7 : State := { idle with parts := [(3, { Part.init with queues := [(7, { CmdQueue.init with applied := [(5, 1)] })] })] }
def charged : State := { idle with islands := [(0, { Island.init with started := true, budgets := [(6, -4), (7, 9)] })] }

theorem test_writes_apply : (Tbl.find ((write3 queued7 0x9C0 0x8000000000000800).part 3).queues 7).map (·.applied) = some [] ∧
    (Tbl.find ((write3 queued7 0x9C0 0x8000000000000000).part 3).queues 7).map (·.applied) = some [(5, 1)] ∧
    (write3 idle 0x28 1).part 3 = idle.part 3 ∧
    gives (exec (.registerWrite 31 0 (block3 0x28) 1 .full) plain) (Claims.refusedWrite plain 0x04 (block3 0x28)) ∧
    Tbl.find ((after (.registerWrite 31 0 (2 ^ 16) 0x8386 .full) charged).island 0).budgets 6 = none ∧
    Tbl.find ((after (.registerWrite 31 0 (2 ^ 16) 0x8386 .full) charged).island 0).budgets 7 = some 9 := by decide +kernel

/-- A word that FEEMPTY is to empty, for which a load that it lets go on has parked. -/
def feBehind : State := { sync (.ldx .bay) .park 0 true 0 with msgs := [(8, .fe 3 0 0 false 0x40 1 none)] }

theorem witness_FullEmptyRange_behind : feBehind.parkFirst ⟨0, 0, false⟩ (Claims.wordNo 0 0 (8 * 0x40)) ≠ none ∧ feBehind.msgs = [(8, .fe 3 0 0 false 0x40 1 none)] := by decide +kernel

theorem test_full_empty_behind : exec (.messageDelivery 8) feBehind = .next feBehind ∧
    (after (.messageDelivery 8) { feBehind with strands := [], full := [Claims.wordNo 0 0 (8 * 0x40)] }).full = [] := ⟨next_of (by decide +kernel), by decide +kernel⟩

/-- Strand 1's trap record waits, made after or before the store that die 0 buffers. -/
def recordBehind (upto : Nat) : State := behind ((heldBy none).setStrand 1 { (heldBy none).me with held := some { seq := none, evt := 0, cause := 0x22, value := 5, pc := 0x1004, sts := 0, cycle := 8, upto := upto } })

theorem witness_HeldStrands_release : ¬ Claims.Drained (recordBehind 1) 0 1 ∧ Claims.Drained (recordBehind 0) 0 0 ∧ ((recordBehind 1).unitOf 1).die < 4 ∧ ((recordBehind 1).part 3).nextSeq < 2 ^ 32 := by
  unfold Claims.Drained; decide +kernel

theorem test_record_release : exec (.trapRecordWrite 1) (recordBehind 1) = .next (recordBehind 1) ∧ ((after (.trapRecordWrite 1) (recordBehind 0)).part 3).xtqt = 1 ∧
    (after (.trapRecordWrite 1) (recordBehind 0)).mem.readBytes (vaultKey 0 0 0x1010) 2 = [0x04, 0x10] := ⟨next_of (by decide +kernel), by decide +kernel⟩

/- Witnesses: slices and hand-overs, resets, the start, links, errors, attestation. -/

/-- Tenants 3 and 4 of island 0, each with a launch of level 0 that needs bay 0; tenant 3 runs and was served last, its slice 100 µs. -/
def rivals (f : Island → Island) : State :=
  { idle with islands := [(0, f { Island.init with cfg := 0x8483, started := true, resident := [3], running := some 3, last := 3 })]
              launches := [(7, launch0 []), (8, { launch0 [] with tag := 4 })].map (fun l => (l.1, { l.2 with left := [0] }))
              tens := (islandBays 0).flatMap (fun b => [(tenKey 0 b 3, { TenBay.init with loaded := true })]), clock := 400000 }

theorem hasWork_rivals (f : Island → Island) (v l : Nat) : Claims.HasWork (rivals f) 0 v l ↔ (v = 3 ∨ v = 4) ∧ l = 0 := by
  constructor
  · rintro (⟨e, he, -⟩ | ⟨e, he, rfl, rfl, -⟩)
    · have h : ((rivals f).part v).queues = [] := rfl
      rw [h] at he; cases he
    · have h : e = (7, { launch0 [] with left := [0] }) ∨ e = (8, { launch0 [] with tag := 4, left := [0] }) := by
        simpa [rivals] using he
      rcases h with rfl | rfl <;> simp [launch0]
  · rintro ⟨rfl | rfl, rfl⟩
    · exact .inr ⟨(7, { launch0 [] with left := [0] }), by simp [rivals], rfl, rfl, 0, by simp [State.launchBays, launch0], by decide⟩
    · exact .inr ⟨(8, { launch0 [] with tag := 4, left := [0] }), by simp [rivals], rfl, rfl, 0, by simp [State.launchBays, launch0], by decide⟩

theorem readyAt_rivals (f : Island → Island) (v l : Nat) : Claims.ReadyAt (rivals f) 0 v l ↔ (v = 3 ∨ v = 4) ∧ l = 0 := by
  unfold Claims.ReadyAt
  simp only [hasWork_rivals]
  constructor
  · exact fun h => h.1
  · exact fun h => ⟨h, fun m hm => by omega⟩

/-- Tenant 4 is the one the serving rule chooses: both have a budget, and it follows tenant 3. -/
theorem chosen_rivals (f : Island → Island) (hc : ((rivals f).island 0).cfg = 0x8483) (hl : ((rivals f).island 0).last = 3)
    (hb : 0 < Claims.budgetOf (rivals f) 0 4) : Claims.Chosen (rivals f) 0 4 0 := by
  have ht : (rivals f).tenantsOf 0 = [3, 4] := by unfold State.tenantsOf; rw [hc]; rfl
  refine ⟨by simp [ht], (readyAt_rivals f 4 0).mpr (by simp), .inl hb, fun w hw m hm _ => ?_⟩
  rw [readyAt_rivals] at hm; rw [hl]; omega

theorem witness_SliceAndBudget : ((rivals id).island 0).running = some 3 ∧ ((rivals id).island 0).sliceAt + Claims.sliceOf (rivals id) 3 * 4000 ≤ (rivals id).clock ∧
    0 < Claims.budgetOf (rivals id) 0 3 ∧ Claims.budgetOf (rivals (fun i => { i with budgets := [(3, 0)] })) 0 3 ≤ 0 ∧
    0 < Claims.budgetOf (rivals (fun i => { i with budgets := [(3, 0)] })) 0 4 ∧ (rivals id).clock < ((rivals (fun i => { i with sliceAt := 1 })).island 0).sliceAt + 100 * 4000 := by
  decide +kernel

theorem witness_SliceAndBudget_chosen : Claims.Chosen (rivals id) 0 4 0 ∧ Claims.Chosen (rivals (fun i => { i with budgets := [(3, 0)] })) 0 4 0 ∧ Claims.ReadyAt (rivals id) 0 3 0 :=
  ⟨chosen_rivals id rfl rfl (by decide +kernel), chosen_rivals _ rfl rfl (by decide +kernel), (readyAt_rivals id 3 0).mpr (by simp)⟩

/-- The resident alone has work, so that the serving rule still chooses it. -/
def alone : State := { rivals (fun i => { i with cfg := 0x83 }) with launches := [(7, { launch0 [] with left := [0] })] }

theorem witness_SliceAndBudget_alone : Claims.Chosen alone 0 3 0 := by
  have hw : ∀ v l, Claims.HasWork alone 0 v l → l = 0 ∧ v = 3 := by
    rintro v l (⟨e, he, -⟩ | ⟨e, he, rfl, rfl, -⟩)
    · have h : (alone.part v).queues = [] := rfl
      rw [h] at he; cases he
    · have h : e = (7, { launch0 [] with left := [0] }) := by simpa [alone] using he
      subst h; exact ⟨rfl, rfl⟩
  refine ⟨by decide, ⟨.inr ⟨(7, { launch0 [] with left := [0] }), by simp [alone], rfl, rfl, 0, by simp [State.launchBays, launch0], by decide⟩, fun m _ => Nat.zero_le m⟩, .inl (by decide +kernel), fun w _ m hm _ => ?_⟩
  have := hw w m hm.1
  have hl : (alone.island 0).last = 3 := rfl
  omega

theorem test_slices : ((after (.sliceExpiry 0) (rivals id)).island 0).next = some 4 ∧ ((after (.sliceExpiry 0) alone).island 0).sliceAt = 400000 ∧
    ((after (.budgetExhausted 0) (rivals (fun i => { i with budgets := [(3, 0)] }))).island 0).next = some 4 ∧
    exec (.budgetExhausted 0) (rivals id) = .next (rivals id) := ⟨by decide +kernel, by decide +kernel, by decide +kernel, next_of (by decide +kernel)⟩

def handing : State := rivals (fun i => { i with next := some 4, handAt := 399982 })

theorem witness_HandOverResult : Claims.GivesWay handing 0 4 ∧ (handing.island 0).handAt + 18 ≤ handing.clock ∧ handing.allLoaded 0 3 = true ∧ (handing.island 0).cfg.getLsbD 63 = false :=
  ⟨⟨0, chosen_rivals _ rfl rfl (by decide +kernel), .inr ⟨3, rfl, by decide, .inr ⟨0, (readyAt_rivals _ 3 0).mpr (by simp), .inr rfl⟩⟩⟩, by decide +kernel⟩

/-- Halves: tenants 3 and 4 in half 0, tenant 5 in half 1; 3 and 5 are resident, and 4 is coming. -/
theorem witness_HandOverResult_halves : Claims.HalfOf 0x8000000000C58483 3 0 ∧ Claims.HalfOf 0x8000000000C58483 4 0 ∧ Claims.HalfOf 0x8000000000C58483 5 1 := by
  refine ⟨⟨_, rfl, rfl⟩, ⟨_, rfl, rfl⟩, ⟨_, rfl, rfl⟩⟩

/-- Tenant 4 has been given the island; bay 0 still holds tenant 3's range. -/
def handed : State :=
  { (rivals (fun i => { i with resident := [4], running := some 4, prev := some 3, handAt := 399982 })) with
    tens := [(3, { TenBay.init with loaded := true })], mem := [(spadKey 0 0 0x10, 0xAA), (savedKey 4 0 0 0x10, 0xBB)] }

theorem witness_HandOverResult_range : handed.mem.wf = true ∧ (handed.ten 0 0 4).loaded = false ∧ (handed.island 0).handAt + 18 ≤ handed.clock ∧
    (handed.tens.filter (fun e => e.1 / 32 == 2048 * 0 + 0 && e.2.loaded && !(handed.island 0).resident.contains (e.1 % 32))).map (fun e => e.1 % 32) = [3] := by decide +kernel

theorem test_hand_over : ((after (.handOver 0 4) handing).island 0).running = some 4 ∧ ((after (.handOver 0 4) handing).island 0).prev = some 3 ∧
    ((after (.handOver 0 4) handing).island 0).resident = [4] ∧ gives (exec (.handOver 0 3) handing) handing ∧ (after (.rangeLoaded 0 0 4) handed).mem.read (spadKey 0 0 0x10) = 0xBB ∧
    (after (.rangeLoaded 0 0 4) handed).mem.read (savedKey 3 0 0 0x10) = 0xAA ∧ ((after (.rangeLoaded 0 0 4) handed).ten 0 0 4).loaded = true ∧
    handed.tenantOf core0 5 = some 4 ∧ State.tenantOf { handed with islands := [(0, { handed.island 0 with handAt := 400000 })] } core0 5 = some 3 := by decide +kernel

/-- Bay 0 holds tenant 3's range. -/
def holding : State := { plain with mem := [(spadKey 0 0 0x10, 0xAA)], tens := [(3, { TenBay.init with loaded := true })] }

theorem witness_PartitionResetResult : holding.rbuf = [] ∧ holding.lbuf = [] ∧ holding.insts = [] ∧ (tenKey 0 0 3, { TenBay.init with loaded := true }) ∈ holding.tens ∧
    (holding.ten 0 0 3).loaded = true ∧ holding.strands.map (·.2.tag) = [3] := by decide +kernel

theorem test_resets : (after (.partitionReset 3) holding).strands = [] ∧ (after (.partitionReset 3) holding).mem = [] ∧ ((after (.partitionReset 3) holding).island 0).resident = [] ∧
    exec (.partitionReset 20) holding = .next holding ∧ (after .pf0Reset holding).strands = [] := ⟨by decide +kernel, by decide +kernel, by decide +kernel, next_of (by decide +kernel), by decide +kernel⟩

def starting (n clock : Nat) : State :=
  { State.reset with dev := { Device.init with stage := 2 }, clock := clock, islands := [(n - 1, { Island.init with started := true, at_ := 100 })] }

theorem witness_StagesOfStart : State.reset.dev.stage = 0 ∧ (5 : BitVec 14).toNat ∉ [4, 6] ∧ (5 : BitVec 14).toNat ∈ [4, 5] ∧ ((starting 63 80100).island 63).started = false ∧
    ((starting 63 80100).island 63).failed = false ∧ ((starting 63 80100).island (63 - 1)).at_ + 80000 ≤ (starting 63 80100).clock ∧ ((starting 63 80100).island (62 - 1)).started = false ∧
    (starting 63 80099).clock < ((starting 63 80100).island (63 - 1)).at_ + 80000 ∧ (plain.cluster 0 (clusterOf 0)).spareUsed = false ∧ (plain.island 0).started = true ∧
    (State.cluster { plain with clusters := [(0, { Cluster.init with spareUsed := true })] } 0 (clusterOf 0)).spareUsed = true := by decide +kernel

theorem test_start : (after (.powerGood 5 [4, 6]) State.reset).dev.stage = 1 ∧ (after (.powerGood 5 [4, 5]) State.reset).dev.domain = [] ∧
    (after (.islandStart 63 true) (starting 63 80100)).dev.stage = 3 ∧ gives (exec (.islandStart 63 true) (starting 63 80099)) (starting 63 80099) ∧
    ((after (.islandStart 0 false) { State.reset with dev := { Device.init with stage := 1 } }).island 0).failed = true ∧ ((after (.islandUpdate 0 false) plain).island 0).failed = true ∧
    ((after (.baySparing 0 3) plain).cluster 0 (clusterOf 3)).spareFor = some 3 ∧
    ((after (.baySparing 0 0) { plain with clusters := [(0, { Cluster.init with spareUsed := true })] }).island 0).failed = true := by decide +kernel

/-- Device 5 of a domain with device 7; word 0x80 of bay 1 of die 2 holds 0x11. -/
def linked (f : Link → Link) : State :=
  { idle with dev := { Device.init with stage := 3, num := 5, domain := [7] }, links := [(7, f Link.init)], mem := [(spadKey 2 1 0x80, 0x11)] }
/-- The scratchpad byte at offset 0x80 of bay 1 of die 2 (Table 1-2). -/
def gpa1 : W64 := .ofNat 64 (5 * 2 ^ 50 + 2 * 2 ^ 48 + 2 ^ 46 + 1 * 2 ^ 18 + 0x80)
def asked (k : ForeignKind) : ForeignReq := ⟨7, 12, gpa1, 8, k⟩

theorem witness_LinkResult : 7 ∈ (linked id).dev.domain ∧ 5 ∉ (linked id).dev.domain ∧ (Tbl.get Link.init (linked id).links 7).failed = false ∧
    (asked .load).gpa.toNat % 128 + (asked .load).size ≤ 128 ∧ Tbl.find (Tbl.get Link.init (linked id).links 7).answers 12 = none ∧
    Tbl.find (Tbl.get Link.init (linked (fun k => { k with answers := [(12, 5)] })).links 7).answers 12 = some 5 ∧
    Claims.GpaAt (linked id) gpa1 (.spad 2 1 0x80) ∧ Claims.HasKey (linked id) 31 (.spad 2 1 0x80) (spadKey 2 1 0x80) ∧
    Claims.atomicStores .add 8 0x11 1 = some 0x12 ∧ Claims.atomicStores .cas 8 0x11 1 = none := by
  refine ⟨by decide, by decide, rfl, by decide, rfl, rfl, ⟨2, 0x80, by decide, .inr ⟨1, by decide, by decide, by decide, rfl⟩⟩, by unfold Claims.HasKey; decide +kernel, by decide +kernel⟩

theorem test_links : (after (.foreignRequest (asked (.atomic .add 1))) (linked id)).mem = [(spadKey 2 1 0x80, 0x12)] ∧
    Tbl.find (Tbl.get Link.init (after (.foreignRequest (asked (.atomic .add 1))) (linked id)).links 7).answers 12 = some 0x11 ∧
    (after (.foreignRequest (asked (.store 0x33))) (linked (fun k => { k with answers := [(12, 5)] }))).mem = [(spadKey 2 1 0x80, 0x11)] ∧
    (Tbl.get Link.init (after (.linkFailure 7) (linked id)).links 7).failed = true ∧ gives (exec (.linkFailure 5) (linked id)) (linked id) := by decide +kernel

theorem witness_MaintenanceAndErrors : (∀ e ∈ plain.dies, e.2.laneOut = false ∧ e.2.hostLaneOut = false) ∧
    (State.die { plain with dies := [(1, { Die.init with laneOut := true })] } 1).laneOut = true ∧ (plain.unit ⟨0, 0, false⟩).throttled = false := by decide +kernel

theorem test_errors : ((after (.correctedError 2) plain).die 2).raslog = 0x0001000000000000 ∧ ((after (.flitRetry 2) plain).die 2).raslog = 0x100000 ∧
    ((after (.laneRecalibration 1 false true) plain).die 1).laneOut = true ∧ ((after (.laneRecalibration 1 false true) plain).die 1).raslog = 0x1000 ∧
    gives (exec (.laneRecalibration 1 true true) { plain with dies := [(2, { Die.init with laneOut := true })] }) { plain with dies := [(2, { Die.init with laneOut := true })] } ∧
    ((after (.thermalThrottleEvent 0 0 true) plain).unit spin0).throttled = true ∧ ((after (.thermalThrottleEvent 0 0 true) plain).die 0).raslog = 1 := by decide +kernel

theorem witness_AttestationAndMeters : idle.dev.stage ≠ 0 ∧ State.reset.dev.stage = 0 := by decide

theorem test_meters : ((after (.meterIncrement 3 8 5) { idle with parts := [(3, { Part.init with owed := [0, 0, 0, 0, 0, 0, 0, 0, 1] })] }).part 3).meters.getD 8 0 = 5 ∧
    gives (exec (.meterIncrement 3 8 5) idle) idle ∧ gives (exec (.meterIncrement 3 9 5) idle) idle ∧
    ((after (.meterIncrement 3 0 5) { idle with parts := [(3, { Part.init with owed := [1], meters := [2 ^ 64 - 3] })] }).part 3).meters = [2 ^ 64 - 1] ∧
    ((after (.meterSnapshot 3 0) idle).part 3).snaps = 1 ∧ gives (exec (.getVersion) State.reset) State.reset ∧ (after .getVersion idle).dev.events.length = 1 := by decide +kernel

/- Witnesses: displacement with halves, multicast fills under way, resets of what is in flight, stages, errors and meters. -/

/-- Tenants 3 (half 0, running) and 5 (half 1) are resident on island 0, and tenant 6 of half 1 is to come. -/
def shared : State :=
  { rivals (fun i => { i with cfg := 0x8000000000C6C583, resident := [5, 3], running := some 3, next := some 6, handAt := 399982 }) with
    launches := [(7, { launch0 [] with left := [0] }), (8, { launch0 [] with tag := 6, left := [0] })] }

theorem witness_RangeExchange_shadow : Claims.FromShadow (shared.island 0) 6 ∧ Claims.Displaces (shared.island 0) 6 5 ∧ (shared.island 0).handAt + 18 ≤ shared.clock := by
  have h5 : Claims.HalfOf (shared.island 0).cfg 5 1 := ⟨_, rfl, rfl⟩
  have h6 : Claims.HalfOf (shared.island 0).cfg 6 1 := ⟨_, rfl, rfl⟩
  refine ⟨⟨by decide +kernel, by decide +kernel, 3, by decide +kernel, fun h => ?_⟩, ⟨by decide +kernel, by decide +kernel, .inr ⟨1, h5, h6⟩⟩, by decide +kernel⟩
  obtain ⟨-, -, h | ⟨k, ⟨e, he, rfl⟩, f, hf, hk⟩⟩ := h
  · exact absurd h (by decide +kernel)
  · have he' : (tenantEntries (shared.island 0).cfg).find? (fun e => e.2.2 == 3) = some (0, 0, 3) := by decide +kernel
    have hf' : (tenantEntries (shared.island 0).cfg).find? (fun e => e.2.2 == 6) = some (2, 1, 6) := by decide +kernel
    rw [he'] at he; rw [hf'] at hf
    cases he; cases hf; exact absurd hk (by decide)

theorem test_exchange_ahead : gives (exec (.handOver 0 6) shared) shared ∧ ((after (.rangeLoaded 0 0 6) shared).ten 0 0 6).loaded = true ∧
    ((after (.rangeLoaded 0 0 6) shared).island 0).running = some 3 ∧ ((after (.rangeLoaded 0 0 6) shared).island 0).resident = [3, 6] := by decide +kernel

/-- A multicast fill of tenant 3 from bay 0, as given; one of two lines whose line 0 has landed and whose line 1 is parked under fault 5. -/
def casting (f : Fill) : State := { plain with fills := [(6, { f with multi := true })] }
def parkedCast : Fill := { fill0 with sent := [0], read := [0], parked := [⟨1, 5, false⟩] }

theorem castingStill (f : Fill) (ht : f.tag = 3) (hi : islandOf f.die f.bay = 0) : Claims.MulticastsStill (casting f) 0 3 ↔ f.open_ = true ∧ f.packets = [] ∧
    (∀ l ∈ f.sent, l ∈ f.read) ∧ (f.failed = true ∨ f.sent.length = f.lines ∨ ∃ p ∈ f.parked, p.freed = false) := by
  simp [Claims.MulticastsStill, casting, ht, hi]

theorem witness_MulticastsStill : ¬ Claims.MulticastsStill (casting { fill0 with sent := [0] }) 0 3 ∧ ¬ Claims.MulticastsStill (casting { parkedCast with open_ := false }) 0 3 ∧
    Claims.MulticastsStill (casting parkedCast) 0 3 ∧ (∀ v ∈ ((casting parkedCast).island 0).resident, v = 3) := by
  refine ⟨?_, ?_, ?_, by decide +kernel⟩
  · rw [castingStill _ rfl (by decide +kernel)]; decide +kernel
  · rw [castingStill _ rfl (by decide +kernel)]; decide +kernel
  · rw [castingStill _ rfl (by decide +kernel)]; decide +kernel

theorem test_eviction_waits : exec (.islandUpdate 0 true) (casting { fill0 with sent := [0] }) = .next (casting { fill0 with sent := [0] }) ∧
    exec (.islandUpdate 0 true) (casting { parkedCast with open_ := false }) = .next (casting { parkedCast with open_ := false }) ∧
    ((after (.islandUpdate 0 true) (casting parkedCast)).island 0).resident = [] ∧
    exec (.baySparing 0 3) (casting { fill0 with sent := [0] }) = .next (casting { fill0 with sent := [0] }) :=
  ⟨next_of (by decide +kernel), next_of (by decide +kernel), by decide +kernel, next_of (by decide +kernel)⟩

/-- Strand 1 has sent an atomic to a vault byte; a store to die 2 is buffered, and nothing else of partition 3 is in flight. -/
def sent1 : State := atHome (.atomic .add .rlx .bay .w) 4 5 (.vault 0 1 0x200) id
def entry2 : BufEntry := BufEntry.mk 0 3 (.bytes (.vault 2 1 0x200) [0x11, 0x22]) ⟨6, 0, 0, 0⟩ none .none false

theorem witness_PartitionResetResult_flight : Claims.Quiet sent1 3 1 ∧ (sent1.strand 1).status = .waiting ∧
    (Loc.vault 0 1 0x200).target (sent1.dieOf 1) = none ∧ Claims.Quiet plain 3 1 ∧ (∀ e ∈ plain.strands, e.2.tag = 3 → e.2.status ≠ .waiting) ∧
    entry2.act = .bytes (.vault 2 1 0x200) [0x11, 0x22] ∧ entry2.land = none ∧ plain.mem.wf = true := by
  refine ⟨⟨rfl, rfl, by decide +kernel, by decide +kernel, by decide +kernel, by decide +kernel, ?_⟩, by decide +kernel, by decide +kernel,
    ⟨rfl, rfl, by decide +kernel, by decide +kernel, by decide +kernel, by decide +kernel, ?_⟩, by decide +kernel, rfl, rfl, by decide +kernel⟩ <;> exact nofun

theorem test_reset_performs : (after (.partitionReset 3) sent1).mem.read (vaultKey 0 1 0x200) = 0x39 ∧
    (after (.partitionReset 3) (plain.setFifo 0 (.die 2) [entry2])).mem.read (vaultKey 2 1 0x201) = 0x22 ∧
    Tbl.get LineOrder.init (after (.partitionReset 3) { holding with lines := [(Claims.scratchLine 0 0 0x80, ⟨3, 4, .zero⟩)] }).lines (Claims.scratchLine 0 0 0x80) = LineOrder.init := by
  decide +kernel

theorem test_stages : (after (.islandStart 0 true) (after (.powerGood 5 [4, 6]) State.reset)).dev.num = 5 ∧
    (after (.islandStart 63 true) { starting 63 80100 with dev := { Device.init with stage := 2, conf := (5, [4, 6]) } }).dev.domain = [4, 6] ∧
    (after (.islandStart 63 true) { starting 63 80100 with dev := { Device.init with stage := 2, conf := (5, [4, 5]) } }).dev.events = [.deviceEvent 5] ∧
    State.reset.vfConfigRead = .retry ∧ idle.vfConfigRead ≠ .retry := by decide +kernel

/-- An error has reached line 4 of bay 1 of die 0 and nothing has read it. -/
def marked : State := (plain.uncorrectable 0 1 4).getD plain

theorem witness_MaintenanceAndErrors_read : (vaultKey 0 1 0x200 / 128, [vaultKey 0 1 0x200 / 128]) ∈ marked.errs ∧ 0 < (marked.die 0).raslog.toNat / 2 ^ 40 % 2 ^ 8 ∧ (marked.errs.map (·.1)).Nodup ∧
    marked.errs.filter (fun e => e.2.contains (vaultKey 0 1 0x200 / 128)) = [(vaultKey 0 1 0x200 / 128, [vaultKey 0 1 0x200 / 128])] := by decide +kernel

theorem test_error_consumed : (marked.die 0).raslog = 0x10000000000 ∧ marked.poison.length = 16 ∧ ((marked.eat 0 3 (.vault 0 1 0x208) 8).die 0).raslog = 0 ∧
    (marked.eat 0 3 (.vault 0 1 0x208) 8).poison.length = 15 ∧ (marked.eat 0 3 (.vault 0 1 0x208) 8).errs = [] ∧
    ((after (.uncorrectableError 0 1 262144) plain).die 0).raslog = 0x10000000000 ∧ gives (exec (.uncorrectableError 0 1 262145) plain) plain := by decide +kernel

theorem test_meters_owed : ((after (.nop always) plain).part 3).owed.getD 0 0 = 0 ∧
    ((after (.meterIncrement 3 5 2) { idle with parts := [(3, { Part.init with owed := [0, 0, 0, 0, 0, 5] })] }).part 3).owed.getD 5 0 = 3 ∧
    exec (.meterIncrement 3 5 6) { idle with parts := [(3, { Part.init with owed := [0, 0, 0, 0, 0, 5] })] } =
      .next { idle with parts := [(3, { Part.init with owed := [0, 0, 0, 0, 0, 5] })] } := ⟨by decide +kernel, by decide +kernel, next_of (by decide +kernel)⟩

/- Witnesses: a reset's reach, sparing before the start, errors carried to other lines, meters that are owed. -/

/-- Partition 3 reaches line 4 of bay 1 of die 2 through its frame map, whose word for region 128 stands in bay 0; die 0 holds a copy of the line,
a window line of bay 0 has times, a byte of the bay's save area is listed, and partition 4 has a strand and bay state. -/
def reaching : State :=
  { holding with
    parts := [(3, { Part.init with xtb := 1, xfm := 0x8000000000020000 })], rdc := [copy0]
    mem := (wordsAt [] (vaultKey 0 0 0x20000) [0, 0, 1]).writeBytes (savedKey 3 0 1 7) [0x55]
    lines := [(vaultKey 2 1 0x200 / 128, ⟨3, 4, .zero⟩), (2 ^ 41 + 5, ⟨3, 4, .zero⟩), (2 ^ 50 + 2 ^ 41 + 5, ⟨3, 4, .zero⟩)]
    strands := holding.strands ++ [(2, { strandIn core1 2 with tag := 4 })], tens := holding.tens ++ [(tenKey 0 1 4, { TenBay.init with sems := [(1, 5)] })] }

theorem witness_PartitionResetResult_reach : Claims.Quiet reaching 3 9 ∧ (∀ e ∈ reaching.strands, e.2.tag = 3 → e.2.status ≠ .waiting ∧ e.2.split = none) ∧
    (reaching.part 3).xtb.getLsbD 0 = true ∧ 128 ∈ lineRegions 2 1 4 ∧ reaching.frameBit 3 128 2 = true ∧ vaultKey 2 1 (128 * 4) / 128 = copy0.line ∧
    reaching.ownsBay 3 0 0 = true ∧ (reaching.strand 2).tag ≠ 3 ∧ (∀ e ∈ reaching.tens, e.1 < 2 ^ 18) := by
  refine ⟨⟨rfl, rfl, by decide +kernel, by decide +kernel, by decide +kernel, by decide +kernel, nofun⟩, by decide +kernel⟩

theorem test_reset_reach : (after (.partitionReset 3) reaching).rdc = [] ∧
    (after (.partitionReset 3) reaching).lines.map (·.1) = [] ∧
    (after (.partitionReset 3) reaching).mem.read (savedKey 3 0 1 7) = 0 ∧ (after (.partitionReset 3) reaching).strand 2 = reaching.strand 2 ∧
    (after (.partitionReset 3) reaching).ten 0 1 4 = reaching.ten 0 1 4 := by decide +kernel

theorem test_sparing_unstarted : exec (.baySparing 0 3) { plain with islands := [] } = .next { plain with islands := [] } := next_of (by decide +kernel)

/-- The error of line 4 of bay 1 of die 0 has been carried to line 8 of bay 0 too. -/
def carried : State := { marked with errs := [(vaultKey 0 1 0x200 / 128, [vaultKey 0 1 0x200 / 128, vaultKey 0 0 0x400 / 128])], poison := marked.poison ++ [vaultKey 0 0 0x400 / 8] }

theorem test_error_carried : (carried.eat 0 3 (.vault 0 0 0x400) 8).errs = [] ∧ ((carried.eat 0 3 (.vault 0 0 0x400) 8).die 0).raslog = 0 ∧
    ((carried.eat 0 3 (.vault 0 0 0x600) 8).errs.map (·.1)) = [vaultKey 0 1 0x200 / 128] ∧
    ((after (.uncorrectableError 0 1 4) carried).errs) = carried.errs ∧ ((after (.uncorrectableError 0 1 4) carried).die 0).raslog = (carried.die 0).raslog := by decide +kernel

/-- Of partition 3, an access and two issues are to be reported. -/
def owing : State := { idle with parts := [(3, { Part.init with owed := [0, 0, 0, 0, 0, 2, 1, 0, 2] })] }

theorem test_meters_due : ((after (.meterIncrement 3 6 64) owing).part 3).meters.getD 6 0 = 64 ∧ ((after (.meterIncrement 3 6 64) owing).part 3).owed.getD 6 0 = 0 ∧
    ((after (.meterIncrement 3 8 500) owing).part 3).owed.getD 8 0 = 1 ∧ exec (.meterIncrement 3 7 1) owing = .next owing :=
  ⟨by decide +kernel, by decide +kernel, by decide +kernel, next_of (by decide +kernel)⟩

/- Witnesses: steps, encodings, invariants. -/

/-- The word of `add w4, w1, w3` at the strand's pc, and the strand's slot's turn is the next choice. -/
def turning (n : Nat) (f : Strand → Strand) (ws : List Byte) : State :=
  { (small core0 2 f).modUnit core0 (fun c => { c with tlb := [⟨3, 3, 0, codeLeaf⟩] }) with
    mem := Memory.writeBytes [] 0x1000 ws, agenda := [⟨2, .turn core0 n true⟩], clock := 160, parts := [(3, { Part.init with xtb := 1 })] }
def addWord : List Byte := leBytes 4 ((encode (.add (.w 4) (.w 1) (.w 3) always)).getD 0).toNat
/-- In the turn: the agenda is taken, the clock has advanced, the turn is noted and the strand issues. -/
def inTurn (s : State) : State := { s with agenda := [], clock := 162 }.modUnit core0 (fun k => { k with lastTurn := 163 })
def issuing (s : State) : State :=
  { (inTurn s).setStrand 1 { (inTurn s).strand 1 with borrowed := false, noBorrow := ((inTurn s).strand 1).noBorrow - 1 } with cur := 1, lent := false }

theorem noTurn_of {s : State} {dt : Nat} (h : s.strands.all (fun e => match e.2.place with
    | .slot u n => e.2.status != .ready || decide (dt ≤ s.untilTurn u n)
    | _ => true) = true) : Claims.NoTurnWithin s dt := by
  intro e he u n hp hs _ _ _
  have := List.all_eq_true.mp h e he
  rw [hp] at this; simpa [hs] using this

theorem ownTurn_turning : Claims.SlotTurn (turning 2 id addWord) core0 2 1 2 3 true (inTurn (turning 2 id addWord)) := by
  unfold Claims.SlotTurn
  exact ⟨inTurn (turning 2 id addWord), ⟨[], { turning 2 id addWord with agenda := [], clock := 162 }, 162, rfl, noTurn_of (by decide +kernel), rfl,
    by unfold Claims.Running; decide +kernel⟩, .inl ⟨by decide +kernel, rfl⟩, by decide +kernel⟩

theorem witness_StepRunsTheFetchedInstruction : Claims.OwnTurn (turning 2 id addWord) core0 2 1 2 (issuing (turning 2 id addWord)) :=
  ⟨true, inTurn (turning 2 id addWord), .inl ⟨3, ownTurn_turning⟩, by decide +kernel, by unfold Claims.BackNow; decide +kernel,
    by decide +kernel, by decide +kernel, by decide +kernel, by decide +kernel, nofun, rfl⟩

theorem witness_StepRunsTheFetchedInstruction_fetch : (issuing (turning 2 id addWord)).me.pc.toNat < 2 ^ 56 ∧ ¬ Claims.windowed (issuing (turning 2 id addWord)).me.pc ∧
    ((issuing (turning 2 id addWord)).paged core0 3 0x1000 .fetch).1 = .ok ⟨.vault 0 0 0x1000, true, false, false, 16⟩ ∧
    (issuing (turning 2 id addWord)).badAt 3 (.vault 0 0 0x1000) 4 = false ∧ decode (.ofNat 32 (leNat addWord)) = .ok (.add (.w 4) (.w 1) (.w 3) always) ∧
    (∃ e, decode 0 = .error e) ∧ Claims.windowed (0xF0000000000000 : W64) ∧ 2 ^ 56 ≤ (0x100000000000000 : W64).toNat := by
  refine ⟨by decide +kernel, by unfold Claims.windowed; decide +kernel, by decide +kernel, by decide +kernel, by decide +kernel, ⟨_, rfl⟩, by unfold Claims.windowed; decide +kernel, by decide⟩

theorem witness_StepTakesTheChoice : ((inTurn (turning 2 (fun t => { t with status := .halted }) [])).strand 1).status = .halted ∧
    ((inTurn (turning 2 (fun t => { t with pend := some (0x12, 5) }) [])).strand 1).pend.isSome = true ∧
    Claims.inTurns (.sliceExpiry 3) = false ∧ Claims.inTurns (.imm 5) = true ∧ State.unitCycle (inTurn (turning 7 id [])) core0 % 16 ≠ 7 := by decide +kernel

/-- Strand 1 waits in slot 2 and strand 2 is ready in slot 1, at the word of the addition. -/
def lending : State :=
  let s := turning 2 (fun t => { t with status := .waiting, wait := .mbx 1 5 }) addWord
  { s with strands := s.strands ++ [(2, strandIn core0 1)], agenda := [⟨0, .turn core0 2 true⟩], clock := 162 }

theorem witness_StepTakesTheChoice_lent : Claims.SlotTurn lending core0 2 1 0 3 true (inTurn lending) ∧ ((inTurn lending).strand 1).status = .waiting ∧
    (inTurn lending).inSlot core0 3 1 = some 2 ∧ ((inTurn lending).strand 2).status = .ready ∧ (inTurn lending).present 2 = true ∧ ((inTurn lending).strand 2).pend = none ∧
    mayBorrow ((inTurn lending).strand 2) (.add (.w 4) (.w 1) (.w 3) always) (inTurn lending).clock ((1 + 16 - 2) % 16) = true ∧
    (∀ k < 16, k ≠ 2 → k ≠ 0 → (2 + 16 - k) % 16 < (2 + 16 - 1) % 16 → (inTurn lending).inSlot core0 3 k = none) := by
  unfold Claims.SlotTurn
  exact ⟨⟨inTurn lending, ⟨[], { lending with agenda := [] }, 162, rfl, noTurn_of (by decide +kernel), rfl, by unfold Claims.Running; decide +kernel⟩,
    .inl ⟨by decide +kernel, rfl⟩, by decide +kernel⟩, by decide +kernel⟩

theorem test_steps : ((stepped (turning 2 id addWord)).strand 1).regs[4] = 0x47 ∧ ((stepped (turning 2 id addWord)).strand 1).pc = 0x1004 ∧
    ((stepped (turning 2 id [0, 0, 0, 0])).strand 1).held.map (·.cause) = some 0x01 ∧ (stepped (turning 7 id addWord)).strand 1 = (turning 7 id addWord).strand 1 ∧
    (stepped (turning 7 id addWord)).clock = 162 ∧ ((stepped (turning 2 (fun t => { t with pc := 0xF0000000000000 }) [])).strand 1).held.map (·.cause) = some 0x0A ∧
    ((stepped lending).strand 2).regs[4] = 0x47 ∧ ((stepped lending).strand 2).borrowed = true ∧ (stepped lending).lent = false ∧
    ((stepped { lending with agenda := [⟨0, .turn core0 2 false⟩] }).strand 2).regs[4] = 0 := by decide +kernel

/-- A word placed where the step fetches next runs as the first instruction (log 18). -/
theorem test_placed : ((stepped (State.reset.withFetchWord 32 ((encode (.addi (.w 4) .wz 0x7F8 always)).getD 0).toNat)).strand State.reset.nextId).regs[4] = 0xFFFFFFFFFFFFFFF8 := by decide +kernel

theorem witness_EncodingRoundTrip : (Instr.add (.w 4) (.w 1) (.w 3) never).wf = true ∧ encode (.add (.w 4) (.w 1) (.w 3) always) = some 0x04811800 ∧
    Claims.guardOf (.add (.w 4) (.w 1) (.w 3) never) = some never := by decide +kernel

theorem witness_MemoryStaysCanonical : State.reset.mem.wf = true ∧ (turning 2 id addWord).mem.wf = true := by decide +kernel

theorem witness_P0StaysOne : Claims.P0IsOne State.reset ∧ Claims.P0IsOne (turning 2 id addWord) := by unfold Claims.P0IsOne; decide +kernel

/- Witnesses: a turn that comes before the choice, a wait issued again, an undelivered register, a program strand that runs on. -/

/-- The next choice comes after the turn of slot 2, whose strand is ready. -/
def overdue (i : Instr) : State := { turning 2 id addWord with agenda := [⟨9, .event i⟩] }

theorem witness_StepTakesTheChoice_overdue : (1, (overdue (.sliceExpiry 3)).strand 1) ∈ (overdue (.sliceExpiry 3)).strands ∧ ((overdue (.sliceExpiry 3)).strand 1).place = .slot core0 2 ∧ ((overdue (.sliceExpiry 3)).strand 1).status = .ready ∧
    (overdue (.sliceExpiry 3)).present 1 = true ∧ (overdue (.sliceExpiry 3)).untilTurn core0 2 = 2 ∧ (∀ e ∈ (overdue (.sliceExpiry 3)).strands, e = (1, (overdue (.sliceExpiry 3)).strand 1)) := by decide +kernel

theorem test_turn_before : ((stepped (overdue (.sliceExpiry 3))).strand 1).regs[4] = 0x47 ∧ (stepped (overdue (.sliceExpiry 3))).clock = 162 ∧ (stepped (overdue (.sliceExpiry 3))).agenda = [⟨7, .event (.sliceExpiry 3)⟩] := by decide +kernel

/-- A withdrawn wait for a mailbox; an addition whose strand has a delivery on its way to it; a load in the same place. -/
def withdrawn : State := turning 2 (fun t => { t with wait := .mbx 1 5, susp := some 100, since := 50 }) []
def undelivered (ws : List Byte) : State := { turning 2 id ws with msgs := [(8, .deliver 3 7 2 0x55 1 0 0 .zero)] }
def loadWord : List Byte := leBytes 4 ((encode (.ld (.w 4) 8 0 .d always)).getD 0).toNat

theorem witness_StepTakesTheChoice_turns : (withdrawn.strand 1).wait = .mbx 1 5 ∧ (withdrawn.strand 1).susp = some 100 ∧
    (∃ m ∈ (undelivered loadWord).msgs, m.2 = .deliver 3 7 2 0x55 1 0 0 .zero) ∧ 2 ^ 31 ≤ leNat loadWord ∧ decode (.ofNat 32 (leNat loadWord)) = .ok (.ld (.w 4) 8 0 .d always) := by
  decide +kernel

theorem test_turns_that_wait : ((stepped withdrawn).strand 1).status = .waiting ∧ ((stepped withdrawn).strand 1).susp = none ∧ ((stepped withdrawn).strand 1).since = 112 ∧
    ((stepped (undelivered addWord)).strand 1).pc = 0x1004 := by decide +kernel

/-- Strand 1 of partition 4's spindle program has slot 2 of a spindle that partition 3 owns. -/
def runningOn : State :=
  { small spin0 2 (fun t => { t with tag := 4, card := some 7 }) with agenda := [⟨4, .turn spin0 2 false⟩] }

theorem witness_RunsOnTurn : Claims.RunsOnTurn runningOn spin0 2 1 4 false ({ runningOn with agenda := [], clock := 164 }.modUnit spin0 (fun k => { k with lastTurn := 83 })) := by
  refine ⟨⟨[], { runningOn with agenda := [], clock := 164 }, 82, rfl, noTurn_of (by decide +kernel), rfl, by unfold Claims.Running; decide +kernel⟩,
    by decide +kernel, by decide +kernel, by decide +kernel, ?_, ?_⟩
  · exact fun e he _ => List.mem_singleton.mp he
  · intro tag h
    have h3 : State.tenantOf ({ runningOn with agenda := [], clock := 164 }.modUnit spin0 (fun k => { k with lastTurn := 83 })) spin0 2 = some 3 := by decide +kernel
    rw [h3] at h; cases h; decide +kernel

/-- Strand 1's withdrawn wait on phase 9 of instance 2; its reply has come at a clock; a half of its load of 16 bytes is left, before the
addition; the addition's word is poisoned. -/
def rephased (i2 : Instance) : State := { turning 2 (fun t => { t with wait := .cwait 0 2 9 12, susp := some 100, since := 50 }) addWord with insts := [(2, i2)] }
def replied (n : Nat) : State := turning 2 (fun t => { t with back := n }) addWord
def splitOp : MemOp := opOf (.load .q) 16 (.spad 0 0 0x800) (some (false, List.replicate 8 1))
def splitTurn : State := turning 2 (fun t => { t with wait := .mem splitOp, pc := 0xFFC }) addWord
def badCode : State := { turning 2 id addWord with poison := [0x200] }

theorem witness_StepTakesTheChoice_phases : (rephased barrier2).instCheck 3 0 2 (some true) = none ∧ (rephased counter1).instCheck 3 0 2 (some true) = some 0x28 ∧
    (rephased barrier2).instDie 0 2 = 0 ∧ Claims.BackNow (inTurn (replied 163)) 1 ∧ ¬ Claims.BackNow (inTurn (replied 162)) 1 ∧
    (undelivered loadWord).msgs = [] ++ (8, .deliver 3 7 2 0x55 1 0 0 .zero) :: [] ∧ (∀ m ∈ ([] ++ [] : List (Nat × Msg)), m.1 ≠ 8 ∧ ¬ Claims.Delivers 1 m.2) ∧
    (inTurn badCode).badAt 3 (.vault 0 0 0x1000) 4 = true := by
  refine ⟨by decide +kernel, by decide +kernel, by decide +kernel, by unfold Claims.BackNow; decide +kernel, by unfold Claims.BackNow; decide +kernel, rfl, nofun, by decide +kernel⟩

theorem witness_SlotTurn_half : Claims.SlotTurn splitTurn core0 2 1 2 3 true (after (.homeAccess 1) (inTurn splitTurn)) :=
  ⟨inTurn splitTurn, ⟨[], { splitTurn with agenda := [], clock := 162 }, 162, rfl, noTurn_of (by decide +kernel), rfl, by unfold Claims.Running; decide +kernel⟩,
    .inr ⟨by decide +kernel, next_of (by decide +kernel)⟩, by decide +kernel⟩

theorem test_turns_checked : ((stepped (rephased barrier2)).strand 1).wait = .cwait 0 2 9 12 ∧ ((stepped (rephased barrier2)).strand 1).since = 112 ∧
    ((stepped (rephased counter1)).strand 1).held.map (·.cause) = some 0x28 ∧ ((stepped (replied 163)).strand 1).pc = 0x1000 ∧
    ((stepped (replied 162)).strand 1).pc = 0x1004 ∧ ((stepped splitTurn).strand 1).regs[4] = 0x47 ∧ ((stepped splitTurn).strand 1).pc = 0x1004 ∧
    ((stepped badCode).strand 1).held.map (·.cause) = some 0x40 ∧ (stepped (undelivered loadWord)).msgs = [] ∧ ((stepped (undelivered loadWord)).unit core0).orph = 1 ∧
    ((stepped (turning 2 id addWord)).part 3).owed.getD 5 0 = 1 ∧ ((stepped (turning 2 id addWord)).part 3).owed.getD 8 0 = 1 := by decide +kernel

/- Decoding: a word written out, field by field, from the encoding tables of spec 08, for each mnemonic. -/

def decodesTo (l : List (W32 × Instr)) : Bool :=
  l.all (fun p => match decode p.1 with
    | .ok i => i == p.2
    | .error _ => false)

theorem test_decode_major_01 : decodesTo [
    (0b000001_10101_01010_00110_000000_00001, .add (.w 21) (.w 10) (.w 6) ⟨false, 1⟩),
    (0b000001_10101_01010_11000_000001_10010, .sub (.w 21) (.w 10) .wz ⟨true, 2⟩),
    (0b000001_10101_01010_00110_000010_00011, .and (.w 21) (.w 10) (.w 6) ⟨false, 3⟩),
    (0b000001_11010_01010_00110_000011_10100, .or .qo (.w 10) (.w 6) ⟨true, 4⟩),
    (0b000001_10101_01010_00110_000100_00101, .xor (.w 21) (.w 10) (.w 6) ⟨false, 5⟩),
    (0b000001_10101_11001_00110_000101_10110, .andn (.w 21) .qi (.w 6) ⟨true, 6⟩),
    (0b000001_10101_01010_00110_000110_00111, .shl (.w 21) (.w 10) (.w 6) ⟨false, 7⟩),
    (0b000001_10101_01010_00110_000111_11000, .shr (.w 21) (.w 10) (.w 6) ⟨true, 8⟩),
    (0b000001_10101_01010_11000_001000_01001, .sar (.w 21) (.w 10) .wz ⟨false, 9⟩),
    (0b000001_10101_01010_00110_001001_11010, .mul (.w 21) (.w 10) (.w 6) ⟨true, 10⟩),
    (0b000001_11010_01010_00110_001010_01011, .mulh .qo (.w 10) (.w 6) ⟨false, 11⟩),
    (0b000001_10101_01010_00110_001011_11100, .mulhu (.w 21) (.w 10) (.w 6) ⟨true, 12⟩),
    (0b000001_10101_11001_00110_001100_01101, .min (.w 21) .qi (.w 6) ⟨false, 13⟩),
    (0b000001_10101_01010_00110_001101_11110, .max (.w 21) (.w 10) (.w 6) ⟨true, 14⟩),
    (0b000001_10101_01010_00110_001110_01111, .minu (.w 21) (.w 10) (.w 6) ⟨false, 15⟩),
    (0b000001_10101_01010_11000_001111_10001, .maxu (.w 21) (.w 10) .wz ⟨true, 1⟩),
    (0b000001_10101_01010_00000010000_00010, .clz (.w 21) (.w 10) ⟨false, 2⟩),
    (0b000001_11010_01010_00000010001_10011, .ctz .qo (.w 10) ⟨true, 3⟩),
    (0b000001_10101_01010_00000010010_00100, .popc (.w 21) (.w 10) ⟨false, 4⟩)] = true := by decide

theorem test_decode_major_02 : decodesTo [
    (0b000010_10101_11001_10001011010_10101, .addi (.w 21) .qi 0x45A ⟨true, 5⟩)] = true := by decide

theorem test_decode_major_03 : decodesTo [
    (0b000011_10101_01010_10001011010_00110, .andi (.w 21) (.w 10) 0x45A ⟨false, 6⟩)] = true := by decide

theorem test_decode_major_04 : decodesTo [
    (0b000100_10101_01010_10001011010_10111, .ori (.w 21) (.w 10) 0x45A ⟨true, 7⟩)] = true := by decide

theorem test_decode_major_05 : decodesTo [
    (0b000101_10101_01010_10001011010_01000, .xori (.w 21) (.w 10) 0x45A ⟨false, 8⟩)] = true := by decide

theorem test_decode_major_06 : decodesTo [
    (0b000110_10101_01010_00000_011010_11001, .shli (.w 21) (.w 10) 0x1A ⟨true, 9⟩),
    (0b000110_11010_01010_01000_011010_01010, .shri .qo (.w 10) 0x1A ⟨false, 10⟩),
    (0b000110_10101_01010_10000_011010_11011, .sari (.w 21) (.w 10) 0x1A ⟨true, 11⟩)] = true := by decide

theorem test_decode_major_07 : decodesTo [
    (0b000111_11101_11001_01010_01_1001_01100, .cmp 29 .qi (.w 10) .and .geu ⟨false, 12⟩)] = true := by decide

theorem test_decode_major_08 : decodesTo [
    (0b001000_11101_10101_0010_1011010_11101, .cmpi 29 (.w 21) .lt 0x5A ⟨true, 13⟩)] = true := by decide

theorem test_decode_major_09 : decodesTo [
    (0b001001_11101_10010_00111_000000_01110, .pand 29 18 7 ⟨false, 14⟩),
    (0b001001_11101_10010_00111_000001_11111, .por 29 18 7 ⟨true, 15⟩),
    (0b001001_11101_10010_00111_000010_00001, .pxor 29 18 7 ⟨false, 1⟩),
    (0b001001_11101_10010_00111_000011_10010, .pandn 29 18 7 ⟨true, 2⟩),
    (0b001001_11101_10010_00000000100_00011, .pnot 29 18 ⟨false, 3⟩),
    (0b001001_11101_01101_00000000101_10100, .pany 29 0xD ⟨true, 4⟩),
    (0b001001_11101_01101_00000000110_00101, .pall 29 0xD ⟨false, 5⟩),
    (0b001001_10101_0000000000000111_10110, .prd (.w 21) ⟨true, 6⟩),
    (0b00100100000_10101_00000001000_00111, .pwr (.w 21) ⟨false, 7⟩)] = true := by decide

theorem test_decode_major_0A : decodesTo [
    (0b001010_10101_1001110001011010_11000, .movi (.w 21) 0x9C5A ⟨true, 8⟩)] = true := by decide

theorem test_decode_major_0B : decodesTo [
    (0b001011_11010_01010_00110_000000_01001, .div .qo (.w 10) (.w 6) ⟨false, 9⟩),
    (0b001011_10101_01010_00110_000001_11010, .divu (.w 21) (.w 10) (.w 6) ⟨true, 10⟩),
    (0b001011_10101_11001_00110_000010_01011, .rem (.w 21) .qi (.w 6) ⟨false, 11⟩),
    (0b001011_10101_01010_00110_000011_11100, .remu (.w 21) (.w 10) (.w 6) ⟨true, 12⟩)] = true := by decide

theorem test_decode_major_10 : decodesTo [
    (0b010000_001011001110001011010_01101, .b 0x59C5A ⟨false, 13⟩)] = true := by decide

theorem test_decode_major_11 : decodesTo [
    (0b010001_001011001110001011010_11110, .bl 0x59C5A ⟨true, 14⟩)] = true := by decide

theorem test_decode_major_12 : decodesTo [
    (0b01001000000_10101_00000000000_01111, .br (.w 21) ⟨false, 15⟩),
    (0b010010_11010_01010_00000000001_10001, .blr .qo (.w 10) ⟨true, 1⟩)] = true := by decide

theorem test_decode_major_14 : decodesTo [
    (0b010100_001110001011010_000000_00010, .trap 0x1C5A ⟨false, 2⟩),
    (0b010100_001110001011010_000001_10011, .svc 0x1C5A ⟨true, 3⟩),
    (0b010100000000000000000000010_00100, .rft ⟨false, 4⟩),
    (0b010100000000000000000000011_10101, .halt ⟨true, 5⟩),
    (0b010100000000000000000000100_00110, .yield ⟨false, 6⟩),
    (0b010100000000000000000000101_10111, .nop ⟨true, 7⟩),
    (0b010100_11010_0001011010_000110_01000, .csrr .qo 0x5A ⟨false, 8⟩),
    (0b010100_10101_0001011010_000111_11001, .csrw 0x5A (.w 21) ⟨true, 9⟩),
    (0b01010000000_11001_01010_001000_01010, .tlbi .qi (.w 10) ⟨false, 10⟩)] = true := by decide

theorem test_decode_major_18 : decodesTo [
    (0b011000_10101_01010_00110_0000_10_11011, .vadd (.w 21) (.w 10) (.w 6) .f16 ⟨true, 11⟩),
    (0b011000_10101_01010_00110_0001_01_01100, .vsub (.w 21) (.w 10) (.w 6) .f64 ⟨false, 12⟩),
    (0b011000_10101_01010_11000_0010_00_11101, .vmul (.w 21) (.w 10) .wz .f32 ⟨true, 13⟩),
    (0b011000_10101_01010_00110_0011_11_01110, .vfma (.w 21) (.w 10) (.w 6) .bf16 ⟨false, 14⟩),
    (0b011000_10101_01010_00110_0100_10_11111, .vfms (.w 21) (.w 10) (.w 6) .f16 ⟨true, 15⟩),
    (0b011000_10101_01010_00110_0101_01_00001, .vmin (.w 21) (.w 10) (.w 6) .f64 ⟨false, 1⟩),
    (0b011000_10101_11001_00110_0110_00_10010, .vmax (.w 21) .qi (.w 6) .f32 ⟨true, 2⟩),
    (0b011000_10101_01010_000000111_11_00011, .vabs (.w 21) (.w 10) .bf16 ⟨false, 3⟩),
    (0b011000_10101_01010_000001000_10_10100, .vneg (.w 21) (.w 10) .f16 ⟨true, 4⟩),
    (0b01100000000_10101_11000_1001_01_00101, .vcmpeq (.w 21) .wz .f64 ⟨false, 5⟩),
    (0b01100000000_10101_01010_1010_00_10110, .vcmplt (.w 21) (.w 10) .f32 ⟨true, 6⟩),
    (0b01100000000_10101_01010_1011_11_00111, .vcmple (.w 21) (.w 10) .bf16 ⟨false, 7⟩),
    (0b01100000000_10101_01010_1100_10_11000, .vcmpun (.w 21) (.w 10) .f16 ⟨true, 8⟩),
    (0b011000_10101_11001_000001101_01_01001, .vrsum (.w 21) .qi .f64 ⟨false, 9⟩)] = true := by decide

theorem test_decode_major_19 : decodesTo [
    (0b011001_10101_01010_00110_0000_00_11010, .viadd (.w 21) (.w 10) (.w 6) .i8 ⟨true, 10⟩),
    (0b011001_10101_01010_00110_0001_11_01011, .visub (.w 21) (.w 10) (.w 6) .i64 ⟨false, 11⟩),
    (0b011001_10101_01010_11000_0010_10_11100, .vimul (.w 21) (.w 10) .wz .i32 ⟨true, 12⟩),
    (0b011001_10101_01010_00110_0011_01_01101, .vimin (.w 21) (.w 10) (.w 6) .i16 ⟨false, 13⟩),
    (0b011001_11010_01010_00110_0100_00_11110, .vimax .qo (.w 10) (.w 6) .i8 ⟨true, 14⟩),
    (0b011001_10101_01010_00110_0101_11_01111, .viminu (.w 21) (.w 10) (.w 6) .i64 ⟨false, 15⟩),
    (0b011001_10101_11001_00110_0110_10_10001, .vimaxu (.w 21) .qi (.w 6) .i32 ⟨true, 1⟩),
    (0b011001_10101_01010_00110_0111_01_00010, .vand (.w 21) (.w 10) (.w 6) .i16 ⟨false, 2⟩),
    (0b011001_10101_01010_00110_1000_00_10011, .vor (.w 21) (.w 10) (.w 6) .i8 ⟨true, 3⟩),
    (0b011001_10101_01010_11000_1001_11_00100, .vxor (.w 21) (.w 10) .wz .i64 ⟨false, 4⟩),
    (0b011001_10101_01010_00110_1010_10_10101, .vshl (.w 21) (.w 10) (.w 6) .i32 ⟨true, 5⟩),
    (0b011001_11010_01010_00110_1011_01_00110, .vshr .qo (.w 10) (.w 6) .i16 ⟨false, 6⟩),
    (0b011001_10101_01010_00110_1100_00_10111, .vsar (.w 21) (.w 10) (.w 6) .i8 ⟨true, 7⟩),
    (0b01100100000_11001_01010_1101_11_01000, .vicmpeq .qi (.w 10) .i64 ⟨false, 8⟩),
    (0b01100100000_10101_01010_1110_10_11001, .vicmplt (.w 21) (.w 10) .i32 ⟨true, 9⟩),
    (0b01100100000_10101_01010_1111_01_01010, .vicmpltu (.w 21) (.w 10) .i16 ⟨false, 10⟩)] = true := by decide

theorem test_decode_major_1A : decodesTo [
    (0b011010_10101_01010_00000_100_001_11011, .cvt (.w 21) (.w 10) .e4m3 .f32 ⟨true, 11⟩)] = true := by decide

theorem test_decode_major_1B : decodesTo [
    (0b011011_10101_01010_00110_0000_11_01100, .vshuf (.w 21) (.w 10) (.w 6) .i64 ⟨false, 12⟩),
    (0b011011_11010_01010_000000001_10_11101, .vsplat .qo (.w 10) .i32 ⟨true, 13⟩),
    (0b011011_10101_01010_00110_0010_01_01110, .vsel (.w 21) (.w 10) (.w 6) .i16 ⟨false, 14⟩),
    (0b011011_10101_11001_00001_0011_00_11111, .vext (.w 21) .qi 0x1 .i8 ⟨true, 15⟩),
    (0b011011_10101_01010_00001_0100_11_00001, .vins (.w 21) (.w 10) 0x1 .i64 ⟨false, 1⟩),
    (0b011011_10101_01010_00001_0101_10_10010, .vrot (.w 21) (.w 10) 0x1 .i32 ⟨true, 2⟩),
    (0b011011_10101_01010_11000_0110_01_00011, .vzipl (.w 21) (.w 10) .wz .i16 ⟨false, 3⟩),
    (0b011011_10101_01010_00110_0111_00_10100, .vziph (.w 21) (.w 10) (.w 6) .i8 ⟨true, 4⟩)] = true := by decide

theorem test_decode_major_1C : decodesTo [
    (0b011100_11010_01010_000000000_11_00101, .frcp .qo (.w 10) .bf16 ⟨false, 5⟩),
    (0b011100_10101_01010_000000001_10_10110, .frsq (.w 21) (.w 10) .f16 ⟨true, 6⟩),
    (0b011100_10101_11001_000000010_01_00111, .fsqrt (.w 21) .qi .f64 ⟨false, 7⟩),
    (0b011100_10101_01010_000000011_00_11000, .fexp2 (.w 21) (.w 10) .f32 ⟨true, 8⟩),
    (0b011100_10101_01010_000000100_11_01001, .flog2 (.w 21) (.w 10) .bf16 ⟨false, 9⟩),
    (0b011100_10101_01010_000000101_10_11010, .fsin (.w 21) (.w 10) .f16 ⟨true, 10⟩),
    (0b011100_10101_01010_000000110_01_01011, .fcos (.w 21) (.w 10) .f64 ⟨false, 11⟩),
    (0b011100_11010_01010_000000111_00_11100, .ftanh .qo (.w 10) .f32 ⟨true, 12⟩),
    (0b011100_10101_01010_000001000_11_01101, .fsigm (.w 21) (.w 10) .bf16 ⟨false, 13⟩),
    (0b011100_10101_11001_00110_1001_10_11110, .fdiv (.w 21) .qi (.w 6) .f16 ⟨true, 14⟩)] = true := by decide

theorem test_decode_major_20 : decodesTo [
    (0b100000_10101_01010_01011010_001_01111, .ld (.w 21) 10 0x5A .uh ⟨false, 15⟩)] = true := by decide

theorem test_decode_major_21 : decodesTo [
    (0b100001_10101_01010_01011010_010_10001, .st (.w 21) 10 0x5A .uw ⟨true, 1⟩)] = true := by decide

theorem test_decode_major_22 : decodesTo [
    (0b100010_10101_01010_01011010_001_00010, .ldx (.w 21) 10 0x5A .bay ⟨false, 2⟩)] = true := by decide

theorem test_decode_major_23 : decodesTo [
    (0b100011_10101_01010_01011010_100_10011, .stx (.w 21) 10 0x5A .dev ⟨true, 3⟩)] = true := by decide

theorem test_decode_major_24 : decodesTo [
    (0b100100_10101_01010_0000_11_001_01_00100, .aadd 21 (.w 10) .ar .bay .d ⟨false, 4⟩),
    (0b100100_10101_01010_0001_11_100_01_10101, .aand 21 (.w 10) .ar .dev .d ⟨true, 5⟩),
    (0b100100_10101_01010_0010_11_001_01_00110, .aor 21 (.w 10) .ar .bay .d ⟨false, 6⟩),
    (0b100100_10101_01010_0011_11_100_01_10111, .axor 21 (.w 10) .ar .dev .d ⟨true, 7⟩),
    (0b100100_10101_01010_0100_11_001_01_01000, .amin 21 (.w 10) .ar .bay .d ⟨false, 8⟩),
    (0b100100_10101_11000_0101_11_100_01_11001, .amax 21 .wz .ar .dev .d ⟨true, 9⟩),
    (0b100100_10101_01010_0110_11_001_01_01010, .aminu 21 (.w 10) .ar .bay .d ⟨false, 10⟩),
    (0b100100_10101_01010_0111_11_100_01_11011, .amaxu 21 (.w 10) .ar .dev .d ⟨true, 11⟩),
    (0b100100_10101_01010_1000_11_001_10_01100, .aswp 21 (.w 10) .ar .bay .q ⟨false, 12⟩),
    (0b100100_10101_01010_1001_11_100_01_11101, .acas 21 (.w 10) .ar .dev .d ⟨true, 13⟩),
    (0b100100_10101_01010_1010_11_001_01_01110, .afadd 21 (.w 10) .ar .bay .d ⟨false, 14⟩),
    (0b100100_10101_01010_1011_01_100_01_11111, .ldo 21 (.w 10) .acq .dev .d ⟨true, 15⟩),
    (0b100100_10101_11000_1100_10_001_01_00001, .sto 21 .wz .rel .bay .d ⟨false, 1⟩)] = true := by decide

theorem test_decode_major_25 : decodesTo [
    (0b100101000000000000000_100_000_10010, .fenceAcq .dev ⟨true, 2⟩),
    (0b100101000000000000000_001_001_00011, .fenceRel .bay ⟨false, 3⟩),
    (0b100101000000000000000_100_010_10100, .fenceAr .dev ⟨true, 4⟩),
    (0b100101000000000000000_001_011_00101, .fenceSc .bay ⟨false, 5⟩)] = true := by decide

theorem test_decode_major_26 : decodesTo [
    (0b100110_10101_00000000_011010_00_10110, .tdef (.w 21) 0x1A ⟨true, 6⟩),
    (0b100110_10101_00000001_011010_00_00111, .trd (.w 21) 0x1A ⟨false, 7⟩),
    (0b100110_10101_11000_010_011010_00_11000, .trdMc (.w 21) .wz 0x1A ⟨true, 8⟩),
    (0b100110_10101_00000011_011010_00_01001, .twr (.w 21) 0x1A ⟨false, 9⟩),
    (0b1001100000000000100_011010_00_11010, .trel 0x1A ⟨true, 10⟩),
    (0b100110_10101_00000101_011010_00_01011, .tstat (.w 21) 0x1A ⟨false, 11⟩)] = true := by decide

theorem test_decode_major_27 : decodesTo [
    (0b100111_11001_00000000_010_00000_11100, .sbindIn .qi 0x2 ⟨true, 12⟩),
    (0b100111_10101_00000000_010_10000_01101, .sbindOut (.w 21) 0x2 ⟨false, 13⟩),
    (0b100111_10101_00000001_010_11010_11110, .qwait (.w 21) 0x2 0x1A ⟨true, 14⟩),
    (0b100111000000000001000000000_01111, .seos ⟨false, 15⟩),
    (0b1001110000000000011_010_00000_10001, .sclose 0x2 ⟨true, 1⟩)] = true := by decide

theorem test_decode_major_28 : decodesTo [
    (0b101000_10101_01010_00110_000000_00010, .dlv (.w 21) (.w 10) 6 ⟨false, 2⟩),
    (0b101000_10101_01010_00110_001000_10011, .mdlv (.w 21) (.w 10) 6 ⟨true, 3⟩),
    (0b101000_10101_00000_11010_010000_00100, .waitp 21 0x1A ⟨false, 4⟩),
    (0b101000_10101_0000000000011000_10101, .clrp 21 ⟨true, 5⟩)] = true := by decide

theorem test_decode_major_29 : decodesTo [
    (0b101001_10101_00000000_10_000000_00110, .mbx (.w 21) 0x2 ⟨false, 6⟩),
    (0b101001_10101_00000001_10_000000_10111, .mbr (.w 21) 0x2 ⟨true, 7⟩),
    (0b101001_10101_00000010_1010_1010_01000, .mwait (.w 21) 0xA 0xA ⟨false, 8⟩)] = true := by decide

theorem test_decode_major_2A : decodesTo [
    (0b101010_11010_01010_00000000000_11001, .cnti .qo (.w 10) ⟨true, 9⟩),
    (0b101010_10101_01010_00000000001_01010, .cntd (.w 21) (.w 10) ⟨false, 10⟩),
    (0b101010_10101_11001_00000000010_11011, .cbar (.w 21) .qi ⟨true, 11⟩),
    (0b10101000000_10101_01010_000011_01100, .cwait (.w 21) (.w 10) ⟨false, 12⟩),
    (0b101010_10101_01010_00000000100_11101, .cqry (.w 21) (.w 10) ⟨true, 13⟩)] = true := by decide

theorem test_decode_major_2B : decodesTo [
    (0b101011_10101_01010_11000_000000_01110, .spawnBound (.w 21) (.w 10) .wz ⟨false, 14⟩),
    (0b101011_10101_01010_00110_000001_11111, .spawnFollow (.w 21) (.w 10) (.w 6) ⟨true, 15⟩),
    (0b101011_11010_01010_00110_000010_00001, .spawnPos .qo (.w 10) (.w 6) ⟨false, 1⟩),
    (0b101011_10101_01010_00110_000100_10010, .spawnShuttle (.w 21) (.w 10) (.w 6) ⟨true, 2⟩),
    (0b101011_10101_11001_00000001000_00011, .reap (.w 21) .qi ⟨false, 3⟩),
    (0b10101100000_10101_00000010000_10100, .stop (.w 21) ⟨true, 4⟩),
    (0b10101100000_10101_00000011000_00101, .migr (.w 21) ⟨false, 5⟩),
    (0b101011_10101_01010_00000100_101_10110, .widf (.w 21) (.w 10) 0x5 ⟨true, 6⟩),
    (0b101011_10101_0000000000101000_00111, .slotid (.w 21) ⟨false, 7⟩)] = true := by decide

theorem test_decode_major_2C : decodesTo [
    (0b101100_11010_0000000000000000_11000, .posr .qo ⟨true, 8⟩),
    (0b101100_10101_01010_00000001000_01001, .nbrFirst (.w 21) (.w 10) ⟨false, 9⟩),
    (0b101100_10101_0000000000001001_11010, .nbrNext (.w 21) ⟨true, 10⟩),
    (0b101100000000000000000010000_01011, .settle ⟨false, 11⟩),
    (0b101100_10101_01010_00000011000_11100, .fmap (.w 21) (.w 10) ⟨true, 12⟩)] = true := by decide

theorem test_decode_major_2D : decodesTo [
    (0b101101_10101_11000_000000_11010_01101, .forkSeq (.w 21) .wz 0x1A ⟨false, 13⟩),
    (0b101101_10101_01010_000001_11010_11110, .forkLoad (.w 21) (.w 10) 0x1A ⟨true, 14⟩),
    (0b101101_10101_01010_000010_11010_01111, .forkStore (.w 21) (.w 10) 0x1A ⟨false, 15⟩),
    (0b101101_10101_01010_000011_11010_10001, .forkCopy (.w 21) (.w 10) 0x1A ⟨true, 1⟩),
    (0b1011010000000000001000_11010_00010, .rdv 0x1A ⟨false, 2⟩),
    (0b101101_10101_0000001000000000_10011, .job (.w 21) ⟨true, 3⟩),
    (0b101101_10101_01010_01100000000_00100, .xid (.w 21) (.w 10) ⟨false, 4⟩),
    (0b101101_10101_11000_10000000000_10101, .xwait (.w 21) .wz ⟨true, 5⟩)] = true := by decide

theorem test_decode_major_2E : decodesTo [
    (0b10111000000_10101_00000000000_00110, .mxcfg (.w 21) ⟨false, 6⟩),
    (0b101110000000000000000001000_10111, .mxz ⟨true, 7⟩),
    (0b10111000000_10101_01010_010000_01000, .mxrun (.w 21) (.w 10) ⟨false, 8⟩),
    (0b10111000000_10101_00000011000_11001, .mxprom (.w 21) ⟨true, 9⟩),
    (0b10111000000_10101_01010_100000_01010, .mxst (.w 21) (.w 10) ⟨false, 10⟩),
    (0b101110_10101_01010_00110_101000_11011, .mxperm (.w 21) (.w 10) (.w 6) ⟨true, 11⟩)] = true := by decide

theorem test_decode_major_2F : decodesTo [
    (0b101111000000000000000000_010_01100, .semw 0x2 ⟨false, 12⟩),
    (0b101111000000000000000001_010_11101, .sems 0x2 ⟨true, 13⟩)] = true := by decide

theorem test_decode_major_30 : decodesTo [
    (0b110000_10101_01010_000000_11010_01110, .asn (.w 21) (.w 10) 0x1A ⟨false, 14⟩)] = true := by decide

theorem test_decode_major_3F : decodesTo [
    (0b1111110000_0001011001110001011010, .imm 0x59C5A),
    (0b11111101000000000000000_1_0_100_1000, .fmt true false 0x4 0x8),
    (0b11111110_1001110001011010_00000001, .hintBranchTarget 0x9C5A),
    (0b11111110_1001110001011010_00000010, .hintNoBorrow 0x9C5A),
    (0b11111110_1001110001011010_01011010, .hint 0x9C5A 0x5A)] = true := by decide

/- Well-formedness: an ill-formed term for each check, and reserved words. -/

theorem test_ill_formed_fields : [Instr.add (.w 1) (.w 2) (.w 3) ⟨true, 0⟩, .pany 1 0 always, .pany 1 17 always, .pall 1 0 always, .pall 1 17 always,
    .cvt (.w 1) (.w 2) .f32 .f32 always, .vext (.w 1) (.w 2) 16 .i8 always, .vext (.w 1) (.w 2) 2 .i64 always, .vins (.w 1) (.w 2) 8 .i16 always,
    .vrot (.w 1) (.w 2) 4 .i32 always, .qwait (.w 1) 2 9 always, .qwait (.w 1) 2 31 always, .waitp 1 9 always, .waitp 1 31 always,
    .widf (.w 1) (.w 2) 6 always, .fmt false false 5 0, .fmt false false 0 9, .hint 0 1, .hint 0 2].all (fun i => !i.wf) = true := by decide

theorem test_ill_formed_accesses : [Instr.st (.w 1) 2 0 .sb always, .st (.w 1) 2 0 .sh always, .st (.w 1) 2 0 .sw always,
    .aadd 1 (.w 2) .rlx .dev .d always, .aand 1 (.w 2) .rlx .bay .d always, .aor 1 (.w 2) .rlx .str .q always, .axor 1 (.w 2) .acq .dev .q always,
    .amin 1 (.w 2) .acq .dev .q always, .amax 1 (.w 2) .acq .dev .q always, .aminu 1 (.w 2) .acq .dev .q always, .amaxu 1 (.w 2) .acq .dev .q always,
    .aswp 1 (.w 2) .rlx .dev .q always, .acas 1 (.w 2) .acq .dev .q always, .afadd 1 (.w 2) .acq .dev .q always, .ldo 1 (.w 2) .rel .dev .d always,
    .ldo 1 (.w 2) .ar .dev .d always, .sto 1 (.w 2) .acq .dev .d always, .sto 1 (.w 2) .ar .dev .d always].all (fun i => !i.wf) = true := by decide

theorem test_ill_formed_steps : [Instr.dbgcResume ⟨4, 0, false⟩ 0, .dbgcResume ⟨0, 2048, false⟩ 0, .xtrResume 32 0, .registerWrite 32 0 0 0 .full, .registerWrite 0 4 0 0 .full,
    .counterDescriptorWrite 31 0 1024 0 0 .full, .counterDescriptorWrite 31 0 0 4 0 .full, .writeBufferDrain 0 (.die 4), .writeBufferDrain 0 (.dev 16384), .linkFailure 16384,
    .mdlvSlotDelivery 0 16, .asnStart 0 64, .launch 0 8, .handOver 64 0, .uncorrectableError 0 0 262145, .meterIncrement 0 9 0,
    .foreignRequest ⟨0, 0, 0, 3, .load⟩].all (fun i => !i.wf) = true := by decide

theorem test_ill_formed_ranges : [Instr.xtrStop 32 0, .svcq ⟨4, 0, true⟩ 0 (.w 1), .svcq ⟨0, 0, true⟩ 32 (.w 1), .svcdone ⟨0, 2048, true⟩ 0 0, .svcdone ⟨0, 0, true⟩ 32 0,
    .fefill 4 0 0, .fefill 0 2048 0, .feempty 4 0 0, .feempty 0 2048 0, .counterDescriptorWrite 32 0 0 0 0 .full, .counterDescriptorWrite 31 4 0 0 0 .full, .xfrReplay 32 0,
    .xfrFail 32 0, .missQueueEntry 4 0, .walkTableRead 4 0, .walkEnd 4 0, .faultRecordDeferredWrite 32, .writeBufferDrain 4 (.die 0), .linkWriteAck 4 0, .linkWriteAck 0 16384,
    .rdcExpiry 4 0, .streamModeEnd ⟨4, 0, true⟩ 0, .parkTableTimeout 4 0 0, .parkTableTimeout 0 2048 0, .fillReadStep 4 0 0, .fillReadStep 0 2048 0, .heddleStep 4 0 0,
    .heddleStep 0 1024 0, .exitStep 4 0 0, .exitStep 0 1024 0, .sfuQueueHead ⟨4, 0, false⟩].all (fun i => !i.wf) = true := by decide

theorem test_ill_formed_engines : [Instr.sequencerStep 4 0 0, .sequencerStep 0 2048 0, .sequencerStep 0 0 32, .mxuOpStart 4 0 0, .mxuOpStart 0 2048 0, .mxuOpStart 0 0 32,
    .mxuOpComplete 4 0 0, .mxuOpComplete 0 2048 0, .mxuOpComplete 0 0 32, .operandTimeout 4 0 0, .operandTimeout 0 2048 0, .operandTimeout 0 0 32, .scaleTimeout 4 0 0,
    .scaleTimeout 0 2048 0, .scaleTimeout 0 0 32, .asnStart 4 0, .asnRound 4 0, .asnRound 0 64, .launch 32 0, .waitfc 32 0, .waitfc 0 8, .sigfc 32 0, .sigfc 0 8, .skipif 32 0,
    .skipif 0 8, .jump 32 0, .jump 0 8, .call 32 0, .call 0 8, .ret 32 0, .ret 0 8, .patch 32 0, .patch 0 8, .listJob 32 0, .listJob 0 8].all (fun i => !i.wf) = true := by decide

theorem test_ill_formed_device : [Instr.sliceExpiry 64, .budgetExhausted 64, .handOver 0 32, .rangeLoaded 4 0 0, .rangeLoaded 0 2048 0, .rangeLoaded 0 0 32, .partitionReset 32,
    .islandStart 64 true, .islandUpdate 64 true, .linkRetrain 16384, .foreignRequest ⟨16384, 0, 0, 8, .load⟩, .laneRecalibration 4 true true, .baySparing 4 0, .baySparing 0 2048,
    .uncorrectableError 4 0 0, .uncorrectableError 0 2048 0, .meterIncrement 32 0 0, .meterSnapshot 32 0, .thermalThrottleEvent 4 0 true, .thermalThrottleEvent 0 2048 true,
    .correctedError 4, .flitRetry 4].all (fun i => !i.wf) = true := by decide

/-- Whether a word is refused for a reason. -/
def refusedAs (w : W32) (e : DecErr) : Bool :=
  match decode w with
  | .ok _ => false
  | .error f => f == e

theorem test_decode_refused : [(0x00000000, .unassignedMajor), (0x04221FE0, .reservedMinor), (0x502000A0, .nonZeroUnused), (0x04221810, .badGuard),
    (0x043A1800, .badSource), (0x07221800, .badDest)].all (fun p => refusedAs p.1 p.2) = true := by decide

end Sys2Proof.Tests
end

/-!
What retiring an instruction writes (R8, R35, R38, R142, R143, R161): the claims' words for a retired strand and for a point in a box,
tied to the model's, the outcomes of the check of w23, and the write-back from them.
-/
namespace Sys2Proof.Machine

/- The claims' words for what the model writes. -/

theorem clearPrefix_eq_unprefixed (sts : W64) : clearPrefix sts = Claims.unprefixed sts := rfl

theorem State.modStrand_cur_eq_upd (s : State) (f : Strand → Strand) : s.modStrand s.cur f = Claims.upd s f := rfl

theorem writtenBack_of_w {t : Strand} {r : Reply} {i : Fin 24} (hd : r.d = .w i) : Claims.writtenBack t r = retired (setReg t i r.v) r := by
  obtain ⟨d, v, preds, flags, npc⟩ := r
  subst hd
  cases preds <;> cases npc <;> rfl

theorem writtenBack_of_wz {t : Strand} {r : Reply} (hd : r.d = .wz) : Claims.writtenBack t r = retired t r := by
  obtain ⟨d, v, preds, flags, npc⟩ := r
  subst hd
  cases preds <;> cases npc <;> rfl

/- Points and boxes (R142). -/

theorem posOf_eq_coords (v : W128) : posOf v = Claims.coords v := by
  simp [posOf, Claims.coords, lane32, BitVec.setWidth_ushiftRight_eq_extractLsb]

theorem Field.inBox_iff_inside {f : Field} {b : FieldBay} {p : P3} : f.inBox b.lo b.hi p = true ↔ Claims.inside f b p := by
  simp [Field.inBox, Field.d3, bit, Claims.inside, and_assoc, imp_iff_not_or]

theorem Field.ownerOf_eq_none {f : Field} {p : P3} (h : ∀ c ∈ f.bays, ¬ Claims.inside f c p) : f.ownerOf p = none :=
  List.find?_eq_none.mpr fun c hc hin => h c hc (Field.inBox_iff_inside.mp hin)

theorem Field.mem_inside_of_ownerOf {f : Field} {c : FieldBay} {p : P3} (ho : f.ownerOf p = some c) : c ∈ f.bays ∧ Claims.inside f c p := by
  unfold Field.ownerOf at ho
  have hc := List.find?_some ho
  exact ⟨List.mem_of_find?_eq_some ho, Field.inBox_iff_inside.mp hc⟩

/-- The bay whose box alone holds a point owns it. -/
theorem Field.ownerOf_eq_some {f : Field} {b : FieldBay} {p : P3} (hb : b ∈ f.bays) (hin : Claims.inside f b p)
    (hone : ∀ c ∈ f.bays, Claims.inside f c p → c = b) : f.ownerOf p = some b := by
  cases ho : f.ownerOf p with
  | none => exact absurd (Field.inBox_iff_inside.mpr hin) (List.find?_eq_none.mp ho b hb)
  | some c =>
    obtain ⟨hc, hcin⟩ := Field.mem_inside_of_ownerOf ho
    rw [hone c hc hcin]

/- The outcomes of the check of w23 for a position-bound strand of an active field (R142). -/

section CheckW23

variable {s : State} {x n : Nat} {v : W128} {f : Field} {b : FieldBay} (hk : (s.strand x).kind = .pos)
  (hf : s.fieldAt (s.strand x).tag (s.unitOf x).die (s.unitOf x).bay = some (n, f))

include hk hf

theorem State.checkW23_outside (ho : f.ownerOf (Claims.coords v) = none) : s.checkW23 x v = .trap 0x38 (lo64 v) := by
  simp [State.checkW23, hk, hf, posOf_eq_coords, ho]

theorem State.checkW23_host (ho : f.ownerOf (Claims.coords v) = some b) (hb : b.bay = (s.unitOf x).bay) : s.checkW23 x v = .stay := by
  simp [State.checkW23, hk, hf, posOf_eq_coords, ho, hb]

theorem State.checkW23_inputRing (ho : f.ownerOf (Claims.coords v) = some b) (hb : b.bay ≠ (s.unitOf x).bay)
    (hi : (s.strand x).irv = true) : s.checkW23 x v = .trap 0x23 (w64 (s.strand x).iring) := by
  simp [State.checkW23, hk, hf, posOf_eq_coords, ho, hb, hi]

theorem State.checkW23_outputRing (ho : f.ownerOf (Claims.coords v) = some b) (hb : b.bay ≠ (s.unitOf x).bay)
    (hi : (s.strand x).irv = false) (hq : (s.strand x).orv = true) :
    s.checkW23 x v = .trap 0x23 (w64 (256 + (s.strand x).oring.ring)) := by
  simp [State.checkW23, hk, hf, posOf_eq_coords, ho, hb, hi, hq]

theorem State.checkW23_cross (ho : f.ownerOf (Claims.coords v) = some b) (hb : b.bay ≠ (s.unitOf x).bay)
    (hi : (s.strand x).irv = false) (hq : (s.strand x).orv = false) : s.checkW23 x v = .cross (coreOf (s.unitOf x).die b.bay) := by
  simp [State.checkW23, hk, hf, posOf_eq_coords, ho, hb, hi, hq]

end CheckW23

/- Retiring a write of w23, by the outcome of its check (R142). -/

section RetireW23

variable {s : State} {r : Reply} (hd : r.d = .w 23)

include hd

theorem State.retire_w23_stay (h : s.checkW23 s.cur r.v = .stay) :
    s.retire r = Claims.upd s (fun t => { Claims.writtenBack t r with leaving := none }) := by
  simp [State.retire, State.retireOf, State.retireReg, hd, h, writtenBack_of_w hd, State.modStrand_cur_eq_upd]

theorem State.retire_w23_cross {dest : UnitId} (h : s.checkW23 s.cur r.v = .cross dest) :
    s.retire r = Claims.upd s (fun t => { Claims.writtenBack t r with leaving := some ⟨dest, s.serial⟩ }) := by
  simp [State.retire, State.retireOf, State.retireReg, hd, h, writtenBack_of_w hd, State.modStrand_cur_eq_upd]

theorem State.retire_w23_trap {cause : Nat} {value : W64} (h : s.checkW23 s.cur r.v = .trap cause value) :
    s.retire r = s.raise cause value := by
  simp [State.retire, State.retireOf, State.retireReg, State.raiseOf, hd, h]

end RetireW23

/- The write-back (R8, R35, R38, R161). -/

/-- A register that needs no check of w23 is written and the strand retires. -/
theorem State.retire_w {s : State} {r : Reply} {i : Fin 24} (hd : r.d = .w i) (h23 : i = 23 → s.me.kind ≠ .pos) :
    s.retire r = Claims.upd s (fun t => Claims.writtenBack t r) := by
  simp only [writtenBack_of_w hd]
  by_cases hi : i = 23
  · subst hi
    exact State.retireOf_w23 hd (h23 rfl)
  · exact State.retireOf_w hd hi

theorem State.retire_wz {s : State} {r : Reply} (hd : r.d = .wz) : s.retire r = Claims.upd s (fun t => Claims.writtenBack t r) := by
  simp only [writtenBack_of_wz hd]
  exact State.retireOf_wz hd

/-- The write-back of a result, by its destination. -/
theorem State.retire_writeBack : Claims.WriteBack := by
  intro s r
  refine ⟨fun hqo h23 => ?_, State.retireOf_qo⟩
  cases hd : r.d with
  | w i => exact State.retire_w hd fun hi => h23 (hi ▸ hd)
  | wz => exact State.retire_wz hd
  | qo => exact absurd hd hqo

/-- A write of w23 by a position-bound strand, by the bay that owns the new position and the rings bound (R142, R143). -/
theorem State.retire_coordinateWrite : Claims.CoordinateWrite := by
  intro s r n f b hd hk hf
  refine ⟨fun hout => State.retire_w23_trap hd (State.checkW23_outside hk hf (Field.ownerOf_eq_none hout)), fun hb hin hone => ?_⟩
  have ho := Field.ownerOf_eq_some hb hin hone
  refine ⟨fun hbay => ?_, fun hbay hi hq => ?_, fun hbay hi => ?_, fun hbay hi hq => ?_⟩
  · exact State.retire_w23_stay hd (State.checkW23_host hk hf ho hbay)
  · exact State.retire_w23_cross hd (State.checkW23_cross hk hf ho hbay hi hq)
  · exact State.retire_w23_trap hd (State.checkW23_inputRing hk hf ho hbay hi)
  · exact State.retire_w23_trap hd (State.checkW23_outputRing hk hf ho hbay hi hq)

end Sys2Proof.Machine

namespace Sys2Proof

/-- Settles O3: the write-back by the result's destination, and the write of w23 by the outcome of its check. -/
theorem writeBackResult : Obligations.WriteBackResult := ⟨Machine.State.retire_writeBack, Machine.State.retire_coordinateWrite⟩

end Sys2Proof
/-!
SUPPORT. What every step of the machine keeps (R33, R35): the canonical form of the memory and p0. One lemma per operation of the model says that it
keeps both, in the order of the model's files; the operations that a step is made of are then followed by name.
-/
namespace Sys2Proof.Machine

/- These are many short proofs: they are checked one after another, so that no more of them than the machine has room for are open at once. -/
set_option Elab.async false

/-- The strand reads p0 as 1 (R35). -/
def Strand.P0 (t : Strand) : Prop := t.preds.getLsbD 0 = true

/-- The invariants that every step keeps, each where it is asked for: `A` asks for the memory's canonical form, `B` for p0 reading as 1. One
walk over the model's operations serves both. -/
def State.Kept (A B : Prop) (s : State) : Prop := (A → s.mem.wf = true) ∧ (B → Claims.P0IsOne s)

/-- The next state, where there is one, has the invariants. -/
def OutKept (A B : Prop) (o : Out) : Prop := ∀ t, o = .next t → t.Kept A B

/-- What an optional step, an optional result with its state, or a pop leaves has the invariants. -/
def OptKept (A B : Prop) (o : Option State) : Prop := ∀ t, o = some t → t.Kept A B

/-- The state that comes with an optional result has the invariants. -/
def PairKept {α : Type} (A B : Prop) (o : Option (α × State)) : Prop := ∀ v t, o = some (v, t) → t.Kept A B

/-- The state that a pop leaves has the invariants. -/
def PopKept (A B : Prop) (p : Pop) : Prop := ∀ v c t, p = .val v c t → t.Kept A B

/-- The state that a lent turn's instruction issues in has the invariants. -/
def LendKept (A B : Prop) (o : Option (Instr × Nat × State)) : Prop := ∀ i y t, o = some (i, y, t) → t.Kept A B

/-- The state that a fetch leaves has the invariants. -/
def FetchKept (A B : Prop) : Fetch → Prop
  | .word _ s => s.Kept A B
  | .trap _ _ s => s.Kept A B
  | .miss => True

/-- The state that an operation of the MXU's queue leaves has the invariants. -/
def MxKept (A B : Prop) : MxRes → Prop
  | .ok s => s.Kept A B
  | .trap _ _ => True
  | .wait => True

/-- The state that a read of a command list leaves has the invariants. -/
def ListKept {α : Type} (A B : Prop) : ListRes α → Prop
  | .ok _ s => s.Kept A B
  | .wait s => s.Kept A B
  | .bad => True

/-- The state that the look at a queue's next entry leaves has the invariants. -/
def ListPlanKept (A B : Prop) : ListPlan → Prop
  | .wait s => s.Kept A B
  | .idle => True
  | .entry _ => True

/-- The state in which a choice is taken has the invariants. -/
def PlanKept (A B : Prop) : Plan → Prop
  | .stay s => s.Kept A B
  | .event _ s => s.Kept A B
  | .issue _ s => s.Kept A B

section Kept

variable {A B : Prop} {s t : State} {n x : Nat}

theorem Strand.P0.init : Strand.init.P0 := rfl

theorem Tbl.mem_of_find {α : Type} {t : Tbl α} {n : Nat} {v : α} (h : Tbl.find t n = some v) : (n, v) ∈ t := by
  induction t with
  | nil => cases h
  | cons e t ih =>
    simp only [Tbl.find] at h
    split at h
    · next hk => cases h; exact hk ▸ List.mem_cons_self
    · exact List.mem_cons_of_mem _ (ih h)

theorem Tbl.get_eq_find {α : Type} (d : α) (t : Tbl α) (n : Nat) : Tbl.get d t n = (Tbl.find t n).getD d := by
  induction t with
  | nil => rfl
  | cons e t ih => simp only [Tbl.get, Tbl.find]; split <;> simp [ih]

/-- A strand that is listed, or one before anything is placed, reads p0 as 1. -/
theorem Claims.P0IsOne.strand (h : Claims.P0IsOne s) (x : Nat) : (s.strand x).P0 := by
  rw [State.strand, Tbl.get_eq_find]
  cases e : Tbl.find s.strands x with
  | none => exact Strand.P0.init
  | some v => exact h _ (Tbl.mem_of_find e)

/-- Replacing a strand by one that reads p0 as 1. -/
theorem State.Kept.setStrand {v : Strand} (h : s.Kept A B) (hv : B → v.P0) : (s.setStrand x v).Kept A B :=
  ⟨h.1, fun hb e he => (Tbl.mem_set he).elim (fun g => g ▸ hv hb) (h.2 hb e)⟩

theorem Strand.P0.strand (h : s.Kept A B) (hb : B) : (s.strand x).P0 := Claims.P0IsOne.strand (h.2 hb) x

/-- Changing a strand in a way that leaves p0 reading as 1. -/
theorem State.Kept.modStrand {f : Strand → Strand} (h : s.Kept A B) (hf : ∀ t : Strand, t.P0 → (f t).P0 := by exact fun _ h => h) :
    (s.modStrand x f).Kept A B := h.setStrand fun hb => hf _ (.strand h hb)

/-- Changing anything but the memory and the strands. -/
theorem State.Kept.rest {agenda freeCtr cur lent nextId clock serial full poison errs lines rdc rbuf lbuf scLog units tens parts dies clusters
    islands insts tokens cards chans fills drains msgs launches fields links dev} (h : s.Kept A B) :
    (State.mk agenda freeCtr cur lent nextId clock serial s.mem full poison errs lines rdc rbuf lbuf scLog s.strands units tens parts dies clusters
      islands insts tokens cards chans fills drains msgs launches fields links dev).Kept A B := h

/-- Changing every strand in a way that leaves p0 reading as 1, with anything but the memory. -/
theorem State.Kept.mapStrands {f : Nat × Strand → Nat × Strand} {agenda freeCtr cur lent nextId clock serial full poison errs lines rdc rbuf lbuf scLog
    units tens parts dies clusters islands insts tokens cards chans fills drains msgs launches fields links dev} (h : s.Kept A B)
    (hf : ∀ e : Nat × Strand, e.2.P0 → (f e).2.P0) :
    (State.mk agenda freeCtr cur lent nextId clock serial s.mem full poison errs lines rdc rbuf lbuf scLog (s.strands.map f) units tens parts dies
      clusters islands insts tokens cards chans fills drains msgs launches fields links dev).Kept A B := by
  refine ⟨h.1, fun hb e he => ?_⟩
  obtain ⟨c, hc, rfl⟩ := List.mem_map.mp he
  exact hf c (h.2 hb c hc)

/-- Dropping strands, and changing anything but the memory. -/
theorem State.Kept.filterStrands {p : Nat × Strand → Bool} {agenda freeCtr cur lent nextId clock serial full poison errs lines rdc rbuf lbuf scLog units
    tens parts dies clusters islands insts tokens cards chans fills drains msgs launches fields links dev} (h : s.Kept A B) :
    (State.mk agenda freeCtr cur lent nextId clock serial s.mem full poison errs lines rdc rbuf lbuf scLog (s.strands.filter p) units tens parts dies
      clusters islands insts tokens cards chans fills drains msgs launches fields links dev).Kept A B :=
  ⟨h.1, fun hb e he => h.2 hb e (List.mem_filter.mp he).1⟩

theorem State.Kept.putBytes {k : Nat} {bs : List Byte} (h : s.Kept A B) : (s.putBytes k bs).Kept A B :=
  ⟨fun ha => Memory.wf_writeBytes k bs (h.1 ha), h.2⟩

theorem State.Kept.foldl {α : Type} {f : State → α → State} {l : List α} (h : s.Kept A B)
    (hf : ∀ (s : State) (c : α), s.Kept A B → (f s c).Kept A B) : (l.foldl f s).Kept A B := by
  induction l generalizing s with
  | nil => exact h
  | cons c l ih => exact ih (hf s c h)

theorem OutKept.next (h : t.Kept A B) : OutKept A B (.next t) := by rintro _ ⟨⟩; exact h

theorem OutKept.fault {f : Fault} : OutKept A B (.fault f) := nofun

theorem OutKept.refused {r : Refusal} : OutKept A B (.refused r) := nofun

theorem OptKept.none : OptKept A B none := nofun

theorem OptKept.some (h : t.Kept A B) : OptKept A B (some t) := by rintro _ ⟨⟩; exact h

theorem State.Kept.ite {c : Prop} [Decidable c] (hs : c → s.Kept A B) (ht : ¬ c → t.Kept A B) : (if c then s else t).Kept A B := by
  split
  · exact hs ‹_›
  · exact ht ‹_›

theorem State.Kept.of_some {o : Option State} (h : OptKept A B o) (e : o = .some t) : t.Kept A B := h t e

theorem State.Kept.getD {o : Option State} (h : OptKept A B o) (hs : s.Kept A B) : (o.getD s).Kept A B := by
  cases o with
  | none => exact hs
  | some t => exact h t rfl

theorem OptKept.map {α : Type} {o : Option α} {f : α → State} (h : ∀ v, o = .some v → (f v).Kept A B) : OptKept A B (o.map f) := by
  cases o with
  | none => exact .none
  | some v => exact .some (h v rfl)

theorem OptKept.bind {α : Type} {o : Option α} {f : α → Option State} (h : ∀ v, o = .some v → OptKept A B (f v)) : OptKept A B (o.bind f) := by
  cases o with
  | none => exact .none
  | some v => exact h v rfl

theorem PairKept.none {α : Type} : PairKept (α := α) A B none := nofun

theorem PairKept.some {α : Type} {r : α × State} (h : r.2.Kept A B) : PairKept A B (some r) := by rintro _ _ ⟨⟩; exact h

theorem State.Kept.of_pair {α : Type} {v : α} {o : Option (α × State)} (h : PairKept A B o) (e : o = .some (v, t)) : t.Kept A B := h v t e

theorem PopKept.wait : PopKept A B .wait := nofun

theorem PopKept.foul {c : Nat} {v : W64} : PopKept A B (.foul c v) := nofun

theorem PopKept.val {v : W128} {c : Option W64} (h : t.Kept A B) : PopKept A B (.val v c t) := by rintro _ _ _ ⟨⟩; exact h

theorem State.Kept.of_val {p : Pop} {v : W128} {c : Option W64} (h : PopKept A B p) (e : p = .val v c t) : t.Kept A B := h v c t e

theorem PlanKept.ite {c : Prop} [Decidable c] {p q : Plan} (hp : c → PlanKept A B p) (hq : ¬ c → PlanKept A B q) : PlanKept A B (if c then p else q) := by
  split
  · exact hp ‹_›
  · exact hq ‹_›

theorem LendKept.none : LendKept A B none := fun _ _ _ e => absurd e.symm (Option.some_ne_none _)

theorem LendKept.some {i : Instr} {y : Nat} (h : t.Kept A B) : LendKept A B (some (i, y, t)) :=
  fun _ _ _ e => (Prod.mk.inj (Prod.mk.inj (Option.some.inj e)).2).2 ▸ h

theorem State.Kept.of_lend {o : Option (Instr × Nat × State)} {i : Instr} {y : Nat} (h : LendKept A B o) (e : o = .some (i, y, t)) : t.Kept A B := h i y t e

theorem LendKept.findSome? {α : Type} {f : α → Option (Instr × Nat × State)} {l : List α} (h : ∀ c, LendKept A B (f c)) :
    LendKept A B (l.findSome? f) := by
  intro i y t e
  obtain ⟨c, -, hc⟩ := List.exists_of_findSome?_eq_some e
  exact h c i y t hc

theorem FetchKept.word {w : W32} (h : t.Kept A B) : FetchKept A B (.word w t) := h

theorem FetchKept.trap {c : Nat} {v : W64} (h : t.Kept A B) : FetchKept A B (.trap c v t) := h

theorem FetchKept.miss : FetchKept A B .miss := .intro

theorem State.Kept.of_word {f : Fetch} {w : W32} (h : FetchKept A B f) (e : f = .word w t) : t.Kept A B := by subst e; exact h

theorem State.Kept.of_trap {f : Fetch} {c : Nat} {v : W64} (h : FetchKept A B f) (e : f = .trap c v t) : t.Kept A B := by subst e; exact h

theorem MxKept.ok (h : t.Kept A B) : MxKept A B (.ok t) := h

theorem MxKept.trap {c : Nat} {v : Option W64} : MxKept A B (.trap c v) := .intro

theorem MxKept.wait : MxKept A B .wait := .intro

theorem State.Kept.of_ok {r : MxRes} (h : MxKept A B r) (e : r = .ok t) : t.Kept A B := by subst e; exact h

theorem ListKept.ok {α : Type} {v : α} (h : t.Kept A B) : ListKept A B (.ok v t) := h

theorem ListKept.wait {α : Type} (h : t.Kept A B) : ListKept (α := α) A B (.wait t) := h

theorem ListKept.bad {α : Type} : ListKept (α := α) A B .bad := .intro

theorem State.Kept.of_read {α : Type} {v : α} {r : ListRes α} (h : ListKept A B r) (e : r = .ok v t) : t.Kept A B := by subst e; exact h

theorem State.Kept.of_hold {α : Type} {r : ListRes α} (h : ListKept A B r) (e : r = .wait t) : t.Kept A B := by subst e; exact h

theorem ListPlanKept.wait (h : t.Kept A B) : ListPlanKept A B (.wait t) := h

theorem ListPlanKept.idle : ListPlanKept A B .idle := .intro

theorem ListPlanKept.entry {n : Nat} : ListPlanKept A B (.entry n) := .intro

theorem State.Kept.of_plan {p : ListPlan} (h : ListPlanKept A B p) (e : p = .wait t) : t.Kept A B := by subst e; exact h

theorem State.Kept.of_stay {p : Plan} (h : PlanKept A B p) (e : p = .stay t) : t.Kept A B := by subst e; exact h

theorem State.Kept.of_event {p : Plan} {i : Instr} (h : PlanKept A B p) (e : p = .event i t) : t.Kept A B := by subst e; exact h

theorem State.Kept.of_issue {p : Plan} {i : Instr} (h : PlanKept A B p) (e : p = .issue i t) : t.Kept A B := by subst e; exact h

theorem OptKept.ite {c : Prop} [Decidable c] {p q : Option State} (hp : c → OptKept A B p) (hq : ¬ c → OptKept A B q) :
    OptKept A B (if c then p else q) := by
  split
  · exact hp ‹_›
  · exact hq ‹_›

theorem PlanKept.stay (h : t.Kept A B) : PlanKept A B (.stay t) := h

theorem PlanKept.event {i : Instr} (h : t.Kept A B) : PlanKept A B (.event i t) := h

theorem PlanKept.issue {i : Instr} (h : t.Kept A B) : PlanKept A B (.issue i t) := h

theorem OutKept.ifEnabled {o : Option State} (ho : OptKept A B o) (h : s.Kept A B) : OutKept A B (s.ifEnabled o) := .next (.getD ho h)

theorem State.Kept.onStrand {x : Nat} {f : Strand → Strand} (h : s.Kept A B) (hf : ∀ t : Strand, t.P0 → (f t).P0 := by exact fun _ h => h) :
    (s.onStrand x f).Kept A B := by
  unfold State.onStrand
  split
  · exact .modStrand h hf
  · exact h

theorem State.Kept.modUnit {u : UnitId} {f : CoreUnit → CoreUnit} (hs : s.Kept A B) : (s.modUnit u f).Kept A B := hs

theorem State.Kept.modTen {die bay tag : Nat} {f : TenBay → TenBay} (hs : s.Kept A B) : (s.modTen die bay tag f).Kept A B := hs

theorem State.Kept.modPart {tag : Nat} {f : Part → Part} (hs : s.Kept A B) : (s.modPart tag f).Kept A B := hs

theorem State.Kept.modDie {d : Nat} {f : Die → Die} (hs : s.Kept A B) : (s.modDie d f).Kept A B := hs

theorem State.Kept.modCluster {d c : Nat} {f : Cluster → Cluster} (hs : s.Kept A B) : (s.modCluster d c f).Kept A B := hs

theorem State.Kept.modIsland {i : Nat} {f : Island → Island} (hs : s.Kept A B) : (s.modIsland i f).Kept A B := hs

theorem State.Kept.modInst {d i : Nat} {f : Instance → Instance} (hs : s.Kept A B) : (s.modInst d i f).Kept A B := hs

theorem State.Kept.modChan {k : Nat} {f : Chan → Chan} (hs : s.Kept A B) : (s.modChan k f).Kept A B := hs

theorem State.Kept.setCard {id : Nat} {c : Card} (hs : s.Kept A B) : (s.setCard id c).Kept A B := hs

theorem State.Kept.setFill {id : Nat} {f : Fill} (hs : s.Kept A B) : (s.setFill id f).Kept A B := hs

theorem State.Kept.setDrain {id : Nat} {g : Drain} (hs : s.Kept A B) : (s.setDrain id g).Kept A B := hs

theorem State.Kept.modQueue {tag q : Nat} {f : CmdQueue → CmdQueue} (hs : s.Kept A B) : (s.modQueue tag q f).Kept A B := hs

theorem State.Kept.freeBits {w : Nat} (hs : s.Kept A B) : (s.freeBits w).2.Kept A B := hs

theorem State.Kept.freeNat (hs : s.Kept A B) : s.freeNat.2.Kept A B := hs

theorem State.Kept.emit {e : HostEvent} (hs : s.Kept A B) : (s.emit e).Kept A B := hs

theorem State.Kept.addMsg {m : Msg} (hs : s.Kept A B) : (s.addMsg m).Kept A B := hs

theorem Strand.P0.resumeSlot {t : Strand} {now : Nat} (h : t.P0) : (Machine.resumeSlot t now).P0 := by
  unfold Machine.resumeSlot
  split <;> exact h

theorem Strand.P0.resumeWait {t : Strand} {now : Nat} (h : t.P0) : (Machine.resumeWait t now).P0 := by
  unfold Machine.resumeWait
  split <;> exact h

theorem State.Kept.rasAdd {d hi lo : Nat} (hs : s.Kept A B) : (s.rasAdd d hi lo).Kept A B := hs

theorem State.Kept.metered {tag : Nat} {l : Loc} (hs : s.Kept A B) : (s.metered tag l).Kept A B := by
  unfold State.metered
  split <;> exact hs

theorem State.Kept.writeAt {tag : Nat} {l : Loc} {bs : List Byte} (hs : s.Kept A B) : (s.writeAt tag l bs).Kept A B := by
  unfold State.writeAt
  split
  · exact .metered (.putBytes hs)
  · exact .putBytes hs
  · split
    · exact hs
    · split
      · exact .modStrand hs
      · exact hs
  · exact hs

theorem State.Kept.setLine {l : Loc} {o : LineOrder} (hs : s.Kept A B) : (s.setLine l o).Kept A B := hs

theorem State.Kept.setFifo {d : Nat} {t : Target} {l : List BufEntry} (hs : s.Kept A B) : (s.setFifo d t l).Kept A B := by
  unfold State.setFifo
  split <;> exact hs

theorem State.Kept.rdcDrop {d : Nat} {l : Loc} (hs : s.Kept A B) : (s.rdcDrop d l).Kept A B := hs

theorem State.Kept.errSeen {l : Loc} (h : s.Kept A B) : (s.errSeen l).Kept A B := by
  unfold State.errSeen
  exact .foldl h fun _ _ h => h

theorem State.Kept.eat {d tag : Nat} {l : Loc} {n : Nat} (hs : s.Kept A B) : (s.eat d tag l n).Kept A B := by
  unfold State.eat
  split
  · exact hs
  · exact .rest (.rdcDrop (.errSeen hs))

theorem State.Kept.rdcRoom {d : Nat} {slot : Nat × Nat} (hs : s.Kept A B) : (s.rdcRoom d slot).Kept A B := by
  unfold State.rdcRoom
  refine .ite (fun _ => hs) fun _ => ?_
  dsimp only
  split <;> exact hs

theorem State.Kept.rdcFill {d : Nat} {x : XLoc} (hs : s.Kept A B) : (s.rdcFill d x).Kept A B := by
  unfold State.rdcFill
  split
  · exact .ite (fun _ => hs) fun _ => .ite (fun _ => hs) fun _ => .ite (fun _ => .ite (fun _ => hs) (fun _ => .rest (.rdcRoom hs))) fun _ => hs
  · exact hs

theorem State.Kept.readTimes {o : OrderState} {d : Nat} {l : Loc} (hs : s.Kept A B) : (s.readTimes o d l).2.Kept A B := by
  unfold State.readTimes
  split
  · exact hs
  · dsimp only
    split <;> exact hs

theorem State.Kept.freeBytes {n : Nat} (hs : s.Kept A B) : (s.freeBytes n).2.Kept A B := hs

theorem State.Kept.homeRead {o : OrderState} {d tag : Nat} {x : XLoc} {n : Nat} (hs : s.Kept A B) : (s.homeRead o d tag x n).2.Kept A B := by
  unfold State.homeRead
  split
  · exact .metered hs
  · exact .metered (.rdcFill (.readTimes hs))

theorem PairKept.plainLoad {o : OrderState} {d tag : Nat} {x : XLoc} {n : Nat} (hs : s.Kept A B) : PairKept A B (s.plainLoad o d tag x n) := by
  unfold State.plainLoad
  split
  · split
    · exact .some hs
    · exact .none
  · split
    · exact .some hs
    · exact .some (.homeRead hs)

theorem PairKept.acquireLoad {o : OrderState} {d tag : Nat} {x : XLoc} {n : Nat} (hs : s.Kept A B) : PairKept A B (s.acquireLoad o d tag x n) := by
  unfold State.acquireLoad
  split
  · exact .some (.homeRead hs)
  · exact .none

theorem State.Kept.land {p : Landing} (hs : s.Kept A B) : (s.land p).Kept A B := by
  unfold State.land
  split <;> exact hs

theorem State.Kept.land? {y : Option Landing} (hs : s.Kept A B) : (s.land? y).Kept A B := by
  unfold State.land?
  split
  · exact hs
  · exact .land hs

theorem State.Kept.storeTimes {l : Loc} {t : Nat} {stamp : V4} (hs : s.Kept A B) : (s.storeTimes l t stamp).Kept A B := hs

theorem State.Kept.meteredLink {tag : Nat} {y : Target} (hs : s.Kept A B) : (s.meteredLink tag y).Kept A B := by
  unfold State.meteredLink
  split <;> exact hs

theorem State.Kept.plainStore {o : OrderState} {d tag : Nat} {l : Loc} {bs : List Byte} {land : Option Landing} {src : Issuer} (hs : s.Kept A B) :
    (s.plainStore o d tag l bs land src).2.Kept A B := by
  unfold State.plainStore
  split
  · exact .land? (.storeTimes (.writeAt hs))
  · exact .rest (.meteredLink (.rdcDrop (.setFifo hs)))

theorem State.Kept.applyStamp {o : OrderState} {d : Nat} {sc : Scope} {st : V4} (hs : s.Kept A B) : (s.applyStamp o d sc st).2.Kept A B := by
  unfold State.applyStamp
  split <;> exact hs

theorem State.Kept.applyStamps {o : OrderState} {d : Nat} (vs : List V4) (h : s.Kept A B) : (s.applyStamps o d vs).2.Kept A B := by
  induction vs generalizing s o with
  | nil => exact h
  | cons v vs ih => exact ih (.applyStamp h)

theorem State.Kept.strandApply {x : Nat} {vs : List V4} (hs : s.Kept A B) : (s.strandApply x vs).Kept A B := .modStrand (.applyStamps _ hs)

theorem State.Kept.atomicTimes {o : OrderState} {d : Nat} {l : Loc} {writes : Bool} (hs : s.Kept A B) : (s.atomicTimes o d l writes).2.Kept A B := by
  unfold State.atomicTimes
  split
  · exact hs
  · split
    · exact hs
    · exact .readTimes hs

theorem State.Kept.acquireFence {x : Nat} {sc : Scope} (hs : s.Kept A B) : (s.acquireFence x sc).Kept A B :=
  .ite (fun _ => .modStrand (.applyStamp hs)) fun _ => hs

theorem State.Kept.strandRelease {x : Nat} {sc : Scope} (hs : s.Kept A B) : (s.strandRelease x sc).Kept A B :=
  .ite (fun _ => .modStrand hs) fun _ => hs

theorem State.Kept.scFence {x : Nat} {sc : Scope} (hs : s.Kept A B) : (s.scFence x sc).Kept A B :=
  .ite (fun _ => .acquireFence (.modStrand (.applyStamp (.rest (.strandRelease hs))))) fun _ => .rest (.strandRelease hs)

theorem State.Kept.arriveOrd {o : OrderState} {d e : Nat} (hs : s.Kept A B) : (s.arriveOrd o d e).2.Kept A B := by
  unfold State.arriveOrd
  split
  · exact hs
  · exact .applyStamp hs

theorem State.Kept.homePut {tag : Nat} {l : Loc} {bs : List Byte} {stamp : V4} (hs : s.Kept A B) : (s.homePut tag l bs stamp).Kept A B :=
  .storeTimes (.writeAt hs)

theorem State.Kept.recordStore {l : Loc} {bs : List Byte} (hs : s.Kept A B) : (s.recordStore l bs).Kept A B := .homePut hs

theorem State.Kept.tlbInstall {u : UnitId} {bayToo : Bool} {e : TlbEntry} (hs : s.Kept A B) : (s.tlbInstall u bayToo e).Kept A B :=
  .modCluster (.ite (fun _ => hs) (fun _ => hs))

theorem State.Kept.clusterPaged {u : UnitId} {bayToo : Bool} {tag : Nat} {va : W64} {a : AccKind} (hs : s.Kept A B) :
    (s.clusterPaged u bayToo tag va a).2.Kept A B := by
  unfold State.clusterPaged
  split
  · exact hs
  · split
    · split
      · exact .tlbInstall hs
      · exact hs
    · exact hs

theorem State.Kept.paged {u : UnitId} {tag : Nat} {va : W64} {a : AccKind} (hs : s.Kept A B) : (s.paged u tag va a).2.Kept A B := by
  unfold State.paged
  split
  · exact hs
  · split
    · split <;> exact hs
    · exact .clusterPaged hs

theorem State.Kept.segment {u : UnitId} {tag idx : Nat} (hs : s.Kept A B) : (s.segment u tag idx).2.Kept A B := by
  unfold State.segment
  split
  · exact hs
  · dsimp only
    split <;> exact hs

theorem State.Kept.xlate {u : UnitId} {tag : Nat} {va : W64} {n : Nat} {a : AccKind} (hs : s.Kept A B) : (s.xlate u tag va n a).2.Kept A B := by
  unfold State.xlate
  split
  · exact .segment hs
  · exact .paged hs

theorem State.Kept.engineXlate {u : UnitId} {tag : Nat} {va : W64} {n : Nat} {a : AccKind} (hs : s.Kept A B) :
    (s.engineXlate u tag va n a).2.Kept A B := by
  unfold State.engineXlate
  split
  · exact hs
  · exact .clusterPaged hs

theorem OptKept.enqueueWalk {tag : Nat} {r : WalkReq} (hs : s.Kept A B) : OptKept A B (s.enqueueWalk tag r) :=
  .ite (fun _ => .none) fun _ => .ite (fun _ => .some hs) fun _ => .some hs

theorem State.Kept.askWalk {tag : Nat} {r : WalkReq} (hs : s.Kept A B) : (s.askWalk tag r).Kept A B := by
  unfold State.askWalk
  refine .ite (fun _ => hs) fun _ => ?_
  split
  · exact .of_some (.enqueueWalk hs) ‹_›
  · exact hs

theorem State.Kept.waitOn {x : Nat} {w : Wait} (hs : s.Kept A B) : (s.waitOn x w).Kept A B := .rest (.modStrand hs)

theorem State.Kept.setWait {x : Nat} {w : Wait} (hs : s.Kept A B) : (s.setWait x w).Kept A B := .modStrand hs

theorem State.Kept.toReady {x : Nat} (hs : s.Kept A B) : (s.toReady x).Kept A B := .modStrand hs

theorem State.Kept.writeTrapEntries {tag die idx n : Nat} {bs : List Byte} (h : s.Kept A B) : (s.writeTrapEntries tag die idx bs n).Kept A B := by
  induction n generalizing s idx bs with
  | zero => exact h
  | succ n ih => exact ih (.recordStore h)

theorem State.Kept.trapRecord {x : Nat} (hs : s.Kept A B) : (s.trapRecord x).Kept A B := by
  unfold State.trapRecord
  dsimp only
  split
  · exact hs
  · exact .ite (fun _ => hs) fun _ => .ite (fun _ => hs) fun _ => .ite (fun _ => hs) fun _ => .emit (.modStrand (.modPart (.writeTrapEntries hs)))

theorem State.Kept.deliver {x evt cause : Nat} {value resume : W64} (hs : s.Kept A B) : (s.deliver x evt cause value resume).Kept A B :=
  .trapRecord (.modStrand hs)

theorem Strand.P0.enterHandler {t : Strand} {cause : Nat} {value : W64} {resume : W64} (h : t.P0) : (Machine.enterHandler t cause value resume).P0 :=
  h

theorem State.Kept.takeTrap {x cause : Nat} {value resume : W64} (hs : s.Kept A B) : (s.takeTrap x cause value resume).Kept A B :=
  .ite (fun _ => .modStrand (.ite (fun _ => hs) (fun _ => hs)) (fun _ h => .enterHandler h)) fun _ => .deliver (.ite (fun _ => hs) (fun _ => hs))

theorem Strand.P0.prefixBack {t : Strand} (h : t.P0) : (Machine.prefixBack t).P0 := h

theorem State.Kept.defer {x cause : Nat} {value : W64} (hs : s.Kept A B) : (s.defer x cause value).Kept A B := .modStrand hs fun _ h => .prefixBack h

theorem State.Kept.trapAt {cause : Nat} {value resume : W64} (hs : s.Kept A B) : (s.trapAt cause value resume).Kept A B :=
  .ite (fun _ => .defer hs) fun _ => .takeTrap hs

theorem State.Kept.raise {cause : Nat} {value : W64} (hs : s.Kept A B) : (s.raise cause value).Kept A B := .trapAt hs

theorem State.Kept.raiseEarly {cause : Nat} {value : W64} (hs : s.Kept A B) : (s.raiseEarly cause value).Kept A B := .raise (.modStrand hs)

theorem Strand.P0.returnFrom {t : Strand} (h : t.P0) : (Machine.returnFrom t).P0 := h

theorem Strand.P0.setReg {t : Strand} {i : Fin 24} {v : W128} (h : t.P0) : (Machine.setReg t i v).P0 := h

theorem Strand.P0.retired {t : Strand} {r : Reply} (h : t.P0) : (Machine.retired t r).P0 := by
  cases hr : r.preds with
  | none => simpa [Strand.P0, Machine.retired, hr] using h
  | some p => simp [Strand.P0, Machine.retired, hr]

theorem State.Kept.raiseOf {x : Nat} {now : Bool} {cause : Nat} {value : W64} (hs : s.Kept A B) : (s.raiseOf x now cause value).Kept A B :=
  .ite (fun _ => .raise hs) fun _ => .defer hs

theorem State.Kept.retireReg {x : Nat} {now : Bool} {r : Reply} (hs : s.Kept A B) : (s.retireReg x now r).Kept A B := by
  unfold State.retireReg
  split
  · refine .ite (fun _ => ?_) fun _ => .modStrand hs fun _ h => .retired (.setReg h)
    split
    · exact .modStrand hs fun _ h => .retired (.setReg h)
    · exact .modStrand hs fun _ h => .retired (.setReg h)
    · exact .modStrand hs fun _ h => .retired (.setReg h)
    · exact .raiseOf hs
  · exact .modStrand hs fun _ h => .retired h
  · exact .modStrand hs fun _ h => .retired h

theorem State.Kept.retireOf {x : Nat} {now : Bool} {r : Reply} (hs : s.Kept A B) : (s.retireOf x now r).Kept A B := by
  unfold State.retireOf
  split
  · exact .waitOn hs
  · exact .retireReg hs

theorem State.Kept.retire {r : Reply} (hs : s.Kept A B) : (s.retire r).Kept A B := .retireOf hs

theorem State.Kept.answer {x : Nat} {r : Reply} (hs : s.Kept A B) : (s.answer x r).Kept A B := .setWait hs

theorem State.Kept.hangSettle {p : Strand → Bool} (h : s.Kept A B) : (s.hangSettle p).Kept A B :=
  .mapStrands h fun e he => by split <;> exact he

theorem State.Kept.setRing {u : UnitId} {tag k : Nat} {r : Ring} (hs : s.Kept A B) : (s.setRing u tag k r).Kept A B := hs

theorem PopKept.popOne {x : Nat} (hs : s.Kept A B) : PopKept A B (s.popOne x) := by
  unfold State.popOne
  dsimp only
  split
  · exact .foul
  · split
    · exact .val (.modStrand hs)
    · split
      · exact .wait
      · exact .val (.setRing (.modStrand (.readTimes hs)))

theorem State.Kept.foulPop {off : W64} (hs : s.Kept A B) : (s.foulPop off).Kept A B := .raise (.eat hs)

theorem State.Kept.unissued {w : Wait} (hs : s.Kept A B) : (s.unissued w).Kept A B := .waitOn hs

theorem State.Kept.src {a : Src} {k : W128 → State → State} (hs : s.Kept A B) (hk : ∀ (v0 : W128) (u : State), u.Kept A B → (k v0 u).Kept A B) :
    (s.src a k).Kept A B := by
  unfold State.src
  split
  · exact hk _ _ hs
  · exact hk _ _ hs
  · split
    · exact .unissued hs
    · exact hk _ _ (.of_val (.popOne hs) ‹_›)
    · exact .foulPop hs
    · exact .raise hs

theorem State.Kept.src2 {a b : Src} {k : W128 → W128 → State → State} (hs : s.Kept A B)
    (hk : ∀ (v0 : W128) (v1 : W128) (u : State), u.Kept A B → (k v0 v1 u).Kept A B) : (s.src2 a b k).Kept A B := by
  unfold State.src2
  split
  · split
    · exact .unissued hs
    · exact .raise hs
    · exact .foulPop hs
    · split
      · exact .unissued hs
      · exact .raise hs
      · exact .foulPop hs
      · exact hk _ _ _ (.of_val (.popOne (.of_val (.popOne hs) ‹_›)) ‹_›)
  · exact .src hs fun _ _ h1 => .src h1 fun _ _ h2 => hk _ _ _ h2

theorem State.Kept.dstBound {d : Dst} {k : State → State} (hs : s.Kept A B) (hk : ∀ (u : State), u.Kept A B → (k u).Kept A B) :
    (s.dstBound d k).Kept A B := by
  unfold State.dstBound
  split
  · exact .ite (fun _ => hk _ hs) fun _ => .raise hs
  · exact hk _ hs

theorem State.Kept.ops1 {d : Dst} {a : Src} {k : W128 → State → State} (hs : s.Kept A B)
    (hk : ∀ (v0 : W128) (u : State), u.Kept A B → (k v0 u).Kept A B) : (s.ops1 d a k).Kept A B :=
  .dstBound hs fun _ h1 => .src h1 fun _ _ h2 => hk _ _ h2

theorem State.Kept.ops2 {d : Dst} {a b : Src} {k : W128 → W128 → State → State} (hs : s.Kept A B)
    (hk : ∀ (v0 : W128) (v1 : W128) (u : State), u.Kept A B → (k v0 v1 u).Kept A B) : (s.ops2 d a b k).Kept A B :=
  .dstBound hs fun _ h1 => .src2 h1 fun _ _ _ h2 => hk _ _ _ h2

theorem State.Kept.prefixTaken {x : Nat} (hs : s.Kept A B) : (s.prefixTaken x).Kept A B :=
  .ite (fun _ => .setStrand hs (fun hb => .strand hs hb)) fun _ => hs

theorem OutKept.issue {i : Instr} {p : Pfx} {r : Role} {g : Guard} {body : State → State} (hs : s.Kept A B)
    (hbody : ∀ (u : State), u.Kept A B → (body u).Kept A B) : OutKept A B (s.issue i p r g body) :=
  .next (.ite (fun _ => .raiseEarly hs) (fun _ => .ite (fun _ => .raiseEarly hs) (fun _ => .ite (fun _ => .modStrand hs (fun _ h =>
    .retired h)) (fun _ => .ite (fun _ => .prefixTaken (hbody _ hs)) (fun _ => hbody _ hs)))))

theorem State.Kept.coreOnly {i : Instr} {body : State → State} (hs : s.Kept A B) (hbody : ∀ (u : State), u.Kept A B → (body u).Kept A B) :
    (s.coreOnly i body).Kept A B := .ite (fun _ => .raise hs) fun _ => hbody _ hs

theorem State.Kept.ldxDo {x : Nat} {op : MemOp} {sc : Scope} {l : Loc} (hs : s.Kept A B) : (s.ldxDo x op sc l).Kept A B :=
  .ite (fun _ => .defer (.eat hs)) fun _ => .answer (.modStrand (.rest (.applyStamp (.readTimes hs))))

theorem State.Kept.stxDo {x : Nat} {op : MemOp} {l : Loc} (hs : s.Kept A B) : (s.stxDo x op l).Kept A B := by
  unfold State.stxDo
  refine .answer (.modStrand (.rest (.setLine (.writeAt hs))) (fun _ h => ?_))
  split <;> exact h

theorem OptKept.syncTry {x : Nat} (hs : s.Kept A B) : OptKept A B (s.syncTry x) := by
  unfold State.syncTry
  split
  · exact .none
  · refine .ite (fun _ => .none) fun _ => ?_
    split
    · exact .none
    · split
      · exact .ite (fun _ => .some (.ldxDo hs)) fun _ => .none
      · exact .ite (fun _ => .some (.stxDo hs)) fun _ => .none
      · exact .none

theorem State.Kept.unpark {u : UnitId} {x : Nat} (hs : s.Kept A B) : (s.unpark u x).Kept A B := hs

theorem State.Kept.foreignAcquire {x : Nat} {sc : Scope} (hs : s.Kept A B) : (s.foreignAcquire x sc).Kept A B := .modStrand (.applyStamp hs)

theorem OptKept.foreignSync {x : Nat} {op : MemOp} {l : Loc} (hs : s.Kept A B) : OptKept A B (s.foreignSync x op l) := by
  unfold State.foreignSync
  refine .ite (fun _ => .none) fun _ => .ite (fun _ => .some (.setWait (.freeNat (.metered hs)))) fun _ => ?_
  split
  · exact .some (.answer (.foreignAcquire (.freeBits (.freeNat (.metered hs)))))
  · exact .some (.answer (.freeNat (.metered hs)))

theorem OptKept.homeSync {x : Nat} {op : MemOp} {l : Loc} (hs : s.Kept A B) : OptKept A B (s.homeSync x op l) := by
  unfold State.homeSync
  split
  · exact .foreignSync hs
  · dsimp only
    split
    · exact .ite (fun _ => .map (fun _ _ => .unpark (.of_some (.syncTry hs) ‹_›))) fun _ => .none
    · refine .ite (fun _ => .none) fun _ => ?_
      split
      · exact .some (.of_some (.syncTry hs) ‹_›)
      · exact .ite (fun _ => .none) fun _ => .ite (fun _ => .some (.setWait hs)) fun _ => .some (.setWait hs)
    · exact .none

theorem State.Kept.withdrawPark {x : Nat} (hs : s.Kept A B) : (s.withdrawPark x).Kept A B := by
  unfold State.withdrawPark
  split
  · exact hs
  · split
    · dsimp only
      split
      · exact .setWait hs
      · exact hs
    · exact hs

theorem OptKept.parkTimeout {die bay i : Nat} (hs : s.Kept A B) : OptKept A B (s.parkTimeout die bay i) := by
  unfold State.parkTimeout
  dsimp only
  split
  · exact .none
  · refine .ite (fun _ => .none) fun _ => ?_
    split
    · exact .some (.setWait hs)
    · exact .some hs

theorem OptKept.retryReissue {x : Nat} (hs : s.Kept A B) : OptKept A B (s.retryReissue x) := by
  unfold State.retryReissue
  split
  · exact .none
  · exact .ite (fun _ => .none) fun _ => .ite (fun _ => .some (.defer hs)) fun _ => .some (.setWait hs)

theorem State.Kept.detect {u : UnitId} {who : Nat} {l : XLoc} {va : W64} (hs : s.Kept A B) : (s.detect u who l va).Kept A B :=
  .ite (fun _ => hs) fun _ => .ite (fun _ => hs) fun _ => hs

theorem OptKept.streamModeEnd {u : UnitId} {k : Nat} (hs : s.Kept A B) : OptKept A B (s.streamModeEnd u k) := by
  unfold State.streamModeEnd
  split
  · exact .none
  · exact .ite (fun _ => .some hs) fun _ => .none

theorem State.Kept.depart {x : Nat} {dest : UnitId} (hs : s.Kept A B) : (s.depart x dest).Kept A B := .modStrand hs fun _ h => .prefixBack h

theorem State.Kept.dropCursor {x : Nat} (hs : s.Kept A B) : (s.dropCursor x).Kept A B := by
  unfold State.dropCursor
  split <;> exact hs

theorem State.Kept.stopBase {x : Nat} {w : W64} (hs : s.Kept A B) : (s.stopBase x w).Kept A B := .modStrand (.dropCursor hs)

theorem State.Kept.footprintStop {x : Nat} (hs : s.Kept A B) : (s.footprintStop x).Kept A B := by
  unfold State.footprintStop
  dsimp only
  split
  · exact .stopBase hs
  · split
    · exact .setCard (.stopBase hs)
    · exact .stopBase hs

theorem State.Kept.waitWalk {x : Nat} {op : MemOp} (hs : s.Kept A B) : (s.waitWalk x op).Kept A B := .askWalk (.waitOn hs)

theorem State.Kept.placed {x : Nat} {op : MemOp} {l : XLoc} (hs : s.Kept A B) : (s.placed x op l).Kept A B := by
  unfold State.placed
  refine .ite (fun _ => .toReady hs) fun _ => ?_
  split
  · exact .setWait hs
  · exact .toReady hs
  · split
    · exact .defer hs
    · exact .depart hs
    · exact .setWait hs

theorem State.Kept.hold {s0 : State} {op : MemOp} {l : XLoc} (hs : s.Kept A B) (hs0 : s0.Kept A B) : (s.hold s0 op l).Kept A B :=
  .ite (fun _ => hs0) fun _ => .waitOn hs

theorem State.Kept.memChecks {s0 : State} {ea : W64} {size : Nat} {rd wr : Bool} {k : State} (hs0 : s0.Kept A B) (hk : k.Kept A B) :
    (s.memChecks s0 ea size rd wr k).Kept A B :=
  .ite (fun _ => .raise hs0) fun _ => .ite (fun _ => .raise hs0) fun _ => .ite (fun _ => .footprintStop hs0) fun _ => hk

theorem State.Kept.plainIssue {s0 : State} {op : MemOp} {here : XLoc → State → State} (hs : s.Kept A B) (hs0 : s0.Kept A B)
    (hhere : ∀ (v0 : XLoc) (u : State), u.Kept A B → (here v0 u).Kept A B) : (s.plainIssue s0 op here).Kept A B := by
  unfold State.plainIssue
  refine .memChecks hs0 (.ite (fun _ => .raise hs0) (fun _ => ?_))
  dsimp only
  split
  · exact .raise hs0
  · exact .ite (fun _ => hs0) fun _ => .ite (fun _ => .waitWalk hs0) fun _ => .waitWalk (.xlate hs)
  · split
    · exact .raise hs0
    · exact .depart hs0
    · exact .hold (.xlate hs) hs0
    · exact .ite (fun _ => .hold (.xlate hs) hs0) fun _ => hhere _ _ (.xlate hs)

theorem State.Kept.halves {n : Nat} (hs : s.Kept A B) : (s.halves n).2.Kept A B := by
  unfold State.halves
  split <;> exact hs

theorem PairKept.loadBy {x : Nat} {l : XLoc} {n : Nat} (hs : s.Kept A B) : PairKept A B (s.loadBy x l n) := by
  unfold State.loadBy
  unfold Option.map
  split
  · exact .some (.modStrand (.of_pair (.plainLoad hs) ‹_›))
  · exact .none

theorem State.Kept.storeBy {x : Nat} {ea : W64} {l : Loc} {bs : List Byte} (hs : s.Kept A B) : (s.storeBy x ea l bs).Kept A B :=
  .modStrand (.plainStore hs)

theorem State.Kept.splitOn {x : Nat} {op : MemOp} {l : XLoc} {hi : Bool} {bs : List Byte} (hs : s.Kept A B) : (s.splitOn x op l hi bs).Kept A B :=
  .setWait hs

theorem State.Kept.loadHere {op : MemOp} {k : MKind} {s0 : State} {l : XLoc} (hs : s.Kept A B) (hs0 : s0.Kept A B) :
    (loadHere op k s0 l s).Kept A B := by
  unfold Machine.loadHere
  dsimp only
  split
  · split
    · exact hs0
    · exact .ite (fun _ => .raise (.eat hs0)) fun _ => .retire (.of_pair (.loadBy (.halves hs)) ‹_›)
  · split
    · exact hs0
    · exact .ite (fun _ => .raise (.eat hs0)) fun _ => .splitOn (.of_pair (.loadBy (.halves hs)) ‹_›)

theorem State.Kept.storeHere {op : MemOp} {l : XLoc} (hs : s.Kept A B) : (storeHere op l s).Kept A B := by
  unfold Machine.storeHere
  dsimp only
  split
  · exact .retire (.storeBy (.halves hs))
  · exact .splitOn (.storeBy (.halves hs))

theorem State.Kept.finishSplit {x : Nat} (hs : s.Kept A B) : (s.finishSplit x).Kept A B := by
  unfold State.finishSplit
  split
  · exact hs
  · split
    · split
      · exact hs
      · exact .ite (fun _ => .defer (.eat (.of_pair (.loadBy hs) ‹_›))) fun _ => .retireOf (.of_pair (.loadBy hs) ‹_›)
    · exact .retireOf (.storeBy hs)
    · exact hs

theorem State.Kept.syncIssue {s0 : State} {op : MemOp} (hs : s.Kept A B) (hs0 : s0.Kept A B) : (s.syncIssue s0 op).Kept A B := by
  unfold State.syncIssue
  refine .memChecks hs0 (.ite (fun _ => .raise hs0) (fun _ => ?_))
  dsimp only
  split
  · exact .raise hs0
  · exact hs0
  · refine .ite (fun _ => .raise hs0) fun _ => ?_
    split
    · exact .raise hs0
    · exact .depart hs0
    · exact .hold (.xlate hs) hs0
    · exact .hold (.xlate hs) hs0

theorem OptKept.homeAtomic {x : Nat} {m : MemOp} {l : XLoc} {op : AtOp} {o : AOrd} {sc : Scope} {n : Nat} (hs : s.Kept A B) : OptKept A B
    (s.homeAtomic x m l op o sc n) := by
  unfold State.homeAtomic
  refine .ite (fun _ => .none) fun _ => ?_
  split
  · exact .some (.answer (.metered (.ite (fun _ => .foreignAcquire hs) (fun _ => hs))))
  · refine .ite (fun _ => .some (.defer (.eat hs))) fun _ => .some (.answer (.modStrand ?_))
    split
    · exact .applyStamp (.rdcFill (.ite (fun _ => .writeAt (.atomicTimes hs)) (fun _ => .atomicTimes hs)))
    · exact .rdcFill (.ite (fun _ => .writeAt (.atomicTimes hs)) (fun _ => .atomicTimes hs))

theorem State.Kept.poisonTrap {x : Nat} {m : MemOp} {l : Loc} {n : Nat} (hs : s.Kept A B) : (s.poisonTrap x m l n).Kept A B := .defer (.eat hs)

theorem State.Kept.loadReply {x : Nat} {m : MemOp} {k : MKind} {l : Loc} {n : Nat} {bs : List Byte} {bad : Bool} (hs : s.Kept A B) :
    (s.loadReply x m k l n bs bad).Kept A B := .ite (fun _ => .poisonTrap hs) fun _ => .answer hs

theorem OptKept.homeLoad {x : Nat} {m : MemOp} {l : XLoc} {k : MKind} (hs : s.Kept A B) : OptKept A B (s.homeLoad x m l k) := by
  unfold State.homeLoad
  split
  · exact .some (.modUnit (.setWait hs))
  · split
    · exact .map fun _ _ => .loadReply (.of_pair (.loadBy hs) ‹_›)
    · dsimp only
      split
      · exact .map fun _ _ => .loadReply (.of_pair (.loadBy (.halves hs)) ‹_›)
      · exact .map fun _ _ => .ite (fun _ => .poisonTrap (.of_pair (.loadBy (.halves hs)) ‹_›)) fun _ =>
          .setWait (.of_pair (.loadBy (.halves hs)) ‹_›)

theorem State.Kept.homeStore {x : Nat} {m : MemOp} {l : XLoc} (hs : s.Kept A B) : (s.homeStore x m l).Kept A B := by
  unfold State.homeStore
  split
  · exact .answer (.storeBy hs)
  · dsimp only
    split
    · exact .answer (.storeBy (.halves hs))
    · exact .setWait (.storeBy (.halves hs))

theorem State.Kept.noteForeign {x : Nat} {l : Loc} (hs : s.Kept A B) : (s.noteForeign x l).Kept A B := by
  unfold State.noteForeign
  split
  · split <;> exact hs
  · exact hs

theorem OptKept.homeAccess {x : Nat} (hs : s.Kept A B) : OptKept A B (s.homeAccess x) := by
  unfold State.homeAccess
  refine .ite (fun _ => .some (.finishSplit hs)) fun _ => ?_
  split
  · exact .none
  · split
    · exact .none
    · refine .ite (fun _ => .none) fun _ => .ite (fun _ => .some (.defer hs)) fun _ => ?_
      dsimp only
      split
      · exact .homeLoad (.noteForeign (.ite (fun _ => .detect hs) (fun _ => hs)))
      · exact .some (.homeStore (.noteForeign (.ite (fun _ => .detect hs) (fun _ => hs))))
      · exact .homeSync (.noteForeign (.ite (fun _ => .detect hs) (fun _ => hs)))
      · exact .homeSync (.noteForeign (.ite (fun _ => .detect hs) (fun _ => hs)))
      · exact .homeAtomic (.noteForeign (.ite (fun _ => .detect hs) (fun _ => hs)))
      · exact .none

theorem OutKept.atomicIssue {i : Instr} {op : AtOp} {base : Base} {b : RegZ} {o : AOrd} {sc : Scope} {z : ASize} {g : Guard} (hs : s.Kept A B) :
    OutKept A B (atomicIssue i op base b o sc z g s) := by
  unfold Machine.atomicIssue
  refine .issue hs fun _ h1 => .memChecks h1 ?_
  dsimp only
  split
  · exact .raise h1
  · exact .ite (fun _ => h1) fun _ => .waitWalk (.xlate h1)
  · exact .ite (fun _ => .raise h1) fun _ => .hold (.xlate h1) h1

theorem State.Kept.fenceStep {x : Nat} {acq sc : Bool} {scope : Scope} (hs : s.Kept A B) : (s.fenceStep x acq sc scope).Kept A B :=
  .answer (.ite (fun _ => .scFence hs) (fun _ => .ite (fun _ => .acquireFence (.strandRelease hs)) (fun _ => .strandRelease hs)))

theorem State.Kept.setTile {tag die bay t : Nat} {v : Tile} (hs : s.Kept A B) : (s.setTile tag die bay t v).Kept A B := hs

theorem OutKept.tileOp {i : Instr} {r : Role} {t : Nat} {g : Guard} {ok : TileState → Bool} {body : Tile → State → State} (hs : s.Kept A B)
    (hbody : ∀ (v0 : Tile) (u : State), u.Kept A B → (body v0 u).Kept A B) : OutKept A B (tileOp i r t g ok body s) :=
  .issue hs fun _ h1 => .coreOnly h1 fun _ h2 => .ite (fun _ => .raise h2) fun _ => .ite (fun _ => hbody _ _ h2) fun _ => .unissued h2

theorem State.Kept.applyTile {t : Tile} (hs : s.Kept A B) : (s.applyTile t).Kept A B := .ite (fun _ => .strandApply hs) fun _ => hs

theorem OutKept.execTrd {a : Src} {t : BitVec 6} {g : Guard} (hs : s.Kept A B) : OutKept A B (execTrd a t g s) := by
  unfold Machine.execTrd
  refine .tileOp hs fun _ _ h1 => .src h1 fun _ _ h2 => ?_
  dsimp only
  split
  · exact .raise h1
  · exact .ite (fun _ => h1) fun _ => .retire (.rest (.setFill (.setTile (.applyTile h2))))

theorem OutKept.execTrdMc {a b : Src} {t : BitVec 6} {g : Guard} (hs : s.Kept A B) : OutKept A B (execTrdMc a b t g s) := by
  unfold Machine.execTrdMc
  refine .tileOp hs fun _ _ h1 => .src2 h1 fun _ _ _ h2 => .ite (fun _ => .raise h1) fun _ => .ite (fun _ => .retire h2) fun _ => .ite (fun _ =>
    .raise h1) fun _ => ?_
  split
  · exact .raise h1
  · exact .ite (fun _ => h1) fun _ => .waitOn (.rest (.setFill (.applyTile h2)))

theorem OutKept.execTwr {a : Src} {t : BitVec 6} {g : Guard} (hs : s.Kept A B) : OutKept A B (execTwr a t g s) := by
  unfold Machine.execTwr
  refine .tileOp hs fun _ _ h1 => .ite (fun _ => .raise h1) fun _ => .src h1 fun _ _ h2 => ?_
  dsimp only
  split
  · exact .raise h1
  · exact .ite (fun _ => h1) fun _ => .retire (.rest (.setDrain (.setTile (.applyTile h2))))

theorem State.Kept.fillBayDone {id b : Nat} (hs : s.Kept A B) : (s.fillBayDone id b).Kept A B := by
  unfold State.fillBayDone
  split
  · exact hs
  · exact .ite (fun _ => hs) fun _ => hs

theorem State.Kept.fillBayEnd {id b : Nat} (hs : s.Kept A B) : (s.fillBayEnd id b).Kept A B := by
  unfold State.fillBayEnd
  split
  · exact hs
  · exact .ite (fun _ => .fillBayDone hs) fun _ => hs

theorem OptKept.fillRelease {id : Nat} (hs : s.Kept A B) : OptKept A B (s.fillRelease id) := by
  unfold State.fillRelease
  split
  · exact .none
  · split
    · exact .none
    · exact .some (.fillBayDone hs)

theorem State.Kept.landLine {f : Fill} {p : FillPacket} (hs : s.Kept A B) : (s.landLine f p).Kept A B :=
  .setTile (.ite (fun _ => .rest (.plainStore hs)) (fun _ => .land hs))

theorem State.Kept.fillStop {id : Nat} (hs : s.Kept A B) : (s.fillStop id).Kept A B := by
  unfold State.fillStop
  split
  · exact hs
  · exact .ite (fun _ => hs) fun _ => .ite (fun _ => hs) fun _ => .foldl hs fun _ _ h1 => .fillBayEnd h1

theorem OptKept.tileLanding {id i : Nat} (hs : s.Kept A B) : OptKept A B (s.tileLanding id i) := by
  unfold State.tileLanding
  split
  · exact .none
  · split
    · exact .none
    · exact .some (.ite (fun _ => .fillStop (.setFill (.landLine hs))) (fun _ => .ite (fun _ => .fillBayEnd (.setFill (.landLine hs))) (fun _ =>
        .setFill (.landLine hs))))

theorem State.Kept.fillReply {id : Nat} {f : Fill} {line : Nat} {r : ReadRes} {bad : List Bool} {foreign : Bool} (hs : s.Kept A B) :
    (s.fillReply id f line r bad foreign).Kept A B := .ite (fun _ => hs) fun _ => .fillStop hs

theorem State.Kept.errCarry {src : Loc} {bad : List Bool} {f : Fill} {line : Nat} (hs : s.Kept A B) : (s.errCarry src bad f line).Kept A B :=
  .ite (fun _ => hs) fun _ => hs

theorem State.Kept.fillFail {id : Nat} (hs : s.Kept A B) : (s.fillFail id).Kept A B := by
  unfold State.fillFail
  split
  · exact hs
  · exact .fillStop hs

theorem OptKept.fillRead {id line : Nat} (hs : s.Kept A B) : OptKept A B (s.fillRead id line) := by
  unfold State.fillRead
  split
  · exact .none
  · refine .ite (fun _ => .none) fun _ => ?_
    dsimp only
    split
    · exact .some (.askWalk (.xlate hs))
    · exact .some (.fillFail hs)
    · refine .ite (fun _ => .some (.fillFail hs)) fun _ => .ite (fun _ => ?_) fun _ => ?_
      · split
        · exact .none
        · exact .some (.fillReply (.errCarry (.of_pair (.plainLoad (.detect (.xlate hs))) ‹_›)))
      · split
        · exact .some (.modUnit (.setFill (.detect (.xlate hs))))
        · exact .none

theorem State.Kept.fillHomeRead {l : XLoc} {id line : Nat} {bad : List Bool} (hs : s.Kept A B) : (s.fillHomeRead l id line bad).Kept A B := by
  unfold State.fillHomeRead
  split
  · exact hs
  · exact .fillReply (.errCarry (.homeRead hs))

theorem OptKept.multicastAccept {id i : Nat} (hs : s.Kept A B) : OptKept A B (s.multicastAccept id i) := by
  unfold State.multicastAccept
  split
  · exact .none
  · split
    · exact .none
    · refine .ite (fun _ => .none) fun _ => .some (.ite (fun _ => ?_) (fun _ => hs))
      split
      · exact .answer hs
      · exact hs

theorem State.Kept.drainFail {id : Nat} (hs : s.Kept A B) : (s.drainFail id).Kept A B := by
  unfold State.drainFail
  split <;> exact hs

theorem State.Kept.drainAck {id : Nat} (hs : s.Kept A B) : (s.drainAck id).Kept A B := by
  unfold State.drainAck
  split <;> exact hs

theorem OptKept.tileDrainStore {id line : Nat} (hs : s.Kept A B) : OptKept A B (s.tileDrainStore id line) := by
  unfold State.tileDrainStore
  split
  · exact .none
  · refine .ite (fun _ => .none) fun _ => ?_
    dsimp only
    split
    · exact .some (.askWalk (.xlate hs))
    · exact .some (.drainFail hs)
    · exact .ite (fun _ => .some (.drainFail hs)) fun _ => .some (.ite (fun _ => .drainAck (.setDrain (.plainStore (.readTimes (.xlate hs)))))
        (fun _ => .setDrain (.plainStore (.readTimes (.xlate hs)))))

theorem OptKept.tileDrainReady {id : Nat} (hs : s.Kept A B) : OptKept A B (s.tileDrainReady id) := by
  unfold State.tileDrainReady
  split
  · exact .none
  · exact .ite (fun _ => .none) fun _ => .ite (fun _ => .some hs) fun _ => .some hs

theorem OptKept.drainRelease {id : Nat} (hs : s.Kept A B) : OptKept A B (s.drainRelease id) := by
  unfold State.drainRelease
  split
  · exact .none
  · split
    · exact .none
    · exact .ite (fun _ => .some hs) fun _ => .none

theorem State.Kept.setWalk {die : Nat} {w : Walk} (hs : s.Kept A B) : (s.setWalk die w).Kept A B := hs

theorem State.Kept.cachePointer {die : Nat} {w : Walk} {l : Nat} {pte : W64} (hs : s.Kept A B) : (s.cachePointer die w l pte).Kept A B := hs

theorem State.Kept.homeAcquire {l : Loc} (hs : s.Kept A B) : (s.homeAcquire l).Kept A B := by
  unfold State.homeAcquire
  split
  · exact .applyStamp hs
  · exact hs

theorem State.Kept.walkRead {die : Nat} {w : Walk} (hs : s.Kept A B) : (s.walkRead die w).Kept A B := by
  unfold State.walkRead
  dsimp only
  split
  · exact .setWalk (.homeAcquire hs)
  · exact .setWalk (.cachePointer (.homeAcquire hs))

theorem State.Kept.walkStart {die : Nat} {w : Walk} (hs : s.Kept A B) : (s.walkStart die w).Kept A B := by
  unfold State.walkStart
  split
  · exact .walkRead hs
  · exact .ite (fun _ => hs) fun _ => .walkRead hs

theorem OptKept.walkTableRead {die i : Nat} (hs : s.Kept A B) : OptKept A B (s.walkTableRead die i) := by
  unfold State.walkTableRead
  dsimp only
  split
  · exact .none
  · exact .ite (fun _ => .none) fun _ => .ite (fun _ => .some (.walkRead hs)) fun _ => .ite (fun _ => .none) fun _ => .some (.walkStart hs)

theorem State.Kept.faultWrite {tag die : Nat} {r : FaultRec} (hs : s.Kept A B) : (s.faultWrite tag die r).Kept A B := .modPart (.recordStore hs)

theorem State.Kept.faultPut {tag die : Nat} {r : FaultRec} (hs : s.Kept A B) : (s.faultPut tag die r).Kept A B :=
  .ite (fun _ => .faultWrite hs) fun _ => .ite (fun _ => hs) fun _ => hs

theorem OptKept.faultDeferred {tag : Nat} (hs : s.Kept A B) : OptKept A B (s.faultDeferred tag) := by
  unfold State.faultDeferred
  dsimp only
  split
  · exact .none
  · exact .ite (fun _ => .none) fun _ => .some (.faultWrite hs)

theorem State.Kept.parkReq {fid : Nat} {r : WalkReq} (hs : s.Kept A B) : (s.parkReq fid r).Kept A B := by
  unfold State.parkReq
  split
  · refine .modStrand hs fun _ h => ?_
    split <;> exact h
  · split <;> exact hs
  · split <;> exact hs
  · split <;> exact hs
  · exact hs

theorem State.Kept.cardFail {id : Nat} {i : Option Nat} {code : Nat} (hs : s.Kept A B) : (s.cardFail id i code).Kept A B := by
  unfold State.cardFail
  split
  · exact .ite (fun _ => .ite (fun _ => hs) (fun _ => hs)) fun _ => hs
  · exact hs

theorem State.Kept.failReq {r : WalkReq} {cause : Nat} (hs : s.Kept A B) : (s.failReq r cause).Kept A B := by
  unfold State.failReq
  split
  · exact .defer hs
  · exact .fillFail hs
  · exact .drainFail hs
  · exact .cardFail hs
  · exact hs

theorem State.Kept.installFor {tag l : Nat} {pte : W64} {r : WalkReq} (hs : s.Kept A B) : (s.installFor tag l pte r).Kept A B := .tlbInstall hs

theorem State.Kept.completeReq {l : Nat} {pte : W64} {r : WalkReq} (hs : s.Kept A B) : (s.completeReq l pte r).Kept A B := by
  unfold State.completeReq
  split
  · split
    · exact .ite (fun _ => .placed hs) fun _ => hs
    · exact hs
  · exact hs

theorem State.Kept.refuseGroup {tag die cause : Nat} {pte : W64} {rs : List WalkReq} (hs : s.Kept A B) :
    (s.refuseGroup tag die cause pte rs).Kept A B := by
  unfold State.refuseGroup
  split
  · exact hs
  · exact .ite (fun _ => .emit (.foldl hs (fun _ _ h1 => .failReq h1))) fun _ => .foldl (.faultPut hs) fun _ _ h1 => .parkReq h1

theorem OptKept.walkEnd {die i : Nat} (hs : s.Kept A B) : OptKept A B (s.walkEnd die i) := by
  unfold State.walkEnd
  split
  · exact .none
  · split
    · exact .none
    · refine .some (.foldl ?_ (fun _ _ h1 => .refuseGroup h1))
      split
      · refine .foldl ?_ fun _ _ h1 => .ite (fun _ => .completeReq h1) fun _ => h1
        split
        · exact .foldl hs fun _ _ h1 => .ite (fun _ => h1) fun _ => .installFor h1
        · exact hs
      · split
        · exact .foldl hs fun _ _ h1 => .ite (fun _ => h1) fun _ => .installFor h1
        · exact hs

theorem OptKept.missQueueEntry {die i : Nat} (hs : s.Kept A B) : OptKept A B (s.missQueueEntry die i) := by
  unfold State.missQueueEntry
  split
  · exact .none
  · exact .enqueueWalk hs

theorem State.Kept.replayStrand {x : Nat} (hs : s.Kept A B) : (s.replayStrand x).Kept A B := by
  unfold State.replayStrand
  split
  · exact .ite (fun _ => .waitWalk hs) fun _ => hs
  · exact hs

theorem State.Kept.replayReq {tag fid cause : Nat} {r : WalkReq} (hs : s.Kept A B) : (s.replayReq tag fid cause r).Kept A B := by
  unfold State.replayReq
  split
  · exact .ite (fun _ => .replayStrand hs) fun _ => hs
  · split <;> exact hs
  · split <;> exact hs
  · split <;> exact hs
  · exact hs

theorem State.Kept.failParked {tag cause : Nat} {r : WalkReq} (hs : s.Kept A B) : (s.failParked tag cause r).Kept A B := by
  unfold State.failParked
  split
  · exact .ite (fun _ => .failReq hs) fun _ => hs
  · exact .failReq hs

theorem PairKept.takeParked {tag fid : Nat} (hs : s.Kept A B) : PairKept A B (s.takeParked tag fid) := by
  unfold State.takeParked
  split
  · exact .none
  · exact .some hs

theorem OptKept.xfrReplay {tag fid : Nat} (hs : s.Kept A B) : OptKept A B (s.xfrReplay tag fid) := by
  unfold State.xfrReplay
  split
  · exact .none
  · exact .some (.foldl (.of_pair (.takeParked hs) ‹_›) (fun _ _ h1 => .replayReq h1))

theorem OptKept.xfrFail {tag fid : Nat} (hs : s.Kept A B) : OptKept A B (s.xfrFail tag fid) := by
  unfold State.xfrFail
  split
  · exact .none
  · exact .some (.foldl (.of_pair (.takeParked hs) ‹_›) (fun _ _ h1 => .failParked h1))

theorem State.Kept.applyResolved {tag : Nat} (hs : s.Kept A B) : (s.applyResolved tag).Kept A B :=
  .foldl hs fun _ _ h1 => .ite (fun _ => .replayStrand h1) fun _ => .ite (fun _ => .defer h1) fun _ => h1

theorem OptKept.tlbiComplete {x : Nat} (hs : s.Kept A B) : OptKept A B (s.tlbiComplete x) := by
  unfold State.tlbiComplete
  split
  · exact .ite (fun _ => .none) fun _ => .some (.answer hs)
  · exact .none

theorem OutKept.hintStep {i : Instr} {f : Strand → Strand} (h : s.Kept A B) (hf : ∀ t : Strand, t.P0 → (f t).P0 := by exact fun _ h => h) :
    OutKept A B (hintStep i s f) := .next (.ite (fun _ => .raiseEarly h) fun _ => .modStrand h hf)

theorem OptKept.takeDeferred {x : Nat} (hs : s.Kept A B) : OptKept A B (s.takeDeferred x) := by
  unfold State.takeDeferred
  split
  · split
    · exact .none
    · exact .ite (fun _ => .none) fun _ => .some (.takeTrap (.modStrand hs))
  · exact .ite (fun _ => .none) fun _ => .some (.takeTrap (.modStrand hs))

theorem State.Kept.svcPop {u : UnitId} {tag : Nat} (hs : s.Kept A B) : (s.svcPop u tag).2.Kept A B := by
  unfold State.svcPop
  split <;> exact hs

theorem State.Kept.svcDone {u : UnitId} {tag : Nat} {v : W64} (hs : s.Kept A B) : (s.svcDone u tag v).Kept A B := by
  unfold State.svcDone
  split
  · exact hs
  · exact .ite (fun _ => hs) fun _ => .answer hs

theorem State.Kept.feRange {tag die bay : Nat} {full : Bool} {v : W64} {x : Option Nat} (hs : s.Kept A B) :
    (s.feRange tag die bay full v x).Kept A B := hs

theorem OptKept.feStep {id tag die bay : Nat} {full : Bool} {next left : Nat} {x : Option Nat} (hs : s.Kept A B) : OptKept A B
    (s.feStep id tag die bay full next left x) := by
  unfold State.feStep
  refine .ite (fun _ => .none) fun _ => .some (.ite (fun _ => hs) (fun _ => ?_))
  dsimp only
  split
  · exact .answer hs
  · exact hs

theorem State.Kept.feControl {die bay : Nat} {full : Bool} {v : W64} (hs : s.Kept A B) : (s.feControl die bay full v).Kept A B := by
  unfold State.feControl
  split <;> exact hs

theorem State.Kept.dbgcResume {u : UnitId} {slots : BitVec 16} (hs : s.Kept A B) : (s.dbgcResume u slots).Kept A B := by
  unfold State.dbgcResume
  refine .foldl hs fun _ _ h1 => .ite (fun _ => h1) fun _ => ?_
  split
  · exact h1
  · split
    · exact h1
    · exact .ite (fun _ => .toReady h1) fun _ => h1

theorem State.Kept.csrRead {n : Nat} (hs : s.Kept A B) : (s.csrRead n).2.Kept A B := by
  unfold State.csrRead
  dsimp only
  split
  · exact hs
  · split
    · exact hs
    · split
      · exact hs
      · split
        · exact hs
        · split
          · exact hs
          · split
            · exact hs
            · split
              · exact .svcPop hs
              · exact hs

theorem OutKept.execCsrw {csr : BitVec 10} {a : Src} {g : Guard} (hs : s.Kept A B) : OutKept A B (execCsrw csr a g s) := by
  unfold Machine.execCsrw
  refine .issue hs fun _ h1 => .ite (fun _ => .raise h1) fun _ => .ite (fun _ => .raise h1) fun _ => .src h1 fun _ _ h2 => .ite (fun _ =>
    .modStrand (.retire h2)) fun _ => .ite (fun _ => .retire h2) fun _ => .ite (fun _ => .retire h2) fun _ => .ite (fun _ => .ite (fun _ =>
      .raise h1) (fun _ => .ite (fun _ => .retire (.svcDone h2)) (fun _ => .waitOn h2))) fun _ => ?_
  split
  · exact .raise h1
  · exact .feRange (.waitOn h2)

theorem State.Kept.takeSlot {x : Nat} {u : UnitId} {n : Nat} (hs : s.Kept A B) : (s.takeSlot x u n).Kept A B := .modStrand hs fun _ h => .resumeSlot h

theorem State.Kept.creelStore {u : UnitId} {tag i j : Nat} {bs : List Byte} (hs : s.Kept A B) : (s.creelStore u tag i j bs).Kept A B := by
  unfold State.creelStore
  split
  · exact hs
  · exact hs
  · exact .storeTimes (.writeAt hs)

theorem State.Kept.creelSave {u : UnitId} {tag : Nat} (hs : s.Kept A B) : (s.creelSave u tag).Kept A B :=
  .foldl hs fun _ _ h1 => .foldl h1 fun _ _ h2 => .creelStore h2

theorem State.Kept.creelTouch {x : Nat} (hs : s.Kept A B) : (s.creelTouch x).Kept A B := by
  unfold State.creelTouch
  split
  · exact .creelSave hs
  · exact hs

theorem State.Kept.setCreel {u : UnitId} {tag : Nat} {l : List Nat} (hs : s.Kept A B) : (s.setCreel u tag l).Kept A B := hs

theorem State.Kept.creelOverflow {x : Nat} {u : UnitId} (hs : s.Kept A B) : (s.creelOverflow x u).Kept A B :=
  .deliver (.modStrand (.ite (fun _ => hs) (fun _ => .modStrand hs)))

theorem State.Kept.enterCreel {x : Nat} {u : UnitId} (hs : s.Kept A B) : (s.enterCreel x u).Kept A B :=
  .ite (fun _ => .creelSave (.modStrand hs)) fun _ => .creelOverflow hs

theorem State.Kept.settleIn {x : Nat} {u : UnitId} (hs : s.Kept A B) : (s.settleIn x u).Kept A B := by
  unfold State.settleIn
  split
  · exact .takeSlot hs
  · exact .enterCreel hs

theorem State.Kept.creelEnter {u : UnitId} {tag n : Nat} (hs : s.Kept A B) : (s.creelEnter u tag n).Kept A B := by
  unfold State.creelEnter
  split
  · exact hs
  · exact .creelSave (.takeSlot hs)

theorem State.Kept.requantum {x : Nat} (hs : s.Kept A B) : (s.requantum x).Kept A B :=
  .ite (fun _ => .modStrand hs) fun _ => .ite (fun _ => .modStrand hs) fun _ => hs

theorem State.Kept.putEntry {put : Putter} {die bay off : Nat} {e : List Byte} (h : s.Kept A B)
    (hput : ∀ (u : State) (l : Loc) (bs : List Byte), u.Kept A B → (put u l bs).Kept A B) : (putEntry put s die bay off e).Kept A B :=
  hput _ _ _ (hput _ _ _ h)

theorem State.Kept.fileBay {put : Putter} {f : Field} {k : Nat} {e : List Byte} {p : P3} {b : FieldBay} (hs : s.Kept A B)
    (hput : ∀ (u : State) (l : Loc) (bs : List Byte), u.Kept A B → (put u l bs).Kept A B) : (fileBay put f k e p s b).2.Kept A B := by
  unfold Machine.fileBay
  split
  · split
    · exact .putEntry hs fun _ _ _ h1 => hput _ _ _ h1
    · exact hs
  · split
    · split
      · exact .putEntry hs fun _ _ _ h1 => hput _ _ _ h1
      · exact hs
    · exact hs

theorem State.Kept.fileBays {put : Putter} {f : Field} {k : Nat} {e : List Byte} {p : P3} {bs : List FieldBay} (h : s.Kept A B)
    (hput : ∀ (u : State) (l : Loc) (bs : List Byte), u.Kept A B → (put u l bs).Kept A B) : (fileBays put f k e p s bs).2.Kept A B := by
  induction bs generalizing s with
  | nil => exact h
  | cons c bs ih => exact ih (.fileBay h hput)

theorem State.Kept.putPlain {tag : Nat} {l : Loc} {bs : List Byte} (h : s.Kept A B) : (putPlain tag s l bs).Kept A B := by
  unfold Machine.putPlain
  split
  · exact .putBytes h
  · exact h

theorem State.Kept.refile {k : Nat} {f : Field} {es : List (List Byte)} (h : s.Kept A B) : (refile k s f es).1.Kept A B := by
  induction es generalizing s f with
  | nil => exact h
  | cons e es ih => exact ih (.fileBays h fun _ _ _ h => .putPlain h)

theorem State.Kept.markResident {f : Field} {bay x : Nat} (hs : s.Kept A B) : (s.markResident f bay x).Kept A B := by
  unfold State.markResident
  split
  · exact hs
  · exact .modStrand hs

theorem State.Kept.dropCursors {die bay tag : Nat} (hs : s.Kept A B) : (s.dropCursors die bay tag).Kept A B := hs

theorem State.Kept.settleRelease {id : Nat} {f : Field} (h : s.Kept A B) : (s.settleRelease id f).Kept A B :=
  .foldl (.rest (.refile h)) fun _ _ h => .foldl (.dropCursors h) fun _ _ h => .markResident h

theorem State.Kept.loads16 {x die bay : Nat} {os : List Nat} (h : s.Kept A B) : (s.loads16 x die bay os).Kept A B := by
  induction os generalizing s with
  | nil => exact h
  | cons o os ih => exact ih (.modStrand (.readTimes h))

theorem State.Kept.replyLater {r : Reply} (hs : s.Kept A B) : (s.replyLater r).Kept A B := .waitOn hs

theorem OutKept.execPosr {d : Dst} {g : Guard} (hs : s.Kept A B) : OutKept A B (execPosr d g s) := by
  unfold Machine.execPosr
  refine .issue hs fun _ h1 => .coreOnly h1 fun _ h2 => .dstBound h2 fun _ h3 => ?_
  split
  · exact .ite (fun _ => .raise h3) fun _ => .replyLater (.loads16 h3)
  · exact .raise h3

theorem OutKept.execFmap {d : Dst} {a : Src} {g : Guard} (hs : s.Kept A B) : OutKept A B (execFmap d a g s) := by
  unfold Machine.execFmap
  refine .issue hs fun _ h1 => .coreOnly h1 fun _ h2 => .ops1 h2 fun _ _ h3 => ?_
  dsimp only
  split
  · exact .raise h2
  · split
    · exact .raise h2
    · exact .replyLater h3

theorem State.Kept.setCursor {x : Nat} {left : List W128} (hs : s.Kept A B) : (s.setCursor x left).Kept A B := by
  unfold State.setCursor
  split <;> exact hs

theorem State.Kept.nbrStep {d : Dst} {preds : W32} {left : List W128} (hs : s.Kept A B) : (s.nbrStep d preds left).Kept A B := by
  unfold State.nbrStep
  split <;> exact .replyLater (.setCursor hs)

theorem OutKept.execNbrFirst {d : Dst} {a : Src} {g : Guard} (hs : s.Kept A B) : OutKept A B (execNbrFirst d a g s) := by
  unfold Machine.execNbrFirst
  refine .issue hs fun _ h1 => .coreOnly h1 fun _ h2 => .ops1 h2 fun _ _ h3 => .ite (fun _ => .raise h2) fun _ => ?_
  split
  · exact .raise h2
  · refine .ite (fun _ => .raise h2) fun _ => .ite (fun _ => .raise h2) fun _ => ?_
    split
    · exact .raise h2
    · exact .nbrStep (.loads16 h3)

theorem OutKept.execNbrNext {d : Dst} {g : Guard} (hs : s.Kept A B) : OutKept A B (execNbrNext d g s) := by
  unfold Machine.execNbrNext
  refine .issue hs fun _ h1 => .coreOnly h1 fun _ h2 => .dstBound h2 fun _ h3 => ?_
  split
  · exact .raise h3
  · exact .ite (fun _ => .raise h3) fun _ => .nbrStep h3

theorem State.Kept.enterToken {x die inst : Nat} {k : HedKind} {d : Dst} (hs : s.Kept A B) : (s.enterToken x die inst k d).Kept A B := .waitOn hs

theorem OptKept.passHeddle {t : Token} (hs : s.Kept A B) : OptKept A B (s.passHeddle t) := by
  unfold State.passHeddle
  dsimp only
  split
  · exact .some hs
  · exact .some hs
  · exact .none
  · exact .none

theorem OptKept.heddleStep {die inst id : Nat} (hs : s.Kept A B) : OptKept A B (s.heddleStep die inst id) := by
  unfold State.heddleStep
  split
  · exact .none
  · exact .passHeddle hs

theorem State.Kept.dropToken {id : Nat} (hs : s.Kept A B) : (s.dropToken id).Kept A B := hs

theorem State.Kept.heldReply {x : Nat} {r : Reply} (hs : s.Kept A B) : (s.heldReply x r).Kept A B := by
  unfold State.heldReply
  split
  · exact .ite (fun _ => .answer hs) fun _ => .modStrand (.answer hs) fun _ h => .setReg h
  · exact .answer hs

theorem State.Kept.tokenReply {t : Token} {i : Instance} {v : Nat} (hs : s.Kept A B) : (s.tokenReply t i v).Kept A B := by
  unfold State.tokenReply
  split
  · exact .ite (fun _ => hs) fun _ => .ite (fun _ => .heldReply hs) fun _ => .answer hs
  · exact hs

theorem State.Kept.tokenTrap {t : Token} {cause : Nat} (hs : s.Kept A B) : (s.tokenTrap t cause).Kept A B := by
  unfold State.tokenTrap
  split
  · exact .ite (fun _ => hs) fun _ => .ite (fun _ => .modStrand hs) fun _ => .defer hs
  · exact hs

theorem State.Kept.arriveReply {x inst v p : Nat} (hs : s.Kept A B) : (s.arriveReply x inst v p).Kept A B := by
  unfold State.arriveReply
  split
  · exact .modStrand hs
  · exact .answer hs
  · exact hs

theorem State.Kept.freeHeld {die inst : Nat} (hs : s.Kept A B) : (s.freeHeld die inst).Kept A B := .foldl hs fun _ _ h1 => .arriveReply h1

theorem State.Kept.advance {die inst n : Nat} (h : s.Kept A B) : (s.advance die inst n).Kept A B := by
  induction n generalizing s with
  | zero => exact h
  | succ n ih =>
    refine .ite (fun _ => h) fun _ => ih (.freeHeld (.modInst (.foldl h fun _ _ h => ?_)))
    exact .ite (fun _ => .settleRelease h) fun _ => h

theorem State.Kept.exhaust {t : Token} (hs : s.Kept A B) : (s.exhaust t).Kept A B := .tokenTrap hs

theorem State.Kept.reclaim {t : Token} {d e : Nat} (hs : s.Kept A B) : (s.reclaim t d e).Kept A B := .tokenReply hs

theorem State.Kept.wakeParked {die inst d e : Nat} (hs : s.Kept A B) : (s.wakeParked die inst d e).Kept A B := by
  unfold State.wakeParked
  split
  · exact .reclaim hs
  · exact hs

theorem State.Kept.arrived {t : Token} {i : Instance} {v : Nat} (hs : s.Kept A B) : (s.arrived t i v).Kept A B :=
  .advance (.ite (fun _ => .arriveReply hs) (fun _ => hs))

theorem State.Kept.exitOf {t : Token} {d e : Nat} (hs : s.Kept A B) : (s.exitOf t d e).Kept A B := by
  unfold State.exitOf
  refine .ite (fun _ => .exhaust hs) fun _ => .ite (fun _ => .ite (fun _ => .reclaim hs) (fun _ => .rest (.onStrand hs))) fun _ => .ite (fun _ =>
    .exhaust hs) fun _ => ?_
  dsimp only
  split
  · exact .wakeParked (.tokenReply hs)
  · exact .arrived hs

theorem OptKept.exitStep {die inst id : Nat} (hs : s.Kept A B) : OptKept A B (s.exitStep die inst id) := by
  unfold State.exitStep
  split
  · exact .none
  · split
    · exact .some (.exitOf hs)
    · exact .none

theorem State.Kept.applyPhases {x die inst n : Nat} (hs : s.Kept A B) : (s.applyPhases x die inst n).Kept A B :=
  .modStrand (.ite (fun _ => .strandApply hs) (fun _ => hs))

/- The kernel computes the numbers of `Instance.released` where it compares `State.cwaitTry` with its body, so that the definition is unfolded
before it is applied. -/
theorem OptKept.cwaitTry {x die inst p : Nat} (hs : s.Kept A B) : OptKept A B (s.cwaitTry x die inst p) := by
  obtain ⟨F, hF⟩ : ∃ F, @State.cwaitTry = F := ⟨_, rfl⟩
  rw [hF]
  delta State.cwaitTry at hF
  subst hF
  beta_reduce
  split
  · exact .none
  · exact .some (.applyPhases hs)

theorem OptKept.settleTry {x inst p : Nat} {ovf : Bool} (hs : s.Kept A B) : OptKept A B (s.settleTry x inst p ovf) := by
  obtain ⟨F, hF⟩ : ∃ F, @State.settleTry = F := ⟨_, rfl⟩
  rw [hF]
  delta State.settleTry at hF
  subst hF
  beta_reduce
  split
  · exact .none
  · next e => exact .some (.ite (fun _ => .defer (.of_some (.cwaitTry hs) e)) fun _ => .retireReg (.of_some (.cwaitTry hs) e))

theorem OptKept.phaseTry {x : Nat} (hs : s.Kept A B) : OptKept A B (s.phaseTry x) := by
  unfold State.phaseTry
  split
  · exact .map fun _ _ => .retireReg (.of_some (.cwaitTry hs) ‹_›)
  · exact .settleTry hs
  · exact .none

theorem OutKept.hedIssue {i : Instr} {d : Dst} {a : Src} {g : Guard} {mode : Option Bool} {body : Nat → Nat → State → State} (hs : s.Kept A B)
    (hbody : ∀ (v0 : Nat) (v1 : Nat) (u : State), u.Kept A B → (body v0 v1 u).Kept A B) : OutKept A B (hedIssue i d a g mode body s) := by
  unfold Machine.hedIssue
  refine .issue hs fun _ h1 => .ops1 h1 fun _ _ h2 => .ite (fun _ => .raise h1) fun _ => ?_
  dsimp only
  split
  · exact .raise h1
  · exact .ite (fun _ => h1) fun _ => hbody _ _ _ h2

theorem State.Kept.arriveEnter {x die inst : Nat} {k : HedKind} {d : Dst} (hs : s.Kept A B) : (s.arriveEnter x die inst k d).Kept A B := by
  unfold State.arriveEnter
  dsimp only
  split
  · exact .defer (.strandRelease hs)
  · exact .enterToken (.strandRelease hs)

theorem OutKept.execCwait {a b : Src} {g : Guard} (hs : s.Kept A B) : OutKept A B (execCwait a b g s) := by
  unfold Machine.execCwait
  refine .issue hs fun _ h1 => .src2 h1 fun _ _ _ h2 => .ite (fun _ => .raise h1) fun _ => ?_
  dsimp only
  split
  · exact .raise h1
  · exact .waitOn h2

theorem OptKept.barrierTimeout {x : Nat} (hs : s.Kept A B) : OptKept A B (s.barrierTimeout x) := by
  unfold State.barrierTimeout
  split
  · exact .ite (fun _ => .some (.defer hs)) fun _ => .none
  · exact .ite (fun _ => .some (.defer hs)) fun _ => .none
  · exact .none

theorem State.Kept.drainTokens {die inst n : Nat} (h : s.Kept A B) : (s.drainTokens die inst n).Kept A B := by
  induction n generalizing s with
  | zero => exact h
  | succ n ih =>
    refine .ite (fun _ => h) fun _ => ?_
    split
    · exact h
    · refine ih ?_
      split
      · exact .exitOf h
      · exact .getD (.passHeddle h) h

theorem State.Kept.heldWait {die inst x : Nat} (hs : s.Kept A B) : (s.heldWait die inst x).Kept A B := by
  unfold State.heldWait
  split
  · exact .defer hs
  · exact hs

theorem State.Kept.reconfigure {die inst : Nat} {w0 w1 w2 : W64} (h : s.Kept A B) : (s.reconfigure die inst w0 w1 w2).Kept A B := by
  refine .foldl (.modInst (.mapStrands (.foldl (.foldl (.foldl (.drainTokens h) ?_) ?_) ?_) fun _ h => h)) fun _ _ h => .heldWait h
  · exact fun _ _ h => .arriveReply h
  · exact fun _ _ h => .tokenTrap (.dropToken h)
  · exact fun _ _ h => .getD (.phaseTry h) (.defer h)

theorem State.Kept.descriptorPut {die inst : Nat} {w0 w1 w2 : W64} (hs : s.Kept A B) : (s.descriptorPut die inst w0 w1 w2).Kept A B :=
  .ite (fun _ => hs) fun _ => .foldl hs fun _ _ h1 => .reconfigure h1

theorem State.Kept.descriptorWrite {writer die inst word : Nat} {v : W64} {part : WPart} (hs : s.Kept A B) :
    (s.descriptorWrite writer die inst word v part).Kept A B :=
  .ite (fun _ => hs) fun _ => .ite (fun _ => .ite (fun _ => hs) (fun _ => .ite (fun _ => hs) (fun _ => hs))) fun _ => .ite (fun _ => hs) fun _ =>
    .ite (fun _ => hs) fun _ => .descriptorPut hs

theorem State.Kept.putBy {x : Nat} {l : Loc} {bs : List Byte} (h : s.Kept A B) : (putBy x s l bs).Kept A B := by
  exact .modStrand (.plainStore h)

theorem State.Kept.publish {x id : Nat} {f : Field} {host : FieldBay} (hs : s.Kept A B) : (s.publish x id f host).2.Kept A B :=
  .modStrand (.rest (.fileBays hs (fun _ _ _ h1 => .putBy h1)))

theorem OutKept.execSettle {g : Guard} (hs : s.Kept A B) : OutKept A B (execSettle g s) := by
  unfold Machine.execSettle
  refine .issue hs fun _ h1 => .coreOnly h1 fun _ h2 => ?_
  dsimp only
  split
  · exact .raise h2
  · refine .ite (fun _ => .raise h2) fun _ => ?_
    split
    · exact .raise h2
    · refine .ite (fun _ => .raise h2) fun _ => ?_
      split
      · exact .raise h2
      · exact .ite (fun _ => h2) fun _ => .enterToken (.publish h2)

theorem State.Kept.fcAdd {tag fc : Nat} {n : W64} {stamp : V4} (hs : s.Kept A B) : (s.fcAdd tag fc n stamp).Kept A B := hs

theorem State.Kept.freeStrand {x : Nat} (h : s.Kept A B) : (s.freeStrand x).Kept A B := by
  unfold State.freeStrand
  rw [Tbl.del_eq_filter]
  exact .filterStrands h

theorem State.Kept.noteStop {x id : Nat} (hs : s.Kept A B) : (s.noteStop x id).Kept A B := by
  unfold State.noteStop
  split <;> exact hs

theorem State.Kept.launchComplete {id : Nat} {l : Launch} (hs : s.Kept A B) : (s.launchComplete id l).Kept A B := by
  unfold State.launchComplete
  dsimp only
  split
  · split <;> exact hs
  · split
    · refine .rest ?_
      split <;> exact hs
    · split <;> exact hs

theorem State.Kept.launchEnd {id : Nat} {l : Launch} (hs : s.Kept A B) : (s.launchEnd id l).Kept A B := .ite (fun _ => .launchComplete hs) fun _ => hs

theorem OptKept.launchRelease {id : Nat} (hs : s.Kept A B) : OptKept A B (s.launchRelease id) := by
  unfold State.launchRelease
  split
  · exact .none
  · split
    · exact .none
    · exact .ite (fun _ => .some (.launchComplete hs)) fun _ => .none

theorem State.Kept.freeStopped {id : Nat} {ns : List Nat} (hs : s.Kept A B) : (s.freeStopped id ns).Kept A B :=
  .foldl hs fun _ _ h1 => .foldl h1 fun _ _ h2 => .ite (fun _ => .freeStrand h2) fun _ => h2

theorem State.Kept.shareCheck {id die bay : Nat} (hs : s.Kept A B) : (s.shareCheck id die bay).Kept A B := by
  unfold State.shareCheck
  split
  · exact hs
  · refine .ite (fun _ => hs) fun _ => ?_
    split
    · exact .ite (fun _ => .launchEnd (.freeStopped hs)) fun _ => hs
    · exact .ite (fun _ => .ite (fun _ => .launchEnd (.freeStopped hs)) (fun _ => .rest (.freeStopped hs))) fun _ => hs

theorem State.Kept.stopStrand {x : Nat} {w : W64} (hs : s.Kept A B) : (s.stopStrand x w).Kept A B := by
  unfold State.stopStrand
  dsimp only
  split
  · exact .stopBase hs
  · exact .shareCheck (.noteStop (.stopBase hs))

theorem Strand.P0.newStrand {head : Strand} {kind : StrandKind} {entry w0 : W64} : (newStrand head kind entry w0).P0 := .init

theorem State.Kept.addStrand {t : Strand} (h : s.Kept A B) (ht : B → t.P0) : (s.addStrand t).Kept A B := .rest (.setStrand h ht)

theorem State.Kept.spawnResult {y : Nat} (hs : s.Kept A B) : (s.spawnResult y).2.Kept A B := by
  unfold State.spawnResult
  split <;> exact hs

theorem OutKept.spawnIssue {i : Instr} {kind : StrandKind} {d : Dst} {a b : Src} {g : Guard} (hs : s.Kept A B) : OutKept A B
    (spawnIssue i kind d a b g s) := by
  unfold Machine.spawnIssue
  refine .issue hs fun _ h1 => .coreOnly h1 fun _ h2 => .ops2 h2 fun _ _ _ h3 => ?_
  dsimp only
  split
  · exact .raise h2
  · exact .ite (fun _ => .raise h2) fun _ => .waitOn (.spawnResult (.settleIn (.addStrand h3 (fun hb => .newStrand))))

theorem PairKept.spawn15Try {x : Nat} {entry w0 : W64} (hs : s.Kept A B) : PairKept A B (s.spawn15Try x entry w0) := by
  unfold State.spawn15Try
  dsimp only
  split
  · exact .none
  · exact .some (.takeSlot (.addStrand hs (fun hb => .newStrand)))

theorem OutKept.execSpawnShuttle {d : Dst} {a b : Src} {g : Guard} (hs : s.Kept A B) : OutKept A B (execSpawnShuttle d a b g s) := by
  unfold Machine.execSpawnShuttle
  refine .issue hs fun _ h1 => .coreOnly h1 fun _ h2 => .ops2 h2 fun _ _ _ h3 => ?_
  split
  · exact .raise h2
  · split
    · exact .waitOn (.of_pair (.spawn15Try h3) ‹_›)
    · exact .waitOn h3

theorem PairKept.reapTry {x slot : Nat} (hs : s.Kept A B) : PairKept A B (s.reapTry x slot) := by
  unfold State.reapTry
  split
  · exact .some hs
  · split
    · exact .some (.freeStrand hs)
    · exact .none

theorem OutKept.execReap {d : Dst} {a : Src} {g : Guard} (hs : s.Kept A B) : OutKept A B (execReap d a g s) := by
  unfold Machine.execReap
  refine .issue hs fun _ h1 => .coreOnly h1 fun _ h2 => .ops1 h2 fun _ _ h3 => .ite (fun _ => .raise h2) fun _ => .ite (fun _ =>
    .raise h2) fun _ => ?_
  split
  · exact .retire (.of_pair (.reapTry h3) ‹_›)
  · exact .waitOn h3

theorem State.Kept.clearHandles {u : UnitId} {tag n : Nat} (hs : s.Kept A B) : (s.clearHandles u tag n).Kept A B := hs

theorem OptKept.migrationDepart {x : Nat} (hs : s.Kept A B) : OptKept A B (s.migrationDepart x) := by
  unfold State.migrationDepart
  dsimp only
  split
  · refine .ite (fun _ => .none) fun _ => .ite (fun _ => .some (.modStrand hs)) fun _ => ?_
    split
    · exact .none
    · refine .ite (fun _ => .none) fun _ => .some ?_
      split
      · exact .modStrand (.addMsg (.dropCursor (.ite (fun _ => .strandRelease (.clearHandles (.strandApply hs))) (fun _ =>
          .clearHandles (.strandApply hs)))))
      · exact .shareCheck (.modStrand (.addMsg (.dropCursor (.ite (fun _ => .strandRelease (.clearHandles (.strandApply hs))) (fun _ =>
          .clearHandles (.strandApply hs))))))
  · exact .none

theorem State.Kept.noteLanding {x die bay : Nat} (hs : s.Kept A B) : (s.noteLanding x die bay).Kept A B := by
  unfold State.noteLanding
  split
  · exact hs
  · split
    · exact hs
    · exact .shareCheck hs

theorem State.Kept.creelTake {u : UnitId} {tag n : Nat} (hs : s.Kept A B) : (s.creelTake u tag n).Kept A B := by
  unfold State.creelTake
  split
  · exact hs
  · exact .noteLanding (.creelEnter hs)

theorem OptKept.creelQuantumEnd {x : Nat} (hs : s.Kept A B) : OptKept A B (s.creelQuantumEnd x) := by
  unfold State.creelQuantumEnd
  split
  · refine .ite (fun _ => .none) fun _ => .ite (fun _ => .some (.requantum hs)) fun _ => ?_
    split
    · exact .none
    · exact .some (.noteLanding (.creelSave (.takeSlot (.modStrand (.setCreel (.withdrawPark hs))))))
  · exact .none

theorem OptKept.migrationLanding {id : Nat} (hs : s.Kept A B) : OptKept A B (s.migrationLanding id) := by
  unfold State.migrationLanding
  split
  · exact .some (.noteLanding (.settleIn (.modStrand (.rest (.arriveOrd hs)))))
  · exact .none

theorem State.Kept.postCard {id : Nat} {o : OrderState} {d : Nat} (hs : s.Kept A B) : (s.postCard id o d).Kept A B := by
  unfold State.postCard
  split
  · exact hs
  · exact .ite (fun _ => .modChan (.setCard (.arriveOrd hs))) fun _ => .setCard (.arriveOrd hs)

theorem State.Kept.bindHandle {x h id : Nat} (hs : s.Kept A B) : (s.bindHandle x h id).Kept A B := by
  unfold State.bindHandle
  dsimp only
  split <;> exact hs

theorem State.Kept.freeHandle {x h : Nat} (hs : s.Kept A B) : (s.freeHandle x h).Kept A B := by
  unfold State.freeHandle
  dsimp only
  split <;> exact hs

theorem State.Kept.posted {x : Nat} {k : PostKind} {id : Nat} (hs : s.Kept A B) : (s.posted x k id).Kept A B := by
  unfold State.posted
  dsimp only
  split
  · exact .answer (.bindHandle hs)
  · exact .answer hs
  · exact .answer (.bindHandle hs)

theorem State.Kept.postBy {k : PostKind} {c : Card} (hs : s.Kept A B) : (s.postBy k c).Kept A B :=
  .ite (fun _ => .posted (.postCard (.waitOn hs))) fun _ => .waitOn hs

theorem State.Kept.postRelease {x : Nat} {k : PostKind} {id : Nat} (hs : s.Kept A B) : (s.postRelease x k id).Kept A B :=
  .posted (.postCard (.strandRelease hs))

theorem State.Kept.ownBytes {off n : Nat} (h : s.Kept A B) : (s.ownBytes off n).2.2.Kept A B := by
  induction n generalizing s off with
  | zero => exact h
  | succ n ih => exact ih (.modStrand (.homeRead h))

theorem State.Kept.ownBlock {off n : Nat} {k : List W64 → State → State} (hs : s.Kept A B)
    (hk : ∀ (v0 : List W64) (u : State), u.Kept A B → (k v0 u).Kept A B) : (s.ownBlock off n k).Kept A B :=
  .ite (fun _ => .raise hs) fun _ => .ite (fun _ => .raise (.ownBytes hs)) fun _ => hk _ _ (.ownBytes hs)

theorem State.Kept.ownCard {i : Instr} {a : W64} {kind : Nat} {k : Card → State → State} (hs : s.Kept A B)
    (hk : ∀ (v0 : Card) (u : State), u.Kept A B → (k v0 u).Kept A B) : (s.ownCard i a kind k).Kept A B :=
  .ite (fun _ => .raise hs) fun _ => .ownBlock hs fun _ _ h1 => .ite (fun _ => .raise h1) fun _ => .ite (fun _ => .raise h1) fun _ => hk _ _ h1

theorem OutKept.forkIssue {i : Instr} {kind : Nat} {a b : RegZ} {h : BitVec 5} {g : Guard} (hs : s.Kept A B) : OutKept A B
    (forkIssue i kind a b h g s) :=
  .issue hs fun _ h1 => .coreOnly h1 fun _ h2 => .ite (fun _ => .raise h2) fun _ => .ownCard h2 fun _ _ h3 => .postBy h3

theorem State.Kept.mergeMxf {x : Nat} (hs : s.Kept A B) : (s.mergeMxf x).Kept A B := .modTen (.modStrand hs)

theorem OptKept.rdvTry {x h : Nat} (hs : s.Kept A B) : OptKept A B (s.rdvTry x h) := by
  unfold State.rdvTry
  split
  · exact .some hs
  · split
    · exact .some (.freeHandle hs)
    · split
      · exact .none
      · exact .some (.ite (fun _ => .mergeMxf (.freeHandle (.strandApply hs))) (fun _ => .freeHandle (.strandApply hs)))

theorem OutKept.execRdv {h : BitVec 5} {g : Guard} (hs : s.Kept A B) : OutKept A B (execRdv h g s) := by
  unfold Machine.execRdv
  refine .issue hs fun _ h1 => .coreOnly h1 fun _ h2 => ?_
  split
  · exact .retire (.of_some (.rdvTry h2) ‹_›)
  · exact .waitOn h2

theorem OptKept.xwaitTry {x ch id : Nat} (hs : s.Kept A B) : OptKept A B (s.xwaitTry x ch id) :=
  .ite (fun _ => .none) fun _ => .some (.modStrand (.strandApply hs))

theorem OptKept.transferTimeout {x : Nat} (hs : s.Kept A B) : OptKept A B (s.transferTimeout x) := by
  unfold State.transferTimeout
  split
  · exact .ite (fun _ => .some (.defer hs)) fun _ => .none
  · exact .none

theorem State.Kept.cardStart {id : Nat} {c : Card} (hs : s.Kept A B) : (s.cardStart id c).Kept A B := .setCard (.applyStamps _ hs)

theorem State.Kept.seqStart {id : Nat} {c : Card} (hs : s.Kept A B) : (s.seqStart id c).Kept A B := .modTen (.cardStart hs)

theorem OptKept.seqNext {id : Nat} (hs : s.Kept A B) : OptKept A B (s.seqNext id) := by
  unfold State.seqNext
  split
  · exact .none
  · exact .ite (fun _ => .some (.seqStart hs)) fun _ => .none

theorem OptKept.jobStart {id : Nat} (hs : s.Kept A B) : OptKept A B (s.jobStart id) := by
  unfold State.jobStart
  split
  · exact .none
  · exact .ite (fun _ => .seqNext hs) fun _ => .ite (fun _ => .some (.cardStart hs)) fun _ => .none

theorem State.Kept.elemGot {id : Nat} {c : Card} {i : Nat} {bs : List Byte} {v : ReadRes} {foreign : Bool} (hs : s.Kept A B) :
    (s.elemGot id c i bs v foreign).Kept A B := .ite (fun _ => .cardFail hs) fun _ => hs

theorem State.Kept.channelDetect {c : Card} {l : XLoc} {va : W64} (hs : s.Kept A B) : (s.channelDetect c l va).Kept A B :=
  .ite (fun _ => .detect hs) fun _ => hs

theorem OptKept.elemRead {id : Nat} {c : Card} {i : Nat} {bs : List Byte} (hs : s.Kept A B) : OptKept A B (s.elemRead id c i bs) := by
  unfold State.elemRead
  refine .ite (fun _ => .some (.cardFail hs)) fun _ => .ite (fun _ => .some (.cardFail hs)) fun _ => ?_
  dsimp only
  split
  · exact .some (.askWalk (.setCard (.engineXlate hs)))
  · exact .some (.cardFail hs)
  · refine .ite (fun _ => .some (.cardFail hs)) fun _ => .ite (fun _ => .some (.cardFail hs)) fun _ => ?_
    split
    · exact .some (.modUnit (.setCard (.channelDetect (.engineXlate hs))))
    · exact .map fun _ _ => .elemGot (.ite (fun _ => .errSeen (.of_pair (.plainLoad (.channelDetect (.engineXlate hs))) ‹_›)) (fun _ =>
        .of_pair (.plainLoad (.channelDetect (.engineXlate hs))) ‹_›))

theorem OptKept.elemWrite {id : Nat} {c : Card} {i : Nat} {bs : List Byte} {st : V4} (hs : s.Kept A B) : OptKept A B (s.elemWrite id c i bs st) := by
  unfold State.elemWrite
  refine .ite (fun _ => .some (.cardFail hs)) fun _ => .ite (fun _ => .ite (fun _ => .some (.cardFail hs)) (fun _ => .ite (fun _ =>
    .some (.cardFail hs)) (fun _ => .some hs))) fun _ => .ite (fun _ => .some (.cardFail hs)) fun _ => ?_
  dsimp only
  split
  · exact .some (.askWalk (.engineXlate hs))
  · exact .some (.cardFail hs)
  · refine .ite (fun _ => .some (.cardFail hs)) fun _ => .ite (fun _ => .some (.cardFail hs)) fun _ => ?_
    split
    · exact .ite (fun _ => .some (.setCard (.channelDetect (.engineXlate hs)))) fun _ =>
        .some (.setCard (.plainStore (.channelDetect (.engineXlate hs))))
    · exact .some (.setCard (.plainStore (.channelDetect (.engineXlate hs))))

theorem State.Kept.resultFail {id : Nat} {c : Card} {i : Option Nat} {code : Nat} (hs : s.Kept A B) : (s.resultFail id c i code).Kept A B :=
  .ite (fun _ => hs) fun _ => hs

theorem OptKept.resultWrite {id : Nat} {c : Card} {i : Nat} (hs : s.Kept A B) : OptKept A B (s.resultWrite id c i) := by
  unfold State.resultWrite
  refine .ite (fun _ => .some (.resultFail hs)) fun _ => .ite (fun _ => .none) fun _ => .ite (fun _ => .some (.resultFail hs)) fun _ => ?_
  dsimp only
  split
  · exact .some (.askWalk (.engineXlate hs))
  · exact .some (.resultFail hs)
  · exact .ite (fun _ => .some (.resultFail hs)) fun _ => .ite (fun _ => .some (.resultFail hs)) fun _ =>
      .some (.setCard (.plainStore (.engineXlate hs)))

theorem OptKept.inputRead {id : Nat} {c : Card} {i : Nat} (hs : s.Kept A B) : OptKept A B (s.inputRead id c i) := by
  unfold State.inputRead
  refine .ite (fun _ => .none) fun _ => ?_
  split
  · exact .elemRead hs
  · exact .ite (fun _ => .elemRead hs) fun _ => .none
  · exact .none

theorem OptKept.jobElement {id i : Nat} (hs : s.Kept A B) : OptKept A B (s.jobElement id i) := by
  unfold State.jobElement
  split
  · exact .none
  · refine .ite (fun _ => .none) fun _ => ?_
    split
    · refine .ite (fun _ => .none) fun _ => ?_
      split
      · exact .elemRead hs
      · exact .none
      · exact .ite (fun _ => .elemRead hs) fun _ => .elemWrite hs
      · exact .none
      · exact .none
    · exact .ite (fun _ => .inputRead hs) fun _ => .resultWrite hs
    · exact .none

theorem OptKept.packetLanding {id i : Nat} (hs : s.Kept A B) : OptKept A B (s.packetLanding id i) := by
  unfold State.packetLanding
  split
  · exact .none
  · split
    · dsimp only
      split
      · exact .ite (fun _ => .some (.setCard (.land (.putBytes hs)))) fun _ => .some (.setCard (.plainStore hs))
      · exact .none
    · exact .none

theorem OptKept.programStart {id : Nat} (hs : s.Kept A B) : OptKept A B (s.programStart id) := by
  unfold State.programStart
  split
  · exact .none
  · refine .ite (fun _ => .none) fun _ => ?_
    split
    · exact .none
    · exact .some (.setCard (.takeSlot (.addStrand hs (fun hb => .init))))

theorem State.Kept.cardDone {id : Nat} {c : Card} (hs : s.Kept A B) : (s.cardDone id c).Kept A B := by
  unfold State.cardDone
  dsimp only
  split
  · refine .fcAdd ?_
    split
    · exact hs
    · exact hs
    · exact hs
    · split
      · exact .freeStrand hs
      · exact hs
  · split
    · exact hs
    · exact hs
    · exact hs
    · split
      · exact .freeStrand hs
      · exact hs

theorem State.Kept.cardEnd {id : Nat} {c : Card} (hs : s.Kept A B) : (s.cardEnd id c).Kept A B := .ite (fun _ => .cardDone hs) fun _ => hs

theorem OptKept.cardRelease {id : Nat} (hs : s.Kept A B) : OptKept A B (s.cardRelease id) := by
  unfold State.cardRelease
  split
  · exact .none
  · split
    · exact .none
    · exact .ite (fun _ => .some (.cardDone hs)) fun _ => .none

theorem OptKept.jobCompletion {id : Nat} (hs : s.Kept A B) : OptKept A B (s.jobCompletion id) := by
  unfold State.jobCompletion
  split
  · exact .none
  · refine .ite (fun _ => .none) fun _ => ?_
    split
    · exact .ite (fun _ => .some (.cardEnd hs)) fun _ => .none
    · exact .ite (fun _ => .some (.cardEnd hs)) fun _ => .none
    · exact .ite (fun _ => .some (.cardEnd hs)) fun _ => .none
    · split
      · exact .none
      · exact .ite (fun _ => .some (.cardEnd hs)) fun _ => .none

theorem State.Kept.strandSliceRead {x : Nat} {loc : Loc} {rdc : Bool} {bad : List Bool} (hs : s.Kept A B) :
    (s.strandSliceRead x loc rdc bad).Kept A B := by
  unfold State.strandSliceRead
  split
  · exact hs
  · exact .ite (fun _ => .defer (.modStrand (.homeRead hs))) fun _ => .answer (.modStrand (.homeRead hs))

theorem State.Kept.sliceEat {s0 : State} {loc : Loc} {bad : List Bool} {j : Joiner} (hs : s.Kept A B) : (s.sliceEat s0 loc bad j).Kept A B := by
  unfold State.sliceEat
  split
  · split
    · exact .ite (fun _ => .eat hs) fun _ => hs
    · exact hs
  · exact hs
  · exact hs

theorem State.Kept.cardSliceRead {id i : Nat} {loc : Loc} {rdc : Bool} {bad : List Bool} (hs : s.Kept A B) :
    (s.cardSliceRead id i loc rdc bad).Kept A B := by
  unfold State.cardSliceRead
  split
  · exact hs
  · split
    · exact .elemGot (.ite (fun _ => .errSeen (.homeRead hs)) (fun _ => .homeRead hs))
    · exact hs

theorem State.Kept.joinStep {loc : Loc} {bad : List Bool} {j : SliceJoin} (hs : s.Kept A B) : (s.joinStep loc bad j).Kept A B := by
  unfold State.joinStep
  split
  · exact .fillHomeRead hs
  · exact .strandSliceRead hs
  · exact .cardSliceRead hs

theorem OptKept.fillReadStep {die bay i : Nat} (hs : s.Kept A B) : OptKept A B (s.fillReadStep die bay i) := by
  unfold State.fillReadStep
  dsimp only
  split
  · exact .none
  · exact .ite (fun _ => .none) fun _ => .some (.modUnit (.foldl (.foldl hs (fun _ _ h1 => .joinStep h1)) (fun _ _ h1 => .sliceEat h1)))

theorem OptKept.asnInputs {id : Nat} {c : Card} (hs : s.Kept A B) : OptKept A B (s.asnInputs id c) :=
  .ite (fun _ => .some hs) fun _ => .ite (fun _ => .some hs) fun _ => .none

theorem OptKept.asnStart {die cluster : Nat} (hs : s.Kept A B) : OptKept A B (s.asnStart die cluster) := by
  unfold State.asnStart
  split
  · exact .none
  · refine .ite (fun _ => .none) fun _ => .ite (fun _ => .asnInputs hs) fun _ => .ite (fun _ => .none) fun _ => ?_
    dsimp only
    split
    · exact .none
    · split
      · exact .some (.setCard (.cardStart hs))
      · exact .some (.cardStart hs)

theorem State.Kept.asnEnd {die cluster : Nat} {a : Auction} {code : Nat} (hs : s.Kept A B) : (s.asnEnd die cluster a code).Kept A B := by
  unfold State.asnEnd
  split <;> exact hs

theorem OptKept.asnRound {die cluster : Nat} (hs : s.Kept A B) : OptKept A B (s.asnRound die cluster) := by
  unfold State.asnRound
  split
  · exact .none
  · split
    · exact .none
    · dsimp only
      split
      · exact .ite (fun _ => .some (.asnEnd hs)) fun _ => .some hs
      · exact .ite (fun _ => .some hs) fun _ => .some (.asnEnd hs)

theorem Strand.P0.presented {t : Strand} {reg : Nat} {v : W128} (h : t.P0) : (Machine.presented t reg v).P0 := by
  unfold Machine.presented
  split <;> exact h

theorem State.Kept.setLineNo {n : Nat} {o : LineOrder} (hs : s.Kept A B) : (s.setLineNo n o).Kept A B := hs

theorem State.Kept.deliverName {tag : Nat} {name : W64} {reg : Nat} {v : W128} {times : State → State} (hs : s.Kept A B)
    (htimes : ∀ (u : State), u.Kept A B → (times u).Kept A B) : (s.deliverName tag name reg v times).Kept A B := by
  unfold State.deliverName
  split
  · exact hs
  · exact .ite (fun _ => hs) fun _ => htimes _ (.creelTouch (.modStrand hs (fun _ h => .presented h)))

theorem OptKept.messageDelivery {id : Nat} (hs : s.Kept A B) : OptKept A B (s.messageDelivery id) := by
  unfold State.messageDelivery
  split
  · exact .some (.deliverName hs (fun _ h1 => .ite (fun _ => .modStrand h1) (fun _ => h1)))
  · exact .feStep hs
  · exact .none

theorem State.Kept.mdlvReplied {x : Nat} {va : W64} {u : UnitName} {reg : Nat} {v : W128} {left : List Nat} {neg : Bool} {upto : Nat}
    (hs : s.Kept A B) : (s.mdlvReplied x va u reg v left neg upto).Kept A B :=
  .ite (fun _ => .setWait hs) fun _ => .ite (fun _ => .defer hs) fun _ => .answer hs

theorem State.Kept.mdlvAbsent {x : Nat} {va : W64} {u : UnitName} {reg : Nat} {v : W128} {left : List Nat} {upto : Nat} (hs : s.Kept A B) :
    (s.mdlvAbsent x va u reg v left upto).Kept A B := .mdlvReplied hs

theorem OptKept.mdlvSlot {x slot : Nat} (hs : s.Kept A B) : OptKept A B (s.mdlvSlot x slot) := by
  unfold State.mdlvSlot
  dsimp only
  split
  · refine .ite (fun _ => .none) fun _ => .ite (fun _ => .some (.defer hs)) fun _ => .ite (fun _ =>
      .some (.mdlvReplied (.freeNat (.meteredLink hs)))) fun _ => ?_
    split
    · exact .some (.mdlvAbsent hs)
    · exact .ite (fun _ => .some (.mdlvAbsent hs)) fun _ => .ite (fun _ => .none) fun _ => .ite (fun _ => .none) fun _ =>
        .some (.mdlvReplied (.ite (fun _ => .modStrand (.setLineNo (.modStrand hs (fun _ h => .presented h)))) (fun _ =>
          .modDie (.setLineNo (.modStrand hs (fun _ h => .presented h))))))
  · exact .none

theorem State.Kept.waitpLoad {x reg : Nat} (hs : s.Kept A B) : (s.waitpLoad x reg).Kept A B := .modStrand hs

theorem OptKept.waitpTry {x reg : Nat} (hs : s.Kept A B) : OptKept A B (s.waitpTry x reg) := .ite (fun _ => .some (.waitpLoad hs)) fun _ => .none

theorem OutKept.execWaitp {a : Base} {lim : BitVec 5} {g : Guard} (hs : s.Kept A B) : OutKept A B (execWaitp a lim g s) := by
  unfold Machine.execWaitp
  refine .issue hs fun _ h1 => ?_
  split
  · exact .retire (.of_some (.waitpTry h1) ‹_›)
  · exact .waitOn h1

theorem OptKept.presenceTimeout {x : Nat} (hs : s.Kept A B) : OptKept A B (s.presenceTimeout x) := by
  unfold State.presenceTimeout
  dsimp only
  split
  · exact .ite (fun _ => .some (.defer hs)) fun _ => .none
  · exact .ite (fun _ => .some (.defer hs)) fun _ => .none
  · exact .none

theorem OptKept.mbxTry {x m : Nat} {v : W128} (hs : s.Kept A B) : OptKept A B (s.mbxTry x m v) := .ite (fun _ => .none) fun _ => .some (.modStrand hs)

theorem PairKept.mbrTry {x m : Nat} (hs : s.Kept A B) : PairKept A B (s.mbrTry x m) := by
  unfold State.mbrTry
  dsimp only
  split
  · exact .none
  · exact .some (.modStrand hs)

theorem OutKept.execMbx {a : Src} {m : BitVec 2} {g : Guard} (hs : s.Kept A B) : OutKept A B (execMbx a m g s) := by
  unfold Machine.execMbx
  refine .issue hs fun _ h1 => .coreOnly h1 fun _ h2 => .src h2 fun _ _ h3 => ?_
  split
  · exact .retire (.of_some (.mbxTry h3) ‹_›)
  · exact .waitOn h3

theorem OutKept.execMbr {d : Dst} {m : BitVec 2} {g : Guard} (hs : s.Kept A B) : OutKept A B (execMbr d m g s) := by
  unfold Machine.execMbr
  refine .issue hs fun _ h1 => .coreOnly h1 fun _ h2 => .dstBound h2 fun _ h3 => ?_
  split
  · exact .retire (.of_pair (.mbrTry h3) ‹_›)
  · exact .waitOn h3

theorem OptKept.mwaitTry {x c n arr : Nat} (hs : s.Kept A B) : OptKept A B (s.mwaitTry x c n arr) :=
  .ite (fun _ => .none) fun _ => .some (.strandApply hs)

theorem OutKept.execMwait {a : Src} {c l : BitVec 4} {g : Guard} (hs : s.Kept A B) : OutKept A B (execMwait a c l g s) := by
  unfold Machine.execMwait
  refine .issue hs fun _ h1 => .coreOnly h1 fun _ h2 => .src h2 fun _ _ h3 => .ite (fun _ => .raise h2) fun _ => .ite (fun _ =>
    .retire h3) fun _ => ?_
  split
  · exact .retire (.of_some (.mwaitTry h3) ‹_›)
  · exact .waitOn h3

theorem OptKept.mwaitTimeout {x : Nat} (hs : s.Kept A B) : OptKept A B (s.mwaitTimeout x) := by
  unfold State.mwaitTimeout
  split
  · exact .ite (fun _ => .some (.defer hs)) fun _ => .none
  · exact .none

theorem State.Kept.modLoom {die bay tag : Nat} {f : Loom → Loom} (hs : s.Kept A B) : (s.modLoom die bay tag f).Kept A B := hs

theorem State.Kept.loomError {die bay tag code chunk : Nat} (hs : s.Kept A B) : (s.loomError die bay tag code chunk).Kept A B :=
  .modLoom (.ite (fun _ => hs) (fun _ => hs))

theorem State.Kept.semAdd {die bay tag sem : Nat} (hs : s.Kept A B) : (s.semAdd die bay tag sem).Kept A B := .ite (fun _ => hs) fun _ => hs

theorem State.Kept.semSignal {die bay tag sem : Nat} {o : OrderState} (hs : s.Kept A B) : (s.semSignal die bay tag sem o).Kept A B :=
  .modLoom (.semAdd hs)

theorem State.Kept.signal {die bay tag : Nat} {y : Option Nat} (hs : s.Kept A B) : (s.signal die bay tag y).Kept A B := by
  unfold State.signal
  split
  · exact hs
  · exact .semAdd hs

theorem OptKept.semTake {die bay tag sem arr : Nat} (hs : s.Kept A B) : OptKept A B (s.semTake die bay tag sem arr) :=
  .ite (fun _ => .some hs) fun _ => .none

theorem State.Kept.semReturn {x : Nat} (hs : s.Kept A B) : (s.semReturn x).Kept A B :=
  .ite (fun _ => .mergeMxf (.modStrand hs)) fun _ => .modStrand hs

theorem OptKept.semwTry {x sem : Nat} (hs : s.Kept A B) : OptKept A B (s.semwTry x sem) := .map fun _ _ => .semReturn (.of_some (.semTake hs) ‹_›)

theorem State.Kept.mxRead {die bay tag off n : Nat} (h : s.Kept A B) : (s.mxRead die bay tag off n).2.2.Kept A B := by
  induction n generalizing s off with
  | zero => exact h
  | succ n ih => exact ih (.modLoom (.homeRead h))

theorem State.Kept.mxWrite {die bay tag off n : Nat} {bs : List Byte} (h : s.Kept A B) : (s.mxWrite die bay tag off bs n).Kept A B := by
  induction n generalizing s off bs with
  | zero => exact h
  | succ n ih => exact ih (.modLoom (.plainStore h))

theorem MxKept.mxEnter {die bay tag : Nat} {op : MxOp} {o : OrderState} {f : Loom → Loom} (hs : s.Kept A B) : MxKept A B
    (s.mxEnter die bay tag op o f) := by
  unfold State.mxEnter
  split
  · exact .wait
  · exact .ok hs

theorem MxKept.mxZ {die bay tag : Nat} {o : OrderState} (hs : s.Kept A B) : MxKept A B (s.mxZ die bay tag o) := .mxEnter hs

theorem MxKept.mxRun {die bay tag : Nat} {a b : W64} {o : OrderState} (hs : s.Kept A B) : MxKept A B (s.mxRun die bay tag a b o) := by
  unfold State.mxRun
  dsimp only
  split
  · exact .trap
  · split
    · exact .trap
    · split
      · exact .trap
      · split
        · exact .trap
        · exact .mxEnter hs

theorem MxKept.mxProm {die bay tag : Nat} {a : W64} {o : OrderState} (hs : s.Kept A B) : MxKept A B (s.mxProm die bay tag a o) := by
  unfold State.mxProm
  dsimp only
  split
  · exact .trap
  · split
    · exact .trap
    · exact .mxEnter hs

theorem MxKept.mxSt {die bay tag : Nat} {a b : W64} {o : OrderState} (hs : s.Kept A B) : MxKept A B (s.mxSt die bay tag a b o) := by
  unfold State.mxSt
  dsimp only
  split
  · exact .trap
  · split
    · exact .trap
    · split
      · exact .trap
      · split
        · exact .trap
        · exact .mxEnter hs

theorem State.Kept.loomCheck {i : Instr} {needAct : Bool} {k : State → State} (hs : s.Kept A B) (hk : ∀ (u : State), u.Kept A B → (k u).Kept A B) :
    (s.loomCheck i needAct k).Kept A B :=
  .ite (fun _ => .raise hs) fun _ => .ite (fun _ => .raise hs) fun _ => .ite (fun _ => .raise hs) fun _ => hk _ hs

theorem OutKept.mxIssue {i : Instr} {g : Guard} {f : State → Nat → Nat → Nat → OrderState → MxRes} (hs : s.Kept A B)
    (hf : ∀ (u : State) (d b t : Nat) (o : OrderState), u.Kept A B → MxKept A B (f u d b t o)) : OutKept A B (mxIssue i g f s) := by
  refine .issue hs fun s hs => .coreOnly hs fun s hs => .loomCheck hs fun s hs => ?_
  dsimp only
  split
  · exact .raise hs
  · exact .unissued hs
  · next e => exact .retire (.of_ok (hf _ _ _ _ _ hs) e)

theorem OptKept.mxoffTry {x : Nat} (hs : s.Kept A B) : OptKept A B (s.mxoffTry x) := .ite (fun _ => .none) fun _ => .some (.mergeMxf (.modStrand hs))

theorem OutKept.execSemw {sem : BitVec 3} {g : Guard} (hs : s.Kept A B) : OutKept A B (execSemw sem g s) := by
  unfold Machine.execSemw
  refine .issue hs fun _ h1 => .coreOnly h1 fun _ h2 => .ite (fun _ => .raise h2) fun _ => .ite (fun _ => .raise h2) fun _ => ?_
  split
  · exact .retire (.semReturn (.of_some (.semTake h2) ‹_›))
  · exact .waitOn h2

theorem OptKept.mxpermTry {x dst src map esz : Nat} {tr : Bool} (hs : s.Kept A B) : OptKept A B (s.mxpermTry x dst src map esz tr) :=
  .ite (fun _ => .none) fun _ => .ite (fun _ => .some (.answer (.loomError hs))) fun _ => .ite (fun _ => .some (.defer hs)) fun _ =>
    .ite (fun _ => .some (.answer (.loomError hs))) fun _ => .some (.answer (.modStrand (.mxWrite (.mxRead (.mxRead hs)))))

theorem State.Kept.forward {die bay tag : Nat} {isA : Bool} {k : Nat} {bs : List Byte} (hs : s.Kept A B) :
    (s.forward die bay tag isA k bs).Kept A B := by
  unfold State.forward
  dsimp only
  split <;> exact hs

theorem State.Kept.mxFail {die bay tag i k code : Nat} (hs : s.Kept A B) : (s.mxFail die bay tag i k code).Kept A B := .loomError hs

theorem State.Kept.runStart {die bay tag i k a b : Nat} {e : MxEntry} (hs : s.Kept A B) : (s.runStart die bay tag i k a b e).Kept A B := by
  have ha : (if (s.loom die bay tag).col bay = 0 then s.mxRead die bay tag a (fragA (s.loom die bay tag).afmt / 128) else
    ([], false, s)).2.2.Kept A B := by
    split
    · exact .mxRead hs
    · exact hs
  refine .ite (fun _ => .mxFail hs) fun _ => .ite (fun _ => .addMsg (.ite (fun _ => .addMsg ?_) fun _ => ?_)) fun _ => .ite (fun _ =>
    .addMsg ?_) fun _ => ?_
  all_goals
    refine .modLoom (.ite (fun _ => .forward ?_) fun _ => ?_)
    all_goals exact .ite (fun _ => .forward ha) fun _ => hs

theorem OptKept.mxStart {die bay tag : Nat} (hs : s.Kept A B) : OptKept A B (s.mxStart die bay tag) := by
  unfold State.mxStart
  dsimp only
  split
  · exact .none
  · split
    · exact .none
    · refine .ite (fun _ => .none) fun _ => ?_
      split
      · exact .ite (fun _ => .some (.runStart hs)) fun _ => .none
      · exact .ite (fun _ => .some hs) fun _ => .none
      · exact .ite (fun _ => .some hs) fun _ => .none
      · exact .ite (fun _ => .none) fun _ => .some (.modLoom (.mxWrite hs))

theorem State.Kept.runEnd {die bay tag i k : Nat} {a b : List Byte} {sig : Option Nat} (hs : s.Kept A B) :
    (s.runEnd die bay tag i k a b sig).Kept A B := by
  unfold State.runEnd
  dsimp only
  split
  · exact .mxFail hs
  · exact .signal hs

theorem State.Kept.promEnd {die bay tag k : Nat} {sa : List W32} {sb : W32} {sig : Option Nat} (hs : s.Kept A B) :
    (s.promEnd die bay tag k sa sb sig).Kept A B := .ite (fun _ => .mxFail hs) fun _ => .signal (.modLoom (.mxWrite (.mxRead hs)))

theorem State.Kept.stEnd {die bay tag out fmt : Nat} {sat : Bool} {mul : Option W32} {sig : Option Nat} (hs : s.Kept A B) :
    (s.stEnd die bay tag out fmt sat mul sig).Kept A B := .ite (fun _ => .loomError hs) fun _ => .signal (.modLoom (.mxWrite (.mxRead hs)))

theorem OptKept.headEnd {die bay tag : Nat} (hs : s.Kept A B) : OptKept A B (s.headEnd die bay tag) := by
  unfold State.headEnd
  dsimp only
  split
  · exact .some hs
  · exact .map fun _ _ => .promEnd hs
  · exact .some (.stEnd hs)
  · exact .none

theorem OptKept.runTry {die bay tag : Nat} (hs : s.Kept A B) : OptKept A B (s.runTry die bay tag) := by
  unfold State.runTry
  dsimp only
  split
  · exact .none
  · split
    · exact .ite (fun _ => .none) fun _ => .some (.runEnd hs)
    · exact .none

theorem OptKept.mxComplete {die bay tag : Nat} (hs : s.Kept A B) : OptKept A B (s.mxComplete die bay tag) := by
  unfold State.mxComplete
  refine .ite (fun _ => .none) fun _ => ?_
  split
  · exact .some (.of_some (.headEnd hs) ‹_›)
  · exact .runTry hs
  · exact .ite (fun _ => .headEnd hs) fun _ => .runTry hs

theorem OptKept.operandMessage {id : Nat} (hs : s.Kept A B) : OptKept A B (s.operandMessage id) := by
  unfold State.operandMessage
  split
  · refine .ite (fun _ => .none) fun _ => .ite (fun _ => .ite (fun _ => .some hs) (fun _ => .none)) fun _ => .ite (fun _ =>
      .some (.loomError hs)) fun _ => ?_
    dsimp only
    split
    · exact .none
    · split
      · exact .ite (fun _ => .ite (fun _ => .none) (fun _ => .some (.forward hs))) fun _ => .ite (fun _ => .none) fun _ =>
          .some (.forward (.modLoom (.putBytes hs)))
      · exact .none
  · exact .none

theorem OptKept.scaleRequest {id : Nat} (hs : s.Kept A B) : OptKept A B (s.scaleRequest id) := by
  unfold State.scaleRequest
  split
  · dsimp only
    split
    · exact .some hs
    · exact .ite (fun _ => .some (.loomError (.mxRead hs))) fun _ => .some (.foldl (.mxRead hs) (fun _ _ h1 => h1))
  · exact .none

theorem OptKept.operandTimeout {die bay tag : Nat} (hs : s.Kept A B) : OptKept A B (s.operandTimeout die bay tag) := by
  unfold State.operandTimeout
  dsimp only
  split
  · exact .none
  · split
    · exact .ite (fun _ => .some (.mxFail hs)) fun _ => .none
    · exact .none

theorem OptKept.scaleTimeout {die bay tag : Nat} (hs : s.Kept A B) : OptKept A B (s.scaleTimeout die bay tag) := by
  unfold State.scaleTimeout
  dsimp only
  split
  · exact .ite (fun _ => .some (.mxFail hs)) fun _ => .none
  · exact .none

theorem OutKept.execForkSeq {a b : RegZ} {h : BitVec 5} {g : Guard} (hs : s.Kept A B) : OutKept A B (execForkSeq a b h g s) := by
  unfold Machine.execForkSeq
  refine .issue hs fun _ h1 => .coreOnly h1 fun _ h2 => .ite (fun _ => .raise h2) fun _ => .ite (fun _ => .raise h2) fun _ => .ite (fun _ =>
    .raise h2) fun _ => ?_
  split
  · exact .raise h2
  · refine .waitOn (.bindHandle (.ite (fun _ => ?_) (fun _ => .postCard h2)))
    split
    · exact .seqStart (.postCard h2)
    · exact .postCard h2

theorem State.Kept.seqStop {id : Nat} (hs : s.Kept A B) : (s.seqStop id).Kept A B := by
  unfold State.seqStop
  split <;> exact hs

theorem State.Kept.seqSee {id : Nat} {o : OrderState} (hs : s.Kept A B) : (s.seqSee id o).Kept A B := by
  unfold State.seqSee
  split <;> exact hs

theorem State.Kept.seqAdvance {die bay tag : Nat} (hs : s.Kept A B) : (s.seqAdvance die bay tag).Kept A B := hs

theorem OptKept.sequencerStep {die bay tag : Nat} (hs : s.Kept A B) : OptKept A B (s.sequencerStep die bay tag) := by
  unfold State.sequencerStep
  extract_lets l
  split
  · exact .none
  split
  · exact .none
  have h1 {o : Nat} : (s.mxRead die bay tag o 1).2.2.Kept A B := .mxRead hs
  refine .ite (fun _ => .none) fun _ => .ite (fun _ => .some (.seqStop hs)) fun _ => .ite (fun _ => .none) fun _ =>
    .ite (fun _ => .some (.seqStop hs)) fun _ => .ite (fun _ => .ite (fun _ => .some (.seqStop hs)) fun _ => ?_) fun _ => .ite (fun _ => ?_) fun _ =>
    .ite (fun _ => .ite (fun _ => .some (.seqStop hs)) fun _ => ?_) fun _ => .ite (fun _ => ?_) fun _ => .ite (fun _ => ?_) fun _ =>
    .ite (fun _ => .some (.seqAdvance (.semSignal h1))) fun _ => .some (.seqStop hs)
  · beta_reduce; split
    exacts [.some (.seqStop hs), .none, .some (.seqAdvance (.of_ok (.mxZ h1) ‹_›))]
  · beta_reduce; split
    exacts [.some (.seqStop hs), .none, .some (.seqAdvance (.of_ok (.mxRun h1) ‹_›))]
  · beta_reduce; split
    exacts [.some (.seqStop hs), .none, .some (.seqAdvance (.of_ok (.mxProm h1) ‹_›))]
  · beta_reduce; split
    exacts [.some (.seqStop hs), .none, .some (.seqAdvance (.of_ok (.mxSt h1) ‹_›))]
  · split
    · next e => exact .some (.seqAdvance (.seqSee (.of_some (.semTake h1) e)))
    · exact .ite (fun _ => .none) fun _ => .some (.rest (.modLoom h1))

theorem State.Kept.performEntry {d h : Nat} {e : BufEntry} (hs : s.Kept A B) : (s.performEntry d h e).Kept A B := by
  unfold State.performEntry
  refine .land? ?_
  split
  · exact .modDie (.setLineNo (.writeAt hs))
  · exact .deliverName hs fun _ h1 => h1

theorem State.Kept.strandLost {x : Nat} {va : W64} (h : s.Kept A B) : (s.strandLost x va).Kept A B := by
  unfold State.strandLost
  split
  · exact h
  · next t ht => exact .ite (fun _ => h) fun _ => .setStrand h fun hb => h.2 hb (x, t) (Tbl.mem_of_find ht)

theorem State.Kept.drainLost {id : Nat} (hs : s.Kept A B) : (s.drainLost id).Kept A B := by
  unfold State.drainLost
  split <;> exact hs

theorem State.Kept.storeLost {e : BufEntry} (hs : s.Kept A B) : (s.storeLost e).Kept A B := by
  unfold State.storeLost
  split
  · exact hs
  · exact .strandLost hs
  · exact .cardFail (.drainLost hs)

theorem OptKept.bufferDrain {d : Nat} {dest : Target} (hs : s.Kept A B) : OptKept A B (s.bufferDrain d dest) := by
  unfold State.bufferDrain
  split
  · split
    · exact .none
    · exact .some (.drainAck (.performEntry (.setFifo hs)))
  · refine .ite (fun _ => ?_) fun _ => ?_
    · split
      · exact .none
      · exact .some (.storeLost (.setFifo hs))
    · split
      · exact .none
      · exact .some (.setFifo hs)

theorem OptKept.linkAck {d dev : Nat} (hs : s.Kept A B) : OptKept A B (s.linkAck d dev) := by
  unfold State.linkAck
  split
  · exact .none
  · exact .ite (fun _ => .some (.drainAck (.setFifo hs))) fun _ => .none

theorem OptKept.rdcExpire {d i : Nat} (hs : s.Kept A B) : OptKept A B (s.rdcExpire d i) := by
  unfold State.rdcExpire
  split
  · exact .none
  · exact .some hs

theorem OptKept.strandReleased {x : Nat} (hs : s.Kept A B) : OptKept A B (s.strandReleased x) := by
  unfold State.strandReleased
  dsimp only
  split
  · exact .ite (fun _ => .none) fun _ => .some (.setWait (.strandRelease hs))
  · exact .ite (fun _ => .some (.fenceStep hs)) fun _ => .none
  · exact .ite (fun _ => .some (.arriveEnter hs)) fun _ => .none
  · exact .ite (fun _ => .some (.postRelease hs)) fun _ => .none
  · exact .none

theorem OutKept.execDeviceRelease {r : Releaser} (hs : s.Kept A B) : OutKept A B (execDeviceRelease r s) := by
  unfold Machine.execDeviceRelease
  split
  · exact .ifEnabled (.strandReleased hs) hs
  · exact .ifEnabled (.cardRelease hs) hs
  · exact .ifEnabled (.fillRelease hs) hs
  · exact .ifEnabled (.drainRelease hs) hs
  · exact .ifEnabled (.launchRelease hs) hs

theorem OptKept.qwaitTry {x : Nat} {d : Dst} {k : Nat} (hs : s.Kept A B) : OptKept A B (s.qwaitTry x d k) := .map fun _ _ => .retireOf hs

theorem OutKept.execQwait {d : Dst} {r : BitVec 3} {lim : BitVec 5} {g : Guard} (hs : s.Kept A B) : OutKept A B (execQwait d r lim g s) := by
  unfold Machine.execQwait
  refine .issue hs fun _ h1 => .dstBound h1 fun _ h2 => .ite (fun _ => .raise h2) fun _ => .ite (fun _ => .raise h2) fun _ => ?_
  split
  · exact .retire h2
  · exact .waitOn h2

theorem OutKept.execSclose {r : BitVec 3} {g : Guard} (hs : s.Kept A B) : OutKept A B (execSclose r g s) := by
  unfold Machine.execSclose
  refine .issue hs fun _ h1 => .ite (fun _ => .raise h1) fun _ => .retire (.foldl h1 (fun _ _ h2 => .modStrand (.ite (fun _ =>
    .defer h2) (fun _ => h2)) (fun _ h => ?_)))
  split <;> exact h

theorem State.Kept.pushEntry {u : UnitId} {tag k : Nat} {q : Ring} {v : W128} {stamp : V4} (hs : s.Kept A B) :
    (s.pushEntry u tag k q v stamp).Kept A B := .setRing (.putBytes hs)

theorem OptKept.streamPush {x : Nat} (hs : s.Kept A B) : OptKept A B (s.streamPush x) := by
  unfold State.streamPush
  dsimp only
  split
  · exact .ite (fun _ => .none) fun _ => .ite (fun _ => .ite (fun _ => .some (.defer hs)) (fun _ => .some (.answer (.meteredLink hs)))) fun _ =>
      .ite (fun _ => .some (.defer hs)) fun _ => .ite (fun _ => .some (.defer hs)) fun _ => .ite (fun _ =>
        .some (.answer (.pushEntry hs))) fun _ => .none
  · exact .none

theorem OptKept.streamPushTimeout {x : Nat} (hs : s.Kept A B) : OptKept A B (s.streamPushTimeout x) := by
  unfold State.streamPushTimeout
  dsimp only
  split
  · exact .ite (fun _ => .some (.defer hs)) fun _ => .none
  · exact .none

theorem OptKept.streamTimeout {x : Nat} (hs : s.Kept A B) : OptKept A B (s.streamTimeout x) := by
  unfold State.streamTimeout
  dsimp only
  split
  · exact .ite (fun _ => .some (.defer hs)) fun _ => .none
  · exact .ite (fun _ => .some (.defer hs)) fun _ => .none
  · exact .none

theorem State.Kept.doneOf {x : Nat} (hs : s.Kept A B) : (s.doneOf x).Kept A B := .retireReg hs

theorem State.Kept.sweep {x die inst : Nat} {quiet : Bool} {entered swept sum : Nat} {d : Dst} (hs : s.Kept A B) :
    (s.sweep x die inst quiet entered swept sum d).Kept A B := .ite (fun _ => .setWait hs) fun _ => .retireOf hs

theorem OptKept.operationReply {x : Nat} (hs : s.Kept A B) : OptKept A B (s.operationReply x) := by
  unfold State.operationReply
  refine .ite (fun _ => .none) fun _ => ?_
  split
  · exact .none
  · exact .ite (fun _ => .some (.toReady hs)) fun _ => .none
  · exact .ite (fun _ => .some (.toReady hs)) fun _ => .none
  · exact .ite (fun _ => .some (.toReady hs)) fun _ => .none
  · exact .none
  · exact .none
  · exact .qwaitTry hs
  · exact .none
  · exact .map fun _ _ => .doneOf (.of_some (.waitpTry hs) ‹_›)
  · exact .none
  · exact .map fun _ _ => .doneOf (.of_some (.mbxTry hs) ‹_›)
  · exact .map fun _ _ => .retireOf (.of_pair (.mbrTry hs) ‹_›)
  · exact .map fun _ _ => .doneOf (.of_some (.mwaitTry hs) ‹_›)
  · exact .none
  · exact .none
  · exact .map fun _ _ => .doneOf (.of_some (.cwaitTry hs) ‹_›)
  · exact .some (.creelTouch (.sweep hs))
  · exact .map fun _ _ => .retireOf (.of_pair (.reapTry hs) ‹_›)
  · exact .map fun _ _ => .retireOf (.of_pair (.spawn15Try hs) ‹_›)
  · exact .none
  · exact .ite (fun _ => .some (.doneOf (.svcDone hs))) fun _ => .none
  · exact .none
  · exact .map fun _ _ => .doneOf (.of_some (.rdvTry hs) ‹_›)
  · exact .map fun _ _ => .doneOf (.of_some (.xwaitTry hs) ‹_›)
  · exact .map fun _ _ => .doneOf (.of_some (.semwTry hs) ‹_›)
  · exact .none
  · exact .settleTry hs
  · exact .none
  · exact .none
  · exact .map fun _ _ => .doneOf (.of_some (.mxoffTry hs) ‹_›)
  · exact .mxpermTry hs
  · exact .none
  · exact .some (.creelTouch (.retireOf hs))

theorem State.Kept.cameBack {x : Nat} (hs : s.Kept A B) : (s.cameBack x).Kept A B := .modStrand hs

theorem OptKept.recordWrite {x : Nat} (hs : s.Kept A B) : OptKept A B (s.recordWrite x) := by
  unfold State.recordWrite
  split
  · exact .none
  · refine .ite (fun _ => .none) fun _ => ?_
    dsimp only
    split
    · exact .ite (fun _ => .some (.trapRecord hs)) fun _ => .none
    · exact .none

theorem State.Kept.resumeHeld {x : Nat} {h : Held} (hs : s.Kept A B) : (s.resumeHeld x h).Kept A B := by
  unfold State.resumeHeld
  split
  · exact .enterCreel (.modStrand hs)
  · exact .rest (.modStrand hs)

theorem OptKept.xtrResume {tag seq : Nat} (hs : s.Kept A B) : OptKept A B (s.xtrResume tag seq) := .map fun _ _ => .resumeHeld hs

theorem OptKept.xtrStop {tag seq : Nat} (hs : s.Kept A B) : OptKept A B (s.xtrStop tag seq) := by
  unfold State.xtrStop
  split
  · exact .none
  · dsimp only
    split
    · refine .some ?_
      split
      · exact .freeStrand (.modStrand hs)
      · exact .shareCheck (.freeStrand (.noteStop (.modStrand hs)))
    · exact .some (.stopStrand (.modStrand hs))

theorem OptKept.watchdog {x : Nat} (hs : s.Kept A B) : OptKept A B (s.watchdog x) := .ite (fun _ => .none) fun _ => .some (.modStrand (.deliver hs))

theorem State.Kept.setListOrd {die : Nat} {o : OrderState} (hs : s.Kept A B) : (s.setListOrd die o).Kept A B := hs

theorem State.Kept.listError {tag q code : Nat} (hs : s.Kept A B) : (s.listError tag q code).Kept A B := hs

theorem State.Kept.listGoto {tag q : Nat} {pc : W64} (hs : s.Kept A B) : (s.listGoto tag q pc).Kept A B := hs

theorem State.Kept.listNext {tag q : Nat} (hs : s.Kept A B) : (s.listNext tag q).Kept A B := hs

theorem ListKept.listXlate {tag q : Nat} {va : W64} {align : Nat} {acc : AccKind} (hs : s.Kept A B) : ListKept A B
    (s.listXlate tag q va align acc) := by
  unfold State.listXlate
  dsimp only
  split
  · exact .bad
  · split
    · split
      · exact .bad
      · exact .ok (.engineXlate hs)
    · exact .wait (.askWalk (.engineXlate hs))
    · exact .bad

theorem State.Kept.listBytes {tag : Nat} {l : Loc} {n : Nat} (hs : s.Kept A B) : (s.listBytes tag l n).2.Kept A B := by
  unfold State.listBytes
  split
  · exact hs
  · split <;> exact hs

theorem ListKept.listRead {tag q : Nat} {va : W64} {n : Nat} (hs : s.Kept A B) : ListKept A B (s.listRead tag q va n) := by
  unfold State.listRead
  split
  · exact .ok (.listBytes (.of_read (.listXlate hs) ‹_›))
  · exact .wait (.of_hold (.listXlate hs) ‹_›)
  · exact .bad

theorem OptKept.listStep {tag q op : Nat} {mask : W64} {n : Nat} {k : List W64 → State → Option State} (hs : s.Kept A B)
    (hk : ∀ (v0 : List W64) (u : State), u.Kept A B → OptKept A B (k v0 u)) : OptKept A B (s.listStep tag q op mask n k) := by
  unfold State.listStep
  refine .ite (fun _ => .none) fun _ => ?_
  unfold ListRes.andThen
  split
  · exact .ite (fun _ => .none) fun _ => .ite (fun _ => .some (.listError (.of_read (.listRead hs) ‹_›))) fun _ =>
      hk _ _ (.of_read (.listRead hs) ‹_›)
  · exact .some (.of_hold (.listRead hs) ‹_›)
  · exact .some hs

theorem OptKept.listWaitfc {tag q : Nat} (hs : s.Kept A B) : OptKept A B (s.listWaitfc tag q) :=
  .listStep hs fun _ _ h1 => .ite (fun _ => .none) fun _ => .some (.listNext (.modQueue (.setListOrd (.applyStamps _ h1))))

theorem OptKept.listSigfc {tag q : Nat} (hs : s.Kept A B) : OptKept A B (s.listSigfc tag q) := .listStep hs fun _ _ h1 => .some h1

theorem OptKept.listSkipif {tag q : Nat} (hs : s.Kept A B) : OptKept A B (s.listSkipif tag q) := by
  unfold State.listSkipif
  refine .listStep hs fun _ _ h1 => .ite (fun _ => .some h1) fun _ => ?_
  unfold ListRes.andThen
  split
  · dsimp only
    split
    · exact .none
    · refine .some (.listGoto (.setListOrd ?_))
      split
      · exact .freeBytes (.applyStamp (.of_pair (.acquireLoad (.of_read (.listXlate h1) ‹_›)) ‹_›))
      · exact .applyStamp (.of_pair (.acquireLoad (.of_read (.listXlate h1) ‹_›)) ‹_›)
  · exact .some (.of_hold (.listXlate h1) ‹_›)
  · exact .some h1

theorem OptKept.listJump {tag q : Nat} (hs : s.Kept A B) : OptKept A B (s.listJump tag q) := .listStep hs fun _ _ h1 => .some h1

theorem OptKept.listCall {tag q : Nat} (hs : s.Kept A B) : OptKept A B (s.listCall tag q) :=
  .listStep hs fun _ _ h1 => .ite (fun _ => .some h1) fun _ => .some h1

theorem OptKept.listRet {tag q : Nat} (hs : s.Kept A B) : OptKept A B (s.listRet tag q) := by
  unfold State.listRet
  refine .listStep hs fun _ _ h1 => ?_
  split <;> exact .some h1

theorem OptKept.listRelease {tag q : Nat} {word : Option Loc} {k : State → Option State} (hs : s.Kept A B)
    (hk : ∀ (u : State), u.Kept A B → OptKept A B (k u)) : OptKept A B (s.listRelease tag q word k) := by
  unfold State.listRelease
  dsimp only
  split
  · exact .ite (fun _ => hk _ hs) fun _ => .none
  · exact .ite (fun _ => hk _ hs) fun _ => .some hs

theorem State.Kept.patchAt {tag q : Nat} {l : XLoc} {y m : W64} (hs : s.Kept A B) : (s.patchAt tag q l y m).Kept A B :=
  .setListOrd (.applyStamp (.rdcFill (.writeAt (.atomicTimes (.listBytes hs)))))

theorem OptKept.listPatch {tag q : Nat} (hs : s.Kept A B) : OptKept A B (s.listPatch tag q) := by
  unfold State.listPatch
  refine .listStep hs fun _ _ h1 => ?_
  unfold ListRes.andThen
  split
  · exact .listRelease (.of_read (.listXlate h1) ‹_›) fun _ h1 => .ite (fun _ => .none) fun _ => .some (.listNext (.patchAt h1))
  · exact .some (.of_hold (.listXlate h1) ‹_›)
  · exact .some h1

theorem OptKept.listJob {tag q : Nat} (hs : s.Kept A B) : OptKept A B (s.listJob tag q) := by
  unfold State.listJob
  refine .listStep hs fun _ _ h1 => ?_
  unfold ListRes.andThen
  split
  · exact .ite (fun _ => .some (.listError (.of_read (.listRead h1) ‹_›))) fun _ => .ite (fun _ =>
      .some (.listNext (.postCard (.rest (.setCard (.of_read (.listRead h1) ‹_›)))))) fun _ =>
        .listRelease (.of_read (.listRead h1) ‹_›) fun _ h1 => .some (.listNext (.postCard h1))
  · exact .some (.of_hold (.listRead h1) ‹_›)
  · exact .some h1

theorem State.Kept.fieldActivate {id tag : Nat} {f : List W64} (hs : s.Kept A B) : (s.fieldActivate id tag f).Kept A B := .rest (.descriptorPut hs)

theorem State.Kept.launchStart {tag q : Nat} {w0 hdr : W64} {h : List W64} {f : Option (List W64)} (hs : s.Kept A B) :
    (s.launchStart tag q w0 hdr h f).Kept A B := by
  unfold State.launchStart
  refine .listNext (.foldl (.rest ?_) (fun _ _ h1 => h1))
  split
  · exact .fieldActivate hs
  · exact hs

theorem OptKept.listLaunch {tag q : Nat} (hs : s.Kept A B) : OptKept A B (s.listLaunch tag q) := by
  unfold State.listLaunch
  refine .listStep hs fun _ _ h1 => ?_
  dsimp only
  unfold ListRes.andThen
  split
  · refine .ite (fun _ => .some (.listError (.of_read (.listRead h1) ‹_›))) fun _ => .ite (fun _ => .ite (fun _ =>
      .some (.launchStart (.of_read (.listRead h1) ‹_›))) (fun _ => .none)) fun _ => ?_
    split
    · exact .ite (fun _ => .some (.listError (.of_read (.listRead (.of_read (.listRead h1) ‹_›)) ‹_›))) fun _ => .ite (fun _ =>
        .some (.launchStart (.of_read (.listRead (.of_read (.listRead h1) ‹_›)) ‹_›))) fun _ => .none
    · exact .some (.of_hold (.listRead (.of_read (.listRead h1) ‹_›)) ‹_›)
    · exact .some (.listError (.of_read (.listRead h1) ‹_›))
  · exact .some (.of_hold (.listRead h1) ‹_›)
  · exact .some h1

theorem State.Kept.headOrd {l : Launch} {die : Nat} (hs : s.Kept A B) : (s.headOrd l die).2.Kept A B := by
  unfold State.headOrd
  split
  · exact hs
  · exact .applyStamp (.arriveOrd hs)

theorem OptKept.launchPacket {id : Nat} (hs : s.Kept A B) : OptKept A B (s.launchPacket id) := by
  unfold State.launchPacket
  split
  · split
    · exact .some hs
    · exact .ite (fun _ => .none) fun _ => .some (.takeSlot (.addStrand (.rest (.headOrd hs)) (fun hb => .init)))
  · exact .none

theorem ListPlanKept.listPlan {tag q : Nat} (hs : s.Kept A B) : ListPlanKept A B (s.listPlan tag q) := by
  unfold State.listPlan
  dsimp only
  split
  · exact .idle
  · split
    · split
      · exact .wait (.listError (.of_read (.listRead hs) ‹_›))
      · exact .entry
    · exact .wait (.of_hold (.listRead hs) ‹_›)
    · exact .wait hs

theorem OptKept.sliceExpiry {isl : Nat} (hs : s.Kept A B) : OptKept A B (s.sliceExpiry isl) := by
  unfold State.sliceExpiry
  dsimp only
  split
  · exact .none
  · refine .ite (fun _ => .none) fun _ => ?_
    split
    · exact .ite (fun _ => .some hs) fun _ => .ite (fun _ => .some hs) fun _ => .none
    · exact .some hs

theorem OptKept.budgetExhausted {isl : Nat} (hs : s.Kept A B) : OptKept A B (s.budgetExhausted isl) := by
  unfold State.budgetExhausted
  split
  · exact .none
  · refine .ite (fun _ => .none) fun _ => ?_
    split
    · exact .ite (fun _ => .some hs) fun _ => .some hs
    · exact .some hs

theorem State.Kept.tenantLeaves {isl tag : Nat} (h : s.Kept A B) : (s.tenantLeaves isl tag).Kept A B :=
  .mapStrands (.foldl h fun _ _ h => .withdrawPark h) fun e he => by split <;> exact he

theorem State.Kept.resendOperands {die bay tag : Nat} (hs : s.Kept A B) : (s.resendOperands die bay tag).Kept A B := hs

theorem State.Kept.tenantResumes {die bay tag : Nat} (h : s.Kept A B) : (s.tenantResumes die bay tag).Kept A B := by
  refine .modTen (.resendOperands (.mapStrands h fun e he => ?_))
  split
  · split
    · exact .resumeSlot he
    · exact he
  · exact he

theorem OptKept.handOver {isl tag : Nat} (hs : s.Kept A B) : OptKept A B (s.handOver isl tag) := by
  unfold State.handOver
  refine .ite (fun _ => .none) fun _ => .some (.applyResolved (.foldl (.modIsland ?_) (fun _ _ h1 => .tenantResumes h1)))
  split
  · exact .tenantLeaves (.hangSettle hs)
  · exact .hangSettle hs

theorem State.Kept.moveBytes {a b n : Nat} (h : s.Kept A B) : (s.moveBytes a b n).Kept A B :=
  ⟨fun ha => State.moveBytes_canonical a b n (h.1 ha), h.2⟩

theorem State.Kept.saveWrite {die bay tag : Nat} (hs : s.Kept A B) : (s.saveWrite die bay tag).Kept A B := by
  unfold State.saveWrite
  refine .ite (fun _ => hs) fun _ => .foldl hs fun _ _ h1 => ?_
  split
  · exact .storeTimes (.writeAt h1)
  · exact h1

theorem State.Kept.streamRange {die bay tag : Nat} {out : Bool} (hs : s.Kept A B) : (s.streamRange die bay tag out).Kept A B :=
  .modTen (.ite (fun _ => .moveBytes (.moveBytes (.saveWrite hs))) (fun _ => .moveBytes (.moveBytes hs)))

theorem State.Kept.exchange {die bay tag : Nat} (hs : s.Kept A B) : (s.exchange die bay tag).Kept A B :=
  .ite (fun _ => .tenantResumes (.streamRange (.foldl hs (fun _ _ h1 => .streamRange h1)))) fun _ => .streamRange (.foldl hs (fun _ _ h1 =>
    .streamRange h1))

theorem OptKept.rangeLoaded {die bay tag : Nat} (hs : s.Kept A B) : OptKept A B (s.rangeLoaded die bay tag) :=
  .ite (fun _ => .none) fun _ => .ite (fun _ => .some (.exchange (.ite (fun _ => hs) (fun _ => hs)))) fun _ => .none

theorem State.Kept.scrub {a n : Nat} (h : s.Kept A B) : (s.scrub a n).Kept A B := ⟨fun ha => State.scrub_canonical a n (h.1 ha), h.2⟩

theorem State.Kept.scrubBay {die bay tag : Nat} (hs : s.Kept A B) : (s.scrubBay die bay tag).Kept A B :=
  .scrub (.scrub (.ite (fun _ => .scrub (.scrub hs)) (fun _ => hs)))

theorem State.Kept.scrubSaved {tag : Nat} {p : Nat → Bool} (h : s.Kept A B) : (s.scrubSaved tag p).Kept A B :=
  ⟨fun ha => Memory.wf_filter _ (h.1 ha), h.2⟩

theorem State.Kept.createOn {isl tag : Nat} (hs : s.Kept A B) : (s.createOn isl tag).Kept A B :=
  .modIsland (.scrubSaved (.foldl hs (fun _ _ h1 => .scrubBay h1)))

theorem State.Kept.writeIslcfg {isl off : Nat} {v : W64} (hs : s.Kept A B) : (s.writeIslcfg isl off v).Kept A B :=
  .ite (fun _ => hs) fun _ => .modIsland (.foldl (.foldl hs (fun _ _ h1 => .streamRange h1)) (fun _ _ h1 => .createOn h1))

theorem State.Kept.writeScsrv {die c off : Nat} {v : W64} (hs : s.Kept A B) : (s.writeScsrv die c off v).Kept A B := .ite (fun _ => hs) fun _ => hs

theorem State.Kept.writeXfr {tag : Nat} {w : W64} (hs : s.Kept A B) : (s.writeXfr tag w).Kept A B := by
  unfold State.writeXfr
  dsimp only
  split
  · exact .getD (.xfrReplay hs) hs
  · exact .getD (.xfrFail hs) hs
  · exact hs

theorem State.Kept.writeXtr {tag : Nat} {w : W64} (hs : s.Kept A B) : (s.writeXtr tag w).Kept A B := by
  unfold State.writeXtr
  dsimp only
  split
  · exact .getD (.xtrResume hs) hs
  · exact .getD (.xtrStop hs) hs
  · exact hs

theorem State.Kept.budgetsOf {tag : Nat} (hs : s.Kept A B) : (s.budgetsOf tag).Kept A B := .foldl hs fun _ _ h1 => h1

theorem State.Kept.writePart {tag reg off : Nat} {v : W64} {p : WPart} (hs : s.Kept A B) : (s.writePart tag reg off v p).Kept A B := by
  unfold State.writePart
  dsimp only
  split
  · exact .ite (fun _ => hs) fun _ => hs
  · exact .ite (fun _ => hs) fun _ => hs
  · exact .ite (fun _ => hs) fun _ => hs
  · exact .ite (fun _ => hs) fun _ => hs
  · exact .ite (fun _ => hs) fun _ => hs
  · exact .ite (fun _ => hs) fun _ => hs
  · exact .writeXfr hs
  · exact .ite (fun _ => hs) fun _ => hs
  · exact .ite (fun _ => hs) fun _ => hs
  · exact .ite (fun _ => hs) fun _ => hs
  · exact .ite (fun _ => hs) fun _ => hs
  · exact .ite (fun _ => hs) fun _ => hs
  · exact .ite (fun _ => hs) fun _ => hs
  · exact .writeXtr hs
  · exact .ite (fun _ => hs) fun _ => .modPart (.budgetsOf hs)
  · exact hs

theorem State.Kept.writeQcfg {tag q off : Nat} {v : W64} {p : WPart} (hs : s.Kept A B) : (s.writeQcfg tag q off v p).Kept A B :=
  .ite (fun _ => hs) fun _ => hs

theorem State.Kept.writeQueue {tag q reg off : Nat} {v : W64} {p : WPart} (hs : s.Kept A B) : (s.writeQueue tag q reg off v p).Kept A B := by
  unfold State.writeQueue
  dsimp only
  split
  · exact .writeQcfg hs
  · exact .ite (fun _ => hs) fun _ => .ite (fun _ => hs) fun _ => hs
  · exact hs
  · exact .ite (fun _ => hs) fun _ => hs
  · exact hs

theorem State.Kept.writeFstat {die bay : Nat} {w : W64} (hs : s.Kept A B) : (s.writeFstat die bay w).Kept A B := by
  unfold State.writeFstat
  split <;> exact hs

theorem State.Kept.writeDbgc {u : UnitId} {v : W64} {p : WPart} (hs : s.Kept A B) : (s.writeDbgc u v p).Kept A B := .modUnit (.dbgcResume hs)

theorem State.Kept.writeBay {die bay reg : Nat} {v : W64} {p : WPart} (hs : s.Kept A B) : (s.writeBay die bay reg v p).Kept A B := by
  unfold State.writeBay
  dsimp only
  split
  · exact hs
  · exact hs
  · exact .writeDbgc hs
  · exact .feControl hs
  · exact .feControl hs
  · exact .writeFstat hs
  · exact hs
  · exact .writeDbgc hs
  · exact hs

theorem State.Kept.writeDieSpace {die off : Nat} {v : W64} {p : WPart} (hs : s.Kept A B) : (s.writeDieSpace die off v p).Kept A B :=
  .ite (fun _ => hs) fun _ => .ite (fun _ => hs) fun _ => .ite (fun _ => .ite (fun _ => .writeIslcfg hs) (fun _ => hs)) fun _ => .ite (fun _ =>
    .ite (fun _ => .writeScsrv hs) (fun _ => hs)) fun _ => .ite (fun _ => .writeBay hs) fun _ => .ite (fun _ => .writeBay hs) fun _ => hs

theorem State.Kept.writeBlock {tag reg off : Nat} {v : W64} {p : WPart} (hs : s.Kept A B) : (s.writeBlock tag reg off v p).Kept A B :=
  .ite (fun _ => hs) fun _ => .ite (fun _ => .writeQueue hs) fun _ => .writePart hs

theorem State.Kept.registerWrite {writer die off : Nat} {v : W64} {p : WPart} (hs : s.Kept A B) : (s.registerWrite writer die off v p).Kept A B :=
  .ite (fun _ => hs) fun _ => .ite (fun _ => .ite (fun _ => .writeBlock hs) (fun _ => hs)) fun _ => .ite (fun _ => .descriptorWrite hs) fun _ =>
    .ite (fun _ => .writeDieSpace hs) fun _ => hs

theorem State.Kept.drainTag {tag : Nat} (hs : s.Kept A B) : (s.drainTag tag).Kept A B :=
  .foldl (.foldl hs (fun _ _ h1 => .foldl h1 (fun _ _ h2 => .foldl (.setFifo h2) (fun _ _ h3 => .drainAck (.performEntry h3))))) fun _ _ h1 =>
    .foldl (.setFifo h1) fun _ _ h2 => .drainAck h2

theorem State.Kept.drainFifo {d h : Nat} (hs : s.Kept A B) : (s.drainFifo d h).Kept A B :=
  .foldl (.setFifo hs) fun _ _ h1 => .drainAck (.performEntry h1)

theorem State.Kept.finishAccess {x : Nat} (hs : s.Kept A B) : (s.finishAccess x).Kept A B := by
  unfold State.finishAccess
  refine .getD (.homeAccess (.getD (.homeAccess ?_) ?_)) (.getD (.homeAccess ?_) ?_)
  · split
    · split
      · exact .drainFifo (.getD (.strandReleased hs) hs)
      · exact .getD (.strandReleased hs) hs
    · exact .getD (.strandReleased hs) hs
  · split
    · split
      · exact .drainFifo (.getD (.strandReleased hs) hs)
      · exact .getD (.strandReleased hs) hs
    · exact .getD (.strandReleased hs) hs
  · split
    · split
      · exact .drainFifo (.getD (.strandReleased hs) hs)
      · exact .getD (.strandReleased hs) hs
    · exact .getD (.strandReleased hs) hs
  · split
    · split
      · exact .drainFifo (.getD (.strandReleased hs) hs)
      · exact .getD (.strandReleased hs) hs
    · exact .getD (.strandReleased hs) hs

theorem State.Kept.finishWalk {die : Nat} {w : Walk} (hs : s.Kept A B) : (s.finishWalk die w).Kept A B := by
  unfold State.finishWalk
  dsimp only
  split
  · split
    · refine .foldl hs fun _ _ h1 => ?_
      split
      · exact .finishAccess (.completeReq h1)
      · exact h1
    · exact hs
  · refine .emit ?_
    split
    · refine .foldl hs fun _ _ h1 => ?_
      split
      · exact .finishAccess (.completeReq h1)
      · exact h1
    · exact hs

theorem State.Kept.finishDeliveries {tag : Nat} (hs : s.Kept A B) : (s.finishDeliveries tag).Kept A B :=
  .foldl hs fun _ _ h1 => .getD (.messageDelivery h1) h1

theorem State.Kept.finishRequests {tag : Nat} (h : s.Kept A B) : (s.finishRequests tag).Kept A B := by
  unfold State.finishRequests
  refine .drainTag (.finishDeliveries (.foldl (.foldl (.drainTag h) fun _ _ h => ?_) fun _ _ h => .finishAccess h))
  exact .foldl h fun _ _ h => .finishWalk h

theorem State.Kept.chanSkip {k : Nat} (hs : s.Kept A B) : (s.chanSkip k).Kept A B := hs

theorem State.Kept.resetDrain {tag : Nat} (h : s.Kept A B) : (s.resetDrain tag).Kept A B := by
  unfold State.resetDrain
  exact .foldl (.modPart (.filterStrands (.finishRequests h))) fun _ _ h => .chanSkip h

theorem State.Kept.resetCounters {tag : Nat} (hs : s.Kept A B) : (s.resetCounters tag).Kept A B := .foldl hs fun _ _ h1 => .reconfigure h1

theorem State.Kept.resetScrub {tag : Nat} (hs : s.Kept A B) : (s.resetScrub tag).Kept A B :=
  .modPart (.rest (.scrubSaved (.foldl (.foldl hs (fun _ _ h1 => h1)) (fun _ _ h1 => .scrubBay h1))))

theorem State.Kept.resetLines {tag : Nat} (hs : s.Kept A B) : (s.resetLines tag).Kept A B := hs

theorem OptKept.partitionReset {tag : Nat} (h : s.Kept A B) : OptKept A B (s.partitionReset tag) := by
  unfold State.partitionReset
  exact .ite (fun _ => .none) fun _ => .some (.emit (.resetLines (.resetScrub (.resetCounters (.resetDrain h)))))

theorem State.Kept.pf0Reset (h : s.Kept A B) : s.pf0Reset.Kept A B := by
  unfold State.pf0Reset
  exact .filterStrands (.foldl h fun _ _ h => .getD (.partitionReset h) h)

theorem OptKept.powerGood {num : BitVec 14} {domain : List Nat} (hs : s.Kept A B) : OptKept A B (s.powerGood num domain) :=
  .ite (fun _ => .none) fun _ => .some hs

theorem State.Kept.stageTwo (hs : s.Kept A B) : s.stageTwo.Kept A B := .ite (fun _ => hs) fun _ => hs

theorem OptKept.islandStart {isl : Nat} {pass : Bool} (hs : s.Kept A B) : OptKept A B (s.islandStart isl pass) :=
  .ite (fun _ => .none) fun _ => .some (.ite (fun _ => .stageTwo (.ite (fun _ => hs) (fun _ => hs))) (fun _ => .ite (fun _ => hs) (fun _ => hs)))

theorem OptKept.linkRetrain {dev : Nat} (hs : s.Kept A B) : OptKept A B (s.linkRetrain dev) := .ite (fun _ => .none) fun _ => .some hs

theorem OptKept.linkFailure {dev : Nat} (hs : s.Kept A B) : OptKept A B (s.linkFailure dev) := .ite (fun _ => .none) fun _ => .some hs

theorem State.Kept.foreignDo {r : ForeignReq} {l : Loc} (hs : s.Kept A B) : (s.foreignDo r l).2.Kept A B := by
  unfold State.foreignDo
  dsimp only
  split
  · exact hs
  · exact .homePut hs
  · exact .ite (fun _ => .homePut hs) fun _ => hs

theorem OptKept.foreignRequest {r : ForeignReq} (hs : s.Kept A B) : OptKept A B (s.foreignRequest r) := by
  unfold State.foreignRequest
  refine .ite (fun _ => .none) fun _ => .ite (fun _ => .some hs) fun _ => ?_
  split
  · exact .none
  · exact .some (.rest (.foreignDo hs))

theorem OptKept.laneRecal {die : Nat} {host out : Bool} (hs : s.Kept A B) : OptKept A B (s.laneRecal die host out) :=
  .ite (fun _ => .ite (fun _ => .none) (fun _ => .some hs)) fun _ => .ite (fun _ => .some hs) fun _ => .none

theorem State.Kept.evict {isl : Nat} (hs : s.Kept A B) : (s.evict isl).Kept A B := by
  unfold State.evict
  refine .modIsland (.foldl ?_ (fun _ _ h1 => .streamRange h1))
  split
  · exact .tenantLeaves (.hangSettle hs)
  · exact .hangSettle hs

theorem State.Kept.islandFail {isl : Nat} (hs : s.Kept A B) : (s.islandFail isl).Kept A B := .modIsland (.evict hs)

theorem OptKept.islandUpdate {isl : Nat} {pass : Bool} (hs : s.Kept A B) : OptKept A B (s.islandUpdate isl pass) :=
  .ite (fun _ => .none) fun _ => .some (.ite (fun _ => .modIsland (.evict hs)) (fun _ => .islandFail (.modIsland (.evict hs))))

theorem OptKept.baySparing {die bay : Nat} (hs : s.Kept A B) : OptKept A B (s.baySparing die bay) :=
  .ite (fun _ => .none) fun _ => .ite (fun _ => .some (.islandFail hs)) fun _ => .some (.rasAdd (.modCluster (.evict hs)))

theorem OptKept.uncorrectable {die bay line : Nat} (hs : s.Kept A B) : OptKept A B (s.uncorrectable die bay line) :=
  .ite (fun _ => .none) fun _ => .ite (fun _ => .some hs) fun _ => .some (.ite (fun _ => hs) (fun _ => hs))

theorem OptKept.spdm {known : List Byte} {n : Nat} (hs : s.Kept A B) : OptKept A B (s.spdm known n) := .ite (fun _ => .none) fun _ => .some hs

theorem OptKept.negotiate {p521 sha512 : Bool} (hs : s.Kept A B) : OptKept A B (s.negotiate p521 sha512) := .spdm hs

theorem OptKept.meterIncrement {tag meter amount : Nat} (hs : s.Kept A B) : OptKept A B (s.meterIncrement tag meter amount) :=
  .ite (fun _ => .none) fun _ => .ite (fun _ => .ite (fun _ => .none) (fun _ => .some hs)) fun _ => .ite (fun _ => .none) fun _ => .some hs

theorem OptKept.meterSnapshot {tag : Nat} {nonce : BitVec 256} (hs : s.Kept A B) : OptKept A B (s.meterSnapshot tag nonce) :=
  .ite (fun _ => .none) fun _ => .some hs

theorem OptKept.thermal {die bay : Nat} {begins : Bool} (hs : s.Kept A B) : OptKept A B (s.thermal die bay begins) :=
  .ite (fun _ => .none) fun _ => .some (.ite (fun _ => .rasAdd (.modUnit (.modUnit (.hangSettle hs)))) (fun _ =>
    .modUnit (.modUnit (.hangSettle hs))))

theorem OutKept.alu2 {i : Instr} {d : Dst} {a b : Src} {g : Guard} {f : W64 → W64 → W64} (hs : s.Kept A B) : OutKept A B (alu2 i d a b g f s) :=
  .issue hs fun _ h1 => .ops2 h1 fun _ _ _ h2 => .retire h2

theorem OutKept.alu1 {i : Instr} {d : Dst} {a : Src} {g : Guard} {f : W64 → W64} (hs : s.Kept A B) : OutKept A B (alu1 i d a g f s) :=
  .issue hs fun _ h1 => .ops1 h1 fun _ _ h2 => .retire h2

theorem OutKept.aluImm {i : Instr} {d : Dst} {a : Src} {g : Guard} {f : Strand → W64 → W64} (hs : s.Kept A B) : OutKept A B (aluImm i d a g f s) :=
  .issue hs fun _ h1 => .ops1 h1 fun _ _ h2 => .retire h2

theorem OutKept.predOp {i : Instr} {pd : PReg} {g : Guard} {f : W32 → Bool} (hs : s.Kept A B) : OutKept A B (predOp i pd g f s) :=
  .issue hs fun _ h1 => .retire h1

theorem State.Kept.sfuPost {s0 : State} {op : SfuOp} {f : FFmt} {a b : W128} {d : Dst} {rnd : Nat} (hs : s.Kept A B) (hs0 : s0.Kept A B) :
    (s.sfuPost s0 op f a b d rnd).Kept A B := .ite (fun _ => hs0) fun _ => .waitOn hs

theorem OutKept.divIssue {i : Instr} {op : SfuOp} {d : Dst} {a b : Src} {g : Guard} (hs : s.Kept A B) : OutKept A B (divIssue i op d a b g s) :=
  .issue hs fun _ h1 => .ops2 h1 fun _ _ _ h2 => .sfuPost h2 h1

theorem OutKept.sfuIssue {i : Instr} {op : SfuOp} {d : Dst} {a : Src} {f : FFmt} {g : Guard} (hs : s.Kept A B) : OutKept A B
    (sfuIssue i op d a f g s) := .issue hs fun _ h1 => .coreOnly h1 fun _ h2 => .ops1 h2 fun _ _ h3 => .sfuPost h3 h2

theorem OptKept.sfuHead {u : UnitId} (hs : s.Kept A B) : OptKept A B (s.sfuHead u) := by
  unfold State.sfuHead
  split
  · exact .none
  · exact .ite (fun _ => .some hs) fun _ => .ite (fun _ => .some (.defer hs)) fun _ => .some (.answer hs)

theorem State.Kept.oldValue {d : Dst} {mask : Bool} (hs : s.Kept A B) : (s.oldValue d mask).2.Kept A B := by
  unfold State.oldValue
  split
  · exact hs
  · exact hs
  · split <;> exact hs

theorem State.Kept.retireLanes {d : Dst} {mask : Bool} {w : Nat} {rs : List (Nat × Flags)} (hs : s.Kept A B) :
    (s.retireLanes d mask w rs).Kept A B := .retire (.oldValue hs)

theorem State.Kept.retirePreds {mask : Bool} {rs : List (Bool × Flags)} (hs : s.Kept A B) : (s.retirePreds mask rs).Kept A B := .retire hs

theorem OutKept.fp2 {i : Instr} {d : Dst} {a b : Src} {lf : FFmt} {g : Guard} {f : FP → Rm → Nat → Nat → Nat × Flags} (hs : s.Kept A B) :
    OutKept A B (fp2 i d a b lf g f s) := .issue hs fun _ h1 => .ops2 h1 fun _ _ _ h2 => .retireLanes h2

theorem OutKept.fp3 {i : Instr} {d : RegZ} {a b : Src} {lf : FFmt} {g : Guard} {f : FP → Rm → FVal → FVal → FVal → Nat × Flags} (hs : s.Kept A B) :
    OutKept A B (fp3 i d a b lf g f s) := .issue hs fun _ h1 => .src2 h1 fun _ _ _ h2 => .retireLanes h2

theorem OutKept.fp1 {i : Instr} {d : Dst} {a : Src} {lf : FFmt} {g : Guard} {f : FP → Nat → Nat} (hs : s.Kept A B) : OutKept A B
    (fp1 i d a lf g f s) := .issue hs fun _ h1 => .ops1 h1 fun _ _ h2 => .retireLanes h2

theorem OutKept.fpCmp {i : Instr} {a b : Src} {lf : FFmt} {g : Guard} {f : FVal → FVal → Bool × Bool} (hs : s.Kept A B) : OutKept A B
    (fpCmp i a b lf g f s) := .issue hs fun _ h1 => .src2 h1 fun _ _ _ h2 => .retirePreds h2

theorem OutKept.int2 {i : Instr} {pf : Pfx} {d : Dst} {a b : Src} {iw : IWidth} {g : Guard} {f : Bool → Nat → Nat → Nat → Nat × Flags}
    (hs : s.Kept A B) : OutKept A B (int2 i pf d a b iw g f s) := .issue hs fun _ h1 => .ops2 h1 fun _ _ _ h2 => .retireLanes h2

theorem OutKept.intCmp {i : Instr} {a b : Src} {iw : IWidth} {g : Guard} {f : Nat → Nat → Nat → Bool} (hs : s.Kept A B) : OutKept A B
    (intCmp i a b iw g f s) := .issue hs fun _ h1 => .src2 h1 fun _ _ _ h2 => .retirePreds h2

theorem OutKept.move1 {i : Instr} {d : Dst} {a : Src} {iw : IWidth} {g : Guard} {f : (Nat → Nat) → Nat → Nat} (hs : s.Kept A B) : OutKept A B
    (move1 i d a iw g f s) := .issue hs fun _ h1 => .ops1 h1 fun _ _ h2 => .retireLanes h2

theorem OutKept.move2 {i : Instr} {d : Dst} {a b : Src} {iw : IWidth} {g : Guard} {f : Strand → (Nat → Nat) → (Nat → Nat) → Nat → Nat}
    (hs : s.Kept A B) : OutKept A B (move2 i d a b iw g f s) := .issue hs fun _ h1 => .ops2 h1 fun _ _ _ h2 => .retireLanes h2

theorem FetchKept.fetch {x : Nat} (hs : s.Kept A B) : FetchKept A B (s.fetch x) := by
  unfold State.fetch
  dsimp only
  split
  · exact .trap hs
  · split
    · exact .trap hs
    · split
      · exact .miss
      · exact .trap hs
      · split
        · split
          · exact .trap hs
          · exact .word (.freeBits (.paged hs))
        · split
          · exact .trap (.errSeen hs)
          · exact .word (.paged hs)

theorem State.Kept.reissue {x : Nat} (hs : s.Kept A B) : (s.reissue x).Kept A B := by
  unfold State.reissue
  dsimp only
  split
  · split
    · exact .raise (.rest (.modStrand hs (fun _ h => .resumeWait h)))
    · exact .setWait (.rest (.modStrand hs (fun _ h => .resumeWait h)))
  · split
    · exact .raise (.rest (.modStrand hs (fun _ h => .resumeWait h)))
    · exact .rest (.modStrand hs (fun _ h => .resumeWait h))
  · exact .rest (.modStrand hs (fun _ h => .resumeWait h))

theorem State.Kept.deliverAll {x : Nat} (hs : s.Kept A B) : (s.deliverAll x).Kept A B := .foldl hs fun _ _ h1 => .getD (.messageDelivery h1) h1

theorem PlanKept.ownTurn {x : Nat} (hs : s.Kept A B) : PlanKept A B (s.ownTurn x) := by
  have h0 : State.Kept A B { (s.modStrand x (fun t => { t with borrowed := false, noBorrow := t.noBorrow - 1 })) with cur := x, lent := false } :=
    .rest (.modStrand hs)
  unfold State.ownTurn
  refine .ite (fun _ => .event h0) fun _ => .ite (fun _ => .stay (.reissue h0)) fun _ => .ite (fun _ => .event h0) fun _ =>
    .ite (fun _ => .event (.deliverAll h0)) fun _ => ?_
  split
  · next e => exact .issue (.ite (fun _ => .deliverAll (.of_word (.fetch h0) e)) fun _ => .of_word (.fetch h0) e)
  · next e => exact .stay (.raise (.of_trap (.fetch h0) e))
  · exact .ite (fun _ => .stay (.waitWalk h0)) fun _ => .stay h0

theorem LendKept.borrower {u : UnitId} {tag owner n : Nat} (hs : s.Kept A B) : LendKept A B (s.borrower u tag owner n) := by
  unfold State.borrower
  split
  · exact .none
  · dsimp only
    split
    · exact .none
    · split
      · split
        · exact .some (.of_word (.fetch (.finishSplit hs)) ‹_›)
        · exact .none
      · exact .none

theorem PlanKept.lendTurn {u : UnitId} {tag owner : Nat} {lend : Bool} (hs : s.Kept A B) : PlanKept A B (s.lendTurn u tag owner lend) := by
  unfold State.lendTurn
  refine .ite (fun _ => .stay hs) fun _ => ?_
  split
  · exact .stay hs
  · exact .issue (.rest (.of_lend (.findSome? (fun _ => .borrower hs)) ‹_›))

theorem PlanKept.turn {u : UnitId} {n : Nat} {lend : Bool} (hs : s.Kept A B) : PlanKept A B (s.turn u n lend) := by
  unfold State.turn
  refine .ite (fun _ => .stay hs) fun _ => ?_
  dsimp only
  split
  · exact .ite (fun _ => .stay hs) fun _ => .ownTurn (.finishSplit hs)
  · exact .stay hs
  · split
    · exact .ite (fun _ => .stay (.creelTake hs)) fun _ => .lendTurn hs
    · refine .ite (fun _ => .stay hs) fun _ => .ite (fun _ => .event (.finishSplit hs)) fun _ => ?_
      split
      · exact .ite (fun _ => .lendTurn (.requantum (.finishSplit hs))) fun _ => .ownTurn (.requantum (.finishSplit hs))
      · exact .lendTurn (.requantum (.finishSplit hs))
      · exact .lendTurn (.requantum (.finishSplit hs))
      · exact .stay (.requantum (.finishSplit hs))
      · exact .stay (.requantum (.finishSplit hs))

theorem State.Kept.settleTurn {i : Instr} {t : State} (hs : s.Kept A B) : (settleTurn i t s).Kept A B := by
  exact .rest (.ite (fun _ => .modStrand (.ite (fun _ => hs) (fun _ => hs))) (fun _ => .ite (fun _ => hs) (fun _ => hs)))

theorem State.Kept.nextChoice (hs : s.Kept A B) : s.nextChoice.2.Kept A B := by
  unfold State.nextChoice
  split <;> exact hs

theorem PlanKept.interp {tag q : Nat} (hs : s.Kept A B) : PlanKept A B (s.interp tag q) := by
  unfold State.interp
  split
  · exact .stay hs
  · exact .stay (.of_plan (.listPlan hs) ‹_›)
  · exact .event hs
  · exact .event hs
  · exact .event hs
  · exact .event hs
  · exact .event hs
  · exact .event hs
  · exact .event hs
  · exact .event hs
  · exact .event hs

theorem PlanKept.plan {c : Choice} (hs : s.Kept A B) : PlanKept A B (s.plan c) := by
  unfold State.plan
  split
  · exact .turn hs
  · dsimp only
    split
    · exact .turn hs
    · exact .interp hs
    · exact .ite (fun _ => .event hs) fun _ => .stay hs

/-- Every instruction and every step of the device keeps the invariants. -/
theorem OutKept.exec {i : Instr} (hs : s.Kept A B) : OutKept A B (exec i s) := by
  cases i <;> dsimp only [Machine.exec]
  case add | sub | and | or | xor | andn | shl | shr | sar | mul | mulh | mulhu | min | max | minu | maxu => exact .alu2 hs
  case clz | ctz | popc | shli | shri | sari => exact .alu1 hs
  case addi | andi | ori | xori => exact .aluImm hs
  case cmp => exact .issue hs fun _ h1 => .src2 h1 fun _ _ _ h2 => .retire h2
  case cmpi | pwr => exact .issue hs fun _ h1 => .src h1 fun _ _ h2 => .retire h2
  case pand | por | pxor | pandn | pnot | pany | pall => exact .predOp hs
  case prd | movi | slotid => exact .issue hs fun _ h1 => .dstBound h1 fun _ h2 => .retire h2
  case div | divu | rem | remu => exact .divIssue hs
  case b | bl | nop => exact .issue hs fun _ h1 => .retire h1
  case br => exact .issue hs fun _ h1 => .src h1 fun _ _ h2 => .ite (fun _ => .raise h1) fun _ => .retire h2
  case blr => exact .issue hs fun _ h1 => .ops1 h1 fun _ _ h2 => .ite (fun _ => .raise h1) fun _ => .retire h2
  case trap => exact .issue hs fun _ h1 => .trapAt h1
  case svc | xid | xwait => exact .issue hs fun _ h1 => .ite (fun _ => .raise h1) fun _ => .waitOn h1
  case rft => exact .issue hs fun _ h1 => .ite (fun _ => .raise h1) fun _ => .ite (fun _ => .raise h1) fun _ => .modStrand h1 fun _ h => .returnFrom h
  case halt => exact .issue hs fun _ h1 => .ite (fun _ => .modStrand (.retire h1)) fun _ => .raise h1
  case yield => exact .issue hs fun _ h1 => .ite (fun _ => .modStrand (.retire h1)) fun _ => .retire h1
  case csrr =>
    exact .issue hs fun _ h1 => .ite (fun _ => .raise h1) fun _ => .ite (fun _ => .raise h1) fun _ => .dstBound h1 fun _ h2 => .retire (.csrRead h2)
  case csrw => exact .execCsrw hs
  case tlbi =>
    exact .issue hs fun _ h1 => .ite (fun _ => .raise h1) fun _ => .src2 h1 fun _ _ _ h2 => .ite (fun _ => .raise h1) fun _ => .ite (fun _ =>
      .raise h1) fun _ => .ite (fun _ => .retire h2) fun _ => .waitOn h2
  case vadd | vsub | vmul | vmin | vmax => exact .fp2 hs
  case vfma | vfms => exact .fp3 hs
  case vabs | vneg => exact .fp1 hs
  case vcmpeq | vcmplt | vcmple | vcmpun => exact .fpCmp hs
  case vrsum => exact .issue hs fun _ h1 => .ops1 h1 fun _ _ h2 => .retireLanes h2
  case viadd | visub | vimul | vimin | vimax | viminu | vimaxu | vand | vor | vxor | vshl | vshr | vsar => exact .int2 hs
  case vicmpeq | vicmplt | vicmpltu => exact .intCmp hs
  case cvt => exact .issue hs fun _ h1 => .ops1 h1 fun _ _ h2 => .retire (.oldValue h2)
  case vshuf | vsel | vzipl | vziph => exact .move2 hs
  case vsplat | vext | vrot => exact .move1 hs
  case vins => exact .issue hs fun _ h1 => .src h1 fun _ _ h2 => .retireLanes h2
  case frcp | frsq | fsqrt | fexp2 | flog2 | fsin | fcos | ftanh | fsigm => exact .sfuIssue hs
  case fdiv => exact .issue hs fun _ h1 => .coreOnly h1 fun _ h2 => .ops2 h2 fun _ _ _ h3 => .sfuPost h3 h2
  case ld => exact .issue hs fun _ h1 => .dstBound h1 fun _ h2 => .plainIssue h2 h2 fun _ _ h3 => .loadHere h3 h2
  case st => exact .issue hs fun _ h1 => .src h1 fun _ _ h2 => .plainIssue h2 h1 fun _ _ h3 => .storeHere h3
  case ldx => exact .issue hs fun _ h1 => .dstBound h1 fun _ h2 => .syncIssue h2 h2
  case stx => exact .issue hs fun _ h1 => .src h1 fun _ _ h2 => .syncIssue h2 h1
  case aadd | aand | aor | axor | amin | amax | aminu | amaxu | aswp | acas | afadd | ldo | sto => exact .atomicIssue hs
  case fenceAcq => exact .issue hs fun _ h1 => .ite (fun _ => .waitOn (.acquireFence h1)) fun _ => .retire h1
  case fenceRel | fenceAr => exact .issue hs fun _ h1 => .ite (fun _ => .waitOn h1) fun _ => .retire h1
  case fenceSc => exact .issue hs fun _ h1 => .ite (fun _ => .waitOn h1) fun _ => .waitOn (.scFence h1)
  case tdef =>
    exact .tileOp hs fun _ _ h1 => .src h1 fun _ _ h2 => .ite (fun _ => .raise h1) fun _ => .ite (fun _ => .raise h1) fun _ => .ite (fun _ =>
      .raise h1) fun _ => .ite (fun _ => .raise h1) fun _ => .retire h2
  case trd => exact .execTrd hs
  case trdMc => exact .execTrdMc hs
  case twr => exact .execTwr hs
  case trel => exact .tileOp hs fun _ _ h1 => .retire (.setTile (.applyTile h1))
  case tstat => exact .tileOp hs fun _ _ h1 => .dstBound h1 fun _ h2 => .retire (.applyTile h2)
  case sbindIn =>
    exact .issue hs fun _ h1 => .src h1 fun _ _ h2 => .ite (fun _ => .raise h1) fun _ => .ite (fun _ => .raise h1) fun _ => .ite (fun _ =>
      .raise h1) fun _ => .ite (fun _ => .raise h1) fun _ => .retire (.modStrand h2)
  case sbindOut =>
    exact .issue hs fun _ h1 => .src h1 fun _ _ h2 => .ite (fun _ => .raise h1) fun _ => .ite (fun _ => .raise h1) fun _ => .retire (.modStrand h2)
  case qwait => exact .execQwait hs
  case seos =>
    exact .issue hs fun _ h1 => .ite (fun _ => .raise h1) fun _ => .ite (fun _ => .raise h1) fun _ => .waitOn (.modStrand (.ite (fun _ =>
      h1) (fun _ => h1)))
  case sclose => exact .execSclose hs
  case dlv =>
    exact .issue hs fun _ h1 => .src2 h1 fun _ _ _ h2 => .ite (fun _ => .raise h1) fun _ => .ite (fun _ => .addMsg (.retire h2)) fun _ =>
      .rest (.meteredLink (.setFifo (.retire h2)))
  case mdlv => exact .issue hs fun _ h1 => .src2 h1 fun _ _ _ h2 => .ite (fun _ => .raise h1) fun _ => .ite (fun _ => .retire h2) fun _ => .waitOn h2
  case waitp => exact .execWaitp hs
  case clrp => exact .issue hs fun _ h1 => .retire (.modStrand h1)
  case mbx => exact .execMbx hs
  case mbr => exact .execMbr hs
  case mwait => exact .execMwait hs
  case cnti | cntd => exact .hedIssue hs fun _ _ _ h1 => .enterToken h1
  case cbar => exact .hedIssue hs fun _ _ _ h1 => .ite (fun _ => .waitOn h1) fun _ => .enterToken h1
  case cwait => exact .execCwait hs
  case cqry => exact .hedIssue hs fun _ _ _ h1 => .waitOn h1
  case spawnBound | spawnFollow | spawnPos => exact .spawnIssue hs
  case spawnShuttle => exact .execSpawnShuttle hs
  case reap => exact .execReap hs
  case stop => exact .issue hs fun _ h1 => .src h1 fun _ _ h2 => .stopStrand h2
  case migr =>
    exact .issue hs fun _ h1 => .src h1 fun _ _ h2 => .ite (fun _ => .raise h1) fun _ => .ite (fun _ => .raise h1) fun _ => .ite (fun _ =>
      .raise h1) fun _ => .ite (fun _ => .raise h1) fun _ => .ite (fun _ => .raise h1) fun _ => .ite (fun _ => .retire h2) fun _ =>
        .modStrand (.retire h2)
  case widf => exact .issue hs fun _ h1 => .ops1 h1 fun _ _ h2 => .retire h2
  case posr => exact .execPosr hs
  case nbrFirst => exact .execNbrFirst hs
  case nbrNext => exact .execNbrNext hs
  case settle => exact .execSettle hs
  case fmap => exact .execFmap hs
  case forkSeq => exact .execForkSeq hs
  case forkLoad | forkStore | forkCopy => exact .forkIssue hs
  case rdv => exact .execRdv hs
  case job => exact .issue hs fun _ h1 => .ownCard h1 fun _ _ h2 => .postBy h2
  case mxcfg =>
    exact .issue hs fun _ h1 => .coreOnly h1 fun _ h2 => .ite (fun _ => .raise h2) fun _ => .ite (fun _ => .raise h2) fun _ =>
      .ownBlock h2 fun _ _ h3 => .ite (fun _ => .waitOn h3) fun _ => .ite (fun _ => .raise h3) fun _ => .ite (fun _ => .raise h3) fun _ =>
        .ite (fun _ => .raise h3) fun _ => .waitOn (.mergeMxf h3)
  case mxz => exact .mxIssue hs fun _ _ _ _ _ h1 => .mxZ h1
  case mxrun => exact .mxIssue hs fun _ _ _ _ _ h1 => .mxRun h1
  case mxprom => exact .mxIssue hs fun _ _ _ _ _ h1 => .mxProm h1
  case mxst => exact .mxIssue hs fun _ _ _ _ _ h1 => .mxSt h1
  case mxperm =>
    exact .issue hs fun _ h1 => .coreOnly h1 fun _ h2 => .loomCheck h2 fun _ h3 => .ite (fun _ => .raise h3) fun _ => .ite (fun _ =>
      .raise h3) fun _ => .ite (fun _ => .raise h3) fun _ => .ite (fun _ => .raise h3) fun _ => .ite (fun _ => .raise h3) fun _ => .ite (fun _ =>
        .raise h3) fun _ => .waitOn h3
  case semw => exact .execSemw hs
  case sems =>
    exact .issue hs fun _ h1 => .coreOnly h1 fun _ h2 => .ite (fun _ => .raise h2) fun _ => .ite (fun _ => .raise h2) fun _ => .retire (.semSignal h2)
  case asn =>
    exact .issue hs fun _ h1 => .coreOnly h1 fun _ h2 => .ite (fun _ => .raise h2) fun _ => .ite (fun _ => .raise h2) fun _ => .ite (fun _ =>
      .raise h2) fun _ => .ite (fun _ => .raise h2) fun _ => .ownBlock h2 fun _ _ h3 => .ite (fun _ => .raise h3) fun _ =>
        .retire (.bindHandle (.postCard h3))
  case imm | fmt => exact .next (.ite (fun _ => .raiseEarly hs) (fun _ => .modStrand hs))
  case hintBranchTarget | hintNoBorrow | hint => exact .hintStep hs
  case deferredTrap => exact .ifEnabled (.takeDeferred hs) hs
  case trapRecordWrite => exact .ifEnabled (.recordWrite hs) hs
  case xtrResume => exact .ifEnabled (.xtrResume hs) hs
  case xtrStop => exact .ifEnabled (.xtrStop hs) hs
  case dbgcResume => exact .ifEnabled (.some (.dbgcResume hs)) hs
  case svcq => exact .next (.retire (.svcPop hs))
  case svcdone => exact .next (.ite (fun _ => .svcDone hs) (fun _ => hs))
  case fefill | feempty => exact .ifEnabled (.some (.feControl hs)) hs
  case registerWrite => exact .ifEnabled (.some (.registerWrite hs)) hs
  case counterDescriptorWrite => exact .ifEnabled (.some (.descriptorWrite hs)) hs
  case xfrReplay => exact .ifEnabled (.xfrReplay hs) hs
  case xfrFail => exact .ifEnabled (.xfrFail hs) hs
  case missQueueEntry => exact .ifEnabled (.missQueueEntry hs) hs
  case walkTableRead => exact .ifEnabled (.walkTableRead hs) hs
  case walkEnd => exact .ifEnabled (.walkEnd hs) hs
  case faultRecordDeferredWrite => exact .ifEnabled (.faultDeferred hs) hs
  case tlbiComplete => exact .ifEnabled (.tlbiComplete hs) hs
  case writeBufferDrain => exact .ifEnabled (.bufferDrain hs) hs
  case linkWriteAck => exact .ifEnabled (.linkAck hs) hs
  case rdcExpiry => exact .ifEnabled (.rdcExpire hs) hs
  case homeAccess => exact .ifEnabled (.homeAccess hs) hs
  case deviceRelease => exact .execDeviceRelease hs
  case streamModeEnd => exact .ifEnabled (.streamModeEnd hs) hs
  case parkTableTimeout => exact .ifEnabled (.parkTimeout hs) hs
  case retryReissue => exact .ifEnabled (.retryReissue hs) hs
  case fillRead => exact .ifEnabled (.fillRead hs) hs
  case fillReadStep => exact .ifEnabled (.fillReadStep hs) hs
  case tileLanding => exact .ifEnabled (.tileLanding hs) hs
  case multicastStartAccept => exact .ifEnabled (.multicastAccept hs) hs
  case tileDrainStore => exact .ifEnabled (.tileDrainStore hs) hs
  case tileDrainReady => exact .ifEnabled (.tileDrainReady hs) hs
  case streamPush => exact .ifEnabled (.streamPush hs) hs
  case streamPushTimeout => exact .ifEnabled (.streamPushTimeout hs) hs
  case streamTimeout => exact .ifEnabled (.streamTimeout hs) hs
  case heddleStep => exact .ifEnabled (.heddleStep hs) hs
  case exitStep => exact .ifEnabled (.exitStep hs) hs
  case barrierTimeout => exact .ifEnabled (.barrierTimeout hs) hs
  case migrationDepart => exact .ifEnabled (.migrationDepart hs) hs
  case migrationLanding => exact .ifEnabled (.migrationLanding hs) hs
  case creelQuantumEnd => exact .ifEnabled (.creelQuantumEnd hs) hs
  case messageDelivery => exact .ifEnabled (.messageDelivery hs) hs
  case mdlvSlotDelivery => exact .ifEnabled (.mdlvSlot hs) hs
  case presenceWaitTimeout => exact .ifEnabled (.presenceTimeout hs) hs
  case mailboxCountTimeout => exact .ifEnabled (.mwaitTimeout hs) hs
  case sfuQueueHead => exact .ifEnabled (.sfuHead hs) hs
  case operationReply => exact .ifEnabled (.map (fun _ _ => .cameBack (.of_some (.operationReply hs) ‹_›))) hs
  case watchdogExpiry => exact .ifEnabled (.watchdog hs) hs
  case jobStart => exact .ifEnabled (.jobStart hs) hs
  case jobElement => exact .ifEnabled (.jobElement hs) hs
  case jobCompletion => exact .ifEnabled (.jobCompletion hs) hs
  case packetLanding => exact .ifEnabled (.packetLanding hs) hs
  case programStrandStart => exact .ifEnabled (.programStart hs) hs
  case sequencerStep => exact .ifEnabled (.sequencerStep hs) hs
  case mxuOpStart => exact .ifEnabled (.mxStart hs) hs
  case mxuOpComplete => exact .ifEnabled (.mxComplete hs) hs
  case operandMessage => exact .ifEnabled (.operandMessage hs) hs
  case scaleRequest => exact .ifEnabled (.scaleRequest hs) hs
  case operandTimeout => exact .ifEnabled (.operandTimeout hs) hs
  case scaleTimeout => exact .ifEnabled (.scaleTimeout hs) hs
  case asnStart => exact .ifEnabled (.asnStart hs) hs
  case asnRound => exact .ifEnabled (.asnRound hs) hs
  case transferWaitTimeout => exact .ifEnabled (.transferTimeout hs) hs
  case launch => exact .ifEnabled (.listLaunch hs) hs
  case waitfc => exact .ifEnabled (.listWaitfc hs) hs
  case sigfc => exact .ifEnabled (.listSigfc hs) hs
  case skipif => exact .ifEnabled (.listSkipif hs) hs
  case jump => exact .ifEnabled (.listJump hs) hs
  case call => exact .ifEnabled (.listCall hs) hs
  case ret => exact .ifEnabled (.listRet hs) hs
  case patch => exact .ifEnabled (.listPatch hs) hs
  case listJob => exact .ifEnabled (.listJob hs) hs
  case launchPacket => exact .ifEnabled (.launchPacket hs) hs
  case sliceExpiry => exact .ifEnabled (.sliceExpiry hs) hs
  case handOver => exact .ifEnabled (.handOver hs) hs
  case rangeLoaded => exact .ifEnabled (.rangeLoaded hs) hs
  case partitionReset => exact .ifEnabled (.partitionReset hs) hs
  case pf0Reset => exact .ifEnabled (.some (.pf0Reset hs)) hs
  case powerGood => exact .ifEnabled (.powerGood hs) hs
  case islandStart => exact .ifEnabled (.islandStart hs) hs
  case linkRetrain => exact .ifEnabled (.linkRetrain hs) hs
  case linkFailure => exact .ifEnabled (.linkFailure hs) hs
  case foreignRequest => exact .ifEnabled (.foreignRequest hs) hs
  case laneRecalibration => exact .ifEnabled (.laneRecal hs) hs
  case baySparing => exact .ifEnabled (.baySparing hs) hs
  case islandUpdate => exact .ifEnabled (.islandUpdate hs) hs
  case uncorrectableError => exact .ifEnabled (.uncorrectable hs) hs
  case getVersion | getCapabilities | getDigests | getCertificate | challenge | getMeasurements => exact .ifEnabled (.spdm hs) hs
  case negotiateAlgorithms => exact .ifEnabled (.negotiate hs) hs
  case meterIncrement => exact .ifEnabled (.meterIncrement hs) hs
  case meterSnapshot => exact .ifEnabled (.meterSnapshot hs) hs
  case illegalInstruction => exact .next (.raiseEarly hs)
  case budgetExhausted => exact .ifEnabled (.budgetExhausted hs) hs
  case thermalThrottleEvent => exact .ifEnabled (.thermal hs) hs
  case correctedError | flitRetry => exact .ifEnabled (.some hs) hs

/-- Every step of the machine keeps the invariants. -/
theorem OutKept.step (hs : s.Kept A B) : OutKept A B (step s) := by
  have h : PlanKept A B (s.nextChoice.2.plan s.nextChoice.1) := .plan (.nextChoice hs)
  unfold Machine.step
  dsimp only
  split
  · exact .next (.of_stay h ‹_›)
  · exact .exec (.of_event h ‹_›)
  · have hi := State.Kept.of_issue h ‹_›
    split
    · next e => exact .next (.settleTurn (OutKept.exec hi _ e))
    · exact .fault
    · exact .refused

end Kept

end Sys2Proof.Machine

namespace Sys2Proof

/-- Settles O57: one step keeps the invariants, asked for the memory's canonical form. -/
theorem memoryStaysCanonical : Obligations.MemoryStaysCanonical := by
  intro s s' h e
  have hs : s.Kept True False := ⟨fun _ => h, False.elim⟩
  exact (Machine.OutKept.step hs s' e).1 trivial

/-- Settles O58: one step keeps the invariants, asked for p0. -/
theorem p0StaysOne : Obligations.P0StaysOne := by
  intro s s' h e
  have hs : s.Kept False True := ⟨False.elim, fun _ => h⟩
  exact (Machine.OutKept.step hs s' e).2 trivial

end Sys2Proof

section
/-!
SUPPORT. O4. The offset of a ring's entry is a number without a bound, the value of a trap has 64 bits: a pop of a poisoned entry at an offset of 2^64
traps with the value 0 and consumes the marks at offset 0, where RingOperandStops has it consume those of the entry.
-/
namespace Sys2Proof.Machine

/-- A ring whose entries start at the scratchpad offset 2^64. -/
def wideRing : Ring := { Ring.init with st := .opened, pmask := 1, tail := 1, base := 2 ^ 60 }

/-- The first word of the entry at HEAD of that ring, as the model keys the marks of poison. -/
def wideWord : Nat := spadKey 0 0 (2 ^ 64) / 8

/-- Strand 1, in a lent turn, has that ring bound, and its entry at HEAD is poisoned. -/
def wideState : State :=
  { State.reset with
    cur := 1, lent := true, poison := [wideWord]
    strands := [(1, { Strand.init with place := .slot (coreOf 0 0) 2, irv := true })]
    tens := [(tenKey 0 0 0, { TenBay.init with loaded := true, rings := [(0, wideRing)] })] }

theorem wideState_poisoned : wideState.me.irv = true ∧ (wideState.ring (coreOf 0 0) 0 0) = wideRing ∧
    wideState.badAt 0 (.spad 0 0 (Claims.entryAt wideRing 0)) 16 = true := by decide +kernel

/-- The pop traps, and the entry's mark stays. -/
theorem wideState_mark_stays (k : W128 → State → State) : (wideState.src .qi k).poison = [wideWord] := by
  have hp : ∃ v t, wideState.popOne wideState.cur = .val v (some 0) t := ⟨_, _, rfl⟩
  obtain ⟨v, t, hp⟩ := hp
  rw [State.src_poisoned hp]
  decide +kernel

/-- With the entry's own marks consumed none is left. -/
theorem wideState_mark_eaten :
    ((wideState.eat 0 0 (.spad 0 0 (Claims.entryAt wideRing 0)) 16).raise 0x40 (.ofNat 64 (Claims.entryAt wideRing 0))).poison = [] := by
  decide +kernel

end Sys2Proof.Machine

namespace Sys2Proof
open Sys2Proof.Machine

/-- Refutes O4: at a ring base of 2^60 the poisoned entry lies at offset 2^64, which the trap's value of 64 bits does not hold, and the mark that the
pop consumes is not the entry's (`wideState_mark_stays`, `wideState_mark_eaten`). -/
theorem not_ringOperands : ¬ Obligations.RingOperands := by
  unfold Obligations.RingOperands Claims.RingOperandStops
  rintro ⟨-, h⟩
  obtain ⟨hirv, hring, hbad⟩ := wideState_poisoned
  have k : W128 → State → State := fun _ s => s
  obtain ⟨-, -, -, -, hfoul, -⟩ := h wideState (coreOf 0 0) wideRing k (fun _ => k) id rfl hring.symm
  have he := congrArg State.poison (hfoul hirv rfl (by decide) hbad)
  rw [wideState_mark_stays] at he
  exact absurd (he.trans wideState_mark_eaten) (List.cons_ne_nil _ _)

end Sys2Proof
end

section
/-!
SUPPORT. O51. Fields of a word by their arithmetic, saturating counts of a die, the marks of poison and the errors that have not been consumed, and the
counts of the hang watchdog across a change of throttling.
-/
namespace Sys2Proof.Machine

/-- Bit `j` of a field that stands `lo` bits up. -/
theorem getLsbD_field (k lo n j : Nat) (hj : j < 64) (hk : k < 2 ^ n) :
    (BitVec.ofNat 64 (k * 2 ^ lo)).getLsbD j = (decide (lo ≤ j) && decide (j < lo + n) && k.testBit (j - lo)) := by
  rw [BitVec.getLsbD_ofNat, Nat.testBit_mul_two_pow]
  by_cases h : lo ≤ j <;> by_cases h' : j < lo + n <;> simp [hj, h, h']
  exact Nat.testBit_lt_two_pow (Nat.lt_of_lt_of_le hk (Nat.pow_le_pow_right (by decide) (by omega)))

theorem getLsbD_mask (lo n j : Nat) (hj : j < 64) :
    (BitVec.ofNat 64 ((2 ^ n - 1) * 2 ^ lo)).getLsbD j = (decide (lo ≤ j) && decide (j < lo + n)) := by
  have hp := Nat.two_pow_pos n
  rw [getLsbD_field _ lo n j hj (by omega)]
  by_cases h : lo ≤ j <;> by_cases h' : j < lo + n <;> simp [h, h']
  omega

/-- A field taken by its mask. -/
theorem and_mask_eq_field (x : W64) (lo n : Nat) :
    x &&& .ofNat 64 ((2 ^ n - 1) * 2 ^ lo) = .ofNat 64 (x.toNat / 2 ^ lo % 2 ^ n * 2 ^ lo) := by
  apply BitVec.eq_of_getLsbD_eq
  intro j hj
  rw [BitVec.getLsbD_and, getLsbD_mask lo n j hj, getLsbD_field _ lo n j hj (Nat.mod_lt _ (Nat.two_pow_pos n)),
    Nat.testBit_mod_two_pow, Nat.testBit_div_two_pow]
  by_cases h : lo ≤ j <;> by_cases h' : j < lo + n <;> simp [h, h']
  rw [decide_eq_true (show j - lo < n by omega), Bool.true_and]
  rfl

/-- What lies outside a mask shares no bit with a field inside it. -/
theorem outside_and_field (x : W64) (lo n k : Nat) (hk : k < 2 ^ n) :
    (x &&& ~~~.ofNat 64 ((2 ^ n - 1) * 2 ^ lo)) &&& .ofNat 64 (k * 2 ^ lo) = 0 := by
  apply BitVec.eq_of_getLsbD_eq
  intro j hj
  rw [BitVec.getLsbD_and, BitVec.getLsbD_and, BitVec.getLsbD_not, getLsbD_mask lo n j hj, getLsbD_field k lo n j hj hk]
  by_cases h : lo ≤ j <;> by_cases h' : j < lo + n <;> simp [h, h']

/-- Replacing a field takes its value away and adds the new one. -/
theorem setBits_eq (x : W64) (hi lo v : Nat) : setBits x hi lo v =
    x - .ofNat 64 (bits x hi lo * 2 ^ lo) + .ofNat 64 (v % 2 ^ (hi - lo + 1) * 2 ^ lo) := by
  have hp := Nat.two_pow_pos (hi - lo + 1)
  have hadd (k : Nat) (hk : k < 2 ^ (hi - lo + 1)) := BitVec.add_eq_or_of_and_eq_zero _ _ (outside_and_field x lo (hi - lo + 1) k hk)
  have hsplit := hadd (bits x hi lo) (Nat.mod_lt _ hp)
  have hor : (x &&& ~~~.ofNat 64 ((2 ^ (hi - lo + 1) - 1) * 2 ^ lo)) ||| .ofNat 64 (bits x hi lo * 2 ^ lo) = x := by
    unfold bits
    rw [← and_mask_eq_field]
    ext i
    simp only [BitVec.getElem_or, BitVec.getElem_and, BitVec.getElem_not]
    cases x[i] <;> simp
  rw [hor] at hsplit
  have hnew : setBits x hi lo v = _ := (hadd (v % 2 ^ (hi - lo + 1)) (Nat.mod_lt _ hp)).symm
  rw [hnew]
  congr 1
  exact eq_sub_of_add_eq hsplit

/-- A saturating count of a die's RASLOG (R340). -/
theorem State.rasAdd_eq_counted (s : State) (d : Nat) {hi lo n : Nat} (hn : hi - lo + 1 = n) (hpos : 0 < n) : s.rasAdd d hi lo = Claims.counted s d lo n := by
  unfold State.rasAdd Claims.counted
  congr 1
  funext e
  have hp : 2 ^ 1 ≤ 2 ^ n := Nat.pow_le_pow_right (by decide) hpos
  have hlt : e.raslog.toNat / 2 ^ lo % 2 ^ n < 2 ^ n := Nat.mod_lt _ (Nat.two_pow_pos n)
  dsimp only
  congr 1
  rw [setBits_eq]
  unfold bits
  rw [hn]
  generalize e.raslog.toNat / 2 ^ lo % 2 ^ n = v at hlt ⊢
  split
  · next h =>
    have hm : (v + 1).min (2 ^ n - 1) % 2 ^ n = v := by
      rw [show (v + 1).min (2 ^ n - 1) = v by rw [h]; exact Nat.min_eq_right (by omega), Nat.mod_eq_of_lt hlt]
    rw [hm, BitVec.sub_add_cancel]
  · next h =>
    have hm : (v + 1).min (2 ^ n - 1) % 2 ^ n = v + 1 := by
      rw [show (v + 1).min (2 ^ n - 1) = v + 1 from Nat.min_eq_left (by omega), Nat.mod_eq_of_lt (by omega)]
    rw [hm, Nat.add_mul, Nat.one_mul, BitVec.ofNat_add, ← BitVec.add_assoc, BitVec.sub_add_cancel]

/- The marks of poison and the errors that have not been consumed. -/

theorem mem_setAdd {l : List Nat} {n w : Nat} : w ∈ setAdd l n ↔ w ∈ l ∨ w = n := by
  induction l with
  | nil => simp [setAdd]
  | cons k t ih =>
    rw [setAdd]
    split
    · next h => subst h; simp only [List.mem_cons]; tauto
    · split <;> simp only [List.mem_cons, ih] <;> tauto

theorem mem_foldl_setAdd {a l : List Nat} {w : Nat} : w ∈ a.foldl setAdd l ↔ w ∈ l ∨ w ∈ a := by
  induction a generalizing l with
  | nil => simp
  | cons n a ih => rw [List.foldl_cons, ih, mem_setAdd, List.mem_cons, or_assoc]

theorem mem_fromUp {a n w : Nat} : w ∈ fromUp a n ↔ a ≤ w ∧ w < a + n := by
  induction n generalizing a with
  | zero => simp [fromUp]
  | succ n ih => rw [fromUp, List.mem_cons, ih]; omega

/-- An error of a line is consumed: it is no longer listed, and its die counts one less (Table 17-3). -/
def State.errConsumed (s : State) (e : Nat × List Nat) : State :=
  ({ s with errs := Tbl.del s.errs e.1 }).modDie (e.1 / 2 ^ 29) (fun d =>
    { d with raslog := setBits d.raslog 47 40 (bits d.raslog 47 40 - 1) })

theorem State.errSeen_eq (s : State) (l : Loc) : s.errSeen l = (s.errs.filter (fun e => e.2.contains l.line)).foldl State.errConsumed s := rfl

/-- Consuming errors changes nothing but their list and the counts of the dies. -/
theorem State.foldl_errConsumed_frame (es : Tbl (List Nat)) (s : State) :
    es.foldl State.errConsumed s = { s with errs := (es.foldl State.errConsumed s).errs, dies := (es.foldl State.errConsumed s).dies } := by
  induction es generalizing s with
  | nil => rfl
  | cons e es ih => rw [List.foldl_cons, ih]; rfl

theorem State.mem_errs_foldl_errConsumed {es : Tbl (List Nat)} {s : State} {e : Nat × List Nat} :
    e ∈ (es.foldl State.errConsumed s).errs ↔ e ∈ s.errs ∧ ∀ f ∈ es, e.1 ≠ f.1 := by
  induction es generalizing s with
  | nil => simp
  | cons f es ih =>
    rw [List.foldl_cons, ih]
    simp only [State.errConsumed, State.modDie, Tbl.del_eq_filter, List.mem_filter, bne_iff_ne, List.forall_mem_cons, and_assoc]

/-- Taking one from a field that is not zero. -/
theorem setBits_pred {x : W64} {hi lo : Nat} (h : 0 < bits x hi lo) : setBits x hi lo (bits x hi lo - 1) = x - .ofNat 64 (2 ^ lo) := by
  have hlt : bits x hi lo < 2 ^ (hi - lo + 1) := Nat.mod_lt _ (Nat.two_pow_pos _)
  rw [setBits_eq, Nat.mod_eq_of_lt (by omega)]
  obtain ⟨v, hv⟩ : ∃ v, bits x hi lo = v + 1 := ⟨_, (Nat.succ_pred_eq_of_pos h).symm⟩
  rw [hv, Nat.add_sub_cancel, Nat.add_mul, Nat.one_mul, BitVec.ofNat_add]
  abel

theorem two_pow_le_of_bits {x : W64} {hi lo : Nat} (h : 0 < bits x hi lo) : 2 ^ lo ≤ x.toNat := by
  refine Nat.le_of_not_lt fun hlt => ?_
  rw [bits, Nat.div_eq_of_lt hlt, Nat.zero_mod] at h
  exact Nat.lt_irrefl 0 h

/-- A consumed error takes one from the count UNCONS, which is not zero. -/
theorem toNat_setBits_pred {x : W64} {hi lo : Nat} (hl : lo < 64) (h : 0 < bits x hi lo) :
    (setBits x hi lo (bits x hi lo - 1)).toNat = x.toNat - 2 ^ lo := by
  have h2 : (BitVec.ofNat 64 (2 ^ lo)).toNat = 2 ^ lo := by
    rw [BitVec.toNat_ofNat, Nat.mod_eq_of_lt (Nat.pow_lt_pow_right (by decide) hl)]
  rw [setBits_pred h, BitVec.toNat_sub_of_le, h2]
  rw [BitVec.le_def, h2]
  exact two_pow_le_of_bits h

theorem State.eat_vault (s : State) (d tag die bay o n k : Nat) (hk : k = vaultKey die bay o) : s.eat d tag (.vault die bay o) n =
    { (s.errSeen (.vault die bay o)).rdcDrop d (.vault die bay o) with
      poison := s.poison.filter (fun w => !(decide (k / 8 ≤ w) && decide (w < k / 8 + (k % 8 + n + 7) / 8))) } := by
  have hp : (s.errSeen (.vault die bay o)).poison = s.poison := by rw [State.errSeen_eq, State.foldl_errConsumed_frame]
  subst hk
  rw [← hp]
  rfl

/- The counts of the hang watchdog. -/

/-- Entries of a table replaced, each under its own number. -/
theorem Tbl.get_map {α : Type} {d : α} (t : Tbl α) (n : Nat) {g : Nat × α → Nat × α} (hk : ∀ e, (g e).1 = e.1) (hd : (g (n, d)).2 = d) :
    Tbl.get d (t.map g) n = (g (n, Tbl.get d t n)).2 := by
  induction t with
  | nil => exact hd.symm
  | cons e t ih =>
    obtain ⟨k, v⟩ := e
    rw [List.map_cons, Tbl.get, hk, Tbl.get]
    split
    · next h => subst h; rfl
    · exact ih

theorem State.strand_hangSettle (s : State) {p : Strand → Bool} (hp : p Strand.init = false) (x : Nat) : (s.hangSettle p).strand x =
    if p (s.strand x) then { s.strand x with hang := s.hangTotal x, hangAt := s.clock } else s.strand x := by
  refine (Tbl.get_map s.strands x ?_ ?_).trans ?_
  · intro e; dsimp only; split <;> rfl
  · simp [hp]
  · change (if p (s.strand x) = true then _ else _ : Nat × Strand).2 = _
    split <;> rfl

/-- Nothing is owned of the interval from now until now. -/
theorem State.ownedSpan_now (s : State) (x : Nat) : (s.ownedSpan x s.clock).2 - (s.ownedSpan x s.clock).1 = 0 := by
  unfold State.ownedSpan
  dsimp only
  split
  · have h1 (c : Nat) : s.clock - Nat.max s.clock c = 0 := Nat.sub_eq_zero_of_le (Nat.le_max_left ..)
    have h2 (c : Nat) : Nat.min s.clock c - s.clock = 0 := Nat.sub_eq_zero_of_le (Nat.min_le_left ..)
    repeat' split
    all_goals simp [h1, h2]
  · simp

/-- A count that has just been noted. -/
theorem State.hangTotal_noted {s : State} {x : Nat} (h : (s.strand x).hangAt = s.clock) : s.hangTotal x = (s.strand x).hang := by
  unfold State.hangTotal
  rw [h]
  simp [State.ownedSpan_now]

/-- A count rests on the strand, its slot's throttling, the island lists, the requests under way and the clock. -/
theorem State.hangTotal_congr {s t : State} {x : Nat} {u : UnitId} {n : Nat} (hx : t.strand x = s.strand x) (hp : (s.strand x).place = .slot u n)
    (hu : (t.unit u).throttled = (s.unit u).throttled) (hi : t.islands = s.islands) (hc : t.clock = s.clock) (hk : t.tokens = s.tokens) :
    t.hangTotal x = s.hangTotal x := by
  have hisl (k : Nat) : t.island k = s.island k := by unfold State.island; rw [hi]
  have hwait (w : Wait) : t.hangWait w = s.hangWait w := by unfold State.hangWait; rw [hk]
  have hw : t.hangWaits x = s.hangWaits x := by unfold State.hangWaits; simp only [hx, hp, hu, hwait]
  unfold State.hangTotal State.ownedSpan State.changeAt
  simp only [hx, hp, hw, hisl, hc]

theorem unitKey_inj {u v : UnitId} (hu : u.bay < 2048) (hv : v.bay < 2048) (h : unitKey u = unitKey v) : u = v := by
  obtain ⟨ud, ub, us⟩ := u
  obtain ⟨vd, vb, vs⟩ := v
  simp only [unitKey, bayNo] at *
  cases us <;> cases vs <;> simp [b2n] at h ⊢ <;> omega

theorem State.unit_modUnit_ne (s : State) {u v : UnitId} (f : CoreUnit → CoreUnit) (hu : u.bay < 2048) (hv : v.bay < 2048) (h : v ≠ u) :
    (s.modUnit u f).unit v = s.unit v := Tbl.get_set_ne _ _ _ (fun e => h (unitKey_inj hv hu e))

end Sys2Proof.Machine

namespace Sys2Proof
open Sys2Proof.Machine

namespace Machine

theorem laneRecalibration_waits {s : State} {die : Nat} {host : Bool} (h : ∃ e ∈ s.dies, e.2.laneOut = true ∨ e.2.hostLaneOut = true) :
    exec (.laneRecalibration die host true) s = .next s := by
  have ha : s.anyLaneOut = true := by simpa [State.anyLaneOut] using h
  change s.ifEnabled (s.laneRecal die host true) = _
  simp [State.laneRecal, ha, State.ifEnabled]

theorem laneRecalibration_out {s : State} {die : Nat} {host : Bool} (h : ∀ e ∈ s.dies, e.2.laneOut = false ∧ e.2.hostLaneOut = false) :
    exec (.laneRecalibration die host true) s = .next
      (Claims.counted (s.modDie die (fun d => if host then { d with hostLaneOut := true } else { d with laneOut := true })) die 12 8) := by
  have ha : s.anyLaneOut = false := by simpa [State.anyLaneOut] using h
  change s.ifEnabled (s.laneRecal die host true) = _
  simp only [State.laneRecal, ha, State.ifEnabled]
  rw [← State.rasAdd_eq_counted (hi := 19) _ _ rfl (by decide)]
  rfl

theorem laneRecalibration_back {s : State} {die : Nat} {host : Bool}
    (h : (if host then (s.die die).hostLaneOut else (s.die die).laneOut) = true) : exec (.laneRecalibration die host false) s = .next
      (s.modDie die (fun d => if host then { d with hostLaneOut := false } else { d with laneOut := false })) := by
  change s.ifEnabled (s.laneRecal die host false) = _
  simp [State.laneRecal, h, State.ifEnabled]

/-- An uncorrectable error of a line of the vault (R50). -/
theorem uncorrectableError_vault {s : State} {die bay line p : Nat} (hb : bay < 2048) (hl : line < 2 ^ 18) (hp : p = vaultKey die bay (128 * line) / 8) :
    ∃ t, exec (.uncorrectableError die bay line) s = .next t ∧ t.mem = s.mem ∧
      t.strands = s.strands ∧ t.poison = (fromUp p 16).foldl setAdd s.poison ∧
      t.errs = Tbl.set s.errs (p / 16) (setAdd (Tbl.get [] s.errs (p / 16)) (p / 16)) ∧
      t.dies = if (Tbl.find s.errs (p / 16)).isSome then s.dies else (Claims.counted s die 40 8).dies := by
  have hk : vaultKey die bay (128 * line) / 128 = p / 16 := by omega
  refine ⟨(s.uncorrectable die bay line).getD s, rfl, ?_⟩
  · have h1 : ¬ (2047 < bay ∨ 262144 < line) := by omega
    have h2 : line ≠ 262144 := by omega
    rw [State.uncorrectable, if_neg h1, if_neg h2]
    dsimp only
    rw [hk, ← hp, Option.getD_some]
    generalize (fromUp p 16).foldl setAdd s.poison = marks
    cases (Tbl.find s.errs (p / 16)).isSome
    · rw [if_neg Bool.false_ne_true, if_neg Bool.false_ne_true, State.rasAdd_eq_counted _ _ (n := 8) rfl (by decide)]
      exact ⟨rfl, rfl, rfl, rfl, rfl⟩
    · exact ⟨rfl, rfl, rfl, rfl, rfl⟩

theorem uncorrectableError_icache {s : State} {die bay : Nat} (hb : bay < 2048) :
    exec (.uncorrectableError die bay (2 ^ 18)) s = .next (Claims.counted s die 40 8) := by
  change s.ifEnabled (s.uncorrectable die bay (2 ^ 18)) = _
  rw [State.uncorrectable, if_neg (by omega), if_pos (by rfl), State.rasAdd_eq_counted _ _ (n := 8) rfl (by decide)]
  rfl

theorem uncorrectableError_beyond {s : State} {die bay line : Nat} (hl : 2 ^ 18 < line) : exec (.uncorrectableError die bay line) s = .next s := by
  change s.ifEnabled (s.uncorrectable die bay line) = _
  rw [State.uncorrectable, if_pos (Or.inr (show 262144 < line from hl))]
  rfl

/-- Reading a poisoned word of a vault consumes its mark, and the errors of its line (R50, Table 17-3). -/
theorem State.errs_eat_vault {s t : State} {d tag die bay o n k : Nat} (hk : k = vaultKey die bay o) (ht : t = s.eat d tag (.vault die bay o) n)
    (hn : (s.errs.map (·.1)).Nodup) (e : Nat × List Nat) : e ∈ t.errs ↔ e ∈ s.errs ∧ k / 128 ∉ e.2 := by
  subst ht hk
  rw [State.eat_vault _ _ _ _ _ _ _ _ rfl]
  change e ∈ (s.errSeen (.vault die bay o)).errs ↔ _
  rw [State.errSeen_eq, State.mem_errs_foldl_errConsumed]
  refine and_congr_right fun he => ?_
  simp only [List.mem_filter, List.contains_iff_mem, Loc.line, and_imp]
  constructor
  · exact fun h hc => h e he hc rfl
  · intro h f hf hc hef
    rw [List.inj_on_of_nodup_map hn he hf hef] at h
    exact h hc

theorem State.dies_eat_vault_none {s t : State} {d tag die bay o n k : Nat} (hk : k = vaultKey die bay o) (ht : t = s.eat d tag (.vault die bay o) n)
    (h : ∀ e ∈ s.errs, k / 128 ∉ e.2) : t.dies = s.dies := by
  subst ht hk
  rw [State.eat_vault _ _ _ _ _ _ _ _ rfl]
  change (s.errSeen (.vault die bay o)).dies = _
  rw [State.errSeen_eq, List.filter_eq_nil_iff.mpr]
  · rfl
  · simpa [Loc.line] using h

theorem State.dies_eat_vault_one {s t : State} {d tag die bay o n k h : Nat} {e : Nat × List Nat} (hk : k = vaultKey die bay o)
    (ht : t = s.eat d tag (.vault die bay o) n) (hf : s.errs.filter (fun e => e.2.contains (k / 128)) = [e]) (hh : h = e.1 / 2 ^ 29)
    (hpos : 0 < (s.die h).raslog.toNat / 2 ^ 40 % 2 ^ 8) : (t.die h).raslog.toNat = (s.die h).raslog.toNat - 2 ^ 40 := by
  subst ht hk hh
  rw [State.eat_vault _ _ _ _ _ _ _ _ rfl]
  change ((s.errSeen (.vault die bay o)).die (e.1 / 2 ^ 29)).raslog.toNat = _
  rw [State.errSeen_eq, Loc.line, hf]
  change ((State.errConsumed s e).die (e.1 / 2 ^ 29)).raslog.toNat = _
  rw [State.errConsumed, State.die_modDie]
  exact toNat_setBits_pred (by decide) hpos

/-- What consuming a poisoned word of a vault does (R50, R318). -/
theorem State.eat_vault_frame {s t : State} {d tag die bay o n k : Nat} (hn : 0 < n) (hk : k = vaultKey die bay o)
    (ht : t = s.eat d tag (.vault die bay o) n) :
    t.mem = s.mem ∧ t.strands = s.strands ∧ ∀ w, w ∈ t.poison ↔ w ∈ s.poison ∧ ¬ (k / 8 ≤ w ∧ w ≤ (k + n - 1) / 8) := by
  subst ht
  rw [State.eat_vault _ _ _ _ _ _ _ _ hk, State.errSeen_eq, State.foldl_errConsumed_frame]
  refine ⟨rfl, rfl, fun w => ?_⟩
  simp only [List.mem_filter, Bool.not_eq_true', Bool.and_eq_false_iff, decide_eq_false_iff_not]
  refine and_congr_right fun _ => ?_
  omega

theorem thermalThrottleEvent_same {s : State} {die bay : Nat} {begins : Bool} (h : (s.unit ⟨die, bay, false⟩).throttled = begins) :
    exec (.thermalThrottleEvent die bay begins) s = .next s := by
  change s.ifEnabled (s.thermal die bay begins) = _
  rw [State.thermal, if_pos (show (s.unit (coreOf die bay)).throttled = begins from h)]
  rfl

/-- The strands of a bay, whose counts are noted before its throttling changes. -/
def inBay (die bay : Nat) (t : Strand) : Bool := match t.place with | .slot u _ => u.die == die && u.bay == bay | _ => false

/-- Throttling of a bay's two units begins or ends, the counts of its strands noted. -/
def State.throttle (s : State) (die bay : Nat) (begins : Bool) : State :=
  ((s.hangSettle (inBay die bay)).modUnit (coreOf die bay) (fun c => { c with throttled := begins })).modUnit (spOf die bay)
    (fun c => { c with throttled := begins })

theorem thermalThrottleEvent_changes {s : State} {die bay : Nat} {begins : Bool} (h : (s.unit ⟨die, bay, false⟩).throttled ≠ begins) :
    exec (.thermalThrottleEvent die bay begins) s =
      .next (if begins then Claims.counted (s.throttle die bay begins) die 0 6 else s.throttle die bay begins) := by
  change s.ifEnabled (s.thermal die bay begins) = _
  rw [State.thermal, if_neg (show ¬ (s.unit (coreOf die bay)).throttled = begins from h), ← State.rasAdd_eq_counted (hi := 5) _ _ rfl (by decide)]
  rfl

theorem State.unit_throttle (s : State) {die bay : Nat} (begins sp : Bool) (hb : bay < 2048) :
    ((s.throttle die bay begins).unit ⟨die, bay, sp⟩).throttled = begins := by
  unfold State.throttle
  cases sp
  · rw [State.unit_modUnit_ne _ _ (by exact hb) (by exact hb) (by simp [spOf])]
    exact congrArg CoreUnit.throttled (State.unit_modUnit _ (coreOf die bay) _)
  · exact congrArg CoreUnit.throttled (State.unit_modUnit _ (spOf die bay) _)

/-- A strand's count and wait stand across a change of throttling. -/
theorem State.hangTotal_throttle (s : State) {die bay x n : Nat} {u : UnitId} (begins : Bool) (hb : bay < 2048)
    (hp : (s.strand x).place = .slot u n) (hu : u.bay < 2048) :
    (s.throttle die bay begins).hangTotal x = s.hangTotal x ∧ ((s.throttle die bay begins).strand x).wait = (s.strand x).wait := by
  have hx : (s.throttle die bay begins).strand x =
      if inBay die bay (s.strand x) then { s.strand x with hang := s.hangTotal x, hangAt := s.clock } else s.strand x :=
    State.strand_hangSettle s rfl x
  by_cases hin : inBay die bay (s.strand x) = true
  · rw [if_pos hin] at hx
    refine ⟨?_, by rw [hx]⟩
    rw [State.hangTotal_noted (by rw [hx]; rfl), hx]
  · rw [if_neg hin] at hx
    refine ⟨State.hangTotal_congr hx hp ?_ rfl rfl rfl, by rw [hx]⟩
    have hne (b : Bool) : u ≠ ⟨die, bay, b⟩ := by
      rintro rfl
      simp [inBay, hp] at hin
    have h1 := State.unit_modUnit_ne ((s.hangSettle (inBay die bay)).modUnit (coreOf die bay) (fun c => { c with throttled := begins }))
      (u := spOf die bay) (fun c => { c with throttled := begins }) hb hu (hne true)
    have h2 := State.unit_modUnit_ne (s.hangSettle (inBay die bay)) (u := coreOf die bay) (fun c => { c with throttled := begins }) hb hu (hne false)
    exact congrArg CoreUnit.throttled (h1.trans h2)

/-- Throttling keeps every count of the hang watchdog (R329, R340). -/
theorem thermalThrottleEvent_keeps {s : State} {die bay : Nat} {begins : Bool} (h : (s.unit ⟨die, bay, false⟩).throttled ≠ begins) (hb : bay < 2048) :
    ∃ t, exec (.thermalThrottleEvent die bay begins) s = .next t ∧ t.mem = s.mem ∧
      (t.unit ⟨die, bay, false⟩).throttled = begins ∧ (t.unit ⟨die, bay, true⟩).throttled = begins ∧
      (t.die die).raslog = (if begins then ((Claims.counted s die 0 6).die die).raslog else (s.die die).raslog) ∧
      ∀ x u n, (s.strand x).place = .slot u n → u.bay < 2048 → t.hangTotal x = s.hangTotal x ∧ (t.strand x).wait = (s.strand x).wait := by
  refine ⟨_, thermalThrottleEvent_changes h, ?_⟩
  cases begins
  · exact ⟨rfl, s.unit_throttle false false hb, s.unit_throttle false true hb, rfl, fun x u n => s.hangTotal_throttle false hb⟩
  · exact ⟨rfl, s.unit_throttle true false hb, s.unit_throttle true true hb, rfl, fun x u n => s.hangTotal_throttle true hb⟩

end Machine

/-- Settles O51, event by event: a saturating count is `Claims.counted` (`rasAdd_eq_counted`), consuming an error removes what lists its line
(`errs_eat_vault`), and a noted count is the same whatever the throttling (`hangTotal_throttle`). -/
theorem maintenanceAndErrors : Obligations.MaintenanceAndErrors := by
  intro s die bay line host begins
  refine ⟨?_, ?_, laneRecalibration_waits, laneRecalibration_out, laneRecalibration_back, ?_, uncorrectableError_icache,
    uncorrectableError_beyond, ?_, thermalThrottleEvent_same, thermalThrottleEvent_keeps⟩
  · rw [← State.rasAdd_eq_counted (hi := 63) _ _ rfl (by decide)]; rfl
  · rw [← State.rasAdd_eq_counted (hi := 31) _ _ rfl (by decide)]; rfl
  · intro hb hl
    obtain ⟨t, ht, hmem, hstr, hpoi, herr, hdie⟩ := uncorrectableError_vault hb hl rfl
    refine ⟨t, _, ht, rfl, hmem, hstr, fun w => ?_, fun w => ?_, hdie⟩
    · rw [hpoi, mem_foldl_setAdd, mem_fromUp]
    · rw [herr]
      split
      · next h => rw [h, Tbl.find_set_same]
      · next h => exact Tbl.find_set_ne _ _ h
  · intro d tag o n k t hb ho hn hk ht
    obtain ⟨hmem, hstr, hpoi⟩ := State.eat_vault_frame hn hk ht
    exact ⟨hmem, hstr, hpoi, State.errs_eat_vault hk ht, State.dies_eat_vault_none hk ht, fun e h => State.dies_eat_vault_one hk ht⟩

end Sys2Proof
end

section
/-!
SUPPORT. The issue of an instruction and the reading of its operands, in the vocabulary of the statements.
-/
namespace Sys2Proof.Machine

theorem guardTrue_iff {s : State} {g : Guard} : guardTrue s.me g = true ↔ Claims.GuardOn s g := by
  have hp : predOf s.me.preds g.p.val = true ↔ Claims.pred s.me.preds g.p.val := by
    simp [predOf, Claims.pred, bit]
  unfold guardTrue Claims.GuardOn
  rw [← hp]
  cases predOf s.me.preds g.p.val <;> cases g.neg <;> simp

/-- An instruction that issues with no prefix pending and its guard true, in a slot that its role allows, does what its operation says. -/
theorem State.issue_of_issues {s : State} {i : Instr} {p : Pfx} {r : Role} {g : Guard} {body : State → State} (h : Claims.Issues s g)
    (hr : roleOk r (s.unitOf s.cur).sp (s.slotOf s.cur) = true) : s.issue i p r g body = .next (body s) :=
  State.issue_plain h.1 hr (guardTrue_iff.mpr h.2)

theorem State.issue_any_of_issues {s : State} {i : Instr} {p : Pfx} {g : Guard} {body : State → State} (h : Claims.Issues s g) :
    s.issue i p .any g body = .next (body s) := State.issue_of_issues h (by cases (s.unitOf s.cur).sp <;> rfl)

/-- A source that is read gives its value to what comes next. -/
theorem State.src_of_reads {s s' : State} {a : Src} {v : W128} (h : Claims.Reads s a v s') (k : W128 → State → State) : s.src a k = k v s' := by
  cases h with
  | reg i => rfl
  | zero => rfl
  | pop _ _ h => exact State.src_popped h k

theorem State.src2_of_reads2 {s s' : State} {a b : Src} {x y : W128} (h : Claims.Reads2 s a b x y s') (k : W128 → W128 → State → State) :
    s.src2 a b k = k x y s' := by
  obtain ⟨s1, ha, hb⟩ := h
  by_cases hq : a = .qi ∧ b = .qi
  · obtain ⟨rfl, rfl⟩ := hq
    cases ha with | pop _ _ ha => cases hb with | pop _ _ hb => exact State.src2_popped ha hb k
  · rw [State.src2_of_ne hq, State.src_of_reads ha, State.src_of_reads hb]

/-- Reading a source leaves the issuing strand, memory and every other strand. -/
theorem reads_frame {s s' : State} {a : Src} {v : W128} (h : Claims.Reads s a v s') :
    s'.mem = s.mem ∧ s'.cur = s.cur ∧ ∀ y, y ≠ s.cur → s'.strand y = s.strand y := by
  cases h with
  | reg i => exact ⟨rfl, rfl, fun _ _ => rfl⟩
  | zero => exact ⟨rfl, rfl, fun _ _ => rfl⟩
  | pop _ _ h => exact State.popOne_frame h

end Sys2Proof.Machine
end

section
/-!
SUPPORT. O44. FEFILL and FEEMPTY: the check of their range and the step of one word.
-/
namespace Sys2Proof.Machine

theorem mem_setDel {l : List Nat} {n w : Nat} : w ∈ setDel l n ↔ w ∈ l ∧ w ≠ n := by simp [setDel]

theorem State.mem_full_setFullBit {s : State} {full : Bool} {w v : Nat} :
    v ∈ (s.setFullBit full w).full ↔ if v = w then full = true else v ∈ s.full := by
  cases full
  · simp only [State.setFullBit, Bool.false_eq_true, if_false, mem_setDel]; split <;> simp_all
  · simp only [State.setFullBit, if_true, mem_setAdd]; split <;> simp_all

/-- The number of a word's full/empty bit is that of the place that holds it (R324). -/
theorem State.bitNo_eq_presence (s : State) (tag die bay i : Nat) :
    s.bitNo tag (.spad die bay (8 * i)) = Claims.presence s tag die bay i := by
  have ha : s.away tag die bay = true ↔ tag ≠ 31 ∧ (s.ten die bay tag).loaded = false := by simp [State.away]
  unfold State.bitNo Claims.presence Claims.wordNo
  simp only [State.keyOf, Option.getD_some, State.spadAt, ha]
  split <;> rfl

/-- The step of one word: it comes after the parked accesses that can go on (R41). -/
theorem messageDelivery_fe {s : State} {id tag die bay i k : Nat} {full : Bool} {y : Option Nat} (hm : Claims.Marking s id tag die bay full i k y) :
    exec (.messageDelivery id) s = s.ifEnabled (s.feStep id tag die bay full i k y) := by
  change s.ifEnabled (s.messageDelivery id) = _
  rw [State.messageDelivery, show Tbl.find s.msgs id = _ from hm]

theorem State.feStep_waits {s : State} {id tag die bay i k : Nat} {full : Bool} {y : Option Nat}
    (h : s.parkFirst ⟨die, bay, false⟩ (Claims.wordNo die bay (8 * i)) ≠ none) : s.feStep id tag die bay full i k y = none :=
  if_pos (Option.isSome_iff_ne_none.mpr h)

theorem State.feStep_marks {s : State} {id tag die bay i k : Nat} {full : Bool} {y : Option Nat}
    (h : s.parkFirst ⟨die, bay, false⟩ (Claims.wordNo die bay (8 * i)) = none) : ∃ t, s.feStep id tag die bay full i k y = some t ∧
      Claims.MarkedOne s (Claims.presence s tag die bay i) full t ∧ t = { s with full := t.full, msgs := t.msgs, strands := t.strands } ∧
      (1 < k → Claims.Marking t id tag die bay full (i + 1) (k - 1) y ∧ t.strands = s.strands) ∧
      (k ≤ 1 → Tbl.find t.msgs id = none ∧ (y = none → t.strands = s.strands) ∧
        ∀ z, y = some z → t.strand z = { s.strand z with wait := .reply Claims.noResult }) := by
  have hn : ¬ (s.parkFirst (coreOf die bay) (Loc.spad die bay (8 * i)).word).isSome = true := fun hs =>
    Option.isSome_iff_ne_none.mp hs h
  refine ⟨_, if_neg hn, ?_⟩
  rw [State.bitNo_eq_presence]
  by_cases hk : 1 < k
  · rw [if_pos hk]
    exact ⟨⟨rfl, rfl, fun v => State.mem_full_setFullBit⟩, rfl, fun _ => ⟨Tbl.find_set_same .., rfl⟩, fun h => absurd h (by omega)⟩
  · rw [if_neg hk]
    cases y with
    | none => exact ⟨⟨rfl, rfl, fun v => State.mem_full_setFullBit⟩, rfl, fun h => absurd h hk, fun _ => ⟨Tbl.find_del_same .., fun _ => rfl, nofun⟩⟩
    | some z =>
      refine ⟨⟨rfl, rfl, fun v => State.mem_full_setFullBit⟩, rfl, fun h => absurd h hk, fun _ => ⟨Tbl.find_del_same .., nofun, ?_⟩⟩
      rintro _ ⟨⟩
      exact State.strand_answer ..

/-- The fields of a range that is inside the scratchpad. -/
theorem feRange_fields {v : W64} {off n : Nat} (h : Claims.FeRange v off n) :
    bits v 17 3 * 8 = off ∧ bits v 17 3 = off / 8 ∧ bits v 32 18 + 1 = n ∧ bits v 63 33 = 0 ∧ bits v 2 0 = 0 ∧ off + 8 * n ≤ 262144 := by
  obtain ⟨hv, h8, ho, h1, hn, hs⟩ := h
  unfold bits
  rw [hv]
  norm_num at *
  omega

/-- A word without reserved bits whose range stays inside the scratchpad. -/
theorem feRange_of_fields {v : W64} (h1 : bits v 63 33 = 0) (h2 : bits v 2 0 = 0) (h3 : bits v 17 3 * 8 + 8 * (bits v 32 18 + 1) ≤ 262144) :
    Claims.FeRange v (bits v 17 3 * 8) (bits v 32 18 + 1) := by
  have hv := v.isLt
  unfold bits at *
  norm_num [Claims.FeRange] at *
  omega

theorem State.feCheck_inside {s : State} {tag die bay off n : Nat} {v : W64} (h : Claims.FeRange v off n) :
    s.feCheck tag die bay v = if inPart (s.spadPart tag die bay) off (8 * n) then none else some 0x0C := by
  obtain ⟨ho, -, hn, h1, h2, hs⟩ := feRange_fields h
  have hi : ¬ (262144 < off + 8 * n) := by omega
  simp only [State.feCheck, ho, hn, h1, h2, hi]
  cases inPart (s.spadPart tag die bay) off (8 * n) <;> rfl

theorem State.feCheck_outside {s : State} {tag die bay : Nat} {v : W64} (h : ∀ o k, ¬ Claims.FeRange v o k) : s.feCheck tag die bay v = some 0x01 := by
  refine if_pos ?_
  by_contra hc
  simp only [Bool.or_eq_true, bne_iff_ne, decide_eq_true_eq, not_or, not_not, Nat.not_lt] at hc
  obtain ⟨⟨h1, h2⟩, h3⟩ := hc
  exact h _ _ (feRange_of_fields h1 h2 h3)

/-- By control space, firmware's word is checked against the whole scratchpad. -/
theorem State.feControl_inside {s : State} {die bay off n : Nat} {v : W64} (full : Bool) (h : Claims.FeRange v off n) :
    s.feControl die bay full v = s.addMsg (.fe 31 die bay full (off / 8) n none) := by
  obtain ⟨ho, ho8, hn, -, -, hs⟩ := feRange_fields h
  have hp : s.spadPart 31 die bay = (0, 0x40000) := by simp [State.spadPart]
  have hi : inPart (0, 0x40000) off (8 * n) = true := by simp [inPart]; omega
  have hc : s.feCheck 31 die bay v = none := by rw [State.feCheck_inside h, hp, hi]; rfl
  rw [State.feControl, hc, State.feRange, ho8, hn]

theorem State.feControl_outside {s : State} {die bay : Nat} {v : W64} (full : Bool) (h : ∀ o k, ¬ Claims.FeRange v o k) :
    s.feControl die bay full v = s.emit (.refused 0x01 v) := by
  rw [State.feControl, State.feCheck_outside h]

/-- CSRW of FEFILL (0x040) and FEEMPTY (0x041) on a compute core, once its source is read. -/
theorem csrw_fe {s s' : State} {a : Src} {x : W128} {g : Guard} {csr : BitVec 10} (hc : csr = 0x040 ∨ csr = 0x041) (hi : Claims.Issues s g)
    (hr : Claims.Reads s a x s') (hsp : ¬ Claims.OnSpindle s) : exec (.csrw csr a g) s = .next (
      match s.feCheck s.me.tag (Claims.here s).die (Claims.here s).bay (lo64 x) with
      | some c => s.raise c (if c = 1 then wordOf (.csrw csr a g) else .ofNat 64 (bits (lo64 x) 17 3 * 8))
      | none => (s'.waitOn s.cur .fe).feRange s.me.tag (Claims.here s).die (Claims.here s).bay (csr == 0x040) (lo64 x) (some s.cur)) := by
  have hsp : (s.unitOf s.cur).sp = false := by simpa [Claims.OnSpindle] using hsp
  change execCsrw csr a g s = _
  rw [execCsrw, State.issue_any_of_issues hi]
  congr 1
  rcases hc with rfl | rfl
  · dsimp only
    generalize (s.slotOf s.cur == some 0) = first
    rw [hsp, if_neg (by decide), if_neg (by cases first <;> decide), State.src_of_reads hr]
    rfl
  · dsimp only
    generalize (s.slotOf s.cur == some 0) = first
    rw [hsp, if_neg (by decide), if_neg (by cases first <;> decide), State.src_of_reads hr]
    rfl

end Sys2Proof.Machine

namespace Sys2Proof
open Sys2Proof.Machine

/-- Settles O44: a word's step by `feStep_marks`, and the beginning of a range by its check (`feCheck_inside`, `feCheck_outside`). -/
theorem fullEmptyRange : Obligations.FullEmptyRange := by
  intro s s' die bay off n v x a g
  refine ⟨fun id tag full i k y w hm hw => ?_, fun hr => ?_, fun hr => ?_⟩
  · rw [messageDelivery_fe hm]
    refine ⟨fun h => by rw [State.feStep_waits h]; rfl, fun h => ?_⟩
    obtain ⟨t, ht, rest⟩ := State.feStep_marks (id := id) (tag := tag) (full := full) (k := k) (y := y) h
    exact ⟨t, by rw [ht]; rfl, hw ▸ rest⟩
  · refine ⟨⟨congrArg _ (State.feControl_inside true hr), congrArg _ (State.feControl_inside false hr)⟩, fun hi ha hcur hv hsp hu => ?_⟩
    obtain ⟨ho, ho8, hn, -, -, -⟩ := feRange_fields hr
    have h0 := csrw_fe (csr := 0x040) (.inl rfl) hi ha hsp
    have h1 := csrw_fe (csr := 0x041) (.inr rfl) hi ha hsp
    rw [hv, hu, State.feCheck_inside hr] at h0 h1
    refine ⟨fun hin => ?_, fun hin => ?_⟩
    · rw [if_pos hin] at h0 h1
      rw [State.feRange, ho8, hn] at h0 h1
      exact ⟨h0, h1⟩
    · rw [hin, if_neg Bool.false_ne_true] at h0 h1
      rw [ho] at h0 h1
      exact ⟨h0, h1⟩
  · refine ⟨congrArg _ (State.feControl_outside true hr), fun hi ha hv hsp => ?_⟩
    have h0 := csrw_fe (csr := 0x040) (.inl rfl) hi ha hsp
    have h1 := csrw_fe (csr := 0x041) (.inr rfl) hi ha hsp
    rw [hv, State.feCheck_outside hr] at h0 h1
    exact ⟨h0, h1⟩

end Sys2Proof
end

section
/-!
SUPPORT. O33. What OPERATION_REPLY does with each wait of a strand that holds its slot.
-/
namespace Sys2Proof.Machine

/-- A number set twice holds what was set last. -/
@[simp] theorem Tbl.set_set {α : Type} (t : Tbl α) (n : Nat) (v w : α) : Tbl.set (Tbl.set t n v) n w = Tbl.set t n w := by
  induction t with
  | nil => simp [Tbl.set]
  | cons e t ih =>
    obtain ⟨k, u⟩ := e
    simp only [Tbl.set]
    split
    · simp [Tbl.set]
    · split
      · simp [Tbl.set]
      · next h1 h2 => simp [Tbl.set, h1, h2, ih]

theorem State.setStrand_setStrand (s : State) (x : Nat) (v w : Strand) : (s.setStrand x v).setStrand x w = s.setStrand x w := by
  simp [State.setStrand]

theorem State.modStrand_modStrand (s : State) (x : Nat) (f g : Strand → Strand) : (s.modStrand x f).modStrand x g = s.modStrand x (g ∘ f) := by
  rw [State.modStrand, State.strand_modStrand, State.modStrand, State.setStrand_setStrand]
  rfl

theorem endStep_eq_ended (r : Ring) : endStep r = Claims.ended r := by
  unfold endStep Claims.ended
  split <;> rfl

/-- A strand that holds its slot is in a slot. -/
theorem State.present_slot {s : State} {x : Nat} (h : s.present x = true) : ∃ u n, (s.strand x).place = .slot u n := by
  unfold State.present at h
  dsimp only at h
  split at h
  · next u n hp => exact ⟨u, n, hp⟩
  · exact absurd h Bool.false_ne_true

/-- Acquiring with stamps changes nothing but the copies of the die's RDC. -/
theorem State.applyStamp_frame (s : State) (o : OrderState) (d : Nat) (sc : Scope) (v : V4) :
    (s.applyStamp o d sc v).2 = { s with rdc := (s.applyStamp o d sc v).2.rdc } := by
  unfold State.applyStamp; split <;> rfl

theorem State.applyStamps_frame (vs : List V4) (s : State) (o : OrderState) (d : Nat) :
    (s.applyStamps o d vs).2 = { s with rdc := (s.applyStamps o d vs).2.rdc } := by
  induction vs generalizing s o with
  | nil => rfl
  | cons v vs ih =>
    have h : s.applyStamps o d (v :: vs) = (s.applyStamp o d .dev v).2.applyStamps (s.applyStamp o d .dev v).1 d vs := rfl
    rw [h, ih, State.applyStamp_frame]

theorem State.strandApply_frame (s : State) (x : Nat) (vs : List V4) : ∃ o, (s.strandApply x vs).strand x = { s.strand x with ord := o } ∧
    (s.strandApply x vs).mem = s.mem ∧ (s.strandApply x vs).clock = s.clock := by
  have hf := s.applyStamps_frame vs (s.strand x).ord (s.unitOf x).die
  unfold State.strandApply
  generalize s.applyStamps (s.strand x).ord (s.unitOf x).die vs = r at hf ⊢
  refine ⟨r.1, ?_, by rw [State.modStrand_mem, hf], by rw [State.modStrand_clock, hf]⟩
  rw [State.strand_modStrand, hf]
  rfl

/-- What a released phase does with the waiting strand (R116): only its order state and its phases change. -/
theorem State.applyPhases_frame (s : State) (x die inst n : Nat) : ∃ o ph, (s.applyPhases x die inst n).strand x =
    { s.strand x with ord := o, phases := ph } ∧ (s.applyPhases x die inst n).mem = s.mem ∧ (s.applyPhases x die inst n).clock = s.clock := by
  unfold State.applyPhases
  dsimp only
  split
  · obtain ⟨o, hx, hm, hc⟩ := s.strandApply_frame x
      ((List.filter (fun e => decide (Tbl.get 0 (s.strand x).phases (1024 * die + inst) ≤ e.1) && decide (e.1 < n)) (s.inst die inst).acc).map (·.2))
    exact ⟨o, _, by rw [State.strand_modStrand, hx], hm, hc⟩
  · exact ⟨(s.strand x).ord, _, by rw [State.strand_modStrand], rfl, rfl⟩

/-- The phases that have been released, from the last one back to half of the numbers (R116). -/
theorem Instance.released_none {i : Instance} {p : Nat} (hp : p < 2 ^ 32)
    (h : (i.lrp + 2 ^ 32 - p) % 2 ^ 32 = 0 ∨ 2 ^ 31 < (i.lrp + 2 ^ 32 - p) % 2 ^ 32) : i.released p = none := by
  rw [Instance.released, Nat.mod_eq_of_lt hp]
  exact if_neg (fun hc => by omega)

theorem Instance.released_some {i : Instance} {p : Nat} (hp : p < 2 ^ 32) (h1 : 1 ≤ (i.lrp + 2 ^ 32 - p) % 2 ^ 32)
    (h2 : (i.lrp + 2 ^ 32 - p) % 2 ^ 32 ≤ 2 ^ 31) : ∃ n, i.released p = some n := by
  rw [Instance.released, Nat.mod_eq_of_lt hp]
  exact ⟨_, if_pos ⟨h1, h2⟩⟩

section
variable {s : State} {x : Nat}

/-- OPERATION_REPLY is what its operation gives, with the strand back in rotation from the next cycle on. -/
theorem operationReply_of_some {t : State} (h : s.operationReply x = some t) : exec (.operationReply x) s = .next (t.cameBack x) := by
  change s.ifEnabled ((s.operationReply x).map (·.cameBack x)) = _
  rw [h]
  rfl

theorem operationReply_of_none (h : s.operationReply x = none) : exec (.operationReply x) s = .next s := by
  change s.ifEnabled ((s.operationReply x).map (·.cameBack x)) = _
  rw [h]
  rfl

theorem State.cameBack_toReady (s : State) (x : Nat) : (s.toReady x).cameBack x =
    s.setStrand x { s.strand x with status := .ready, wait := .none, back := s.clock + 1 } := State.modStrand_modStrand ..

/-- A reply for a register or wz retires the instruction. -/
theorem State.retireOf_reply (hp : s.present x = true) {r : Reply} (hq : r.d ≠ .qo) (h23 : r.d = .w 23 → (s.strand x).kind ≠ .pos) :
    (s.retireOf x false r).creelTouch x = s.setStrand x (Claims.writtenBack (s.strand x) r) := by
  have hr : s.retireOf x false r = s.setStrand x (Claims.writtenBack (s.strand x) r) := by
    cases hd : r.d with
    | w i =>
      rw [writtenBack_of_w hd]
      by_cases hi : i = 23
      · subst hi; exact State.retireOf_w23 hd (h23 hd)
      · exact State.retireOf_w hd hi
    | wz => rw [writtenBack_of_wz hd]; exact State.retireOf_wz hd
    | qo => exact absurd hd hq
  obtain ⟨u, n, hu⟩ := State.present_slot hp
  rw [hr, State.creelTouch, State.strand_setStrand, show (Claims.writtenBack (s.strand x) r).place = .slot u n from hu]

/-- A ring with the entries that are waited for, or at its end. -/
theorem State.popReady_opened {k m : Nat} {r : Ring} (hr : r = s.ring (s.unitOf x) (s.strand x).tag k) (ho : r.st = .opened)
    (he : r.pmask &&& ~~~r.eos ≠ 0) : s.popReady x k m = decide (m ≤ (r.tail + 65536 - r.head) % 65536) := by
  have hs : endStep r = r := if_neg (fun h => he h.2.2)
  have hz : (r.pmask &&& ~~~r.eos == 0) = false := beq_eq_false_iff_ne.mpr he
  rw [State.popReady, ← hr, hs, ho, hz]
  exact Bool.or_false _

theorem State.popReady_ended {k m : Nat} {r : Ring} (hr : r = s.ring (s.unitOf x) (s.strand x).tag k) (he : (Claims.ended r).st = .ended) :
    s.popReady x k m = true := by
  rw [← endStep_eq_ended] at he
  simp [State.popReady, ← hr, he]

/- The kernel computes the numbers of `Instance.released` where it compares `State.cwaitTry` with its body, so that the definition is unfolded
before it is applied. -/
theorem State.cwaitTry_eq (s : State) (x die inst p : Nat) :
    s.cwaitTry x die inst p = ((s.inst die inst).released p).map (s.applyPhases x die inst) := by
  obtain ⟨F, hF⟩ : ∃ F, @State.cwaitTry = F := ⟨_, rfl⟩
  rw [hF]
  delta State.cwaitTry at hF
  subst hF
  beta_reduce
  cases (s.inst die inst).released p <;> rfl

/-- CWAIT goes on once its phase is released. -/
theorem State.cwait_goesOn {die inst p n : Nat} (hn : (s.inst die inst).released p = some n) : ∃ t, s.cwaitTry x die inst p = some t ∧
    (((t.doneOf x).cameBack x).strand x).status = .ready ∧ (((t.doneOf x).cameBack x).strand x).back = s.clock + 1 ∧
    (((t.doneOf x).cameBack x).strand x).pc = (s.strand x).pc + 4 ∧ (((t.doneOf x).cameBack x).strand x).regs = (s.strand x).regs ∧
    ((t.doneOf x).cameBack x).mem = s.mem := by
  refine ⟨s.applyPhases x die inst n, by rw [State.cwaitTry_eq, hn, Option.map_some], ?_⟩
  obtain ⟨o, ph, hx, hm, hc⟩ := s.applyPhases_frame x die inst n
  generalize s.applyPhases x die inst n = t at hx hm hc ⊢
  have hst : ((t.doneOf x).cameBack x).strand x = { retired (t.strand x) nothing with back := t.clock + 1 } := by
    rw [State.cameBack, State.strand_modStrand, State.doneOf, State.retireReg]
    exact congrArg (fun v : Strand => { v with back := t.clock + 1 }) (State.strand_modStrand ..)
  rw [hst, hx, hc]
  exact ⟨rfl, rfl, rfl, rfl, hm⟩

variable (hp : s.present x = true) (hw : (s.strand x).status = .waiting)
include hp hw

/-- The wait of a present strand is tested. -/
theorem State.operationReply_guard : ¬ ((s.strand x).status != .waiting || !(s.present x || (s.strand x).wait.anywhere)) = true := by
  rw [hp, hw]; exact Bool.false_ne_true

theorem State.operationReply_reply {r : Reply} (h : (s.strand x).wait = .reply r) :
    s.operationReply x = some ((s.retireOf x false r).creelTouch x) := by
  rw [State.operationReply, if_neg (State.operationReply_guard hp hw), h]

theorem State.operationReply_tile {n : Nat} (h : (s.strand x).wait = .tile n) : s.operationReply x =
    (if (s.tile (s.strand x).tag (s.unitOf x).die (s.unitOf x).bay n).st == .empty || (s.tile (s.strand x).tag (s.unitOf x).die (s.unitOf x).bay n).st == .ready
      then some (s.toReady x) else none) := by
  rw [State.operationReply, if_neg (State.operationReply_guard hp hw), h]

theorem State.operationReply_pop {k m : Nat} (h : (s.strand x).wait = .pop k m) :
    s.operationReply x = if s.popReady x k m then some (s.toReady x) else none := by
  rw [State.operationReply, if_neg (State.operationReply_guard hp hw), h]

theorem State.operationReply_cwait {die inst p lim : Nat} (h : (s.strand x).wait = .cwait die inst p lim) :
    s.operationReply x = (s.cwaitTry x die inst p).map (·.doneOf x) := by
  rw [State.operationReply, if_neg (State.operationReply_guard hp hw), h]

theorem State.operationReply_held (h : (s.strand x).wait = .sfu ∨ (s.strand x).wait = .svc) : s.operationReply x = none := by
  rw [State.operationReply, if_neg (State.operationReply_guard hp hw)]
  rcases h with h | h <;> rw [h]

end

end Sys2Proof.Machine

namespace Sys2Proof
open Sys2Proof.Machine

/-- Settles O33, wait by wait. -/
theorem replyResult : Obligations.ReplyResult := by
  intro s x t ht hp hw
  subst ht
  refine ⟨fun r h hq h23 => ?_, fun n e h he => ⟨fun hf => ?_, fun hb => ?_⟩, fun k m r h hr ho hpm => ?_, fun k m r h hr he => ?_,
    fun die inst p lim i h hi hlt => ⟨fun hn => ?_, fun h1 h2 => ?_⟩, fun h => ?_⟩
  · rw [operationReply_of_some ((State.operationReply_reply hp hw h).trans (congrArg some (State.retireOf_reply hp hq h23))),
      State.cameBack, State.modStrand, State.strand_setStrand, State.setStrand_setStrand]
    rfl
  · rw [operationReply_of_some, State.cameBack_toReady]
    rw [State.operationReply_tile hp hw h, ← he]
    rcases hf with hf | hf <;> rw [hf] <;> rfl
  · rw [operationReply_of_none]
    rw [State.operationReply_tile hp hw h, ← he]
    rcases hb with hb | hb <;> rw [hb] <;> rfl
  · have hpop := State.operationReply_pop hp hw h
    rw [State.popReady_opened hr ho hpm] at hpop
    split
    · next hle =>
      rw [decide_eq_true hle] at hpop
      rw [operationReply_of_some hpop, State.cameBack_toReady]
    · next hle =>
      rw [decide_eq_false hle] at hpop
      exact operationReply_of_none hpop
  · have hpop := State.operationReply_pop hp hw h
    rw [State.popReady_ended hr he] at hpop
    rw [operationReply_of_some hpop, State.cameBack_toReady]
  · subst hi
    refine operationReply_of_none ?_
    rw [State.operationReply_cwait hp hw h, State.cwaitTry_eq, Instance.released_none hlt hn]
    rfl
  · subst hi
    obtain ⟨n, hn⟩ := Instance.released_some hlt h1 h2
    obtain ⟨t, htry, hrest⟩ := State.cwait_goesOn hn
    have hor := State.operationReply_cwait hp hw h
    rw [htry] at hor
    exact ⟨_, operationReply_of_some hor, hrest⟩
  · exact operationReply_of_none (State.operationReply_held hp hw h)

end Sys2Proof
end

section
/-!
SUPPORT. Retiring and trapping in the vocabulary of the statements, what a read operand leaves, and what saving a creel's packets leaves.
-/
namespace Sys2Proof.Machine

theorem writtenBack_nothing (t : Strand) : Claims.writtenBack t nothing = Claims.next t := by
  change { Claims.next t with sts := Claims.unprefixed t.sts ||| 0#64 } = _
  rw [BitVec.or_zero]
  rfl

/-- An instruction that retires with nothing to write. -/
theorem State.retire_nothing (s : State) : s.retire nothing = Claims.done s := by
  rw [State.retire_wz rfl]
  exact congrArg (Claims.upd s) (funext writtenBack_nothing)

theorem State.me_done (s : State) : (Claims.done s).me = Claims.next s.me := s.strand_setStrand s.cur _

theorem State.defer_eq_trapped (s : State) (x c : Nat) (v : W64) : s.defer x c v = Claims.trapped s x c v := rfl

theorem State.answer_eq_answered (s : State) (x : Nat) (r : Reply) : s.answer x r = Claims.answered s x r := rfl

theorem State.expired_iff {s : State} {x n : Nat} : s.expired x n = true ↔ Claims.WaitedOut s x n := by
  simp [State.expired, Claims.WaitedOut, and_assoc]

theorem State.popOne_serial {s t : State} {x : Nat} {v : W128} {b : Option W64} (h : s.popOne x = .val v b t) : t.serial = s.serial := by
  unfold State.popOne at h
  dsimp only at h
  split at h
  · cases h
  split at h
  · injection h with _ _ e
    subst e
    rfl
  split at h
  · cases h
  injection h with _ _ e
  rw [State.readTimes_frame] at e
  subst e
  rfl

theorem reads_serial {s s' : State} {a : Src} {v : W128} (h : Claims.Reads s a v s') : s'.serial = s.serial := by
  cases h with
  | reg i => rfl
  | zero => rfl
  | pop _ _ h => exact State.popOne_serial h

theorem reads2_serial {s s' : State} {a b : Src} {x y : W128} (h : Claims.Reads2 s a b x y s') : s'.serial = s.serial := by
  obtain ⟨s1, ha, hb⟩ := h
  rw [reads_serial hb, reads_serial ha]

/- Writing packets of a creel: the places of a creel are in a scratchpad or in the vaults, never in a register window (R130, R131). -/

theorem place_vault (plc die ofs rd : Nat) : ∃ d b o, place plc die ofs rd = .vault d b o := by
  unfold place
  dsimp only
  split
  · exact ⟨_, _, _, rfl⟩
  · split <;> exact ⟨_, _, _, rfl⟩

/-- A leaf of the page tables is a place of a vault or of another device. -/
theorem State.leafLoc_loc (s : State) (l : Nat) (e va : W64) (rd : Nat) :
    (∃ d b o, (s.leafLoc l e va rd).loc = .vault d b o) ∨ ∃ v a, (s.leafLoc l e va rd).loc = .foreign v a := by
  unfold State.leafLoc
  dsimp only
  split
  · exact .inl (place_vault ..)
  · exact .inr ⟨_, _, rfl⟩

theorem State.leafNow_leaf {s : State} {va : W64} {rd n : Nat} {w : Walk} {p : XLoc} (h : s.leafNow va rd w n = some p) :
    ∃ l e, p = s.leafLoc l e va rd := by
  induction n generalizing w with
  | zero => cases h
  | succ n ih =>
    rw [State.leafNow] at h
    split at h
    · injection h with h; exact ⟨_, _, h.symm⟩
    · cases h
    · exact ih h

theorem State.creelPlace_loc {s : State} {u : UnitId} {tag i j : Nat} {l : Loc} (h : s.creelPlace u tag i j = some l) :
    (∃ d b o, l = .vault d b o) ∨ (∃ d b o, l = .spad d b o) ∨ ∃ v a, l = .foreign v a := by
  unfold State.creelPlace at h
  dsimp only at h
  split at h
  · split at h
    · injection h with h; exact .inr (.inl ⟨_, _, _, h.symm⟩)
    · cases h
  · obtain ⟨p, hp, rfl⟩ := Option.map_eq_some_iff.mp h
    unfold State.placeNow at hp
    dsimp only at hp
    split at hp
    · obtain ⟨l, e, rfl⟩ := State.leafNow_leaf hp
      rcases s.leafLoc_loc l e _ u.die with ⟨d, b, o, hl⟩ | ⟨v, a, hl⟩
      · exact .inl ⟨d, b, o, hl⟩
      · exact .inr (.inr ⟨v, a, hl⟩)
    · cases hp

/-- Writing a line of a packet changes memory and its marks, the line's times and the partition's meters. -/
theorem State.creelStore_frame (s : State) (u : UnitId) (tag i j : Nat) (bs : List Byte) :
    s.creelStore u tag i j bs = { s with
      mem := (s.creelStore u tag i j bs).mem, poison := (s.creelStore u tag i j bs).poison, lines := (s.creelStore u tag i j bs).lines
      parts := (s.creelStore u tag i j bs).parts } := by
  unfold State.creelStore
  split
  · rfl
  · rfl
  · next l hf hl =>
    rcases State.creelPlace_loc hl with ⟨d, b, o, rfl⟩ | ⟨d, b, o, rfl⟩ | ⟨v, a, rfl⟩
    · rfl
    · rfl
    · exact absurd rfl (hf v a)

/-- A step that changes memory and its marks, the times of lines and the meters only. -/
def StoresOnly (s t : State) : Prop := t = { s with mem := t.mem, poison := t.poison, lines := t.lines, parts := t.parts }

theorem StoresOnly.refl (s : State) : StoresOnly s s := rfl

theorem StoresOnly.trans {s t u : State} (h1 : StoresOnly s t) (h2 : StoresOnly t u) : StoresOnly s u := by
  unfold StoresOnly at h1 h2 ⊢
  rw [h2, h1]

theorem StoresOnly.foldl {α : Type} {f : State → α → State} (hf : ∀ s a, StoresOnly s (f s a)) (l : List α) (s : State) :
    StoresOnly s (l.foldl f s) := by
  induction l generalizing s with
  | nil => exact .refl s
  | cons a l ih => exact (hf s a).trans (ih _)

/-- Saving a creel's packets. -/
theorem StoresOnly.creelSave (s : State) (u : UnitId) (tag : Nat) : StoresOnly s (s.creelSave u tag) :=
  .foldl (fun s _ => .foldl (fun s _ => s.creelStore_frame ..) _ s) _ s

theorem StoresOnly.creelTouch (s : State) (x : Nat) : StoresOnly s (s.creelTouch x) := by
  unfold State.creelTouch
  split
  · exact .creelSave ..
  · exact .refl s

theorem State.creelTouch_slot {s : State} {x n : Nat} {u : UnitId} (h : (s.strand x).place = .slot u n) : s.creelTouch x = s := by
  rw [State.creelTouch, h]

section
variable {s t : State} (h : StoresOnly s t)
include h

theorem StoresOnly.strands : t.strands = s.strands := by rw [h]
theorem StoresOnly.strand (x : Nat) : t.strand x = s.strand x := by rw [h]; rfl
theorem StoresOnly.msgs : t.msgs = s.msgs := by rw [h]
theorem StoresOnly.tens : t.tens = s.tens := by rw [h]
theorem StoresOnly.clock : t.clock = s.clock := by rw [h]

end

end Sys2Proof.Machine
end

section
/-!
SUPPORT. O27. Deliveries, multicast deliveries and the waits on presence bits.
-/
namespace Sys2Proof.Machine

theorem getLsbD_setBit {w : Nat} (x : BitVec w) (i k : Nat) (b : Bool) (hk : k < w) :
    (setBit x i b).getLsbD k = if k = i then b else x.getLsbD k := by
  have h2 : (BitVec.ofNat w (2 ^ i)).getLsbD k = decide (i = k) := by
    rw [BitVec.getLsbD_ofNat, Nat.testBit_two_pow, decide_eq_true hk, Bool.true_and]
  unfold setBit
  cases b
  · rw [if_neg Bool.false_ne_true, BitVec.getLsbD_and, BitVec.getLsbD_not, h2, decide_eq_true hk]
    by_cases h : k = i
    · simp [h]
    · simp [h, Ne.symm h]
  · rw [if_pos rfl, BitVec.getLsbD_or, h2]
    by_cases h : k = i
    · simp [h]
    · simp [h, Ne.symm h]

theorem refusesDelivery_iff {t : Strand} {reg : Nat} : refusesDelivery t reg = true ↔ t.kind = .pos ∧ reg = 23 := by
  simp [refusesDelivery]

/-- DLV once its sources are read (R239). -/
theorem dlv_read {s s' : State} {a b : Src} {n : Base} {g : Guard} {x v : W128} (hi : Claims.Issues s g) (hr : Claims.Reads2 s a b x v s')
    (hb : badName (lo64 x) = false) (hd : (unitField (lo64 x)).dev = s.dev.num) : exec (.dlv a b n g) s = .next (
      if (unitField (lo64 x)).u.die = s.myDie then
        (Claims.done s').addMsg (.deliver s.me.tag (lo64 x) n.val v s.cur s.myDie s'.me.ord.pts s'.me.ord.rs)
      else { (Claims.done s').setFifo s.myDie (.die (unitField (lo64 x)).u.die) (s'.fifo s.myDie (.die (unitField (lo64 x)).u.die) ++
            [BufEntry.mk s'.serial s.me.tag (.deliver (lo64 x) n.val v) s'.me.ord.rs none (.strand s.cur (lo64 x)) false])
          with serial := s'.serial + 1 }) := by
  change execDlv a b n g s = _
  rw [execDlv, State.issue_any_of_issues hi, State.src2_of_reads2 hr]
  dsimp only
  rw [hb, hd, State.retire_nothing]
  simp only [Bool.false_eq_true, if_false, if_true, decide_true, Bool.true_and, decide_eq_true_eq]
  rfl

/-- MDLV waits for its slots, each of which replies in a step of its own (R240). -/
theorem mdlv_read {s s' : State} {a b : Src} {n : Base} {g : Guard} {x v : W128} {mask : Nat} (hi : Claims.Issues s g)
    (hr : Claims.Reads2 s a b x v s') (hm : mask < 65536) (h8 : (lo64 x).getLsbD 36 = true → mask < 256) (h0 : mask ≠ 0)
    (hw : (lo64 x).toNat % 2 ^ 36 = mask * 2 ^ 16) :
    exec (.mdlv a b n g) s = .next (s'.waitOn s.cur (.mdlv (lo64 x) (unitField (lo64 x)) n.val v (maskSlots mask) false s'.serial)) := by
  have hb1 : bits (lo64 x) 35 32 = 0 := by unfold bits; norm_num at *; omega
  have hb2 : bits (lo64 x) 15 0 = 0 := by unfold bits; norm_num at *; omega
  have hb3 : bits (lo64 x) 31 16 = mask := by unfold bits; norm_num at *; omega
  have hc : (bit (lo64 x) 36 && decide (256 ≤ mask)) = false := by
    cases hbit : bit (lo64 x) 36
    · rfl
    · exact decide_eq_false (Nat.not_le_of_lt (h8 hbit))
  change execMdlv a b n g s = _
  rw [execMdlv, State.issue_any_of_issues hi, State.src2_of_reads2 hr]
  dsimp only
  rw [hb1, hb2, hb3, hc, reads2_serial hr, if_neg (by decide), if_neg h0]

theorem State.waitpLoad_strand (s : State) (x reg : Nat) : ∃ o, (s.waitpLoad x reg).strand x = { s.strand x with ord := o } ∧
    (s.waitpLoad x reg).mem = s.mem ∧ (s.waitpLoad x reg).cur = s.cur :=
  ⟨_, State.strand_modStrand .., rfl, rfl⟩

theorem waitp_present {s : State} {n : Base} {lim : BitVec 5} {g : Guard} (hi : Claims.Issues s g) (h : s.me.pres.getLsbD n.val = true) :
    ∃ t, exec (.waitp n lim g) s = .next t ∧ t.mem = s.mem ∧ t.me.regs = s.me.regs ∧ t.me.pres = s.me.pres ∧ t.me.pc = s.me.pc + 4 ∧
      t.me.status = .ready := by
  have htry : s.waitpTry s.cur n.val = some (s.waitpLoad s.cur n.val) := if_pos h
  refine ⟨(s.waitpLoad s.cur n.val).retire nothing, ?_, ?_⟩
  · change execWaitp n lim g s = _
    rw [execWaitp, State.issue_any_of_issues hi, htry]
  · obtain ⟨o, hx, hm, hc⟩ := s.waitpLoad_strand s.cur n.val
    have hme : ((s.waitpLoad s.cur n.val).retire nothing).me = Claims.next { s.me with ord := o } := by
      rw [State.retire_nothing, State.me_done]
      exact congrArg Claims.next hx
    rw [hme]
    refine ⟨?_, rfl, rfl, rfl, rfl⟩
    rw [State.retire_nothing]
    exact hm

theorem waitp_absent {s : State} {n : Base} {lim : BitVec 5} {g : Guard} (hi : Claims.Issues s g) (h : s.me.pres.getLsbD n.val = false) :
    exec (.waitp n lim g) s = .next (s.waitOn s.cur (.waitp n.val lim.toNat)) := by
  have htry : s.waitpTry s.cur n.val = none := if_neg (by rw [show bit (s.strand s.cur).pres n.val = false from h]; exact Bool.false_ne_true)
  change execWaitp n lim g s = _
  rw [execWaitp, State.issue_any_of_issues hi, htry]

theorem clrp_clears {s : State} {n : Base} {g : Guard} (hi : Claims.Issues s g) :
    exec (.clrp n g) s = .next (Claims.upd s (fun t => { Claims.next t with pres := setBit s.me.pres n.val false })) := by
  change execClrp n g s = _
  rw [execClrp, State.issue_any_of_issues hi, State.retire_nothing]
  congr 1
  exact State.modStrand_modStrand s s.cur _ Claims.next

/- The arrival of a message. -/

/-- The order step of an arrival at line `n` (R82): that of a store by strand `y`, where it is still on the die it sent from. -/
def State.arrivalTimes (s : State) (y die n at_ : Nat) (stamp : V4) : State :=
  let s2 := s.setLineNo n ⟨at_, at_, stamp⟩
  if s2.dieOf y = die then s2.modStrand y (fun q => { q with ord := { q.ord with pts := Nat.max q.ord.pts at_ } }) else s2

theorem State.arrivalTimes_frame (s : State) (y die n at_ : Nat) (stamp : V4) : (s.arrivalTimes y die n at_ stamp).mem = s.mem ∧
    (s.arrivalTimes y die n at_ stamp).msgs = s.msgs ∧ ∀ k, k ≠ y → (s.arrivalTimes y die n at_ stamp).strand k = s.strand k := by
  unfold State.arrivalTimes
  dsimp only
  split
  · exact ⟨rfl, rfl, fun k hk => State.strand_modStrand_ne _ _ hk⟩
  · exact ⟨rfl, rfl, fun k _ => rfl⟩

/-- A message arrives at the strand that carries the name, or is dropped and counted (R135). -/
theorem messageDelivery_deliver {s : State} {id tag reg y die pts : Nat} {name : W64} {w : W128} {st : V4}
    (hm : Tbl.find s.msgs id = some (.deliver tag name reg w y die pts st)) : exec (.messageDelivery id) s =
      .next (({ s with msgs := Tbl.del s.msgs id } : State).deliverName tag name reg w (fun t => t.arrivalTimes y die (deliverLine name reg)
        (Nat.max pts ((Tbl.get LineOrder.init s.lines (deliverLine name reg)).rts + 1)) st)) := by
  change s.ifEnabled (s.messageDelivery id) = _
  rw [State.messageDelivery, hm]
  rfl

theorem presented_of_lt {t : Strand} {reg : Nat} {v : W128} (h : reg < 24) :
    presented t reg v = { t with regs := t.regs.set reg v h, pres := setBit t.pres reg true } := dif_pos h

theorem State.deliverName_named {s : State} {tag reg k : Nat} {name : W64} {w : W128} {times : State → State} (hn : s.named tag name = some k)
    (hk : ¬ ((s.strand k).kind = .pos ∧ reg = 23)) :
    s.deliverName tag name reg w times = times ((s.modStrand k (fun t => presented t reg w)).creelTouch k) := by
  have hr : ¬ refusesDelivery (s.strand k) reg = true := fun h => hk (refusesDelivery_iff.mp h)
  unfold State.deliverName
  rw [hn]
  exact if_neg hr

theorem State.deliverName_dropped {s : State} {tag reg : Nat} {name : W64} {w : W128} {times : State → State}
    (h : s.named tag name = none ∨ ∃ k, s.named tag name = some k ∧ (s.strand k).kind = .pos ∧ reg = 23) :
    s.deliverName tag name reg w times = s.orphan (unitField name).u := by
  unfold State.deliverName
  rcases h with h | ⟨k, h, hk⟩
  · rw [h]
  · rw [h]
    exact if_pos (refusesDelivery_iff.mpr hk)

/- The slots of a multicast delivery. -/

section
variable {s : State} {y slot reg k upto : Nat} {va : W64} {to_ : UnitName} {w : W128} {left : List Nat} {neg : Bool}

theorem State.mdlvReplied_more (hl : ∃ j ∈ left, j ≠ slot) : s.mdlvReplied y va to_ reg w (left.filter (fun j => j != slot)) neg upto =
    s.setWait y (.mdlv va to_ reg w (left.filter (fun j => j != slot)) neg upto) := by
  obtain ⟨j, hj, hne⟩ := hl
  have he : (left.filter (fun j => j != slot)).isEmpty = false := by
    rw [List.isEmpty_eq_false_iff_exists_mem]
    exact ⟨j, List.mem_filter.mpr ⟨hj, bne_iff_ne.mpr hne⟩⟩
  rw [State.mdlvReplied, he]
  rfl

theorem State.mdlvReplied_last (hl : ∀ j ∈ left, j = slot) : s.mdlvReplied y va to_ reg w (left.filter (fun j => j != slot)) neg upto =
    if neg then s.defer y 0x25 va else s.answer y nothing := by
  have he : left.filter (fun j => j != slot) = [] := List.filter_eq_nil_iff.mpr fun j hj => by simp [hl j hj]
  rw [State.mdlvReplied, he]
  rfl

/-- A reply changes the sender's wait only. -/
theorem State.mdlvReplied_frame : (s.mdlvReplied y va to_ reg w left neg upto).mem = s.mem ∧
    (s.mdlvReplied y va to_ reg w left neg upto).units = s.units ∧ ((s.mdlvReplied y va to_ reg w left neg upto).strand y).ord = (s.strand y).ord ∧
    ∀ j, j ≠ y → (s.mdlvReplied y va to_ reg w left neg upto).strand j = s.strand j := by
  unfold State.mdlvReplied
  split
  · exact ⟨rfl, rfl, (congrArg Strand.ord (State.strand_modStrand ..)).trans rfl, fun j hj => State.strand_modStrand_ne _ _ hj⟩
  · split
    · exact ⟨rfl, rfl, (congrArg Strand.ord (State.strand_modStrand ..)).trans rfl, fun j hj => State.strand_modStrand_ne _ _ hj⟩
    · exact ⟨rfl, rfl, (congrArg Strand.ord (State.strand_modStrand ..)).trans rfl, fun j hj => State.strand_modStrand_ne _ _ hj⟩

/-- What the sender finds once all its slots have replied, or while others have not (R240). -/
theorem State.mdlvReplied_sender : ((∃ j ∈ left, j ≠ slot) → ((s.mdlvReplied y va to_ reg w (left.filter (fun j => j != slot)) neg upto).strand y).wait =
      .mdlv va to_ reg w (left.filter (fun j => j != slot)) neg upto) ∧
    ((∀ j ∈ left, j = slot) → neg = false →
      ((s.mdlvReplied y va to_ reg w (left.filter (fun j => j != slot)) neg upto).strand y).wait = .reply Claims.noResult) ∧
    ((∀ j ∈ left, j = slot) → neg = true →
      ((s.mdlvReplied y va to_ reg w (left.filter (fun j => j != slot)) neg upto).strand y).pend = some (0x25, va)) := by
  refine ⟨fun h => ?_, fun h hn => ?_, fun h hn => ?_⟩
  · rw [State.mdlvReplied_more h]
    exact congrArg Strand.wait (State.strand_modStrand ..)
  · rw [State.mdlvReplied_last h, hn, if_neg Bool.false_ne_true]
    exact congrArg Strand.wait (State.strand_modStrand ..)
  · rw [State.mdlvReplied_last h, hn, if_pos rfl]
    exact congrArg Strand.pend (State.strand_modStrand ..)

variable (hw : (s.strand y).wait = .mdlv va to_ reg w left neg upto) (hs : slot ∈ left) (hd : to_.dev = s.dev.num)
include hw hs hd

/-- A slot of this device replies by what stands in it (R240; log 107). -/
theorem mdlvSlotDelivery_local (hp : s.present y = true) : exec (.mdlvSlotDelivery y slot) s = s.ifEnabled (
    match s.inSlot to_.u (s.strand y).tag slot with
    | none => some (s.mdlvAbsent y va to_ reg w (left.filter (fun k => k != slot)) upto)
    | some k =>
      if (s.strand k).status = .stopped || refusesDelivery (s.strand k) reg then
        some (s.mdlvAbsent y va to_ reg w (left.filter (fun k => k != slot)) upto)
      else if bit (s.strand k).pres reg then none
      else
        let n := deliverLine (pack [(va.toNat / 2 ^ 36, 36), ((s.strand k).nslot, 32)]) reg
        let rts := (Tbl.get LineOrder.init s.lines n).rts
        if to_.u.die != s.dieOf y && !(s.fifo (s.dieOf y) (.die to_.u.die)).all (fun e => decide (upto ≤ e.serial)) then none
        else
          let at_ := if to_.u.die = s.dieOf y then Nat.max (s.strand y).ord.pts (rts + 1) else rts + 1
          let s1 := (s.modStrand k (fun k => presented k reg w)).setLineNo n ⟨at_, at_, (s.strand y).ord.rs⟩
          let s2 := if to_.u.die = s.dieOf y then s1.modStrand y (fun k => { k with ord := { k.ord with pts := at_ } })
            else s1.modDie (s.dieOf y) (fun e => { e with dd := e.dd.set to_.u.die (Nat.max (e.dd.get to_.u.die) at_) })
          some (s2.mdlvReplied y va to_ reg w (left.filter (fun k => k != slot)) neg upto)) := by
  have h1 : (!left.contains slot || !s.present y) = false := by rw [List.contains_iff_mem.mpr hs, hp]; rfl
  have h2 : (s.dev.num != s.dev.num) = false := bne_self_eq_false _
  change s.ifEnabled (s.mdlvSlot y slot) = _
  rw [State.mdlvSlot, hw]
  dsimp only
  rw [h1, hd, h2, Bool.and_false]
  rfl

theorem mdlvSlotDelivery_absent (hp : s.present y = true)
    (ha : ∀ k, s.inSlot to_.u (s.strand y).tag slot = some k → (s.strand k).status = .stopped ∨ (s.strand k).kind = .pos ∧ reg = 23) :
    exec (.mdlvSlotDelivery y slot) s =
      .next ((s.orphan to_.u).mdlvReplied y va to_ reg w (left.filter (fun k => k != slot)) true upto) := by
  rw [mdlvSlotDelivery_local hw hs hd hp]
  cases hk : s.inSlot to_.u (s.strand y).tag slot with
  | none => rfl
  | some k =>
    dsimp only
    rw [if_pos]
    · rfl
    · rw [Bool.or_eq_true, decide_eq_true_eq, refusesDelivery_iff]
      exact ha k hk

section
variable (hk : s.inSlot to_.u (s.strand y).tag slot = some k) (hst : (s.strand k).status ≠ .stopped)
  (hpos : ¬ ((s.strand k).kind = .pos ∧ reg = 23))
include hk hst hpos

theorem mdlvSlotDelivery_taken (hp : s.present y = true) (hb : (s.strand k).pres.getLsbD reg = true) :
    exec (.mdlvSlotDelivery y slot) s = .next s := by
  rw [mdlvSlotDelivery_local hw hs hd hp, hk]
  dsimp only
  rw [if_neg, if_pos (show bit (s.strand k).pres reg = true from hb)]
  · rfl
  · rw [Bool.or_eq_true, decide_eq_true_eq, refusesDelivery_iff]
    exact fun h => h.elim hst hpos

theorem mdlvSlotDelivery_buffered (hf : ∃ e ∈ s.fifo (s.dieOf y) (.die to_.u.die), to_.u.die ≠ s.dieOf y ∧ e.serial < upto) :
    exec (.mdlvSlotDelivery y slot) s = .next s := by
  cases hp : s.present y with
  | false =>
    change s.ifEnabled (s.mdlvSlot y slot) = _
    rw [State.mdlvSlot, hw]
    dsimp only
    rw [hp, if_pos (by simp)]
    rfl
  | true =>
    obtain ⟨e, he, hne, hlt⟩ := hf
    have hall : (s.fifo (s.dieOf y) (.die to_.u.die)).all (fun e => decide (upto ≤ e.serial)) = false := by
      rw [List.all_eq_false]
      exact ⟨e, he, by simpa using hlt⟩
    rw [mdlvSlotDelivery_local hw hs hd hp, hk]
    dsimp only
    rw [if_neg]
    · rw [hall, bne_iff_ne.mpr hne]
      split <;> rfl
    · rw [Bool.or_eq_true, decide_eq_true_eq, refusesDelivery_iff]
      exact fun h => h.elim hst hpos

/-- A slot whose presence bit is clear takes the delivery, once the sender's buffered stores toward it have drained. -/
theorem mdlvSlotDelivery_delivers (hp : s.present y = true) (hky : k ≠ y) (hb : (s.strand k).pres.getLsbD reg = false)
    (hf : ∀ e ∈ s.fifo (s.dieOf y) (.die to_.u.die), to_.u.die = s.dieOf y ∨ upto ≤ e.serial) :
    ∃ t : State, exec (.mdlvSlotDelivery y slot) s = .next (t.mdlvReplied y va to_ reg w (left.filter (fun k => k != slot)) neg upto) ∧
      t.strand k = presented (s.strand k) reg w ∧ (to_.u.die ≠ s.dieOf y → (t.strand y).ord = (s.strand y).ord) := by
  have hall : (to_.u.die != s.dieOf y && !(s.fifo (s.dieOf y) (.die to_.u.die)).all (fun e => decide (upto ≤ e.serial))) = false := by
    by_cases hd : to_.u.die = s.dieOf y
    · rw [hd, bne_self_eq_false, Bool.false_and]
    · have : (s.fifo (s.dieOf y) (.die to_.u.die)).all (fun e => decide (upto ≤ e.serial)) = true :=
        List.all_eq_true.mpr fun e he => decide_eq_true ((hf e he).resolve_left hd)
      rw [this, Bool.not_true, Bool.and_false]
  have hn : ¬ (decide ((s.strand k).status = .stopped) || refusesDelivery (s.strand k) reg) = true := by
    rw [Bool.or_eq_true, decide_eq_true_eq, refusesDelivery_iff]
    exact fun h => h.elim hst hpos
  rw [mdlvSlotDelivery_local hw hs hd hp, hk]
  dsimp only
  rw [if_neg hn, hall, if_neg (by rw [show bit (s.strand k).pres reg = false from hb]; exact Bool.false_ne_true), if_neg Bool.false_ne_true]
  have hk1 : (s.modStrand k (fun k => presented k reg w)).strand k = presented (s.strand k) reg w := State.strand_modStrand ..
  have hy1 : (s.modStrand k (fun k => presented k reg w)).strand y = s.strand y := State.strand_modStrand_ne _ _ (Ne.symm hky)
  by_cases hd : to_.u.die = s.dieOf y
  · rw [if_pos hd, if_pos hd]
    exact ⟨_, rfl, (State.strand_modStrand_ne _ _ hky).trans hk1, fun h => absurd hd h⟩
  · rw [if_neg hd, if_neg hd]
    exact ⟨_, rfl, hk1, fun _ => congrArg Strand.ord hy1⟩

end

end

/- The limits of the waits (R221). -/

theorem State.feWait_eq_parkLimit (s : State) (tag : Nat) : s.feWait tag = Claims.parkLimit s tag := by
  simp [State.feWait, Claims.parkLimit, bits]


theorem waitp_timesOut {s : State} {y reg l : Nat} (hw : (s.strand y).wait = .waitp reg l) (hb : (s.strand y).pres.getLsbD reg = false)
    (hwo : Claims.WaitedOut s y (2 ^ l)) : exec (.presenceWaitTimeout y) s = .next (Claims.trapped s y 0x27 (.ofNat 64 reg)) := by
  change s.ifEnabled (s.presenceTimeout y) = _
  rw [State.presenceTimeout, hw]
  dsimp only
  rw [show bit (s.strand y).pres reg = false from hb, State.expired_iff.mpr hwo]
  rfl

section
variable {s : State} {y reg upto : Nat} {va : W64} {to_ : UnitName} {w : W128} {left : List Nat} {neg : Bool}
  (hw : (s.strand y).wait = .mdlv va to_ reg w left neg upto)
include hw

theorem mdlv_timesOut {q : Nat} (hq : q = (s.strand y).tag)
    (hwo : Claims.WaitedOut s y (Claims.parkLimit s q * ((s.part q).fectl.toNat / 2 ^ 28 % 16 + 1)))
    (hx : to_.dev ≠ s.dev.num ∨ ∃ j k, j ∈ left ∧ s.inSlot to_.u (s.strand y).tag j = some k ∧ (s.strand k).pres.getLsbD reg = true ∧
      (s.strand k).status ≠ .stopped ∧ ¬ ((s.strand k).kind = .pos ∧ reg = 23)) :
    exec (.presenceWaitTimeout y) s = .next (Claims.trapped s y 0x27 (.ofNat 64 reg)) := by
  have hwaits : s.mdlvWaits (s.strand y).tag to_ reg left = true := by
    rw [State.mdlvWaits, Bool.or_eq_true, bne_iff_ne, List.any_eq_true]
    refine hx.imp id fun ⟨j, k, hj, hk, hb, hst, hpos⟩ => ⟨j, hj, ?_⟩
    have hr : refusesDelivery (s.strand k) reg = false := Bool.eq_false_iff.mpr fun h => hpos (refusesDelivery_iff.mp h)
    rw [hk]
    dsimp only
    rw [show bit (s.strand k).pres reg = true from hb, hr, bne_iff_ne.mpr hst]
    rfl
  have hexp : s.expired y (s.feWait (s.strand y).tag * (s.feRetry (s.strand y).tag + 1)) = true := by
    rw [State.expired_iff, ← hq, State.feWait_eq_parkLimit]
    exact hwo
  change s.ifEnabled (s.presenceTimeout y) = _
  rw [State.presenceTimeout, hw]
  dsimp only
  rw [hwaits, hexp]
  rfl

theorem mdlv_waitsOn (hd : to_.dev = s.dev.num)
    (hx : ∀ j k, j ∈ left → s.inSlot to_.u (s.strand y).tag j = some k → (s.strand k).pres.getLsbD reg = false) :
    exec (.presenceWaitTimeout y) s = .next s := by
  have hwaits : s.mdlvWaits (s.strand y).tag to_ reg left = false := by
    rw [State.mdlvWaits, hd, bne_self_eq_false, Bool.false_or, List.any_eq_false]
    intro j hj
    cases hk : s.inSlot to_.u (s.strand y).tag j with
    | none => exact Bool.false_ne_true
    | some k =>
      dsimp only
      rw [show bit (s.strand k).pres reg = false from hx j k hj hk]
      exact Bool.false_ne_true
  change s.ifEnabled (s.presenceTimeout y) = _
  rw [State.presenceTimeout, hw]
  dsimp only
  rw [hwaits]
  rfl

end

end Sys2Proof.Machine

namespace Sys2Proof
open Sys2Proof.Machine

/-- Settles O27, instruction by instruction and step by step. -/
theorem deliveryResult : Obligations.DeliveryResult := by
  intro s s' a b n lim g x v name to_ hname hto
  subst hname hto
  refine ⟨fun hi hr hcur hb hd => ?_, fun mask slots hi hr hcur hm h8 h0 hw hsl => ?_, fun hi => ⟨waitp_present hi, waitp_absent hi, ?_⟩,
    fun id tag reg w y die pts st hm => ⟨fun k t hn ht hk h hky => ?_, fun h => ?_⟩,
    fun y slot k va w left neg upto hw hs hd hk hky hst hpos hp hf => ⟨?_, fun hb => ?_⟩,
    fun y slot va w left neg upto hw hs hd => ⟨fun hf hok hne => ?_, fun hp ha => ?_⟩,
    fun y l hw hb hwo => ?_, fun y va w left neg upto q hw hd hq hwo => ⟨fun hx => ?_, fun hx => ?_⟩⟩
  · refine ⟨fun h => ?_, fun h => ?_⟩
    · rw [dlv_read hi hr hb hd]; exact congrArg _ (if_pos h)
    · rw [dlv_read hi hr hb hd]; exact congrArg _ (if_neg h)
  · subst hsl
    rw [mdlv_read hi hr hm h8 h0 hw]
    rfl
  · exact ⟨setBit s.me.pres n.val false, fun k hk => getLsbD_setBit _ _ _ _ hk, clrp_clears hi⟩
  · subst ht
    have hdel : (({ s with msgs := Tbl.del s.msgs id } : State).modStrand k (fun t => presented t reg w)).strand k = presented (s.strand k) reg w :=
      State.strand_modStrand ..
    have htouch := StoresOnly.creelTouch (({ s with msgs := Tbl.del s.msgs id } : State).modStrand k (fun t => presented t reg w)) k
    refine ⟨_, (messageDelivery_deliver hm).trans (congrArg _ (State.deliverName_named (s := { s with msgs := Tbl.del s.msgs id }) hn hk)), ?_⟩
    obtain ⟨hmem, hmsgs, hstr⟩ := State.arrivalTimes_frame
      ((({ s with msgs := Tbl.del s.msgs id } : State).modStrand k (fun t => presented t reg w)).creelTouch k) y die (deliverLine (lo64 x) reg)
        (Nat.max pts ((Tbl.get LineOrder.init s.lines (deliverLine (lo64 x) reg)).rts + 1)) st
    rw [hmem, hmsgs, hstr k hky, htouch.msgs, htouch.strand, hdel, presented_of_lt h]
    refine ⟨fun u i hu => ?_, Tbl.find_del_same .., rfl, rfl, rfl, fun j hj => getLsbD_setBit _ _ _ _ hj⟩
    rw [State.creelTouch_slot]
    · rfl
    · rw [hdel, presented_of_lt h]
      exact hu
  · exact (messageDelivery_deliver hm).trans (congrArg _ (State.deliverName_dropped (s := { s with msgs := Tbl.del s.msgs id }) h))
  · exact mdlvSlotDelivery_taken hw hs hd hk hst hpos hp
  · obtain ⟨t, he, hkt, hord⟩ := mdlvSlotDelivery_delivers hw hs hd hk hst hpos hp hky hb hf
    obtain ⟨hmore, hlast, hneg⟩ := State.mdlvReplied_sender (s := t) (y := y) (slot := slot) (reg := n.val) (upto := upto) (va := va)
      (to_ := unitField (lo64 x)) (w := w) (left := left) (neg := neg)
    obtain ⟨-, -, ho, hstr⟩ := State.mdlvReplied_frame (s := t) (y := y) (reg := n.val) (upto := upto) (va := va)
      (to_ := unitField (lo64 x)) (w := w) (left := left.filter (fun k => k != slot)) (neg := neg)
    refine ⟨_, he, ?_, ?_, hmore, hlast, hneg, fun h => ho.trans (hord h)⟩
    · rw [hstr k hky, hkt, presented_of_lt n.isLt]
      simp
    · rw [hstr k hky, hkt, presented_of_lt n.isLt, getLsbD_setBit _ _ _ _ n.isLt, if_pos rfl]
  · obtain ⟨k, hk⟩ := Option.ne_none_iff_exists'.mp hne
    obtain ⟨hst, hpos⟩ := hok k hk
    exact mdlvSlotDelivery_buffered hw hs hd hk hst hpos hf
  · obtain ⟨hmore, -, hneg⟩ := State.mdlvReplied_sender (s := s.orphan (unitField (lo64 x)).u) (y := y) (slot := slot) (reg := n.val) (upto := upto)
      (va := va) (to_ := unitField (lo64 x)) (w := w) (left := left) (neg := true)
    obtain ⟨hmem, hun, -, hstr⟩ := State.mdlvReplied_frame (s := s.orphan (unitField (lo64 x)).u) (y := y) (reg := n.val) (upto := upto) (va := va)
      (to_ := unitField (lo64 x)) (w := w) (left := left.filter (fun k => k != slot)) (neg := true)
    refine ⟨_, mdlvSlotDelivery_absent hw hs hd hp ha, hmem, ?_, hstr, fun h => hneg h rfl, hmore⟩
    unfold State.unit
    rw [hun]
    exact congrArg CoreUnit.orph (State.unit_modUnit s (unitField (lo64 x)).u _)
  · exact waitp_timesOut hw hb hwo
  · exact mdlv_timesOut hw hq hwo (.inr hx)
  · exact mdlv_waitsOn hw hd hx

end Sys2Proof
end

section
/-!
SUPPORT. O32. The statement ranges over strand tables that list a number twice, which no step makes. A strand lands, and the completion of its launch frees
another entry of the same number, which has stopped: the landed strand's context is gone with it.
-/
namespace Sys2Proof.Machine

/-- A strand of launch 3 on its way, with a value in w0. -/
def wanderer : Strand :=
  { Strand.init with place := .transit 7, status := .ready, gen := 65536, launch := some 3, regs := Strand.init.regs.set 0 1 }

/-- A stopped strand of that launch in slot 1 of bay 1. -/
def doublet : Strand := { Strand.init with place := .slot (coreOf 0 1) 1, launch := some 3 }

/-- A launch of a field, with bay 1's share alone left. -/
def fieldLaunch : Launch :=
  { tag := 0, prio := 0, die := 0, fc := none, entry := 0, tvec := 0, wid := 0, arg := 0, hdr := 0, ord := .zero, left := [1], toStart := []
    field := some 5, landed := [], acc := .zero, dies := [], upto := none }

/-- Both strands stand under the number 1; the first is about to land on bay 0. -/
def doubleEntry : State :=
  { State.reset with
    strands := [(1, wanderer), (1, doublet)], msgs := [(7, .migrate 1 0 (coreOf 0 0))], launches := [(3, fieldLaunch)]
    fields := [(5, ⟨true, 0, 0, [], [], [], [], 0⟩)] }

theorem doubleEntry_landing : exec (.migrationLanding 7) doubleEntry = .next ((doubleEntry.migrationLanding 7).getD doubleEntry) := rfl

/-- The landed strand's registers are gone. -/
theorem doubleEntry_context_lost : (((doubleEntry.migrationLanding 7).getD doubleEntry).strand 1).regs ≠ wanderer.regs := by decide +kernel

end Sys2Proof.Machine

namespace Sys2Proof
open Sys2Proof.Machine

/-- Refutes O32: the landing of a strand whose number is listed a second time, for a stopped strand of its launch, completes the launch, which frees
every entry of that number (`doubleEntry_context_lost`). -/
theorem not_strandMovement : ¬ Obligations.StrandMovement := by
  intro h
  obtain ⟨-, hland, -⟩ := h doubleEntry 1 0 (coreOf 0 0) (coreOf 0 0) wanderer rfl
  obtain ⟨s', he, -, hregs, -⟩ := hland 7 0 rfl (by decide) (by decide) rfl rfl rfl rfl
  have hs : (doubleEntry.migrationLanding 7).getD doubleEntry = s' := Host.Outcome.next.inj (doubleEntry_landing.symm.trans he)
  rw [← hs] at hregs
  exact doubleEntry_context_lost hregs

end Sys2Proof
end

section
/-!
SUPPORT. O26. Bindings of rings, QWAIT, the end of a stream, and pushes.
-/
namespace Sys2Proof.Machine

theorem ended_of_entries {r : Ring} (h : r.head ≠ r.tail) : Claims.ended r = r := by
  rw [← endStep_eq_ended]; exact if_neg fun hc => h hc.2.1

theorem ended_of_producer {r : Ring} (h : r.pmask &&& ~~~r.eos ≠ 0) : Claims.ended r = r := by
  rw [← endStep_eq_ended]; exact if_neg fun hc => h hc.2.2

/-- A producer that has not posted its end keeps the stream open. -/
theorem producers_ne_zero {m e : BitVec 16} {i : Nat} (hm : m.getLsbD i = true) (he : e.getLsbD i = false) : m &&& ~~~e ≠ 0 := by
  have hi : i < 16 := by
    by_contra h
    rw [BitVec.getLsbD_of_ge _ _ (Nat.le_of_not_lt h)] at hm
    exact Bool.false_ne_true hm
  intro h
  have hbit : (m &&& ~~~e).getLsbD i = false := by rw [h]; exact BitVec.getLsbD_zero
  rw [BitVec.getLsbD_and, BitVec.getLsbD_not, hm, he, decide_eq_true hi] at hbit
  exact absurd hbit (by decide)

theorem entryOff_eq_entryAt (r : Ring) (n : Nat) : r.entryOff n = Claims.entryAt r n := by
  unfold Ring.entryOff Claims.entryAt; omega

theorem pack_three (a b c i j l : Nat) : pack [(a, i), (b, j), (c, l)] = .ofNat 64 (a * 2 ^ i + b * 2 ^ j + c * 2 ^ l) := by
  simp only [pack, List.foldl_cons, List.foldl_nil, Nat.zero_add]

theorem ringValue_eq_ringWord (k : Nat) (r : Ring) : ringValue k r = Claims.ringWord k r := by
  rw [ringValue, pack_three, Nat.pow_zero, Nat.mul_one, Claims.ringWord]

/-- A change of the issuing strand before it retires with nothing to write. -/
theorem State.done_modStrand {s : State} {x : Nat} (h : s.cur = x) (f : Strand → Strand) :
    Claims.done (s.modStrand x f) = Claims.upd s (Claims.next ∘ f) := by
  subst h
  exact State.modStrand_modStrand _ _ _ Claims.next

/- SBIND. -/

section
variable {s s' : State} {a : Src} {r : BitVec 3} {g : Guard} {v : W128} {k : Nat} (hi : Claims.Issues s g) (hr : Claims.Reads s a v s')
  (hcur : s'.cur = s.cur) (hk : k = r.toNat)
include hi hr hcur hk

theorem sbindIn_opens (hown : Claims.OwnRing s k) (hlo : 1 ≤ qbits v 93 90) (hhi : qbits v 93 90 ≤ 12) (hlim : 10 ≤ qbits v 89 85)
    (hlim' : qbits v 89 85 ≤ 30) (hal : 16 * qbits v 17 4 % (16 * 2 ^ qbits v 93 90) = 0)
    (hin : inPart (s.spadPart s.me.tag (Claims.here s).die (Claims.here s).bay) (16 * qbits v 17 4) (16 * 2 ^ qbits v 93 90) = true)
    (hpm : qbits v 125 110 ≠ 0) (hfree : (s.ring (Claims.here s) s.me.tag k).st = .free) (hirv : s.me.irv = false) :
    exec (.sbindIn a r g) s = .next (Claims.upd (s'.setRing (Claims.here s) s.me.tag k (openRing v))
      (fun t => { Claims.next t with iring := k, irv := true })) := by
  subst hk
  have hpos : (openRing v).pmask &&& ~~~(openRing v).eos ≠ 0 := by
    have hlt : qbits v 125 110 < 2 ^ 16 := Nat.mod_lt _ (by decide)
    intro h
    have hz : BitVec.ofNat 16 (qbits v 125 110) &&& ~~~0#16 = 0#16 := h
    rw [BitVec.not_zero, BitVec.and_allOnes] at hz
    have hz' := congrArg BitVec.toNat hz
    rw [BitVec.toNat_ofNat, Nat.mod_eq_of_lt hlt] at hz'
    exact hpm hz'
  have hend : endStep (openRing v) = openRing v := if_neg fun hc => hpos hc.2.2
  have h1 : (decide ((openRing v).log2n < 1) || decide (12 < (openRing v).log2n) || decide ((openRing v).limexp < 10) ||
      decide (30 < (openRing v).limexp)) = false := by
    simp only [Bool.or_eq_false_iff, decide_eq_false_iff_not, Nat.not_lt]
    exact ⟨⟨⟨hlo, hhi⟩, hlim⟩, hlim'⟩
  have h3 : ((openRing v).base * 16 % (16 * 2 ^ (openRing v).log2n) != 0 ||
      !inPart (s.spadPart s.me.tag (s.unitOf s.cur).die (s.unitOf s.cur).bay) ((openRing v).base * 16) (16 * 2 ^ (openRing v).log2n)) = false := by
    rw [Nat.mul_comm]
    simp only [openRing, hal]
    rw [show inPart (s.spadPart s.me.tag (s.unitOf s.cur).die (s.unitOf s.cur).bay) (16 * qbits v 17 4) (16 * 2 ^ qbits v 93 90) = true from hin]
    rfl
  have h4 : ((s.ring (s.unitOf s.cur) s.me.tag r.toNat).st != .free || s.me.irv) = false := by
    rw [show (s.ring (s.unitOf s.cur) s.me.tag r.toNat).st = .free from hfree, hirv]; rfl
  change execSbindIn a r g s = _
  rw [execSbindIn, State.issue_any_of_issues hi, State.src_of_reads hr]
  dsimp only
  rw [h1, show s.ringForeign (s.unitOf s.cur) s.me.tag r.toNat = false from hown, h3, h4, hend, State.retire_nothing]
  simp only [Bool.false_eq_true, if_false]
  exact congrArg _ (State.done_modStrand (s := s'.setRing (s.unitOf s.cur) s.me.tag r.toNat (openRing v)) hcur _)

theorem sbindOut_binds (hz : (lo64 v).toNat % 2 ^ 32 = 0) (horv : s.me.orv = false) :
    exec (.sbindOut a r g) s = .next (Claims.upd s' (fun t =>
      { Claims.next t with oring := ⟨k, unitField (lo64 v), (lo64 v).toNat / 2 ^ 32 % 16⟩, orv := true })) := by
  subst hk
  have hb : bits (lo64 v) 31 0 = 0 := by simpa [bits] using hz
  change execSbindOut a r g s = _
  rw [execSbindOut, State.issue_any_of_issues hi, State.src_of_reads hr]
  dsimp only
  rw [hb, horv, State.retire_nothing, if_neg (by decide), if_neg Bool.false_ne_true]
  exact congrArg _ (State.done_modStrand hcur _)

end

/- QWAIT. -/

theorem qwait_ring {s : State} {d : Dst} {r : BitVec 3} {lim : BitVec 5} {g : Guard} {k : Nat} {q : Ring} (hi : Claims.Issues s g)
    (hb : Claims.Bound s d) (hk : k = r.toNat) (hq : q = s.ring (Claims.here s) s.me.tag k) (hown : Claims.OwnRing s k) (hf : q.st ≠ .free) :
    exec (.qwait d r lim g) s = .next (match qwaitReply d (Claims.ended q) with
      | some p => (s.setRing (Claims.here s) s.me.tag k (Claims.ended q)).retire p
      | none => s.waitOn s.cur (.qwait d k lim.toNat)) := by
  subst hk hq
  have hf' : ¬ (Claims.ended (s.ring (Claims.here s) s.me.tag r.toNat)).st = .free := by
    unfold Claims.ended
    dsimp only
    split
    · exact nofun
    · exact hf
  change execQwait d r lim g s = _
  rw [execQwait, State.issue_any_of_issues hi, State.dstBound_bound hb]
  dsimp only
  rw [endStep_eq_ended, show s.ringForeign (s.unitOf s.cur) s.me.tag r.toNat = false from hown, if_neg Bool.false_ne_true,
    if_neg (show ¬ (Claims.ended (s.ring (s.unitOf s.cur) s.me.tag r.toNat)).st = .free from hf')]
  rfl

theorem qwaitReply_entries {d : Dst} {q : Ring} (ho : q.st = .opened) (h : q.head ≠ q.tail) :
    qwaitReply d q = some (.mk d (zext128 (.ofNat 64 ((q.tail + 65536 - q.head) % 65536))) none 0 none) := by
  rw [qwaitReply, if_neg (by rw [ho]; exact nofun), if_pos (bne_iff_ne.mpr h)]
  rfl

theorem qwaitReply_ended {d : Dst} {q : Ring} (h : q.st = .ended) : qwaitReply d q = some (.mk d 0 none 0x1000000000000000#64 none) := by
  rw [qwaitReply, if_pos h]
  rfl

theorem qwaitReply_empty {d : Dst} {q : Ring} (ho : q.st = .opened) (h : q.head = q.tail) : qwaitReply d q = none := by
  rw [qwaitReply, if_neg (by rw [ho]; exact nofun), if_neg (by rw [h, bne_self_eq_false]; exact Bool.false_ne_true)]

/- SEOS and SCLOSE. -/

theorem seos_posts {s : State} {g : Guard} {o : OutBind} {c : Ring} (hi : Claims.Issues s g) (ho : o = s.me.oring)
    (hc : c = s.ring o.cons.u s.me.tag o.ring) (horv : s.me.orv = true) (hdev : o.cons.dev = s.dev.num)
    (hown : s.ownsBay s.me.tag o.cons.u.die o.cons.u.bay = true) (hfor : s.ringForeign o.cons.u s.me.tag o.ring = false) (hop : c.st = .opened) :
    exec (.seos g) s = .next ((Claims.upd (s.setRing o.cons.u s.me.tag o.ring (Claims.ended { c with eos := c.eos ||| .ofNat 16 (2 ^ o.idx) }))
      (fun t => { t with orv := false })).waitOn s.cur (.reply Claims.noResult)) := by
  subst ho hc
  have h2 : (s.consumerForeign s.cur || (s.me.oring.cons.dev == s.dev.num && s.ringForeign s.me.oring.cons.u s.me.tag s.me.oring.ring)) = false := by
    rw [State.consumerForeign, show (s.strand s.cur) = s.me from rfl, hown, hfor]
    simp
  have h3 : (decide (s.me.oring.cons.dev = s.dev.num) && decide ((s.ring s.me.oring.cons.u s.me.tag s.me.oring.ring).st = .opened)) = true := by
    rw [decide_eq_true hdev, decide_eq_true hop]; rfl
  change execSeos g s = _
  rw [execSeos, State.issue_any_of_issues hi]
  dsimp only
  rw [horv, Bool.not_true, if_neg Bool.false_ne_true, h2, if_neg Bool.false_ne_true, endStep_eq_ended, if_pos h3]
  rfl

/-- What SCLOSE does with a strand of the ring's unit: a wait on the ring traps, and its binding is cleared. -/
def State.closeFor (s : State) (k y : Nat) : State :=
  (if waitsOnRing (s.strand y).wait k then s.defer y 0x23 (w64 k) else s).modStrand y
    (fun t => if t.iring = k && t.irv then { t with irv := false } else t)

/-- A strand after the ring it waits on, or has bound, is closed. -/
def closedFor (k : Nat) (t : Strand) : Strand :=
  (fun t : Strand => if t.iring = k && t.irv then { t with irv := false } else t)
    (if waitsOnRing t.wait k then { prefixBack t with status := .ready, wait := .none, pend := some (0x23, w64 k) } else t)

theorem closedFor_waiting {k : Nat} {t : Strand} (h : (∃ m, t.wait = .pop k m) ∨ ∃ d l, t.wait = .qwait d k l) :
    (closedFor k t).pend = some (0x23, .ofNat 64 k) := by
  have hw : waitsOnRing t.wait k = true := by rcases h with ⟨m, h⟩ | ⟨d, l, h⟩ <;> rw [h] <;> exact beq_self_eq_true k
  unfold closedFor
  rw [if_pos hw]
  dsimp only
  split <;> rfl

theorem closedFor_bound {k : Nat} {t : Strand} (h : t.iring = k) : (closedFor k t).irv = false := by
  have hr (u : Strand) (hu : u.iring = k) : (if u.iring = k && u.irv then { u with irv := false } else u).irv = false := by
    cases hv : u.irv
    · simp [hv]
    · simp [hu]
  unfold closedFor
  split
  · exact hr _ h
  · exact hr _ h

theorem State.strand_closeFor (s : State) (k y : Nat) : (s.closeFor k y).strand y = closedFor k (s.strand y) := by
  unfold State.closeFor closedFor
  rw [State.strand_modStrand]
  split
  · rw [State.strand_defer]
  · rfl

theorem State.strand_closeFor_ne (s : State) {k y z : Nat} (h : z ≠ y) : (s.closeFor k y).strand z = s.strand z := by
  unfold State.closeFor
  rw [State.strand_modStrand_ne _ _ h]
  split
  · exact State.strand_modStrand_ne _ _ h
  · rfl

theorem closedFor_idem (k : Nat) (t : Strand) : closedFor k (closedFor k t) = closedFor k t := by
  unfold closedFor
  dsimp only
  by_cases hw : waitsOnRing t.wait k = true
  · simp only [hw, if_true]
    by_cases hb : (decide ((prefixBack t).iring = k) && (prefixBack t).irv) = true
    · simp [hb, waitsOnRing]
    · simp [hb, waitsOnRing]
  · simp only [hw]
    by_cases hb : (decide (t.iring = k) && t.irv) = true
    · simp [hb, hw]
    · simp [hb, hw]

/-- Strands are closed one after the other; each is closed if it is listed, however often. -/
theorem State.strand_foldl_closeFor {k y : Nat} (l : List Nat) (s : State) :
    ((l.foldl (fun s y => s.closeFor k y) s).strand y = if y ∈ l then closedFor k (s.strand y) else s.strand y) ∧
    (l.foldl (fun s y => s.closeFor k y) s).tens = s.tens ∧ (l.foldl (fun s y => s.closeFor k y) s).cur = s.cur := by
  induction l generalizing s with
  | nil => exact ⟨by simp, rfl, rfl⟩
  | cons z l ih =>
    obtain ⟨hx, ht, hc⟩ := ih (s.closeFor k z)
    have htens : (s.closeFor k z).tens = s.tens ∧ (s.closeFor k z).cur = s.cur := by unfold State.closeFor; split <;> exact ⟨rfl, rfl⟩
    refine ⟨?_, ht.trans htens.1, hc.trans htens.2⟩
    rw [List.foldl_cons, hx]
    by_cases hz : y = z
    · subst hz
      simp [State.strand_closeFor, closedFor_idem]
    · simp [State.strand_closeFor_ne _ hz, hz]

/-- The strands of a tenant on a unit. -/
def State.tenantStrands (s : State) (u : UnitId) (tag : Nat) : List Nat :=
  (s.strands.filter (fun e => e.2.tag == tag && decide (s.unitOf e.1 = u))).map (·.1)

theorem Tbl.mem_get {α : Type} {t : Tbl α} {n : Nat} (d : α) (h : n ∈ t.map (·.1)) : (n, Tbl.get d t n) ∈ t := by
  induction t with
  | nil => cases h
  | cons e t ih =>
    obtain ⟨k, v⟩ := e
    rw [Tbl.get]
    split
    · next hk => subst hk; exact List.mem_cons_self ..
    · next hk => exact List.mem_cons_of_mem _ (ih ((List.mem_cons.mp h).resolve_left (Ne.symm hk)))

theorem State.mem_tenantStrands {s : State} {u : UnitId} {tag y : Nat} (hm : y ∈ s.strands.map (·.1)) (ht : (s.strand y).tag = tag)
    (hu : s.unitOf y = u) : y ∈ s.tenantStrands u tag := by
  refine List.mem_map.mpr ⟨(y, s.strand y), List.mem_filter.mpr ⟨Tbl.mem_get _ hm, ?_⟩, rfl⟩
  simp [ht, hu]

theorem sclose_closes {s : State} {r : BitVec 3} {g : Guard} {k : Nat} (hi : Claims.Issues s g) (hk : k = r.toNat) (hown : Claims.OwnRing s k) :
    ∃ t, exec (.sclose r g) s = .next t ∧ (t.ring (Claims.here s) s.me.tag k).st = .free ∧
      ∀ y, y ≠ s.cur → (s.strand y).tag = s.me.tag → s.unitOf y = Claims.here s → y ∈ s.strands.map (·.1) →
        ((∃ m, (s.strand y).wait = .pop k m) ∨ (∃ d l, (s.strand y).wait = .qwait d k l) → (t.strand y).pend = some (0x23, .ofNat 64 k)) ∧
        ((s.strand y).iring = k → (t.strand y).irv = false) := by
  subst hk
  obtain ⟨freed, hfreed, hst⟩ : ∃ freed, freed = s.setRing (Claims.here s) s.me.tag r.toNat
      { s.ring (Claims.here s) s.me.tag r.toNat with st := .free, eos := 0, head := 0, tail := 0, stamps := [] } ∧
      (freed.ring (Claims.here s) s.me.tag r.toNat).st = .free := ⟨_, rfl, congrArg Ring.st (State.ring_setRing ..)⟩
  refine ⟨Claims.done ((s.tenantStrands (Claims.here s) s.me.tag).foldl (fun s y => s.closeFor r.toNat y) freed), ?_, ?_, ?_⟩
  · subst hfreed
    change execSclose r g s = _
    rw [execSclose, State.issue_any_of_issues hi]
    dsimp only
    rw [show s.ringForeign (s.unitOf s.cur) s.me.tag r.toNat = false from hown, if_neg Bool.false_ne_true, State.retire_nothing]
    rfl
  · obtain ⟨-, ht, -⟩ := State.strand_foldl_closeFor (k := r.toNat) (y := 0) (s.tenantStrands (Claims.here s) s.me.tag) freed
    rw [← hst]
    unfold State.ring State.ten
    exact congrArg (fun l => (Tbl.get Ring.init (Tbl.get TenBay.init l _).rings _).st) ht
  · intro y hy htag hu hm
    obtain ⟨hx, -, hc⟩ := State.strand_foldl_closeFor (k := r.toNat) (y := y) (s.tenantStrands (Claims.here s) s.me.tag) freed
    have hcur : ((s.tenantStrands (Claims.here s) s.me.tag).foldl (fun s y => s.closeFor r.toNat y) freed).cur = s.cur := by
      rw [hc, hfreed]; rfl
    have hy1 : freed.strand y = s.strand y := by rw [hfreed]; rfl
    have hty : (Claims.done ((s.tenantStrands (Claims.here s) s.me.tag).foldl (fun s y => s.closeFor r.toNat y) freed)).strand y =
        closedFor r.toNat (s.strand y) := by
      rw [Claims.done, ← State.modStrand_cur_eq_upd, State.strand_modStrand_ne _ _ (by rw [hcur]; exact hy), hx,
        if_pos (State.mem_tenantStrands hm htag hu), hy1]
    rw [hty]
    exact ⟨closedFor_waiting, closedFor_bound⟩

/- Pushes. -/

section
variable {s : State} {x : Nat} {p : Reply} {o : OutBind} {c : Ring} {tag : Nat} (hw : (s.strand x).wait = .push p) (ho : o = (s.strand x).oring)
  (htag : tag = (s.strand x).tag) (hc : c = s.ring o.cons.u tag o.ring) (hp : s.present x = true)
include hw ho htag hc hp

/-- A push to a ring of this device, by what the consumer's ring allows. -/
theorem State.streamPush_local (hdev : o.cons.dev = s.dev.num) : s.streamPush x =
    (if !s.ownsBay tag o.cons.u.die o.cons.u.bay || s.ringForeign o.cons.u tag o.ring then some (Claims.trapped s x 0x0C (.ofNat 64 o.ring))
    else if (Claims.ended c).st != .opened || !bit (Claims.ended c).pmask o.idx || bit (Claims.ended c).eos o.idx then
      some (Claims.trapped s x 0x22 (.ofNat 64 o.ring))
    else if ((Claims.ended c).tail + 65536 - (Claims.ended c).head) % 65536 < 2 ^ (Claims.ended c).log2n then
      some (Claims.answered (s.pushEntry o.cons.u tag o.ring (Claims.ended c) p.v (s.strand x).ord.rs) x { p with d := .wz })
    else none) := by
  subst ho htag hc
  have hf : s.consumerForeign x = !s.ownsBay (s.strand x).tag (s.strand x).oring.cons.u.die (s.strand x).oring.cons.u.bay := by
    rw [State.consumerForeign, hdev, beq_self_eq_true, Bool.true_and]
  have hd : ((s.strand x).oring.cons.dev != s.dev.num) = false := by rw [hdev, bne_self_eq_false]
  rw [State.streamPush, hw]
  dsimp only
  rw [hp, hd, hf, endStep_eq_ended]
  rfl

theorem streamPush_remote (hdev : o.cons.dev ≠ s.dev.num) : exec (.streamPush x) s = .next
    (if (Tbl.get Link.init s.links o.cons.dev).failed then Claims.trapped s x 0x18 (.ofNat 64 o.ring)
      else Claims.answered (s.owe tag 7 1) x { p with d := .wz }) := by
  subst ho htag hc
  change s.ifEnabled (s.streamPush x) = _
  rw [State.streamPush, hw]
  dsimp only
  rw [hp, bne_iff_ne.mpr hdev]
  change s.ifEnabled (if (Tbl.get Link.init s.links (s.strand x).oring.cons.dev).failed = true then _ else _) = _
  split <;> rfl

theorem streamPush_foreign (hdev : o.cons.dev = s.dev.num)
    (hf : s.ownsBay tag o.cons.u.die o.cons.u.bay = false ∨ s.ringForeign o.cons.u tag o.ring = true) :
    exec (.streamPush x) s = .next (Claims.trapped s x 0x0C (.ofNat 64 o.ring)) := by
  change s.ifEnabled (s.streamPush x) = _
  rw [State.streamPush_local hw ho htag hc hp hdev, if_pos]
  · rfl
  · rw [Bool.or_eq_true, Bool.not_eq_true']; exact hf

section
variable (hdev : o.cons.dev = s.dev.num) (hown : s.ownsBay tag o.cons.u.die o.cons.u.bay = true) (hfor : s.ringForeign o.cons.u tag o.ring = false)
include hdev hown hfor

theorem streamPush_refused (h : (Claims.ended c).st ≠ .opened ∨ c.pmask.getLsbD o.idx = false ∨ c.eos.getLsbD o.idx = true) :
    exec (.streamPush x) s = .next (Claims.trapped s x 0x22 (.ofNat 64 o.ring)) := by
  change s.ifEnabled (s.streamPush x) = _
  rw [State.streamPush_local hw ho htag hc hp hdev, hown, hfor, Bool.not_true, Bool.false_or, if_neg Bool.false_ne_true, if_pos]
  · rfl
  · rw [Bool.or_eq_true, Bool.or_eq_true, bne_iff_ne, Bool.not_eq_true', or_assoc]
    exact h

section
variable (hop : c.st = .opened) (hpm : c.pmask.getLsbD o.idx = true) (heos : c.eos.getLsbD o.idx = false)
include hop hpm heos

/-- A registered producer's push to an open ring: performed, or waiting while the ring is full. -/
theorem State.streamPush_open : s.streamPush x =
    if (c.tail + 65536 - c.head) % 65536 < 2 ^ c.log2n then
      some (Claims.answered (s.pushEntry o.cons.u tag o.ring c p.v (s.strand x).ord.rs) x { p with d := .wz })
    else none := by
  have hn : ¬ (c.st != .opened || !bit c.pmask o.idx || bit c.eos o.idx) = true := by
    rw [hop, show bit c.pmask o.idx = true from hpm, show bit c.eos o.idx = false from heos, bne_self_eq_false]
    exact Bool.false_ne_true
  rw [State.streamPush_local hw ho htag hc hp hdev, hown, hfor, Bool.not_true, Bool.false_or, if_neg Bool.false_ne_true,
    ended_of_producer (producers_ne_zero hpm heos), if_neg hn]

theorem streamPush_room (h : (c.tail + 65536 - c.head) % 65536 < 2 ^ c.log2n) : exec (.streamPush x) s = .next (Claims.answered
    ((Claims.putAt s (s.spadAt tag o.cons.u.die o.cons.u.bay (Claims.entryAt c c.tail)) (leBytes 16 p.v.toNat)).setRing o.cons.u tag o.ring
      { c with tail := (c.tail + 1) % 65536, stamps := Tbl.set c.stamps (c.tail % 2 ^ c.log2n) (s.strand x).ord.rs }) x { p with d := .wz }) := by
  change s.ifEnabled (s.streamPush x) = _
  rw [State.streamPush_open hw ho htag hc hp hdev hown hfor hop hpm heos, if_pos h, ← entryOff_eq_entryAt]
  rfl

theorem streamPush_full (h : 2 ^ c.log2n ≤ (c.tail + 65536 - c.head) % 65536) : exec (.streamPush x) s = .next s ∧
    (Claims.WaitedOut s x (2 ^ c.limexp) → exec (.streamPushTimeout x) s = .next (Claims.trapped s x 0x21 (Claims.ringWord o.ring c))) := by
  have hnone : s.streamPush x = none := by
    rw [State.streamPush_open hw ho htag hc hp hdev hown hfor hop hpm heos, if_neg (Nat.not_lt_of_le h)]
  refine ⟨?_, fun hwo => ?_⟩
  · change s.ifEnabled (s.streamPush x) = _
    rw [hnone]
    rfl
  · change s.ifEnabled (s.streamPushTimeout x) = _
    subst ho htag hc
    rw [State.streamPushTimeout, hw]
    dsimp only
    rw [hnone, State.expired_iff.mpr hwo, ringValue_eq_ringWord]
    rfl

end

end

end

/-- A pop or QWAIT that has waited too long on a ring that stays open (R57, R237). -/
theorem streamTimeout_traps {s : State} {x n m k : Nat} {c : Ring} (hc : c = s.ring (s.unitOf x) (s.strand x).tag k) (hop : c.st = .opened)
    (hlt : (c.tail + 65536 - c.head) % 65536 < m) (hpm : c.pmask &&& ~~~c.eos ≠ 0)
    (hw : (s.strand x).wait = .pop k m ∧ n = 2 ^ c.limexp ∨ m = 1 ∧ ∃ d l, (s.strand x).wait = .qwait d k l ∧ n = 2 ^ l)
    (hwo : Claims.WaitedOut s x n) : exec (.streamTimeout x) s = .next (Claims.trapped s x 0x21 (Claims.ringWord k c)) := by
  have hnot : s.popReady x k m = false := by
    rw [State.popReady_opened hc hop hpm, decide_eq_false (Nat.not_le_of_lt hlt)]
  have hexp : s.expired x n = true := State.expired_iff.mpr hwo
  subst hc
  change s.ifEnabled (s.streamTimeout x) = _
  rw [State.streamTimeout, ← ringValue_eq_ringWord]
  rcases hw with ⟨hw, rfl⟩ | ⟨rfl, d, l, hw, rfl⟩
  · rw [hw]
    exact congrArg s.ifEnabled (if_pos (by rw [hnot, hexp]; rfl))
  · rw [hw]
    exact congrArg s.ifEnabled (if_pos (by rw [hnot, hexp]; rfl))

end Sys2Proof.Machine

namespace Sys2Proof
open Sys2Proof.Machine

/-- Settles O26, instruction by instruction; a push by what the consumer's ring allows (`streamPush_local`). -/
theorem streamResult : Obligations.StreamResult := by
  intro s s' d a r lim g v k q hk hq
  refine ⟨fun hi hr hcur hown => ⟨?_, ?_⟩, fun hi hb hown => ⟨fun ho hne => ?_, fun he => ?_, fun ho he hpm => ?_⟩,
    fun o c hi ho hc horv hdev hown hfor hop _ => seos_posts hi ho hc horv hdev hown hfor hop, fun hi hown => sclose_closes hi hk hown,
    fun x p o c tag hw ho htag hc hdev hown hfor hp hop _ hpm heos =>
      ⟨streamPush_room hw ho htag hc hp hdev hown hfor hop hpm heos, streamPush_full hw ho htag hc hp hdev hown hfor hop hpm heos⟩,
    fun x p o c tag hw ho htag hc hp => ⟨streamPush_refused hw ho htag hc hp, streamPush_foreign hw ho htag hc hp,
      streamPush_remote hw ho htag hc hp⟩,
    fun x n m c hc hop hlt hpm hw hwo => streamTimeout_traps hc hop hlt hpm hw hwo⟩
  · rintro base lg limexp pmask - hlo hhi hlim hlim' - hpm rfl rfl rfl rfl hal hin hfree hirv
    exact sbindIn_opens hi hr hcur hk hown hlo hhi hlim hlim' hal hin hpm (hq ▸ hfree) hirv
  · exact sbindOut_binds hi hr hcur hk
  · rw [qwait_ring hi hb hk hq hown (by rw [ho]; exact nofun), ended_of_entries hne, qwaitReply_entries ho hne]
  · rw [qwait_ring hi hb hk hq hown, qwaitReply_ended he]
    intro hf
    rw [← endStep_eq_ended, endStep, if_neg (by rw [hf]; exact nofun), hf] at he
    cases he
  · rw [qwait_ring hi hb hk hq hown (by rw [ho]; exact nofun), ended_of_producer hpm, qwaitReply_empty ho he]

end Sys2Proof
end

section
/-!
SUPPORT. O25. The reads of a fill's lines, at once or at the slice, and the steps of tiles.
-/
namespace Sys2Proof.Machine

/- What a read leaves: only the times of lines, the copies of the RDC, the meters and the count of free values change. -/

/-- A read's changes. -/
def ReadsOnly (s t : State) : Prop := t = { s with lines := t.lines, rdc := t.rdc, parts := t.parts, freeCtr := t.freeCtr }

theorem ReadsOnly.refl (s : State) : ReadsOnly s s := rfl

theorem ReadsOnly.trans {s t u : State} (h1 : ReadsOnly s t) (h2 : ReadsOnly t u) : ReadsOnly s u := by
  unfold ReadsOnly at h1 h2 ⊢
  rw [h2, h1]

theorem ReadsOnly.readTimes (s : State) (o : OrderState) (d : Nat) (l : Loc) : ReadsOnly s (s.readTimes o d l).2 := by
  unfold ReadsOnly; rw [State.readTimes_frame]

theorem ReadsOnly.metered (s : State) (tag : Nat) (l : Loc) : ReadsOnly s (s.metered tag l) := by cases l <;> rfl

theorem ReadsOnly.rdcRoom (s : State) (d : Nat) (slot : Nat × Nat) : ReadsOnly s (s.rdcRoom d slot) := by
  unfold State.rdcRoom
  dsimp only
  split
  · rfl
  · split <;> rfl

theorem ReadsOnly.rdcFill (s : State) (d : Nat) (x : XLoc) : ReadsOnly s (s.rdcFill d x) := by
  unfold State.rdcFill
  split
  · split
    · rfl
    · split
      · rfl
      · split
        · dsimp only
          split
          · rfl
          · exact .trans (.trans (t := s.rdcDrop d x.loc) rfl (.rdcRoom ..)) rfl
        · rfl
  · rfl

theorem ReadsOnly.homeRead (s : State) (o : OrderState) (d tag : Nat) (x : XLoc) (n : Nat) : ReadsOnly s (s.homeRead o d tag x n).2 := by
  unfold State.homeRead
  split
  · exact .trans (t := (s.freeBytes n).2) rfl (.metered ..)
  · exact .trans (.trans (.readTimes ..) (.rdcFill ..)) (.metered ..)

section
variable {s t : State} (h : ReadsOnly s t)
include h

theorem ReadsOnly.mem : t.mem = s.mem := by rw [h]
theorem ReadsOnly.fills : t.fills = s.fills := by rw [h]
theorem ReadsOnly.strands : t.strands = s.strands := by rw [h]
theorem ReadsOnly.tens : t.tens = s.tens := by rw [h]
theorem ReadsOnly.units : t.units = s.units := by rw [h]

end

/-- A read at its home, of a place of this device, gives the bytes that stand there. -/
theorem State.homeRead_bs (s : State) (o : OrderState) (d tag : Nat) (x : XLoc) (n : Nat) (h : ∀ v g, x.loc ≠ .foreign v g) :
    (s.homeRead o d tag x n).1.bs = s.bytesAt tag x.loc n := by
  unfold State.homeRead
  split
  · next v g hl => exact absurd hl (h v g)
  · rfl

theorem State.errCarry_frame (s : State) (src : Loc) (bad : List Bool) (f : Fill) (line : Nat) :
    s.errCarry src bad f line = { s with errs := (s.errCarry src bad f line).errs } := by
  unfold State.errCarry; split <;> rfl

theorem State.detect_frame (s : State) (u : UnitId) (who : Nat) (l : XLoc) (va : W64) :
    s.detect u who l va = { s with units := (s.detect u who l va).units } := by
  unfold State.detect
  dsimp only
  split
  · rfl
  · split <;> rfl

/- The merge table of a slice (R233). -/

theorem CoreUnit.joinRead_joins {c : CoreUnit} {tag key : Nat} {j : SliceJoin} {pre post : List MergeEntry} {e : MergeEntry}
    (hm : c.merge = pre ++ e :: post) (ht : e.tag = tag) (hl : e.line = key) (hpre : ∀ f ∈ pre, ¬ (f.tag = tag ∧ f.line = key)) :
    c.joinRead tag key j = { c with merge := pre ++ { e with joins := e.joins ++ [j] } :: post } := by
  have hidx : c.merge.findIdx? (fun e => e.tag == tag && e.line == key) = some pre.length := by
    rw [hm, List.findIdx?_append, List.findIdx?_eq_none_iff.mpr, List.findIdx?_cons]
    · simp [ht, hl]
    · intro f hf
      simpa using hpre f hf
  rw [CoreUnit.joinRead, hidx]
  dsimp only
  congr 1
  rw [hm, List.mapIdx_append, List.mapIdx_cons]
  simp only [Nat.zero_add, if_true]
  congr 1
  · refine List.ext_getElem (by simp) fun i h1 h2 => ?_
    rw [List.getElem_mapIdx, if_neg (by omega)]
  · congr 1
    refine List.ext_getElem (by simp) fun i h1 h2 => ?_
    rw [List.getElem_mapIdx, if_neg (by omega)]

theorem CoreUnit.joinRead_opens {c : CoreUnit} {tag key : Nat} {j : SliceJoin} (h : ∀ f ∈ c.merge, ¬ (f.tag = tag ∧ f.line = key)) :
    c.joinRead tag key j = if c.merge.length < 32 then { c with merge := c.merge ++ [⟨tag, key, [j]⟩] }
      else { c with mergeWait := c.mergeWait ++ [⟨tag, key, [j]⟩] } := by
  have hidx : c.merge.findIdx? (fun e => e.tag == tag && e.line == key) = none :=
    List.findIdx?_eq_none_iff.mpr fun f hf => by simpa using h f hf
  rw [CoreUnit.joinRead, hidx]

theorem takeEntries_eq {a b : List MergeEntry} (h : a.length ≤ 32) : takeEntries a b = (a ++ b.take (32 - a.length), b.drop (32 - a.length)) := by
  induction b generalizing a with
  | nil => simp [takeEntries]
  | cons w ws ih =>
    rw [takeEntries]
    split
    · next hlt =>
      rw [ih (by simpa using hlt), show 32 - a.length = (32 - (a ++ [w]).length) + 1 by simp; omega]
      simp
    · next hge => rw [show 32 - a.length = 0 by omega]; simp

/- FILL_READ (R233, R345). -/

theorem mayRead_guard {f : Fill} {line : Nat} (h : Claims.MayRead f line) :
    ¬ (!f.open_ || f.failed || !mayTake f.parked line false || decide (f.lines ≤ line) || f.sent.contains line
      || (f.multi && (List.range line).any (fun l => !f.sent.contains l))) = true := by
  obtain ⟨ho, hf, hp, hl, hs, hm⟩ := h
  have hmt : mayTake f.parked line false = true := by rw [hp]; rfl
  have hc : f.sent.contains line = false := by simpa using hs
  have hall : (f.multi && (List.range line).any (fun l => !f.sent.contains l)) = false := by
    cases hmul : f.multi
    · rfl
    · simpa using hm hmul
  rw [ho, hf, hmt, hc, hall, decide_eq_false (Nat.not_le_of_lt hl)]
  exact Bool.false_ne_true

/-- A load that no buffer covers and no copy holds nearer reads at the line's home. -/
theorem State.plainLoad_home {s : State} {o : OrderState} {d tag n : Nat} {x : XLoc} (hb : s.buffered d x.loc = []) (hc : s.rdcCopy d x.loc = none) :
    s.plainLoad o d tag x n = some (s.homeRead o d tag x n) := by
  unfold State.plainLoad
  rw [hb, hc]
  dsimp only [youngest]
  cases x.loc.target d with
  | none => rfl
  | some t => cases t <;> rfl

theorem dests_ne_nil {f : Fill} (h : Claims.Filling f) : f.dests.isEmpty = false := by
  obtain ⟨-, b, hb, ha, hr⟩ := h
  rw [List.isEmpty_eq_false_iff_exists_mem]
  exact ⟨b.bay, List.mem_map.mpr ⟨b, List.mem_filter.mpr ⟨hb, by simp [ha, hr]⟩, rfl⟩⟩

/-- A fill that goes on keeps its record as it is. -/
theorem State.fillStop_going {s : State} {id : Nat} {f : Fill} (hf : Tbl.find s.fills id = some f) (h : f.failed = false) : s.fillStop id = s := by
  unfold State.fillStop
  rw [hf]
  exact if_pos (by rw [h]; rfl)

/-- A line that has been read leaves as a packet for each bay of the fill (R92, R344). -/
theorem State.fillReply_sends (s : State) (id : Nat) {f : Fill} (line : Nat) (r : ReadRes) (bad : List Bool) (far : Bool) (h : Claims.Filling f) :
    ∃ f', s.fillReply id f line r bad far = s.setFill id f' ∧ f'.sent = f.sent ∧ Claims.Sent id f f' line r.bs := by
  refine ⟨{ f with ord := r.ord, read := setAdd f.read line, packets := f.packets ++ f.dests.map (fun b =>
    (⟨id, line, b, r.bs, bad, (r.ord.completion).vmax (r.ord.know f.die)⟩ : FillPacket)), foreign := f.foreign || far }, ?_, rfl, rfl, ?_⟩
  · unfold State.fillReply
    dsimp only
    rw [dests_ne_nil h, if_neg (by exact Bool.false_ne_true)]
    exact State.fillStop_going (Tbl.find_set_same ..) h.1
  · exact ⟨_, bad, by rw [Fill.dests, List.map_map]; rfl⟩

/-- A place of this device is never behind a link. -/
theorem State.linkDown_eq_false (s : State) {l : Loc} (h : ∀ v g, l ≠ .foreign v g) : s.linkDown l = false := by
  cases l with
  | foreign v g => exact absurd rfl (h v g)
  | vault _ _ _ => rfl
  | spad _ _ _ => rfl
  | rwin _ _ _ _ _ => rfl

/-- Nothing of a line's fill is parked, so its read takes nothing off. -/
theorem sent_of_unparked {f : Fill} {line : Nat} (h : f.parked = []) :
    ({ f with sent := setAdd f.sent line, parked := dropItem f.parked line } : Fill) = { f with sent := setAdd f.sent line } := by
  have hd : dropItem f.parked line = f.parked := by rw [h]; rfl
  rw [hd]

section
variable {s s1 : State} {id line : Nat} {f : Fill} {l : XLoc} (hf : Tbl.find s.fills id = some f) (hmr : Claims.MayRead f line)
include hf hmr

/-- A line of a vault that no buffer and no copy holds nearer: its read joins the slice's merge table. -/
theorem State.fillRead_vault {die bay o : Nat} (hx : s.xlate (coreOf f.die f.bay) f.tag (f.va line) 128 .fill = (.ok l, s1))
    (hl : l.loc = .vault die bay o) (hbuf : s1.buffered f.die l.loc = []) (hrdc : s1.rdcCopy f.die l.loc = none) :
    s.fillRead id line = some (((s1.detect (coreOf f.die f.bay) 0 l (f.va line)).setFill id { f with sent := setAdd f.sent line }).modUnit
      (spOf die bay) (fun c => c.joinRead f.tag l.loc.line ⟨.fill id line, l.rdc, f.va line, l.size⟩)) := by
  have hb : ((s1.detect (coreOf f.die f.bay) 0 l (f.va line)).buffered f.die l.loc).isEmpty = true := by
    rw [State.detect_frame]
    exact List.isEmpty_iff.mpr hbuf
  have hr : ((s1.detect (coreOf f.die f.bay) 0 l (f.va line)).rdcCopy f.die l.loc).isNone = true := by
    rw [State.detect_frame]
    exact Option.isNone_iff_eq_none.mpr hrdc
  rw [State.fillRead, hf]
  dsimp only
  rw [if_neg (mayRead_guard hmr), hx]
  dsimp only
  rw [s.linkDown_eq_false (by rw [hl]; exact nofun), if_neg Bool.false_ne_true, sent_of_unparked hmr.2.2.1, hb, hr]
  rw [hl]
  rfl

/-- A line of a scratchpad of this device is read at once. -/
theorem State.fillRead_spad {die bay o : Nat} (hx : s.xlate (coreOf f.die f.bay) f.tag (f.va line) 128 .fill = (.ok l, s1))
    (hl : l.loc = .spad die bay o) (hbuf : s1.buffered f.die l.loc = []) (hrdc : s1.rdcCopy f.die l.loc = none) (hfill : Claims.Filling f) :
    ∃ s' f', s.fillRead id line = some s' ∧ Tbl.find s'.fills id = some f' ∧ s'.mem = s1.mem ∧ f'.sent = setAdd f.sent line ∧
      Claims.Sent id f f' line (s1.bytesAt f.tag l.loc 128) := by
  have hfar : ∀ v g, l.loc ≠ .foreign v g := by rw [hl]; exact nofun
  have hb : (s1.detect (coreOf f.die f.bay) 0 l (f.va line)).buffered f.die l.loc = [] := by rw [State.detect_frame]; exact hbuf
  have hr : (s1.detect (coreOf f.die f.bay) 0 l (f.va line)).rdcCopy f.die l.loc = none := by rw [State.detect_frame]; exact hrdc
  have hbs : (s1.detect (coreOf f.die f.bay) 0 l (f.va line)).bytesAt f.tag l.loc 128 = s1.bytesAt f.tag l.loc 128 := by
    rw [State.detect_frame, hl]; rfl
  have hm : (s1.detect (coreOf f.die f.bay) 0 l (f.va line)).mem = s1.mem := by rw [State.detect_frame]
  generalize hs2 : s1.detect (coreOf f.die f.bay) 0 l (f.va line) = s2 at hb hr hbs hm
  have hro := ReadsOnly.homeRead s2 f.ord f.die f.tag l 128
  have hread : ∃ s', s.fillRead id line = some s' ∧ ∃ t bad far, s' = State.fillReply t id { f with sent := setAdd f.sent line } line
      (s2.homeRead f.ord f.die f.tag l 128).1 bad far ∧ t.mem = s2.mem := by
    rw [State.fillRead, hf]
    dsimp only
    rw [if_neg (mayRead_guard hmr), hx]
    dsimp only
    rw [s.linkDown_eq_false hfar, if_neg Bool.false_ne_true, sent_of_unparked hmr.2.2.1, hs2, State.plainLoad_home hb hr]
    rw [if_pos (by rw [hl]; rfl)]
    refine ⟨_, rfl, _, _, _, rfl, ?_⟩
    rw [State.errCarry_frame]
    exact hro.mem
  obtain ⟨s', hs', t, bad, far, rfl, ht⟩ := hread
  obtain ⟨f', hrep, hsent, hpk⟩ := State.fillReply_sends t id (f := { f with sent := setAdd f.sent line }) line
    (s2.homeRead f.ord f.die f.tag l 128).1 bad far hfill
  rw [State.homeRead_bs _ _ _ _ _ _ hfar, hbs] at hpk
  exact ⟨_, f', hs', by rw [hrep]; exact Tbl.find_set_same .., by rw [hrep]; exact ht.trans hm, hsent, hpk⟩

/-- A line whose translation traps ends the fill. -/
theorem State.fillRead_trap {c : Nat} (hx : s.xlate (coreOf f.die f.bay) f.tag (f.va line) 128 .fill = (.trap c, s1)) :
    s.fillRead id line = some (s.fillFail id) := by
  rw [State.fillRead, hf]
  dsimp only
  rw [if_neg (mayRead_guard hmr), hx]

end

theorem State.tile_setTile (s : State) (tag die bay n : Nat) (e : Tile) : (s.setTile tag die bay n e).tile tag die bay n = e := by
  simp [State.setTile, State.tile]

/-- A fill of one bay that is done there is over. -/
theorem State.fillBayDone_only {s : State} {id b : Nat} {f : Fill} {up : Option Nat} {d : Bool} (hf : Tbl.find s.fills id = some f)
    (hb : f.bays = [⟨b, true, false, up, d⟩]) (t : Tile) (ht : t = { s.tile f.tag f.die b f.tile with cs := (s.releaseBy f.ord f.die).completion }) :
    s.fillBayDone id b = { s.setTile f.tag f.die b f.tile (if f.failed then { t with st := .empty, err := true, pend := 0 }
      else { t with st := .ready }) with fills := Tbl.del s.fills id } := by
  unfold State.fillBayDone
  rw [hf, ht]
  dsimp only
  rw [hb, if_pos (by simp)]
  rfl

theorem State.fillBayEnd_drained {s : State} {id : Nat} {f : Fill} (b : Nat) (hf : Tbl.find s.fills id = some f)
    (hd : s.drained f.die f.foreign s.serial = true) : s.fillBayEnd id b = s.fillBayDone id b := by
  unfold State.fillBayEnd
  rw [hf]
  exact if_pos hd

/-- A failed unicast fill with nothing under way ends at its bay. -/
theorem State.fillStop_quiet {s : State} {id b : Nat} {f : Fill} (hf : Tbl.find s.fills id = some f) (hfail : f.failed = true)
    (hread : ∀ k ∈ f.sent, k ∈ f.read) (hp : f.packets = []) (hb : f.bays = [⟨b, true, false, none, false⟩]) :
    s.fillStop id = s.fillBayEnd id b := by
  have hsent : (f.sent.any (fun l => !f.read.contains l)) = false := by
    rw [List.any_eq_false]
    intro k hk
    simpa using hread k hk
  unfold State.fillStop
  rw [hf]
  dsimp only
  rw [hsent, hfail, hp, show f.dests = [b] by rw [Fill.dests, hb]; rfl, hb]
  rfl

/-- A unicast fill that fails with nothing under way and its release enabled is over: its tile is empty with ERR (R31, R92). -/
theorem State.fillFail_quiet {s : State} {id b : Nat} {f : Fill} (hf : Tbl.find s.fills id = some f) (hread : ∀ k ∈ f.sent, k ∈ f.read)
    (hp : f.packets = []) (hb : f.bays = [⟨b, true, false, none, false⟩]) (hd : s.drained f.die f.foreign s.serial = true) :
    Tbl.find (s.fillFail id).fills id = none ∧ ((s.fillFail id).tile f.tag f.die b f.tile).st = .empty ∧
      ((s.fillFail id).tile f.tag f.die b f.tile).err = true ∧ ((s.fillFail id).tile f.tag f.die b f.tile).pend = 0 ∧
      (s.fillFail id).mem = s.mem := by
  have hset : Tbl.find (s.setFill id { f with failed := true, parked := [] }).fills id = some { f with failed := true, parked := [] } :=
    Tbl.find_set_same ..
  have hfail : s.fillFail id = (s.setFill id { f with failed := true, parked := [] }).fillBayDone id b := by
    unfold State.fillFail
    rw [hf]
    exact (State.fillStop_quiet hset rfl hread hp hb).trans (State.fillBayEnd_drained b hset hd)
  rw [hfail, State.fillBayDone_only hset hb _ rfl]
  dsimp only
  rw [if_pos rfl]
  refine ⟨Tbl.find_del_same .., ?_, ?_, ?_, rfl⟩ <;> exact congrArg _ (State.tile_setTile ..)

/- FILL_READ_STEP (R233). -/

/-- A slice's oldest entry that one read alone has joined, with no store of its line in the reader's die's buffer. -/
theorem State.fillReadStep_one {s : State} {die bay tag key d : Nat} {j : SliceJoin} {rest : List MergeEntry}
    (hm : (s.unit (spOf die bay)).merge = ⟨tag, key, [j]⟩ :: rest) (hd : s.joinDie j.who = some d) (hb : s.buffered d (vaultLine key) = []) :
    s.fillReadStep die bay 0 = some ((((s.modUnit (spOf die bay) (fun c => { c with merge := rest })).joinStep (vaultLine key)
      (s.lineBad 0 (vaultLine key)) j).sliceEat s (vaultLine key) (s.lineBad 0 (vaultLine key)) j.who).modUnit (spOf die bay) (·.refill)) := by
  unfold State.fillReadStep
  dsimp only
  rw [hm]
  exact if_neg (by simp [hd, hb])

/-- The free places of a merge table whose oldest entry has left go to the waiting reads (R345). -/
theorem State.merge_refill {s t : State} {u : UnitId} {rest : List MergeEntry}
    (h : t.unit u = (s.modUnit u (fun c => { c with merge := rest })).unit u) :
    ((t.modUnit u (·.refill)).unit u).merge = (takeEntries rest (s.unit u).mergeWait).1 := by
  rw [State.unit_modUnit, h, State.unit_modUnit]
  rfl

theorem State.joinStep_fill (s : State) (loc : Loc) (bad : List Bool) (id line : Nat) (r : Bool) (va : W64) (z : Nat) :
    s.joinStep loc bad ⟨.fill id line, r, va, z⟩ = s.fillHomeRead ⟨loc, true, r, false, 16⟩ id line bad := rfl

theorem State.joinStep_strand (s : State) (loc : Loc) (bad : List Bool) (x : Nat) (r : Bool) (va : W64) (z : Nat) :
    s.joinStep loc bad ⟨.strand x, r, va, z⟩ = s.strandSliceRead x loc r bad := rfl

theorem State.sliceEat_fill (s s0 : State) (loc : Loc) (bad : List Bool) (id line : Nat) : s.sliceEat s0 loc bad (.fill id line) = s := rfl

theorem State.sliceEat_clear (s : State) {s0 : State} (loc : Loc) {bad : List Bool} {x : Nat} {m : MemOp} {kd : MKind}
    (hl : s0.sliceLoad x = some (m, kd)) (hb : spanBad bad m.sliceSpan = false) : s.sliceEat s0 loc bad (.strand x) = s := by
  unfold State.sliceEat
  dsimp only
  rw [hl]
  exact if_neg (by rw [hb]; exact Bool.false_ne_true)

theorem vaultLine_here (key : Nat) (v : Nat) (g : W64) : vaultLine key ≠ .foreign v g := by unfold vaultLine; exact nofun

theorem State.unit_setFill (s : State) (id : Nat) (f : Fill) (u : UnitId) : (s.setFill id f).unit u = s.unit u := rfl

theorem State.bytesAt_modUnit (s : State) (u : UnitId) (f : CoreUnit → CoreUnit) (tag : Nat) (l : Loc) (n : Nat) :
    (s.modUnit u f).bytesAt tag l n = s.bytesAt tag l n := by
  cases l <;> rfl

/-- The packets of a fill's line that its slice has read leave for each bay. -/
theorem State.fillReadStep_fill {s : State} {id line die bay key : Nat} {f : Fill} {rest : List MergeEntry} {r : Bool} {va : W64} {z : Nat}
    (hf : Tbl.find s.fills id = some f) (hm : (s.unit (spOf die bay)).merge = ⟨f.tag, key, [⟨.fill id line, r, va, z⟩]⟩ :: rest)
    (hfill : Claims.Filling f) (hb : s.buffered f.die (vaultLine key) = []) :
    ∃ s' f', s.fillReadStep die bay 0 = some s' ∧ Tbl.find s'.fills id = some f' ∧ s'.mem = s.mem ∧
      Claims.Sent id f f' line (s.bytesAt f.tag (vaultLine key) 128) ∧
      (s'.unit (spOf die bay)).merge = (takeEntries rest (s.unit (spOf die bay)).mergeWait).1 := by
  have hstep := State.fillReadStep_one hm (d := f.die) (by rw [State.joinDie, hf]; rfl) hb
  generalize hs1 : s.modUnit (spOf die bay) (fun c => { c with merge := rest }) = s1 at hstep
  obtain ⟨x, hx⟩ : ∃ x : XLoc, x = ⟨vaultLine key, true, r, false, 16⟩ := ⟨_, rfl⟩
  have hro := ReadsOnly.homeRead s1 f.ord f.die f.tag x 128
  have hbs : (s1.homeRead f.ord f.die f.tag x 128).1.bs = s.bytesAt f.tag (vaultLine key) 128 := by
    rw [State.homeRead_bs _ _ _ _ _ _ (by rw [hx]; exact vaultLine_here key), hx, ← hs1, State.bytesAt_modUnit]
  generalize ht : (s1.homeRead f.ord f.die f.tag x 128).2.errCarry (vaultLine key) (s.lineBad 0 (vaultLine key)) f line = t
  obtain ⟨f', hrep, -, hsent⟩ := State.fillReply_sends t id line (s1.homeRead f.ord f.die f.tag x 128).1 (s.lineBad 0 (vaultLine key)) false hfill
  have hjoin : s1.fillHomeRead x id line (s.lineBad 0 (vaultLine key)) = t.setFill id f' := by
    unfold State.fillHomeRead
    rw [show Tbl.find s1.fills id = some f by rw [← hs1]; exact hf]
    dsimp only
    rw [show x.loc = vaultLine key by rw [hx], ht, hrep]
  have hmt : t.mem = s.mem := by rw [← ht, State.errCarry_frame]; exact hro.mem.trans (by rw [← hs1]; rfl)
  have hut : t.unit (spOf die bay) = s1.unit (spOf die bay) := by
    rw [← ht, State.errCarry_frame]; exact congrArg (Tbl.get _ · _) hro.units
  rw [State.joinStep_fill, State.sliceEat_fill, ← hx, hjoin] at hstep
  rw [hbs] at hsent
  have hmerge := State.merge_refill (s := s) (t := t.setFill id f') (u := spOf die bay) (rest := rest) (by
    rw [State.unit_setFill, hut, hs1])
  refine ⟨_, f', hstep, ?_, ?_, hsent, hmerge⟩
  · rw [State.modUnit_fills, State.setFill_fills, Tbl.find_set_same]
  · rw [State.modUnit_mem, State.setFill_mem, hmt]

/- A strand's load that joined a slice's read. -/

theorem readBytes_length (m : Memory) (a n : Nat) : (m.readBytes a n).length = n := by
  induction n generalizing a with
  | zero => rfl
  | succ n ih => rw [Memory.readBytes, List.length_cons, ih]

theorem leNat_lt (bs : List Byte) : leNat bs < 2 ^ (8 * bs.length) := by
  induction bs with
  | nil => exact Nat.one_pos
  | cons b bs ih =>
    have hb : b.toNat < 256 := b.isLt
    rw [leNat, List.length_cons, Nat.mul_add, Nat.pow_add]
    omega

theorem sextN_eq_signExtend {v n : Nat} (hn64 : n ≤ 64) (h : v < 2 ^ n) : sextN v n = (BitVec.ofNat n v).signExtend 64 := by
  have hv : (BitVec.ofNat n v).toNat = v := by rw [BitVec.toNat_ofNat, Nat.mod_eq_of_lt h]
  have hm : (BitVec.ofNat n v).msb = decide (2 ^ (n - 1) ≤ v) := by rw [BitVec.msb_eq_decide, hv]
  have hp : 2 ^ n ≤ 2 ^ 64 := Nat.pow_le_pow_right (by omega) hn64
  refine BitVec.eq_of_toNat_eq ?_
  rw [BitVec.toNat_signExtend, hm, BitVec.toNat_setWidth, hv, sextN]
  split
  · next hlt => rw [decide_eq_false (by omega), if_neg (by exact Bool.false_ne_true)]; rfl
  · next hge =>
    rw [decide_eq_true (by omega), if_pos rfl, w64, BitVec.toNat_ofNat, Nat.mod_eq_of_lt (a := v) (by omega)]
    exact Nat.mod_eq_of_lt (by omega)

/-- A load of a kind gives its bytes' number, extended as its mnemonic says (Table 12-3). -/
theorem MKind.extend_eq_loaded (k : MKind) {bs : List Byte} (h : bs.length = MKind.bytes k) : MKind.extend k bs = Claims.loaded k (leNat bs) := by
  have hlt := leNat_lt bs
  rw [h] at hlt
  cases k with
  | sb => exact congrArg zext128 (sextN_eq_signExtend (by decide) hlt)
  | sh => exact congrArg zext128 (sextN_eq_signExtend (by decide) hlt)
  | sw => exact congrArg zext128 (sextN_eq_signExtend (by decide) hlt)
  | ub => rfl
  | uh => rfl
  | uw => rfl
  | d => rfl
  | q => rfl

/-- Of a line's sixteen marks, those of a span's words are clear when the span's words are. -/
theorem spanBad_lineBad {s : State} {tag die bay o a n : Nat} (ho : 128 ∣ o) (h : s.badAt tag (.vault die bay (o + a)) n = false) :
    spanBad (s.lineBad 0 (.vault die bay o)) (a, n) = false := by
  obtain ⟨q, rfl⟩ := ho
  have hk : ∀ j, vaultKey die bay (128 * q + j) = 8 * (bayNo die bay * 2 ^ 22 + 16 * q) + j := fun j => by unfold vaultKey; omega
  rw [State.badAt, State.keyOf] at h
  dsimp only at h
  rw [hk, List.any_eq_false] at h
  rw [spanBad, List.any_eq_false]
  intro e he
  obtain ⟨i, hi, rfl⟩ := List.mem_iff_getElem.mp he
  rw [List.length_take] at hi
  rw [List.getElem_take, List.getElem_drop]
  unfold State.lineBad
  rw [List.getElem_map, List.getElem_range]
  change ¬ (s.badAt 0 (.vault die bay (128 * q + 8 * (a / 8 + i))) 8) = true
  rw [State.badAt, State.keyOf]
  dsimp only
  rw [hk, List.any_eq_true]
  rintro ⟨w, hw, hbad⟩
  refine h w ?_ hbad
  rw [mem_fromUp] at hw ⊢
  omega

/-- A strand's load at a slice is answered with the bytes that stand there. -/
theorem State.fillReadStep_strand {s : State} {x die bay key tag : Nat} {m : MemOp} {kd : MKind} {rest : List MergeEntry} {r : Bool} {va : W64}
    {z : Nat} {l : Loc} (hm : (s.unit (spOf die bay)).merge = ⟨tag, key, [⟨.strand x, r, va, z⟩]⟩ :: rest) (hw : (s.strand x).wait = .mem m)
    (hst : m.stage = .slice) (hh : m.half = none) (ha : m.act = .load kd) (hn : m.size = MKind.bytes kd) (hl : l = (vaultLine key).plus (m.ea.toNat % 128))
    (hbad : s.badAt (s.strand x).tag l m.size = false) (hb : s.buffered (s.unitOf x).die (vaultLine key) = []) :
    ∃ s', s.fillReadStep die bay 0 = some s' ∧ s'.mem = s.mem ∧
      (s'.strand x).wait = .reply (Reply.mk m.d (Claims.loaded kd (leNat (s.bytesAt (s.strand x).tag l m.size))) none 0 none) := by
  have hstep := State.fillReadStep_one hm (d := (s.unitOf x).die) rfl hb
  have hspan : m.sliceSpan = (m.ea.toNat % 128, m.size) := by unfold MemOp.sliceSpan; rw [hh]
  have hload : ∀ t : State, t.strand x = s.strand x → t.sliceLoad x = some (m, kd) := by
    intro t ht
    unfold State.sliceLoad State.memOp
    rw [ht, hw]
    dsimp only
    rw [ha, hst]
  have hmark : spanBad (s.lineBad 0 (vaultLine key)) (m.ea.toNat % 128, m.size) = false := by
    rw [hl] at hbad
    exact spanBad_lineBad (Nat.dvd_mul_left ..) hbad
  rw [State.joinStep_strand, State.sliceEat_clear _ _ (hload s rfl) (by rw [hspan]; exact hmark)] at hstep
  generalize hs1 : s.modUnit (spOf die bay) (fun c => { c with merge := rest }) = s1 at hstep
  have hx1 : s1.strand x = s.strand x := by rw [← hs1]; rfl
  obtain ⟨xl, hxl⟩ : ∃ xl : XLoc, xl = ⟨(vaultLine key).plus (m.ea.toNat % 128), true, r, false, 16⟩ := ⟨_, rfl⟩
  have hro := ReadsOnly.homeRead s1 (s1.strand x).ord (s1.dieOf x) (s1.strand x).tag xl m.size
  have hbs : (s1.homeRead (s1.strand x).ord (s1.dieOf x) (s1.strand x).tag xl m.size).1.bs = s.bytesAt (s.strand x).tag l m.size := by
    rw [State.homeRead_bs _ _ _ _ _ _ (by rw [hxl]; exact nofun), hxl, hl, ← hs1, State.bytesAt_modUnit]
    rfl
  have hlen : (s.bytesAt (s.strand x).tag l m.size).length = MKind.bytes kd := by
    rw [hl, ← hn]
    exact readBytes_length ..
  have hread : s1.strandSliceRead x (vaultLine key) r (s.lineBad 0 (vaultLine key)) =
      ((s1.homeRead (s1.strand x).ord (s1.dieOf x) (s1.strand x).tag xl m.size).2.modStrand x (fun t =>
        { t with ord := (s1.homeRead (s1.strand x).ord (s1.dieOf x) (s1.strand x).tag xl m.size).1.ord })).answer x
          (result m.d (Claims.loaded kd (leNat (s.bytesAt (s.strand x).tag l m.size)))) := by
    unfold State.strandSliceRead
    rw [hload s1 hx1]
    dsimp only
    rw [hspan, hmark, if_neg Bool.false_ne_true, hh, ← MKind.extend_eq_loaded kd hlen, ← hbs, hxl]
  rw [hread] at hstep
  refine ⟨_, hstep, ?_, congrArg Strand.wait (State.strand_answer ..)⟩
  exact hro.mem.trans (by rw [← hs1]; rfl)

/- The steps of tiles. -/

theorem State.land_frame (s : State) (p : Landing) : s.land p = { s with tens := (s.land p).tens } := by
  unfold State.land; split <;> rfl

/-- A packet that lands changes no entry of a tile. -/
theorem State.tile_land (s : State) (p : Landing) (tag die bay n : Nat) : (s.land p).tile tag die bay n = s.tile tag die bay n := by
  unfold State.land
  split
  · rfl
  · unfold State.tile State.ten State.modTen
    dsimp only
    by_cases hk : tenKey die bay tag = tenKey p.die p.bay p.tag
    · rw [hk, Tbl.get_set_same]; rfl
    · rw [Tbl.get_set_ne _ _ _ hk]

/-- What a landing packet changes: memory, its poison, its line's times and the record of its counter. -/
theorem State.landLine_spec {s : State} {f : Fill} {p : FillPacket} {e : Tile} (he : e = s.tile f.tag f.die p.bay f.tile)
    (hin : inPart (s.spadPart f.tag f.die p.bay) ((e.base + p.line) * 128) 128 = true) :
    ∃ t : State, s.landLine f p = t.setTile f.tag f.die p.bay f.tile { e with pend := e.pend - 1 } ∧
      t = { s with mem := t.mem, poison := t.poison, lines := t.lines, tens := t.tens } ∧
      t.mem = s.mem.writeBytes (s.spadAt f.tag f.die p.bay ((e.base + p.line) * 128)) p.bytes := by
  unfold State.landLine
  dsimp only [Tile.lineOff]
  rw [← he, if_pos hin]
  refine ⟨_, rfl, ?_, ?_⟩
  all_goals
    unfold State.plainStore
    rw [show (Loc.spad f.die p.bay ((e.base + p.line) * 128)).target f.die = none from if_pos rfl]
    dsimp only [State.land?, State.writeAt, State.storeTimes]
    rw [State.land_frame]
    rfl

theorem State.fillBayDone_mem (s : State) (id b : Nat) : (s.fillBayDone id b).mem = s.mem := by
  unfold State.fillBayDone
  split
  · rfl
  · dsimp only
    split <;> rfl

theorem State.fillBayEnd_mem (s : State) (id b : Nat) : (s.fillBayEnd id b).mem = s.mem := by
  unfold State.fillBayEnd
  split
  · rfl
  · split
    · exact State.fillBayDone_mem ..
    · rfl

/-- Where a fill ends at a bay, its tile is ready, or empty with ERR where the fill has failed (R92). -/
theorem State.tile_fillBayDone {s : State} {id b : Nat} {f : Fill} (hf : Tbl.find s.fills id = some f) :
    (s.fillBayDone id b).tile f.tag f.die b f.tile =
      if f.failed then { s.tile f.tag f.die b f.tile with cs := (s.releaseBy f.ord f.die).completion, st := .empty, err := true, pend := 0 }
      else { s.tile f.tag f.die b f.tile with cs := (s.releaseBy f.ord f.die).completion, st := .ready } := by
  unfold State.fillBayDone
  rw [hf]
  dsimp only
  split
  · exact State.tile_setTile ..
  · exact State.tile_setTile ..

theorem State.tile_setFill (s : State) (id : Nat) (f : Fill) (tag die bay n : Nat) : (s.setFill id f).tile tag die bay n = s.tile tag die bay n := rfl

/-- TILE_LANDING of a fill that goes on (R92). -/
theorem State.tileLanding_spec {s : State} {id i : Nat} {f : Fill} {p : FillPacket} {e : Tile} (hf : Tbl.find s.fills id = some f)
    (hp : f.packets[i]? = some p) (hok : f.failed = false) (he : e = s.tile f.tag f.die p.bay f.tile)
    (hin : inPart (s.spadPart f.tag f.die p.bay) ((e.base + p.line) * 128) 128 = true) :
    ∃ s', s.tileLanding id i = some s' ∧ s'.mem = s.mem.writeBytes (s.spadAt f.tag f.die p.bay ((e.base + p.line) * 128)) p.bytes ∧
      (2 ≤ e.pend → s'.tile f.tag f.die p.bay f.tile = { e with pend := e.pend - 1 }) ∧
      (e.pend = 1 → s.drained f.die f.foreign s.serial = true → (s'.tile f.tag f.die p.bay f.tile).st = .ready) := by
  obtain ⟨t, hland, ht, hmem⟩ := State.landLine_spec he hin
  obtain ⟨g, hg⟩ : ∃ g : Fill, g = { f with packets := f.packets.eraseIdx i } := ⟨_, rfl⟩
  obtain ⟨s1, hs1⟩ : ∃ s1 : State, s1 = (s.landLine f p).setFill id g := ⟨_, rfl⟩
  have htile : s1.tile f.tag f.die p.bay f.tile = { e with pend := e.pend - 1 } := by
    rw [hs1, State.tile_setFill, hland, State.tile_setTile]
  have hm1 : s1.mem = s.mem.writeBytes (s.spadAt f.tag f.die p.bay ((e.base + p.line) * 128)) p.bytes := by
    rw [hs1, State.setFill_mem, hland, ← hmem]
    rfl
  have hstep : s.tileLanding id i = some (if e.pend - 1 = 0 then s1.fillBayEnd id p.bay else s1) := by
    unfold State.tileLanding
    rw [hf]
    dsimp only
    rw [hp]
    dsimp only
    rw [← hg, ← hs1, if_neg (by rw [hok]; exact Bool.false_ne_true), htile]
  by_cases hpend : e.pend - 1 = 0
  · have hf1 : Tbl.find s1.fills id = some g := by rw [hs1, State.setFill_fills, Tbl.find_set_same]
    rw [if_pos hpend] at hstep
    refine ⟨_, hstep, (State.fillBayEnd_mem ..).trans hm1, fun h => by omega, fun _ hd => ?_⟩
    rw [State.fillBayEnd_drained p.bay hf1 (by rw [hs1, hland, ht, hg]; exact hd)]
    have hgo := State.tile_fillBayDone hf1 (b := p.bay)
    rw [show g.failed = false by rw [hg]; exact hok, if_neg Bool.false_ne_true] at hgo
    rw [hg] at hgo
    exact congrArg Tile.st hgo
  · rw [if_neg hpend] at hstep
    exact ⟨_, hstep, hm1, fun _ => htile, fun h => by omega⟩

/-- Whether every bay of a multicast fill has taken its start, once the one at `i` has. -/
theorem all_accepted_iff {l : List FillBay} {i : Nat} {b : FillBay} (hi : i < l.length) (hb : b.accepted = true) :
    (l.set i b).all (fun e => e.accepted) = true ↔ ∀ j c, l[j]? = some c → j ≠ i → c.accepted = true := by
  rw [List.all_eq_true]
  constructor
  · intro h j c hj hne
    refine h c (List.mem_iff_getElem?.mpr ⟨j, ?_⟩)
    rw [List.getElem?_set_ne (Ne.symm hne), hj]
  · intro h c hc
    obtain ⟨j, hj⟩ := List.mem_iff_getElem?.mp hc
    by_cases hji : j = i
    · rw [hji, List.getElem?_set_self hi] at hj
      exact Option.some.inj hj ▸ hb
    · rw [List.getElem?_set_ne (Ne.symm hji)] at hj
      exact h j c hj hji

section
variable {s : State} {id i : Nat} {f : Fill} {b : FillBay} {e : Tile} (hf : Tbl.find s.fills id = some f) (hb : f.bays[i]? = some b)
  (he : e = s.tile f.tag f.die b.bay f.tile)
include hf hb he

/-- A start that a bay's tile is not free for waits (R344). -/
theorem State.multicastAccept_busy (hst : e.st = .filling ∨ e.st = .draining) : s.multicastAccept id i = none := by
  unfold State.multicastAccept
  rw [hf]
  dsimp only
  rw [hb]
  dsimp only
  rw [← he]
  refine if_pos ?_
  obtain h | h := hst <;> rw [h] <;> exact Bool.or_true _

/-- MULTICAST_START_ACCEPT at a free tile (R344). -/
theorem State.multicastAccept_spec (hacc : b.accepted = false) (hopen : f.open_ = false) (hst : e.st = .empty ∨ e.st = .ready) :
    ∃ s' f', s.multicastAccept id i = some s' ∧ Tbl.find s'.fills id = some f' ∧
      (f'.open_ = true ↔ ∀ j c, f.bays[j]? = some c → j ≠ i → c.accepted = true) ∧
      s'.tile f.tag f.die b.bay f.tile = if e.len + 1 = f.lines then { e with st := .filling, mc := true, err := false, pend := f.lines }
        else { e with st := .empty, err := true } := by
  obtain ⟨b', hb'⟩ : ∃ b' : FillBay, b' = { b with accepted := true, refused := !(e.len + 1 == f.lines), done := !(e.len + 1 == f.lines) } :=
    ⟨_, rfl⟩
  obtain ⟨g, hg⟩ : ∃ g : Fill, g = { f with bays := f.bays.set i b', open_ := (f.bays.set i b').all (fun e => e.accepted) } := ⟨_, rfl⟩
  obtain ⟨s2, hs2⟩ : ∃ s2 : State, s2 = (s.setTile f.tag f.die b.bay f.tile (if (e.len + 1 == f.lines) = true then
    { e with st := .filling, mc := true, err := false, pend := f.lines } else { e with st := .empty, err := true })).setFill id g := ⟨_, rfl⟩
  have hguard : ¬ (b.accepted || f.open_ || !(e.st == .empty || e.st == .ready)) = true := by
    rw [hacc, hopen]
    obtain h | h := hst <;> rw [h] <;> decide
  have hstep : ∃ s', s.multicastAccept id i = some s' ∧ s'.fills = s2.fills ∧ s'.tens = s2.tens := by
    unfold State.multicastAccept
    rw [hf]
    dsimp only
    rw [hb]
    dsimp only
    rw [← he, if_neg hguard]
    refine ⟨_, rfl, ?_⟩
    rw [← hb', ← hg, ← hs2]
    split
    · split
      · exact ⟨rfl, rfl⟩
      · exact ⟨rfl, rfl⟩
    · exact ⟨rfl, rfl⟩
  obtain ⟨s', hs', hfills, htens⟩ := hstep
  refine ⟨s', g, hs', ?_, ?_, ?_⟩
  · rw [hfills, hs2, State.setFill_fills, Tbl.find_set_same]
  · rw [hg]
    exact all_accepted_iff (List.getElem?_eq_some_iff.mp hb).1 (by rw [hb'])
  · have htile : s'.tile f.tag f.die b.bay f.tile = s2.tile f.tag f.die b.bay f.tile := by
      unfold State.tile State.ten
      rw [htens]
    rw [htile, hs2, State.tile_setFill, State.tile_setTile]
    simp only [beq_iff_eq]

end

/- Drains. -/

/-- Where a byte of this device stands. -/
theorem home_of_key {s : State} {tag d k : Nat} {l : Loc} (hh : l.die? = some d) (hk : s.keyOf tag l = some k) :
    l.target d = none ∧ ∀ v g, l ≠ .foreign v g := by
  cases l with
  | vault h b o => exact ⟨if_pos (Option.some.inj hh), nofun⟩
  | spad h b o => exact ⟨if_pos (Option.some.inj hh), nofun⟩
  | rwin _ _ _ _ _ => exact absurd hk nofun
  | foreign _ _ => exact absurd hh nofun

/-- A plain store at a home on its own die writes its bytes there (R67). -/
theorem State.plainStore_home {s t : State} {o : OrderState} {d tag k : Nat} {l : Loc} {bs : List Byte} {src : Issuer} (hh : l.die? = some d)
    (hk : s.keyOf tag l = some k) (ht : t = (s.plainStore o d tag l bs none src).2) :
    t.mem = s.mem.writeBytes k bs ∧ t = { s with mem := t.mem, poison := t.poison, lines := t.lines, parts := t.parts } := by
  obtain ⟨hnone, -⟩ := home_of_key hh hk
  unfold State.plainStore at ht
  rw [hnone] at ht
  cases l with
  | vault h b o => rw [ht, ← Option.some.inj hk]; exact ⟨rfl, rfl⟩
  | spad h b o => rw [ht, ← Option.some.inj hk]; exact ⟨rfl, rfl⟩
  | rwin _ _ _ _ _ => exact absurd hk nofun
  | foreign _ _ => exact absurd hk nofun

theorem State.tile_congr {s t : State} (h : t.tens = s.tens) (tag die bay n : Nat) : t.tile tag die bay n = s.tile tag die bay n := by
  unfold State.tile State.ten
  rw [h]

section
variable {s : State} {id : Nat} {q : Drain} {e : Tile} (hq : Tbl.find s.drains id = some q) (he : e = s.tile q.tag q.die q.bay q.tile)
include hq he

/-- A drain that is not quiet does not end. -/
theorem State.tileDrainReady_none (hl : q.lost = 0) (hok : q.failed = false) (h : e.pend ≠ 0 ∨ q.stored.length ≠ q.lines) :
    s.tileDrainReady id = none := by
  have hquiet : s.drainQuiet q = false := by
    unfold State.drainQuiet
    rw [← he, hok, hl, Bool.false_or, Bool.and_eq_false_iff, beq_eq_false_iff_ne, beq_eq_false_iff_ne]
    omega
  unfold State.tileDrainReady
  rw [hq]
  exact if_pos (by rw [hquiet]; rfl)

/-- A quiet drain whose release is enabled ends: its tile is ready, with ERR where it has failed (R93). -/
theorem State.tileDrainReady_spec (hup : q.upto = none) (hst : q.failed = true ∨ q.stored.length = q.lines)
    (hn : e.pend + q.stored.length = q.lines + q.lost) (hd : s.drained q.die q.foreign s.serial = true) :
    ∃ s', s.tileDrainReady id = some s' ∧ Tbl.find s'.drains id = none ∧ s'.mem = s.mem ∧ (s'.tile q.tag q.die q.bay q.tile).st = .ready ∧
      (s'.tile q.tag q.die q.bay q.tile).err = (e.err || q.failed) := by
  have hquiet : s.drainQuiet q = true := by
    unfold State.drainQuiet
    rw [← he, Bool.and_eq_true, Bool.or_eq_true, beq_iff_eq, beq_iff_eq]
    exact ⟨hst, hn⟩
  have hstep : s.tileDrainReady id = some (s.drainDone id q) := by
    unfold State.tileDrainReady
    rw [hq]
    dsimp only
    rw [if_neg (by rw [hquiet, hup]; exact Bool.false_ne_true), if_pos hd]
  have htile : (s.drainDone id q).tile q.tag q.die q.bay q.tile =
      { e with st := .ready, err := e.err || q.failed, pend := 0, cs := (s.releaseBy q.ord q.die).completion } := by
    unfold State.drainDone
    rw [← he]
    exact State.tile_setTile ..
  exact ⟨_, hstep, Tbl.find_del_same .., rfl, by rw [htile], by rw [htile]⟩

/-- TILE_DRAIN_STORE of a line whose home is the drain's own die (R93). -/
theorem State.tileDrainStore_spec {s1 : State} {line k : Nat} {l : XLoc} (hp : q.parked = []) (hok : q.failed = false) (hlt : line < q.lines)
    (hnew : line ∉ q.stored) (hm : s1.mem = s.mem) (ht : s1.tens = s.tens)
    (hx : s.xlate (coreOf q.die q.bay) q.tag (q.dst + w64 (128 * line)) 128 .store = (.ok l, s1)) (hh : l.loc.die? = some q.die)
    (hk : s1.keyOf q.tag l.loc = some k) :
    ∃ s', s.tileDrainStore id line = some s' ∧
      s'.mem = s.mem.writeBytes k (s.bytesAt q.tag (.spad q.die q.bay ((e.base + line) * 128)) 128) ∧
      s'.tile q.tag q.die q.bay q.tile = { e with pend := e.pend - 1 } := by
  obtain ⟨src, hsrc⟩ : ∃ src : Loc, src = .spad q.die q.bay ((e.base + line) * 128) := ⟨_, rfl⟩
  have hbs : s1.bytesAt q.tag src 128 = s.bytesAt q.tag src 128 := by
    rw [hsrc]
    unfold State.bytesAt State.spadAt State.away State.ten
    dsimp only
    rw [hm, ht]
  have hro := ReadsOnly.readTimes s1 q.ord q.die src
  obtain ⟨hnone, hfar⟩ := home_of_key hh hk
  have hguard : ¬ (q.failed || !mayTake q.parked line false || decide (q.lines ≤ line) || q.stored.contains line) = true := by
    rw [hok, hp, decide_eq_false (Nat.not_le_of_lt hlt), show q.stored.contains line = false by simpa using hnew]
    exact Bool.false_ne_true
  have hkr : (s1.readTimes q.ord q.die src).2.keyOf q.tag l.loc = some k := by
    rw [← hk, hro]
    rfl
  obtain ⟨t, ht'⟩ : ∃ t : State, t = ((s1.readTimes q.ord q.die src).2.plainStore (s1.readTimes q.ord q.die src).1 q.die q.tag l.loc
    (s.bytesAt q.tag src 128) none (.engine id)).2 := ⟨_, rfl⟩
  obtain ⟨htm, hframe⟩ := State.plainStore_home hh hkr ht'
  obtain ⟨g, hstep, hg⟩ : ∃ g, s.tileDrainStore id line = some ((t.setDrain id g).drainAck id) ∧ g.tag = q.tag ∧ g.die = q.die ∧
      g.bay = q.bay ∧ g.tile = q.tile := by
    unfold State.tileDrainStore
    rw [hq]
    dsimp only
    rw [if_neg hguard, hx]
    dsimp only [Tile.lineOff]
    rw [s.linkDown_eq_false hfar, if_neg Bool.false_ne_true, hnone, ← he, ← hsrc, hbs, ← ht']
    exact ⟨_, rfl, rfl, rfl, rfl, rfl⟩
  have htile : t.tile q.tag q.die q.bay q.tile = e := by
    rw [he]
    refine State.tile_congr ?_ ..
    rw [hframe, ← ht]
    exact hro.tens
  obtain ⟨hgt, hgd, hgb, hgn⟩ := hg
  have hack : (t.setDrain id g).drainAck id = (t.setDrain id g).setTile q.tag q.die q.bay q.tile { e with pend := e.pend - 1 } := by
    unfold State.drainAck
    rw [State.setDrain_drains, Tbl.find_set_same]
    dsimp only
    rw [hgt, hgd, hgb, hgn, State.tile_congr (State.setDrain_tens ..), htile]
  rw [hack] at hstep
  refine ⟨_, hstep, ?_, State.tile_setTile ..⟩
  rw [show ((t.setDrain id g).setTile q.tag q.die q.bay q.tile { e with pend := e.pend - 1 }).mem = t.mem from rfl, htm, hro.mem, hm, hsrc]

end

end Sys2Proof.Machine
namespace Sys2Proof.Machine

theorem fillReads : Claims.FillReads := by
  unfold Claims.FillReads
  intro s id line f u
  refine ⟨fun hf hu => ⟨?_, ?_, ?_⟩, ?_, fun c tag key j => ⟨?_, ?_⟩, fun a b h => takeEntries_eq h⟩
  · intro l s1 s2 hmr hx hs2 hbuf hrdc
    subst hu hs2
    refine ⟨fun die bay o hl => ?_, fun die bay o hl hfill => ?_⟩
    · change execFillRead id line s = _
      rw [execFillRead, State.fillRead_vault hf hmr hx hl hbuf hrdc, State.ifEnabled_some]
      rfl
    · obtain ⟨s', f', hstep, hfind, hmem, hsent, hpk⟩ := State.fillRead_spad hf hmr hx hl hbuf hrdc hfill
      exact ⟨s', f', congrArg s.ifEnabled hstep, hfind, hmem, hsent, hpk⟩
  · intro c s1 b hmr hx hread hp hb hd
    subst hu
    exact ⟨_, congrArg s.ifEnabled (State.fillRead_trap hf hmr hx), State.fillFail_quiet hf hread hp hb hd⟩
  · intro key rest r va z die bay hm hfill hbuf
    obtain ⟨s', f', hstep, h⟩ := State.fillReadStep_fill hf hm hfill hbuf
    exact ⟨s', f', congrArg s.ifEnabled hstep, h⟩
  · intro x m kd tag key rest r va z die bay l hm hw hst hh ha hn hl hbad hbuf
    obtain ⟨s', hstep, h⟩ := State.fillReadStep_strand hm hw hst hh ha hn hl hbad hbuf
    exact ⟨s', congrArg s.ifEnabled hstep, h⟩
  · intro pre e post hm ht hl hpre
    exact CoreUnit.joinRead_joins hm ht hl hpre
  · intro h
    exact CoreUnit.joinRead_opens h

theorem tileSteps : Claims.TileSteps := by
  unfold Claims.TileSteps
  intro s id line i f u e
  refine ⟨fun hf => ⟨?_, ?_⟩, fun q hq hu he => ⟨?_, ?_, ?_⟩⟩
  · intro p hp hok he _ hin
    obtain ⟨s', hstep, h⟩ := State.tileLanding_spec hf hp hok he hin
    exact ⟨s', congrArg s.ifEnabled hstep, h⟩
  · intro b hb hacc hopen he
    refine ⟨fun hst => congrArg s.ifEnabled (State.multicastAccept_busy hf hb he hst), fun hst => ?_⟩
    obtain ⟨s', f', hstep, h⟩ := State.multicastAccept_spec hf hb he hacc hopen hst
    exact ⟨s', f', congrArg s.ifEnabled hstep, h⟩
  · intro l s1 k hp hok hlt hnew hm ht _ hx hh hk
    subst hu
    obtain ⟨s', hstep, h⟩ := State.tileDrainStore_spec hq he hp hok hlt hnew hm ht hx hh hk
    exact ⟨s', congrArg s.ifEnabled hstep, h⟩
  · intro hup hl hok
    refine ⟨fun h => congrArg s.ifEnabled (State.tileDrainReady_none hq he hl hok h), fun hp hst hd => ?_⟩
    obtain ⟨s', hstep, hdel, hmem, hready, herr⟩ := State.tileDrainReady_spec hq he hup (.inr hst) (by omega) hd
    exact ⟨s', congrArg s.ifEnabled hstep, hdel, hmem, hready, by rw [herr, hok, Bool.or_false]⟩
  · intro hup hok hn hd
    obtain ⟨s', hstep, hdel, hmem, hready, herr⟩ := State.tileDrainReady_spec hq he hup (.inl hok) hn hd
    exact ⟨s', congrArg s.ifEnabled hstep, hdel, hmem, hready, by rw [herr, hok, Bool.or_true]⟩

end Sys2Proof.Machine

namespace Sys2Proof
open Sys2Proof.Machine

/-- Settles O25: the reads of a fill's lines (`fillReads`: at a scratchpad at once, at a slice through its merge table, with the packets of
`fillReply_sends`) and the steps of tiles (`tileSteps`). -/
theorem tileTransfer : Obligations.TileTransfer := ⟨fillReads, tileSteps⟩

end Sys2Proof
end

section
/-!
SUPPORT. O21. The statement ranges over issuing strands with any wait. One that a reply waits for already, which no step turns to, issues LDX with a
prefix pending while no in-flight record is free: the prefix goes to the kept bits, and the statement says that nothing changes.
-/
namespace Sys2Proof.Machine

/-- The scratchpads of row 0 of die 0, writable (Table 1-6). -/
def rowWindow : W128 := .ofNat 128 (2 ^ 127 + 2 ^ 126 + 2 ^ 124 + 2 ^ 79 + 64 * 2 ^ 72 + 0x40000 * 2 ^ 35)

/-- A strand whose w0 addresses the scratchpad of bay 0, with an IMM pending and a reply in its wait. -/
def repliedStrand : Strand :=
  { Strand.init with
    tag := 31, place := .slot (coreOf 0 0) 2, status := .ready, regs := Strand.init.regs.set 0 0xF0000000000200, sts := 0x8000000000000000#64
    wait := .reply nothing }

/-- A fill of bay 0, which holds one in-flight record. -/
def openFill : Fill :=
  { tag := 31, die := 0, bay := 0, tile := 0, src := 0, lines := 1, ord := .zero, multi := false, ctr := none, bays := [], open_ := true, slot := 0
    sent := [], read := [], packets := [], parked := [], foreign := false, failed := false }

/-- All 32 in-flight records of bay 0 are in use. -/
def noRecordFree : State :=
  { State.reset with
    cur := 1, strands := [(1, repliedStrand)], units := [(0, { CoreUnit.init with segs := [⟨31, 0, rowWindow⟩] })]
    fills := (List.range 32).map (fun i => (i, openFill)) }

theorem noRecordFree_xlate : (noRecordFree.xlate (coreOf 0 0) 31 0xF0000000000200 8 .load).1 =
    .ok ⟨.spad 0 0 0x200, true, false, false, 18⟩ := by decide +kernel

/-- A record is wanted and the pending prefix is kept, not left pending. -/
theorem noRecordFree_prefix : ((noRecordFree.prefixTaken 1).strand 1).pfx ≠ (noRecordFree.strand 1).pfx := by decide +kernel

theorem noRecordFree_full {s1 : State} (h : (noRecordFree.xlate (coreOf 0 0) 31 0xF0000000000200 8 .load).2 = s1) :
    s1.recordRoom (s1.unitOf 1) = false := by
  subst h
  decide +kernel

theorem noRecordFree_issue : exec (.ldx (.w 0) 0 0 .bay ⟨false, 0⟩) noRecordFree = .next (noRecordFree.prefixTaken 1) := rfl

end Sys2Proof.Machine

namespace Sys2Proof
open Sys2Proof.Machine

/-- Refutes O21: an LDX that finds no in-flight record free, of a strand whose wait is a reply's, takes its prefix (`noRecordFree_prefix`). -/
theorem not_synchronisingAccess : ¬ Obligations.SynchronisingAccess := by
  intro h
  obtain ⟨s1, hs1⟩ : ∃ s1, s1 = (noRecordFree.xlate (coreOf 0 0) 31 0xF0000000000200 8 .load).2 := ⟨_, rfl⟩
  have hx : noRecordFree.xlate (coreOf 0 0) 31 0xF0000000000200 8 .load = (.ok ⟨.spad 0 0 0x200, true, false, false, 18⟩, s1) :=
    Prod.ext noRecordFree_xlate hs1.symm
  have hcard : noRecordFree.me.card = none := by decide +kernel
  obtain ⟨-, hok⟩ := h.1 noRecordFree noRecordFree s1 (.w 0) .wz 0 0 0 0 .bay ⟨false, 0⟩ 0xF0000000000200 ⟨.spad 0 0 0x200, true, false, false, 18⟩
    (.ldx (.w 0) 0 0 .bay ⟨false, 0⟩) noRecordFree (fun l => Claims.opAt noRecordFree (.ldx .bay) 0xF0000000000200 8 0 (.w 0) l true) .load
    (guardTrue_iff.mp (by decide +kernel)) (.inr ⟨0, by unfold Claims.ImmPending; decide +kernel⟩) (by decide +kernel) ⟨by decide, by decide⟩
    (.inl ⟨rfl, rfl, rfl, rfl, nofun, fun id hid => by rw [hcard] at hid; exact absurd hid nofun⟩) rfl rfl rfl (by rw [hs1]; decide +kernel)
  have hne := (hok (by unfold Claims.windowed; decide +kernel) hx).1 0 0 0x200 rfl (.inl (by decide +kernel))
  rw [show s1.recordRoom (s1.unitOf noRecordFree.cur) = false from noRecordFree_full hs1.symm, if_neg Bool.false_ne_true] at hne
  have hs := Host.Outcome.next.inj (noRecordFree_issue.symm.trans hne)
  exact noRecordFree_prefix (by rw [hs])

end Sys2Proof
end

section
/-!
SUPPORT. O23. The statement ranges over waits that no instruction makes: of LD.SB, which reads one byte, with the half of a 16-byte access performed. Of its
ten bytes the model extends the whole number from bit 7, and the statement its low byte.
-/
namespace Sys2Proof.Machine

/-- A byte load with the low half of 16 bytes performed. -/
def halfByteLoad : MemOp :=
  { act := .load .sb, ea := 0xF0000000000200, size := 1, data := 0, d := .w 4, loc := some ⟨.spad 0 0 0x200, true, false, false, 18⟩, stage := .go
    upto := 0, rel := true, tries := 0, parkedFor := 0, half := some (false, [0, 2]), again := false }

/-- A strand in a slot of bay 0 waits for it. -/
def halfByteLoading : State :=
  { State.reset with strands := [(1, { Strand.init with tag := 31, place := .slot (coreOf 0 0) 2, status := .waiting, wait := .mem halfByteLoad })] }

theorem halfByteLoading_access : exec (.homeAccess 1) halfByteLoading = .next ((halfByteLoading.homeAccess 1).getD halfByteLoading) := rfl

/-- The answer is 0x100. -/
theorem halfByteLoading_answer : (((halfByteLoading.homeAccess 1).getD halfByteLoading).strand 1).wait =
    .reply (Reply.mk (.w 4) 0x100 none 0 none) := by decide +kernel

/-- What the statement has it be. -/
theorem halfByteLoading_loaded : Claims.loaded .sb (leNat ([0, 2] ++ halfByteLoading.bytesAt 31 (.spad 0 0 0x208) 8)) = 0 := by decide +kernel

end Sys2Proof.Machine

namespace Sys2Proof
open Sys2Proof.Machine

/-- Refutes O23: the second half of a byte load (`halfByteLoading_answer`, `halfByteLoading_loaded`). -/
theorem not_homeAccessAndBuffers : ¬ Obligations.HomeAccessAndBuffers := by
  intro h
  obtain ⟨-, hhalf, -⟩ := h.1 halfByteLoading halfByteLoading 1 (halfByteLoading.strand 1) halfByteLoad ⟨.spad 0 0 0x200, true, false, false, 18⟩ 0 0
    (spadKey 0 0 0x200) rfl (by unfold Claims.ReadyAccess; decide +kernel) rfl rfl (by unfold Claims.HasKey; decide +kernel) rfl
  have hs := Host.Outcome.next.inj (halfByteLoading_access.symm.trans (hhalf .sb false [0, 2] rfl rfl rfl (by decide +kernel) _ rfl))
  have hw := halfByteLoading_answer
  rw [hs] at hw
  change Wait.reply (Reply.mk (.w 4) (Claims.loaded .sb (leNat ([0, 2] ++ halfByteLoading.bytesAt 31 (.spad 0 0 0x208) 8))) none 0 none) = _ at hw
  rw [halfByteLoading_loaded] at hw
  exact absurd hw (by decide)

end Sys2Proof
end

section
/-!
SUPPORT. O59. Every instruction and every step of the device answers a next state, and so does what a choice comes to.
-/
namespace Sys2Proof.Machine

/-- The arms of the dispatch: each is an issue, a step where it is enabled, or a next state written out. -/
theorem exec_next (i : Instr) (s : State) : ∃ t, exec i s = .next t := by
  cases i
  case deviceRelease r => cases r <;> exact ⟨_, rfl⟩
  all_goals exact ⟨_, rfl⟩

/-- What performing a plan answers. -/
def Plan.outcome : Plan → Out
  | .stay t => .next t
  | .event i t => exec i t
  | .issue i t =>
    match exec i t with
    | .next u => .next (settleTurn i t u)
    | .fault f => .fault f
    | .refused r => .refused r

/-- A step performs the plan of its choice. -/
theorem step_eq_outcome (s : State) : step s = (s.nextChoice.2.plan s.nextChoice.1).outcome := rfl

theorem Plan.outcome_issue {i : Instr} {t u : State} (h : exec i t = .next u) : (Plan.issue i t).outcome = .next (settleTurn i t u) := by
  simp [outcome, h]

theorem Plan.outcome_next (p : Plan) : ∃ t, p.outcome = .next t := by
  cases p with
  | stay t => exact ⟨t, rfl⟩
  | event i t => exact exec_next i t
  | issue i t =>
    obtain ⟨u, hu⟩ := exec_next i t
    exact ⟨_, outcome_issue hu⟩

theorem step_next (s : State) : ∃ t, step s = .next t := Plan.outcome_next _

end Sys2Proof.Machine

namespace Sys2Proof

/-- Settles O59: by the arms of the dispatch, and by what the plan of a step answers. -/
theorem everyStepAnswers : Obligations.EveryStepAnswers := ⟨Machine.exec_next, Machine.step_next⟩

end Sys2Proof
end

section
/-!
SUPPORT. O48. The resets of R330 come one after another, and the delivery of a later partition is performed after the strands of an earlier one
are gone. `State.messageDelivery` raises the sender's time (R82) whether or not the sender is still listed, and an unlisted one is then listed
again, with the tag 0 of `Strand.init`.
-/
namespace Sys2Proof.Machine

/-- A delivery of partition 1 is on its way to the strand of slot 1 of bay 0, from a strand that has stopped since: strand 7 is listed no more. -/
def freedSender : State :=
  { State.reset with
    strands := [(1, { Strand.init with tag := 1, place := .slot (coreOf 0 0) 1, status := .ready, nslot := 1 })]
    msgs := [(0, .deliver 1 0x100000000 2 5 7 0 0 .zero)] }

theorem freedSender_reset : exec .pf0Reset freedSender = .next freedSender.pf0Reset := rfl

/-- Strand 7 is there after the reset, as one of partition 0. -/
theorem freedSender_listed : freedSender.pf0Reset.strands.map (fun e => (e.1, e.2.tag)) = [(7, 0)] := by decide +kernel

end Sys2Proof.Machine

namespace Sys2Proof
open Sys2Proof.Machine

/-- Refutes O48: a reset of physical function 0 leaves a strand of partition 0 where the sender of a delivery of partition 1 is no longer listed
(`freedSender_listed`). -/
theorem not_partitionResetResult : ¬ Obligations.PartitionResetResult := by
  intro h
  obtain ⟨-, -, t, ht, htags, -⟩ := h freedSender 0
  obtain rfl : freedSender.pf0Reset = t := Host.Outcome.next.inj (freedSender_reset.symm.trans ht)
  have hmem : (7, 0) ∈ freedSender.pf0Reset.strands.map (fun e => (e.1, e.2.tag)) := by simp [freedSender_listed]
  obtain ⟨e, he, heq⟩ := List.mem_map.mp hmem
  have htag : e.2.tag = 0 := congrArg Prod.snd heq
  exact absurd (htags e he).1 (by omega)

end Sys2Proof
end

section
/-!
SUPPORT. O29. The heddle instructions at issue: what the checks of the operand and of the instance let pass, and where they stop.
-/
namespace Sys2Proof.Machine

section
variable {s s' : State} {d : Dst} {a b : Src} {g : Guard} {i : Instr} {v q : W128} {die inst c : Nat} {md : Option Bool}
  {body : Nat → Nat → State → State}

/-- The instance is the tenant's, or firmware asks (R106). -/
theorem tenant_check_passes {w : W64} {tag : Nat} (h : w.toNat / 2 ^ 53 % 32 = tag ∨ tag = 31) : (bits w 57 53 != tag && tag != 31) = false := by
  rcases h with h | h
  · have hb : bits w 57 53 = tag := h
    simp only [hb, bne_self_eq_false, Bool.false_and]
  · simp only [h, bne_self_eq_false, Bool.and_false]

theorem State.instCheck_of_mayUse (h : Claims.MayUse s die inst md) : s.instCheck s.me.tag die inst md = none := by
  obtain ⟨-, -, hv, ht, hm⟩ := h
  have hvalid : bit (s.inst die inst).w0 63 = true := hv
  simp only [State.instCheck, tenant_check_passes ht, hvalid]
  cases md with
  | none => rfl
  | some b =>
    have hb : (s.inst die inst).barrier = b := hm b rfl
    simp [hb]

theorem State.instCheck_of_refuses (h : Claims.Refuses s die inst md c) : s.instCheck s.me.tag die inst md = some c := by
  rcases h with ⟨hne, h31, rfl⟩ | ⟨ht, rfl, hm⟩
  · have hb : bits (s.inst die inst).w0 57 53 ≠ s.me.tag := hne
    simp [State.instCheck, hb, h31]
  · simp only [State.instCheck, tenant_check_passes ht]
    rcases hm with hv | ⟨b, rfl, hb⟩
    · have hvalid : bit (s.inst die inst).w0 63 = false := hv
      simp [hvalid]
    · have hmode : (s.inst die inst).barrier ≠ b := hb
      simp [hmode]

/-- An operand names an instance where no reserved bit of it is set (R244). -/
theorem bits_instance_zero {w : W64} : bits w 63 10 = 0 ↔ w.toNat < 1024 := by
  have := w.isLt
  unfold bits
  omega

theorem bits_instance {w : W64} (h : w.toNat < 1024) : bits w 9 0 = w.toNat := by
  unfold bits
  omega

/-- The limit and phase of CWAIT (R245). -/
theorem bits_cwait_zero {y : W64} : bits y 63 37 = 0 ↔ y.toNat < 2 ^ 37 := by
  have := y.isLt
  unfold bits
  omega

theorem bits_cwait {y : W64} {p lim : Nat} (h : y.toNat = p + lim * 2 ^ 32) (hp : p < 2 ^ 32) (hl : lim < 32) :
    bits y 31 0 = p ∧ bits y 36 32 = lim := by
  unfold bits
  omega

theorem cwaitLim_eq (l : Nat) : cwaitLim l = if l = 0 ∨ l = 31 then 30 else if l < 10 then 10 else l := by
  unfold cwaitLim
  simp only [Bool.or_eq_true, decide_eq_true_eq, Nat.lt_succ_iff]

/-- A token enters as R101 and R112 say. -/
theorem State.enterToken_eq_entered (k : HedKind) : s.enterToken s.cur die inst k d = Claims.entered s die inst k d := by
  simp only [State.enterToken, Claims.entered, Instance.enterAt]
  rfl

section
variable (hi : Claims.Issues s g) (hr : Claims.Reads s a v s') (hb : Claims.Bound s d) (hn : inst = (lo64 v).toNat)
include hi hr hb hn

theorem hedIssue_illegal (h : 1024 ≤ inst) : hedIssue i d a g md body s = .next (s.raise 0x01 (wordOf i)) := by
  have h0 : ¬ bits (lo64 v) 63 10 = 0 := by rw [bits_instance_zero]; omega
  rw [hedIssue, State.issue_any_of_issues hi, State.ops1, State.dstBound_bound hb, State.src_of_reads hr]
  simp [h0]

theorem hedIssue_named (h : inst < 1024) : hedIssue i d a g md body s = .next (
    match s.instCheck s.me.tag (s.instDie (Claims.here s).die inst) inst md with
    | some c => s.raise c (.ofNat 64 inst)
    | none => if !s.recordRoom (Claims.here s) then s else body (s.instDie (Claims.here s).die inst) inst s') := by
  have h0 : bits (lo64 v) 63 10 = 0 := by rw [bits_instance_zero]; omega
  have h1 : bits (lo64 v) 9 0 = inst := by rw [bits_instance] <;> omega
  rw [hedIssue, State.issue_any_of_issues hi, State.ops1, State.dstBound_bound hb, State.src_of_reads hr]
  simp only [h0, h1]
  rfl

theorem hedIssue_refused (h : inst < 1024) (hd : die = s.instDie (Claims.here s).die inst) (hc : Claims.Refuses s die inst md c) :
    hedIssue i d a g md body s = .next (s.raise c (.ofNat 64 inst)) := by
  subst hd
  rw [hedIssue_named hi hr hb hn h, State.instCheck_of_refuses hc]

theorem hedIssue_full (hu : Claims.MayUse s die inst md) (hroom : s.recordRoom (Claims.here s) = false) : hedIssue i d a g md body s = .next s := by
  rw [hedIssue_named hi hr hb hn hu.2.1, ← hu.1, State.instCheck_of_mayUse hu, hroom]
  rfl

theorem hedIssue_of_mayUse (hu : Claims.MayUse s die inst md) (hroom : s.recordRoom (Claims.here s) = true) :
    hedIssue i d a g md body s = .next (body die inst s') := by
  rw [hedIssue_named hi hr hb hn hu.2.1, ← hu.1, State.instCheck_of_mayUse hu, hroom]
  rfl

/-- The refusals of an instruction that sends into an instance (R106, R127). -/
theorem hedIssue_refusals (he : exec i s = hedIssue i d a g md body s) :
    (1024 ≤ inst → exec i s = .next (s.raise 0x01 (wordOf i))) ∧
    (inst < 1024 → die = s.instDie (Claims.here s).die inst → Claims.Refuses s die inst md c → exec i s = .next (s.raise c (.ofNat 64 inst))) ∧
    (Claims.MayUse s die inst md → s.recordRoom (Claims.here s) = false → exec i s = .next s) :=
  ⟨fun h => he.trans (hedIssue_illegal hi hr hb hn h), fun h hd hc => he.trans (hedIssue_refused hi hr hb hn h hd hc),
    fun hu hroom => he.trans (hedIssue_full hi hr hb hn hu hroom)⟩

end

/-- Arrivals: one of a package-scope instance waits for its release first (R83). -/
def arrival (d : Dst) (die inst : Nat) (s : State) : State :=
  if (s.inst die inst).package then s.waitOn s.cur (.arrive die inst .arrive d s.serial) else s.enterToken s.cur die inst .arrive d

/-- A query begins its sweep (R119). -/
def queryWait (d : Dst) (die inst : Nat) (s : State) : State :=
  s.waitOn s.cur (.query die inst (!s.tokens.any (fun t => t.die == die && t.inst == inst)) (s.inst die inst).entered 0 0 d)

theorem exec_cnti : exec (.cnti d a g) s =
    hedIssue (.cnti d a g) d a g (some false) (fun die inst s => s.enterToken s.cur die inst .token d) s := rfl

theorem exec_cntd : exec (.cntd d a g) s =
    hedIssue (.cntd d a g) d a g (some false) (fun die inst s => s.enterToken s.cur die inst .anti d) s := rfl

theorem exec_cbar : exec (.cbar d a g) s = hedIssue (.cbar d a g) d a g (some true) (arrival d) s := rfl

theorem exec_cqry : exec (.cqry d a g) s = hedIssue (.cqry d a g) d a g none (queryWait d) s := rfl

section
variable (hi : Claims.Issues s g) (hr : Claims.Reads2 s a b v q s') (hn : inst = (lo64 v).toNat)
include hi hr hn

theorem execCwait_illegal (h : 1024 ≤ inst ∨ 2 ^ 37 ≤ (lo64 q).toNat) : execCwait a b g s = .next (s.raise 0x01 (wordOf (.cwait a b g))) := by
  have h0 : (bits (lo64 v) 63 10 != 0 || bits (lo64 q) 63 37 != 0) = true := by
    rw [Bool.or_eq_true, bne_iff_ne, bne_iff_ne, Ne, Ne, bits_instance_zero, bits_cwait_zero]
    omega
  rw [execCwait, State.issue_any_of_issues hi, State.src2_of_reads2 hr]
  simp only [h0, if_true]

theorem execCwait_named (h : inst < 1024) (hq : (lo64 q).toNat < 2 ^ 37) : execCwait a b g s = .next (
    match s.instCheck s.me.tag (s.instDie (Claims.here s).die inst) inst (some true) with
    | some c => s.raise c (.ofNat 64 inst)
    | none => s'.waitOn s.cur (.cwait (s.instDie (Claims.here s).die inst) inst (bits (lo64 q) 31 0) (cwaitLim (bits (lo64 q) 36 32)))) := by
  have h0 : (bits (lo64 v) 63 10 != 0 || bits (lo64 q) 63 37 != 0) = false := by
    rw [bits_instance_zero.mpr (by omega), bits_cwait_zero.mpr hq]
    rfl
  have h1 : bits (lo64 v) 9 0 = inst := by rw [bits_instance] <;> omega
  rw [execCwait, State.issue_any_of_issues hi, State.src2_of_reads2 hr]
  simp only [h0, h1]
  rfl

end

end
end Sys2Proof.Machine

namespace Sys2Proof
open Sys2Proof.Machine

/-- Settles O29, by what a heddle instruction does where its checks stop it and where they pass. -/
theorem heddleInstructionResult : Obligations.HeddleInstructionResult := by
  intro s s' d a b g v q die inst p lim hi hn
  refine ⟨fun hr hb hcur => ⟨fun md hu hroom => ?_, ?_⟩, ?_, ?_⟩
  · have pass (i body) := hedIssue_of_mayUse (i := i) (body := body) hi hr hb hn hu hroom
    refine ⟨?_, ?_, ?_, ?_⟩
    · rintro rfl
      rw [exec_cnti, exec_cntd, pass, pass, State.enterToken_eq_entered, State.enterToken_eq_entered]
      exact ⟨rfl, rfl⟩
    · rintro rfl hdie
      have hp : (s'.inst die inst).package = false := hdie
      rw [exec_cbar, pass, arrival, hp, State.enterToken_eq_entered]
      rfl
    · rintro rfl hpack
      have hp : (s'.inst die inst).package = true := hpack
      rw [exec_cbar, pass, arrival, if_pos hp, hcur]
    · rintro rfl
      rw [exec_cqry, pass, queryWait, hcur]
  · intro i md c hmem
    simp only [List.mem_cons, Prod.mk.injEq, List.not_mem_nil, or_false] at hmem
    rcases hmem with ⟨rfl, rfl⟩ | ⟨rfl, rfl⟩ | ⟨rfl, rfl⟩ | ⟨rfl, rfl⟩
    · exact hedIssue_refusals hi hr hb hn exec_cnti
    · exact hedIssue_refusals hi hr hb hn exec_cntd
    · exact hedIssue_refusals hi hr hb hn exec_cbar
    · exact hedIssue_refusals hi hr hb hn exec_cqry
  · rintro _ c rfl hr
    refine ⟨execCwait_illegal hi hr hn, fun h hq hd hc => ?_⟩
    subst hd
    exact (execCwait_named hi hr hn h hq).trans (by rw [State.instCheck_of_refuses hc])
  · intro hr hcur hu hq hp hl
    obtain ⟨hphase, hlim⟩ := bits_cwait hq hp hl
    refine (execCwait_named hi hr hn hu.2.1 (by omega)).trans ?_
    rw [← hu.1, State.instCheck_of_mayUse hu, hphase, hlim, cwaitLim_eq]

end Sys2Proof
end

section
/-!
SUPPORT. O20. The parts of a fence: the release, a stamp applied, the acquire and the step of an SC fence, each as what it makes of the order state
of the strand that waits.
-/
namespace Sys2Proof.Machine

section

/-! Vectors of die times. -/

theorem V4.get_vmax (a b : V4) (i : Nat) : (a.vmax b).get i = max (a.get i) (b.get i) := by
  match i with
  | 0 | 1 | 2 | _ + 3 => rfl

/-- What a release or an applied stamp does to a strand's view: the entries of the other dies rise (R74, R76). -/
def V4.joinOthers (v u : V4) (d : Nat) : V4 :=
  ([0, 1, 2, 3].filter (fun h => h != d)).foldl (fun v h => v.set h (Nat.max (v.get h) (u.get h))) v

theorem V4.get_joinOthers (v u : V4) (d : Nat) {h : Nat} (hh : h < 4) :
    (v.joinOthers u d).get h = if h = d then v.get h else max (v.get h) (u.get h) := by
  have hd : d = 0 ∨ d = 1 ∨ d = 2 ∨ d = 3 ∨ 3 < d := by omega
  have hc : h = 0 ∨ h = 1 ∨ h = 2 ∨ h = 3 := by omega
  rcases hd with rfl | rfl | rfl | rfl | hd
  iterate 4 rcases hc with rfl | rfl | rfl | rfl <;> rfl
  have hall : [0, 1, 2, 3].filter (fun h => h != d) = [0, 1, 2, 3] := by
    rw [List.filter_eq_self]
    intro k hk
    simp only [List.mem_cons, List.not_mem_nil, or_false] at hk
    rw [bne_iff_ne]
    omega
  rw [V4.joinOthers, hall, if_neg (by omega)]
  rcases hc with rfl | rfl | rfl | rfl <;> rfl

theorem Tbl.mem_keys {α : Type} {t : Tbl α} {y : Nat} : y ∈ t.map (·.1) ↔ Tbl.find t y ≠ none := by
  induction t with
  | nil => simp [Tbl.find]
  | cons e t ih =>
    simp only [List.map_cons, List.mem_cons, Tbl.find, ih]
    split
    · next h => simp [h]
    · next h => simp [Ne.symm h]

/-- Setting a number that is listed lists no other. -/
theorem Tbl.mem_keys_set {α : Type} {t : Tbl α} {x : Nat} (hx : x ∈ t.map (·.1)) (v : α) (y : Nat) :
    y ∈ (Tbl.set t x v).map (·.1) ↔ y ∈ t.map (·.1) := by
  by_cases h : y = x
  · subst h
    simp only [hx, iff_true]
    rw [Tbl.mem_keys, Tbl.find_set_same]
    nofun
  · rw [Tbl.mem_keys, Tbl.mem_keys, Tbl.find_set_ne t v h]

end

section
variable {s t : State} {x d upto : Nat} {sc : Scope} {o : OrderState} {c : Strand} {st : V4} {acq full : Bool} {g : Guard}

theorem isWide_iff : isWide sc = true ↔ Claims.Wide sc := by
  cases sc <;> simp [isWide, Claims.Wide]

theorem releasedOrd_releaseBy (s : State) (o : OrderState) (d : Nat) : Claims.releasedOrd s o d (s.releaseBy o d) :=
  ⟨rfl, rfl, fun _ hh => V4.get_joinOthers _ _ d hh, rfl⟩

/-- A wide stamp, applied (R76). -/
theorem State.applyStamp_applied (hw : isWide sc = true) (s : State) (o : OrderState) (d : Nat) (st : V4) :
    Claims.Applied s o d sc st (s.applyStamp o d sc st).1 (s.applyStamp o d sc st).2 := by
  rw [State.applyStamp, if_pos hw]
  refine ⟨⟨rfl, rfl, rfl, fun _ hh => V4.get_joinOthers _ _ d hh⟩, rfl, fun c => ?_⟩
  simp [List.mem_filter, imp_iff_not_or]

/-- A stamp is applied to an order state, and no strand is asked. -/
theorem State.applyStamp_setStrand (s : State) (x : Nat) (c : Strand) (o : OrderState) (d : Nat) (sc : Scope) (st : V4) :
    (s.setStrand x c).applyStamp o d sc st = ((s.applyStamp o d sc st).1, (s.applyStamp o d sc st).2.setStrand x c) := by
  unfold State.applyStamp
  split <;> rfl

/-- A strand's unit is that of its place. -/
theorem State.unitOf_congr {y : Nat} (hp : (s.strand y).place = (t.strand y).place) (hm : s.msgs = t.msgs) : s.unitOf y = t.unitOf y := by
  unfold State.unitOf
  rw [hp, hm]

theorem State.unitOf_setStrand (hp : c.place = (s.strand x).place) (y : Nat) : (s.setStrand x c).unitOf y = s.unitOf y := by
  refine State.unitOf_congr ?_ rfl
  by_cases h : y = x
  · rw [h, State.strand_setStrand, hp]
  · rw [State.strand_setStrand_ne s c h]

theorem State.unitOf_applyStamp (s : State) (o : OrderState) (d : Nat) (sc : Scope) (st : V4) (y : Nat) :
    (s.applyStamp o d sc st).2.unitOf y = s.unitOf y := by
  rw [State.applyStamp_frame]
  rfl

theorem State.strand_applyStamp (s : State) (o : OrderState) (d : Nat) (sc : Scope) (st : V4) (y : Nat) :
    (s.applyStamp o d sc st).2.strand y = s.strand y := by
  rw [State.applyStamp_frame]
  rfl

theorem State.modStrand_setStrand (s : State) (x : Nat) (c : Strand) (f : Strand → Strand) : (s.setStrand x c).modStrand x f = s.setStrand x (f c) := by
  rw [State.modStrand, State.strand_setStrand, State.setStrand_setStrand]

theorem State.answer_setStrand (s : State) (x : Nat) (c : Strand) (r : Reply) :
    (s.setStrand x c).answer x r = s.setStrand x { c with wait := .reply r } := State.modStrand_setStrand s x c (fun t => { t with wait := .reply r })

/-- The strands in a scope (R64). -/
theorem State.mem_scopeOf {y : Nat} : y ∈ s.scopeOf x sc ↔ y ∈ s.strands.map (·.1) ∧ (y = x ∨ inScope sc (s.unitOf x) (s.unitOf y) = true) := by
  simp only [State.scopeOf, List.mem_filter, Bool.or_eq_true, beq_iff_eq]

theorem State.mem_scopeOf_setStrand {y : Nat} (hx : x ∈ s.strands.map (·.1)) (hp : c.place = (s.strand x).place) :
    y ∈ (s.setStrand x c).scopeOf x sc ↔ y ∈ s.strands.map (·.1) ∧ (y = x ∨ inScope sc (s.unitOf x) (s.unitOf y) = true) := by
  rw [State.mem_scopeOf, State.unitOf_setStrand hp, State.unitOf_setStrand hp]
  exact and_congr_left' (Tbl.mem_keys_set hx c y)

/-- A strand that waits is listed. -/
theorem State.listed_of_wait (h : (s.strand x).wait ≠ .none) : x ∈ s.strands.map (·.1) := by
  rw [Tbl.mem_keys]
  intro hn
  rw [State.strand, Tbl.get_eq_find, hn] at h
  exact h rfl

/-- The stamps of the earlier SC fences that share a scope with this one (R80). -/
def scStamp (log : List ScEntry) (x : Nat) (mem : List Nat) (v : V4) : V4 :=
  log.foldl (fun v e => if e.members.contains x && mem.contains e.x then v.vmax e.stamp else v) v

theorem scStamp_bounds (x i : Nat) (mem : List Nat) : ∀ (log : List ScEntry) (v : V4), v.get i ≤ (scStamp log x mem v).get i ∧
    (∀ e ∈ log, x ∈ e.members → e.x ∈ mem → e.stamp.get i ≤ (scStamp log x mem v).get i) ∧
    ((scStamp log x mem v).get i = v.get i ∨ ∃ e ∈ log, x ∈ e.members ∧ e.x ∈ mem ∧ (scStamp log x mem v).get i = e.stamp.get i)
  | [], v => ⟨le_refl _, nofun, .inl rfl⟩
  | e :: log, v => by
    by_cases hs : x ∈ e.members ∧ e.x ∈ mem
    · have hfold : scStamp (e :: log) x mem v = scStamp log x mem (v.vmax e.stamp) := by simp [scStamp, hs]
      obtain ⟨hle, hall, hex⟩ := scStamp_bounds x i mem log (v.vmax e.stamp)
      rw [V4.get_vmax] at hle hex
      rw [hfold]
      refine ⟨by omega, List.forall_mem_cons.mpr ⟨fun _ _ => by omega, hall⟩, ?_⟩
      rcases hex with heq | ⟨f, hf, hshare⟩
      · rcases Nat.le_total (v.get i) (e.stamp.get i) with h | h
        · exact .inr ⟨e, List.mem_cons_self, hs.1, hs.2, by omega⟩
        · exact .inl (by omega)
      · exact .inr ⟨f, List.mem_cons_of_mem _ hf, hshare⟩
    · have hfold : scStamp (e :: log) x mem v = scStamp log x mem v := by
        have hb : (e.members.contains x && mem.contains e.x) = false := by simpa using hs
        rw [scStamp, List.foldl_cons, hb]
        rfl
      obtain ⟨hle, hall, hex⟩ := scStamp_bounds x i mem log v
      rw [hfold]
      refine ⟨hle, List.forall_mem_cons.mpr ⟨fun h1 h2 => absurd ⟨h1, h2⟩ hs, hall⟩, hex.imp_right ?_⟩
      rintro ⟨f, hf, hshare⟩
      exact ⟨f, List.mem_cons_of_mem _ hf, hshare⟩

/-- The log with an SC fence's entry (R80). -/
def State.scLogged (s : State) (x : Nat) (sc : Scope) (o : OrderState) (mem : List Nat) : State :=
  { s with scLog := s.scLog ++ [⟨x, sc, s.unitOf x, o.rs, mem⟩] }

/-- The release of a fence (R74). -/
theorem State.strandRelease_wide (hw : isWide sc = true) :
    s.strandRelease x sc = s.setStrand x { s.strand x with ord := s.releaseBy (s.strand x).ord (s.unitOf x).die } := by
  rw [State.strandRelease, if_pos hw]
  rfl

/-- The acquire of a fence by a strand that has changed but for its place (R77). -/
theorem State.acquireFence_setStrand (hw : isWide sc = true) (hp : c.place = (s.strand x).place) (hd : (s.unitOf x).die = d) :
    (s.setStrand x c).acquireFence x sc =
      (s.applyStamp c.ord d sc c.ord.pa).2.setStrand x { c with ord := { (s.applyStamp c.ord d sc c.ord.pa).1 with pa := V4.zero } } := by
  simp only [State.acquireFence, hw, if_true, State.strand_setStrand, State.unitOf_setStrand hp, hd, State.applyStamp_setStrand,
    State.modStrand_setStrand]

/-- The step of a narrow SC fence (R80). -/
theorem State.scFence_narrow (hw : isWide sc = false) : s.scFence x sc = s.scLogged x sc (s.strand x).ord (s.scopeOf x sc) := by
  simp only [State.scFence, State.strandRelease, hw]
  rfl

/-- The step of a wide SC fence (R80): release, the entry in the log, the stamps of the entries that share a scope, acquire. -/
theorem State.scFence_wide {mem : List Nat} {c1 : Strand} {r1 r2 : OrderState × State} (hw : isWide sc = true) (hd : (s.unitOf x).die = d)
    (hc : c1 = { s.strand x with ord := s.releaseBy (s.strand x).ord d }) (hm : mem = (s.setStrand x c1).scopeOf x sc)
    (h1 : r1 = (s.scLogged x sc c1.ord mem).applyStamp c1.ord d sc (scStamp s.scLog x mem V4.zero))
    (h2 : r2 = r1.2.applyStamp r1.1 d sc r1.1.pa) :
    s.scFence x sc = r2.2.setStrand x { s.strand x with ord := { r2.1 with pa := V4.zero } } := by
  have hp : c1.place = (s.strand x).place := by rw [hc]
  have hrel : s.strandRelease x sc = s.setStrand x c1 := by rw [State.strandRelease_wide hw, hd, hc]
  have hlog : { s.setStrand x c1 with scLog := s.scLog ++ [⟨x, sc, s.unitOf x, c1.ord.rs, mem⟩] } = (s.scLogged x sc c1.ord mem).setStrand x c1 := rfl
  have hu (y) : (s.scLogged x sc c1.ord mem).unitOf y = s.unitOf y := rfl
  have hpl : c1.place = ((s.scLogged x sc c1.ord mem).strand x).place := hp
  have hp1 : c1.place = (r1.2.strand x).place := by rw [h1, State.strand_applyStamp]; exact hp
  have hd1 : (r1.2.unitOf x).die = d := by rw [h1, State.unitOf_applyStamp, hu, hd]
  rw [State.scFence, hrel]
  simp only [← hm, State.unitOf_setStrand hp, State.strand_setStrand, State.setStrand_scLog, hlog, hw, if_true, State.unitOf_setStrand hpl, hu, hd,
    State.applyStamp_setStrand]
  change (State.modStrand (((s.scLogged x sc c1.ord mem).applyStamp c1.ord d sc (scStamp s.scLog x mem V4.zero)).2.setStrand x c1) x
    (fun t => { t with ord := ((s.scLogged x sc c1.ord mem).applyStamp c1.ord d sc (scStamp s.scLog x mem V4.zero)).1 })).acquireFence x sc = _
  rw [← h1, State.modStrand_setStrand, State.acquireFence_setStrand hw (by exact hp1) hd1, h2, hc]

/-- DEVICE_RELEASE of a fence (R74). -/
theorem exec_deviceRelease_fence {q : Bool} (h : (t.strand x).wait = .fence q acq full sc upto) (hd : d = (t.unitOf x).die) :
    exec (.deviceRelease (.strand x)) t = .next (if t.drained d (sc == .dom) upto then t.fenceStep x acq full sc else t) := by
  subst hd
  change t.ifEnabled (t.strandReleased x) = _
  rw [State.strandReleased, h]
  change t.ifEnabled (if t.drained (t.unitOf x).die (sc == .dom) upto then some (t.fenceStep x acq full sc) else none) = _
  split <;> rfl

/-! The step of a fence whose wait holds: a release, a release with its acquire, an SC fence. -/

theorem State.fenceStep_release (hw : isWide sc = true) (hd : (s.unitOf x).die = d) : s.fenceStep x false false sc =
    s.setStrand x { s.strand x with ord := s.releaseBy (s.strand x).ord d, wait := .reply nothing } := by
  change (s.strandRelease x sc).answer x nothing = _
  rw [State.strandRelease_wide hw, hd, State.answer_setStrand]

theorem State.fenceStep_acquire {r : OrderState × State} (hw : isWide sc = true) (hd : (s.unitOf x).die = d)
    (ho : o = s.releaseBy (s.strand x).ord d) (hr : r = s.applyStamp o d sc o.pa) : s.fenceStep x true false sc =
    r.2.setStrand x { s.strand x with ord := { r.1 with pa := V4.zero }, wait := .reply nothing } := by
  subst ho hr
  have hacq := State.acquireFence_setStrand (c := { s.strand x with ord := s.releaseBy (s.strand x).ord d }) hw rfl hd
  change ((s.strandRelease x sc).acquireFence x sc).answer x nothing = _
  rw [State.strandRelease_wide hw, hd, hacq, State.answer_setStrand]

theorem State.fenceStep_sc {mem : List Nat} {c1 : Strand} {r1 r2 : OrderState × State} (hw : isWide sc = true) (hd : (s.unitOf x).die = d)
    (hc : c1 = { s.strand x with ord := s.releaseBy (s.strand x).ord d }) (hm : mem = (s.setStrand x c1).scopeOf x sc)
    (h1 : r1 = (s.scLogged x sc c1.ord mem).applyStamp c1.ord d sc (scStamp s.scLog x mem V4.zero))
    (h2 : r2 = r1.2.applyStamp r1.1 d sc r1.1.pa) :
    s.fenceStep x acq true sc = r2.2.setStrand x { s.strand x with ord := { r2.1 with pa := V4.zero }, wait := .reply nothing } := by
  change (s.scFence x sc).answer x nothing = _
  rw [State.scFence_wide hw hd hc hm h1 h2, State.answer_setStrand]

/-! The issue of the four kinds. -/

theorem exec_fenceAcq : exec (.fenceAcq sc g) s = execFenceAcq sc g s := rfl
theorem exec_fenceRel : exec (.fenceRel sc g) s = execFenceRel sc g s := rfl
theorem exec_fenceAr : exec (.fenceAr sc g) s = execFenceAr sc g s := rfl
theorem exec_fenceSc : exec (.fenceSc sc g) s = execFenceSc sc g s := rfl

theorem issue_narrow {i : Instr} {k : State → State} (hi : Claims.Issues s g) (hw : isWide sc = false) :
    s.issue i .none .any g (fun s => if isWide sc then k s else s.retire nothing) = .next (Claims.upd s Claims.next) := by
  rw [State.issue_any_of_issues hi, hw, if_neg Bool.false_ne_true, State.retire_nothing]
  rfl

theorem issue_wide {i : Instr} {k l : State → State} (hi : Claims.Issues s g) (hw : isWide sc = true) :
    s.issue i .none .any g (fun s => if isWide sc then k s else l s) = .next (k s) := by
  rw [State.issue_any_of_issues hi, if_pos hw]

theorem exec_fence_narrow (hi : Claims.Issues s g) (hw : isWide sc = false) {i : Instr} (h : i ∈ [.fenceAcq sc g, .fenceRel sc g, .fenceAr sc g]) :
    exec i s = .next (Claims.upd s Claims.next) := by
  simp only [List.mem_cons, List.not_mem_nil, or_false] at h
  rcases h with rfl | rfl | rfl
  · rw [exec_fenceAcq, execFenceAcq, issue_narrow hi hw]
  · rw [exec_fenceRel, execFenceRel, issue_narrow hi hw]
  · rw [exec_fenceAr, execFenceAr, issue_narrow hi hw]

theorem exec_fenceSc_narrow (hi : Claims.Issues s g) (hw : isWide sc = false) :
    exec (.fenceSc sc g) s = .next ((s.scLogged s.cur sc s.me.ord (s.scopeOf s.cur sc)).waitOn s.cur (.reply nothing)) := by
  rw [exec_fenceSc, execFenceSc, State.issue_any_of_issues hi, hw, if_neg Bool.false_ne_true, State.scFence_narrow hw]
  rfl

theorem exec_fenceAcq_wide {r : OrderState × State} (hi : Claims.Issues s g) (hw : isWide sc = true)
    (hr : r = s.applyStamp s.me.ord (Claims.here s).die sc s.me.ord.pa) : exec (.fenceAcq sc g) s =
      .next ((Claims.upd r.2 (fun t => { t with ord := { r.1 with pa := V4.zero } })).waitOn s.cur (.reply nothing)) := by
  have hcur : s.cur = r.2.cur := by rw [hr, State.applyStamp_frame]
  have hacq : s.acquireFence s.cur sc = r.2.modStrand s.cur (fun t => { t with ord := { r.1 with pa := V4.zero } }) := by
    rw [State.acquireFence, if_pos hw, hr]
    rfl
  rw [exec_fenceAcq, execFenceAcq, issue_wide hi hw, hacq, ← State.modStrand_cur_eq_upd, ← hcur]

end
end Sys2Proof.Machine

namespace Sys2Proof
open Sys2Proof.Machine

/-- Settles O20: the narrow fences, the wide ones at issue, and their step once the release is enabled. -/
theorem fenceResult : Obligations.FenceResult := by
  intro s sc g nar wide hi hwide hnar
  have hw : wide → isWide sc = true := fun h => isWide_iff.mpr (hwide.mp h)
  have hn : nar → isWide sc = false := fun h => Bool.eq_false_iff.mpr fun hs => hnar.mp h (hwide.mpr (isWide_iff.mp hs))
  refine ⟨fun h i hmem => exec_fence_narrow hi (hn h) hmem,
    fun h => ⟨s.scopeOf s.cur sc, fun _ => State.mem_scopeOf, exec_fenceSc_narrow hi (hn h)⟩,
    fun h => ⟨_, _, State.applyStamp_applied (hw h) s s.me.ord (Claims.here s).die s.me.ord.pa, exec_fenceAcq_wide hi (hw h) rfl⟩,
    fun h => ⟨?_, ?_, ?_⟩, ?_⟩
  · rw [exec_fenceRel, execFenceRel, issue_wide hi (hw h)]
  · rw [exec_fenceAr, execFenceAr, issue_wide hi (hw h)]
  · rw [exec_fenceSc, execFenceSc, issue_wide hi (hw h)]
  · intro t x upto acq full d hd hwait h
    have hstep := exec_deviceRelease_fence hwait hd
    have hlisted : x ∈ t.strands.map (·.1) := State.listed_of_wait (by rw [hwait]; nofun)
    refine ⟨fun hdr => ?_, fun hdr => ⟨t.releaseBy (t.strand x).ord d, releasedOrd_releaseBy .., ?_, ?_, ?_⟩⟩
    · rw [hstep, hdr, if_neg Bool.false_ne_true]
    · rintro rfl rfl
      rw [hstep, if_pos hdr, State.fenceStep_release (hw h) hd.symm]
      rfl
    · rintro rfl rfl
      refine ⟨_, _, State.applyStamp_applied (hw h) .., ?_⟩
      rw [hstep, if_pos hdr, State.fenceStep_acquire (hw h) hd.symm rfl rfl]
      rfl
    · rintro rfl
      obtain ⟨c1, hc⟩ : ∃ c1, c1 = { t.strand x with ord := t.releaseBy (t.strand x).ord d } := ⟨_, rfl⟩
      obtain ⟨mem, hm⟩ : ∃ mem, mem = (t.setStrand x c1).scopeOf x sc := ⟨_, rfl⟩
      have ho : c1.ord = t.releaseBy (t.strand x).ord d := by rw [hc]
      refine ⟨mem, scStamp t.scLog x mem V4.zero, _, _, _, _, fun y => ?_, fun i _ => ?_,
        State.applyStamp_applied (hw h) (t.scLogged x sc (t.releaseBy (t.strand x).ord d) mem) _ _ _, State.applyStamp_applied (hw h) _ _ _ _, ?_⟩
      · rw [hm]
        exact State.mem_scopeOf_setStrand hlisted (by rw [hc])
      · obtain ⟨-, hall, hex⟩ := scStamp_bounds x i mem t.scLog V4.zero
        exact ⟨hall, hex.imp_left fun hz => hz.trans (by match i with | 0 | 1 | 2 | _ + 3 => rfl)⟩
      · rw [hstep, if_pos hdr, ← ho, State.fenceStep_sc (hw h) hd.symm hc hm rfl rfl]
        rfl

end Sys2Proof
end

section
/-!
SUPPORT. O54. A word of majors 0x20 up decodes to an instruction that takes part in the order: decoder by decoder, the instructions that it yields have
words of those majors.
-/
namespace Sys2Proof.Machine

/-- The word of an instruction of majors 0x20 up. -/
def High (i : Instr) : Prop := ∃ n, encodeNat i = some n ∧ 2 ^ 31 ≤ n ∧ n < 2 ^ 32

/-- A decoder yields instructions of majors 0x20 up only. -/
def YieldsHigh (e : Except DecErr Instr) : Prop := ∀ i, e = .ok i → High i

theorem YieldsHigh.error {e : DecErr} : YieldsHigh (.error e) := by
  intro i h
  injection h

theorem YieldsHigh.bind {α : Type} {e : Except DecErr α} {k : α → Except DecErr Instr} (h : ∀ a, YieldsHigh (k a)) : YieldsHigh (e >>= k) := by
  cases e with
  | error _ => exact .error
  | ok a => exact h a

theorem YieldsHigh.checked {i : Instr} {n : Nat} (h : encodeNat i = some n) (lo : 2 ^ 31 ≤ n) (hi : n < 2 ^ 32) : YieldsHigh (checked i) := by
  intro j hj
  unfold Sys2Proof.checked at hj
  split at hj
  · cases hj
    exact ⟨n, h, lo, hi⟩
  · cases hj

theorem toNat_bvAt (x lo len : Nat) : (bvAt x lo len).toNat = x / 2 ^ lo % 2 ^ len := by
  simp [bvAt, fld]

theorem yieldsHigh_dec20 (x : Nat) : YieldsHigh (dec20 x) := by
  unfold dec20
  repeat refine YieldsHigh.bind fun _ => ?_
  refine .checked rfl (by omega) ?_
  grind [= toNat_bvAt, Dst.code_lt, MKind.code_lt, Guard.code_lt]

theorem yieldsHigh_dec21 (x : Nat) : YieldsHigh (dec21 x) := by
  unfold dec21
  repeat refine YieldsHigh.bind fun _ => ?_
  refine .checked rfl (by omega) ?_
  grind [= toNat_bvAt, Src.code_lt, MKind.code_lt, Guard.code_lt]

theorem yieldsHigh_dec22 (x : Nat) : YieldsHigh (dec22 x) := by
  unfold dec22
  repeat refine YieldsHigh.bind fun _ => ?_
  refine .checked rfl (by omega) ?_
  grind [= toNat_bvAt, Dst.code_lt, Scope.code_lt, Guard.code_lt]

theorem yieldsHigh_dec23 (x : Nat) : YieldsHigh (dec23 x) := by
  unfold dec23
  repeat refine YieldsHigh.bind fun _ => ?_
  refine .checked rfl (by omega) ?_
  grind [= toNat_bvAt, Src.code_lt, Scope.code_lt, Guard.code_lt]

theorem yieldsHigh_dec24 (x : Nat) : YieldsHigh (dec24 x) := by
  unfold dec24
  split
  case h_14 => exact .error
  all_goals
    repeat refine YieldsHigh.bind fun _ => ?_
    refine .checked rfl (by omega) ?_
    grind [= toNat_bvAt, RegZ.code_lt, AOrd.code_lt, Scope.code_lt, ASize.code_lt, Guard.code_lt]

theorem yieldsHigh_dec25 (x : Nat) : YieldsHigh (dec25 x) := by
  unfold dec25
  split
  case h_5 => exact .error
  all_goals
    repeat refine YieldsHigh.bind fun _ => ?_
    refine .checked rfl (by omega) ?_
    grind [= toNat_bvAt, Scope.code_lt, Guard.code_lt]

theorem yieldsHigh_dec26 (x : Nat) : YieldsHigh (dec26 x) := by
  unfold dec26
  split
  case h_7 => exact .error
  all_goals
    repeat refine YieldsHigh.bind fun _ => ?_
    refine .checked rfl (by omega) ?_
    grind [= toNat_bvAt, Src.code_lt, Dst.code_lt, Guard.code_lt]

theorem yieldsHigh_dec28 (x : Nat) : YieldsHigh (dec28 x) := by
  unfold dec28
  split
  case h_5 => exact .error
  all_goals
    repeat refine YieldsHigh.bind fun _ => ?_
    refine .checked rfl (by omega) ?_
    grind [= toNat_bvAt, Src.code_lt, Guard.code_lt]

theorem yieldsHigh_dec29 (x : Nat) : YieldsHigh (dec29 x) := by
  unfold dec29
  split
  case h_4 => exact .error
  all_goals
    repeat refine YieldsHigh.bind fun _ => ?_
    refine .checked rfl (by omega) ?_
    grind [= toNat_bvAt, Src.code_lt, Dst.code_lt, Guard.code_lt]

theorem yieldsHigh_dec2A (x : Nat) : YieldsHigh (dec2A x) := by
  unfold dec2A
  split
  case h_6 => exact .error
  all_goals
    repeat refine YieldsHigh.bind fun _ => ?_
    refine .checked rfl (by omega) ?_
    grind [= toNat_bvAt, Src.code_lt, Dst.code_lt, Guard.code_lt]

theorem yieldsHigh_dec2E (x : Nat) : YieldsHigh (dec2E x) := by
  unfold dec2E
  split
  case h_7 => exact .error
  all_goals
    repeat refine YieldsHigh.bind fun _ => ?_
    refine .checked rfl (by omega) ?_
    grind [= toNat_bvAt, RegZ.code_lt, Guard.code_lt]

theorem yieldsHigh_dec2F (x : Nat) : YieldsHigh (dec2F x) := by
  unfold dec2F
  split
  case h_3 => exact .error
  all_goals
    repeat refine YieldsHigh.bind fun _ => ?_
    refine .checked rfl (by omega) ?_
    grind [= toNat_bvAt, Guard.code_lt]

theorem yieldsHigh_dec30 (x : Nat) : YieldsHigh (dec30 x) := by
  unfold dec30
  split
  case h_2 => exact .error
  all_goals
    repeat refine YieldsHigh.bind fun _ => ?_
    refine .checked rfl (by omega) ?_
    grind [= toNat_bvAt, RegZ.code_lt, Guard.code_lt]

theorem yieldsHigh_dec27 (x : Nat) : YieldsHigh (dec27 x) := by
  unfold dec27
  split
  case h_5 => exact .error
  case h_1 =>
    split
    case h_3 => exact .error
    all_goals
      repeat refine YieldsHigh.bind fun _ => ?_
      refine .checked rfl (by omega) ?_
      grind [= toNat_bvAt, Src.code_lt, Dst.code_lt, Guard.code_lt]
  all_goals
    repeat refine YieldsHigh.bind fun _ => ?_
    refine .checked rfl (by omega) ?_
    grind [= toNat_bvAt, Src.code_lt, Dst.code_lt, Guard.code_lt]

theorem yieldsHigh_dec2B (x : Nat) : YieldsHigh (dec2B x) := by
  unfold dec2B
  split
  case h_7 => exact .error
  case h_1 =>
    split
    case h_5 => exact .error
    all_goals
      repeat refine YieldsHigh.bind fun _ => ?_
      refine .checked rfl (by omega) ?_
      grind [= toNat_bvAt, Src.code_lt, Dst.code_lt, Guard.code_lt]
  all_goals
    repeat refine YieldsHigh.bind fun _ => ?_
    refine .checked rfl (by omega) ?_
    grind [= toNat_bvAt, Src.code_lt, Dst.code_lt, Guard.code_lt]

theorem yieldsHigh_dec2C (x : Nat) : YieldsHigh (dec2C x) := by
  unfold dec2C
  split
  case h_5 => exact .error
  case h_2 =>
    split
    case h_3 => exact .error
    all_goals
      repeat refine YieldsHigh.bind fun _ => ?_
      refine .checked rfl (by omega) ?_
      grind [= toNat_bvAt, Src.code_lt, Dst.code_lt, Guard.code_lt]
  all_goals
    repeat refine YieldsHigh.bind fun _ => ?_
    refine .checked rfl (by omega) ?_
    grind [= toNat_bvAt, Src.code_lt, Dst.code_lt, Guard.code_lt]

theorem yieldsHigh_dec2D (x : Nat) : YieldsHigh (dec2D x) := by
  unfold dec2D
  split
  case h_6 => exact .error
  case h_1 =>
    split
    case h_5 => exact .error
    all_goals
      repeat refine YieldsHigh.bind fun _ => ?_
      refine .checked rfl (by omega) ?_
      grind [= toNat_bvAt, RegZ.code_lt, Guard.code_lt]
  all_goals
    repeat refine YieldsHigh.bind fun _ => ?_
    refine .checked rfl (by omega) ?_
    grind [= toNat_bvAt, RegZ.code_lt, Guard.code_lt]

theorem yieldsHigh_dec3F (x : Nat) : YieldsHigh (dec3F x) := by
  unfold dec3F
  split
  case h_4 => exact .error
  case h_3 =>
    split
    all_goals
      refine .checked rfl (by omega) ?_
      grind [= toNat_bvAt, Bool.toNat_lt, Guard.code_lt]
  all_goals
    repeat refine YieldsHigh.bind fun _ => ?_
    refine .checked rfl (by omega) ?_
    grind [= toNat_bvAt, Bool.toNat_lt, Guard.code_lt]

/-- A word of majors 0x20 up decodes to an instruction with such a word. -/
theorem yieldsHigh_decodeNat {w : Nat} (h : 2 ^ 31 ≤ w) (hw : w < 2 ^ 32) : YieldsHigh (decodeNat w) := by
  unfold decodeNat
  split
  case h_21 => exact yieldsHigh_dec20 w
  case h_22 => exact yieldsHigh_dec21 w
  case h_23 => exact yieldsHigh_dec22 w
  case h_24 => exact yieldsHigh_dec23 w
  case h_25 => exact yieldsHigh_dec24 w
  case h_26 => exact yieldsHigh_dec25 w
  case h_27 => exact yieldsHigh_dec26 w
  case h_28 => exact yieldsHigh_dec27 w
  case h_29 => exact yieldsHigh_dec28 w
  case h_30 => exact yieldsHigh_dec29 w
  case h_31 => exact yieldsHigh_dec2A w
  case h_32 => exact yieldsHigh_dec2B w
  case h_33 => exact yieldsHigh_dec2C w
  case h_34 => exact yieldsHigh_dec2D w
  case h_35 => exact yieldsHigh_dec2E w
  case h_36 => exact yieldsHigh_dec2F w
  case h_37 => exact yieldsHigh_dec30 w
  case h_38 => exact yieldsHigh_dec3F w
  case h_39 => exact .error
  all_goals
    next hm =>
      unfold fld at hm
      omega

/-- Such an instruction takes part in the order (R66). -/
theorem ordered_of_decode {w : W32} {i : Instr} (hd : decode w = .ok i) (h : 2 ^ 31 ≤ w.toNat) : ordered i = true := by
  obtain ⟨n, hn, lo, hi⟩ := yieldsHigh_decodeNat h w.isLt i hd
  have hword : (wordOf i).toNat = n := by
    rw [wordOf, hn]
    exact Nat.mod_eq_of_lt (by omega)
  have hmajor : 0x20 ≤ (wordOf i).toNat / 2 ^ 26 := by omega
  simp only [ordered, hmajor, decide_true, Bool.true_or]

end Sys2Proof.Machine
end

section
/-!
SUPPORT. O54. What comes before the choice: the earliest turn of a ready strand.
-/
namespace Sys2Proof.Machine

/-- The clock's account of a turn: how far off it is, its unit and its slot. -/
abbrev TurnAt := Nat × UnitId × Nat

/-- The turn of a strand that is ready (R124). -/
def State.readyTurn (s : State) (e : Nat × Strand) : Option TurnAt :=
  match e.2.place with
  | .slot u n =>
    if e.2.status == .ready && !s.backNow e.1 && s.present e.1 && (s.island (islandOf u.die u.bay)).runs then some (s.untilTurn u n, u, n) else none
  | _ => none

/-- The earlier of two turns within the next `dt` cycles; of two in the same cycle the first stays. -/
def earlier (dt : Nat) (b o : Option TurnAt) : Option TurnAt :=
  match o with
  | some d => if d.1 < dt ∧ ∀ c, b = some c → d.1 < c.1 then some d else b
  | none => b

theorem all_iff {b : Option TurnAt} {k : Nat} : b.all (fun d => decide (k < d.1)) = true ↔ ∀ c, b = some c → k < c.1 := by
  cases b <;> simp

variable {s : State} {dt : Nat}

/-- One strand of `State.dueTurn`. -/
theorem dueTurn_eq : s.dueTurn dt = (s.strands.map s.readyTurn).foldl (earlier dt) none := by
  rw [State.dueTurn, List.foldl_map]
  congr 1
  funext b e
  cases hp : e.2.place with
  | slot u n =>
    simp only [State.readyTurn, hp]
    cases hr : (e.2.status == .ready && !s.backNow e.1 && s.present e.1 && (s.island (islandOf u.die u.bay)).runs)
    · rfl
    · simp only [if_true, earlier, Bool.true_and, Bool.and_eq_true, decide_eq_true_eq, all_iff]
  | creel | transit | record => simp only [State.readyTurn, hp, earlier]

/-- No turn within `dt`. -/
theorem foldl_earlier_eq_none (l : List (Option TurnAt)) (h : ∀ d, some d ∈ l → dt ≤ d.1) : l.foldl (earlier dt) none = none := by
  induction l with
  | nil => rfl
  | cons o l ih =>
    have ho : earlier dt none o = none := by
      cases o with
      | none => rfl
      | some d =>
        have := h d List.mem_cons_self
        exact if_neg fun hc => absurd hc.1 (by omega)
    rw [List.foldl_cons, ho]
    exact ih fun d hd => h d (List.mem_cons_of_mem _ hd)

/-- One turn within `dt` comes before every other. -/
theorem foldl_earlier_eq_some {d : TurnAt} (hd : d.1 < dt) : ∀ (l : List (Option TurnAt)) (b : Option TurnAt),
    (∀ c, some c ∈ l → c = d ∨ d.1 < c.1) → b = some d ∨ ((∀ c, b = some c → d.1 < c.1) ∧ some d ∈ l) → l.foldl (earlier dt) b = some d
  | [], b, _, hb => hb.resolve_right fun h => List.not_mem_nil h.2
  | o :: l, b, hl, hb => by
    refine foldl_earlier_eq_some hd l _ (fun c hc => hl c (List.mem_cons_of_mem _ hc)) ?_
    rcases hb with rfl | ⟨hb, hmem⟩
    · left
      cases o with
      | none => rfl
      | some c =>
        refine if_neg fun hc => ?_
        have := hc.2 d rfl
        rcases hl c List.mem_cons_self with rfl | h <;> omega
    · rcases List.mem_cons.mp hmem with rfl | hin
      · exact .inl (if_pos ⟨hd, hb⟩)
      · cases o with
        | none => exact .inr ⟨hb, hin⟩
        | some c =>
          by_cases hc : c.1 < dt ∧ ∀ e, b = some e → c.1 < e.1
          · have he : earlier dt b (some c) = some c := if_pos hc
            rw [he]
            rcases hl c List.mem_cons_self with rfl | h
            · exact .inl rfl
            · exact .inr ⟨fun e he => Option.some.inj he ▸ h, hin⟩
          · have he : earlier dt b (some c) = b := if_neg hc
            rw [he]
            exact .inr ⟨hb, hin⟩

theorem backNow_iff {x : Nat} : s.backNow x = true ↔ Claims.BackNow s x := by
  simp only [State.backNow, Claims.BackNow, Claims.unitTime, Bool.and_eq_true, decide_eq_true_eq, beq_iff_eq]

theorem runs_iff {u : UnitId} : (s.island (islandOf u.die u.bay)).runs = true ↔ Claims.Running s u := by
  simp only [Island.runs, Claims.Running, Bool.and_eq_true, Bool.not_eq_true']

theorem readyTurn_eq_some {e : Nat × Strand} {d : TurnAt} : s.readyTurn e = some d ↔ ∃ u n, e.2.place = .slot u n ∧ e.2.status = .ready ∧
    ¬ Claims.BackNow s e.1 ∧ s.present e.1 = true ∧ Claims.Running s u ∧ d = (s.untilTurn u n, u, n) := by
  unfold State.readyTurn
  cases hp : e.2.place with
  | slot u n =>
    simp only [← backNow_iff, ← runs_iff, Bool.not_eq_true, Place.slot.injEq, Option.ite_none_right_eq_some, Bool.and_eq_true, beq_iff_eq,
      Bool.not_eq_true', Option.some.injEq]
    constructor
    · rintro ⟨⟨⟨⟨hr, hb⟩, hpr⟩, hrun⟩, rfl⟩
      exact ⟨u, n, ⟨rfl, rfl⟩, hr, hb, hpr, hrun, rfl⟩
    · rintro ⟨_, _, ⟨rfl, rfl⟩, hr, hb, hpr, hrun, rfl⟩
      exact ⟨⟨⟨⟨hr, hb⟩, hpr⟩, hrun⟩, rfl⟩
  | creel | transit | record => simp

theorem dueTurn_of_noTurnWithin (h : Claims.NoTurnWithin s dt) : s.dueTurn dt = none := by
  rw [dueTurn_eq]
  refine foldl_earlier_eq_none _ fun d hd => ?_
  obtain ⟨e, he, hturn⟩ := List.mem_map.mp hd
  obtain ⟨u, n, hp, hr, hb, hpr, hrun, rfl⟩ := readyTurn_eq_some.mp hturn
  exact h e he u n hp hr hb hpr hrun

section
variable {x n k : Nat} {u : UnitId}
variable (hp : (s.strand x).place = .slot u n) (hk : k = s.untilTurn u n)
  (hfirst : ∀ e ∈ s.strands, e ≠ (x, s.strand x) → ∀ v m, e.2.place = .slot v m → e.2.status = .ready → s.present e.1 = true → k < s.untilTurn v m)
include hp hk hfirst

/-- Of turns of which one comes before every other, none comes before it. -/
theorem noTurnWithin_of_first : Claims.NoTurnWithin s k := by
  intro e he v m hpe hre _ hpre _
  by_cases hex : e = (x, s.strand x)
  · subst hex
    obtain ⟨rfl, rfl⟩ := Place.slot.inj (hp.symm.trans hpe)
    exact hk.le
  · exact (hfirst e he hex v m hpe hre hpre).le

/-- And it is due (R124). -/
theorem dueTurn_of_first (hx : (x, s.strand x) ∈ s.strands) (hr : (s.strand x).status = .ready) (hb : ¬ Claims.BackNow s x)
    (hpr : s.present x = true) (hrun : Claims.Running s u) (hlt : k < dt) : s.dueTurn dt = some (k, u, n) := by
  rw [dueTurn_eq]
  refine foldl_earlier_eq_some hlt _ none (fun c hc => ?_) (.inr ⟨nofun, List.mem_map.mpr ⟨_, hx, ?_⟩⟩)
  · obtain ⟨e, he, hturn⟩ := List.mem_map.mp hc
    obtain ⟨v, m, hpe, hre, -, hpre, -, rfl⟩ := readyTurn_eq_some.mp hturn
    by_cases hex : e = (x, s.strand x)
    · subst hex
      obtain ⟨rfl, rfl⟩ := Place.slot.inj (hp.symm.trans hpe)
      exact .inl (by rw [hk])
    · exact .inr (hfirst e he hex v m hpe hre hpre)
  · exact readyTurn_eq_some.mpr ⟨u, n, hp, hr, hb, hpr, hrun, by rw [hk]⟩

end

/-! A step, from its choice on. -/

variable {rest : List Choice} {a : Act}

theorem step_of_agenda {c : Choice} (h : s.agenda = c :: rest) : step s = (State.plan { s with agenda := rest } c).outcome := by
  rw [step_eq_outcome, State.nextChoice, h]

theorem step_of_due {k n : Nat} {u : UnitId} (h : s.agenda = ⟨dt, a⟩ :: rest) (hd : s.dueTurn dt = some (k, u, n)) :
    step s = (State.turn { s with agenda := ⟨dt - k, a⟩ :: rest, clock := s.clock + k } u n false).outcome := by
  have hdue : State.dueTurn { s with agenda := rest } dt = some (k, u, n) := hd
  rw [step_of_agenda h, State.plan, hdue]

/-- The act of a choice, its cycles later. -/
def Act.plan (a : Act) (s : State) : Plan :=
  match a with
  | .turn u n lend => s.turn u n lend
  | .interp tag q => s.interp tag q
  | .event i => if spontaneous i then .event i s else .stay s

theorem step_of_noTurnWithin (h : s.agenda = ⟨dt, a⟩ :: rest) (hn : Claims.NoTurnWithin s dt) :
    step s = (a.plan { s with agenda := rest, clock := s.clock + dt }).outcome := by
  have hdue : State.dueTurn { s with agenda := rest } dt = none := dueTurn_of_noTurnWithin hn
  rw [step_of_agenda h, State.plan, hdue]
  rfl

/-- Words and steps that a turn takes are no choice of their own (R66). -/
theorem spontaneous_eq (i : Instr) : spontaneous i = !Claims.inTurns i := by
  cases i <;> rfl

end Sys2Proof.Machine
end

section
/-!
SUPPORT. O54. What a turn comes to: the turn of a slot that a strand holds, the owner's own turn, and the turn lent.
-/
namespace Sys2Proof.Machine

section
variable {s s' s0 s1 s2 t : State} {u : UnitId} {n m x y tag dt id d : Nat} {lend : Bool} {w : W32} {i : Instr}

/-! What a turn notes of its instruction. -/

theorem setNth_eq_set {α : Type} : ∀ (l : List α) (n : Nat) (v : α), setNth l n v = l.set n v
  | [], _, _ => rfl
  | _ :: _, 0, _ => rfl
  | a :: l, n + 1, v => congrArg (a :: ·) (setNth_eq_set l n v)

theorem nth_eq_getD {α : Type} (d : α) : ∀ (l : List α) (n : Nat), nth d l n = l.getD n d
  | [], _ => rfl
  | _ :: _, 0 => rfl
  | _ :: l, n + 1 => nth_eq_getD d l n

theorem owe_issue_eq (s : State) (tag : Nat) : (s.owe tag 5 1).owe tag 8 1 = Claims.issueCounted s tag := by
  simp only [State.owe, Claims.issueCounted, setNth_eq_set, nth_eq_getD]

theorem issued_eq_not_unissued (w : Wait) : w.issued = !Claims.unissued w := by
  cases w <;> rfl

theorem hasIssued_eq_issued (i : Instr) (b s : State) : hasIssued i b s = Claims.issued i b s := by
  have hmajor : decide (0x20 ≤ (wordOf i).toNat / 2 ^ 26) = decide (2 ^ 31 ≤ (wordOf i).toNat) := by
    rw [decide_eq_decide]
    omega
  simp only [hasIssued, Claims.issued, hmajor, issued_eq_not_unissued, Bool.not_not, beq_eq_decide]

theorem settleTurn_eq_afterTurn (i : Instr) (b s : State) : settleTurn i b s = Claims.afterTurn i b s := by
  simp only [settleTurn, Claims.afterTurn, hasIssued_eq_issued, owe_issue_eq]
  cases Claims.issued i b s <;> simp [State.modStrand, State.setStrand, Claims.upd, State.me]

/-- An instruction of a turn, and what its turn notes. -/
theorem outcome_issue_afterTurn (h : exec i s = .next t) : (Plan.issue i s).outcome = .next (Claims.afterTurn i s t) := by
  rw [Plan.outcome_issue h, settleTurn_eq_afterTurn]

/-! The turn of a slot that a strand holds. -/

/-- What the turn of a slot comes to once its strand is known to hold it (R124, R126, R127). -/
def State.heldTurn (s : State) (u : UnitId) (tag n x : Nat) (lend : Bool) : Plan :=
  match (s.strand x).status with
  | .ready => if s.backNow x then s.lendTurn u tag n lend else s.ownTurn x
  | .waiting => s.lendTurn u tag n lend
  | .parked => s.lendTurn u tag n lend
  | .stopped => .stay s
  | .halted => .stay s

/-- A turn that is not at its cycle. -/
theorem turn_off_cycle (h : s.unitCycle u % (if u.sp then 8 else 16) ≠ n) : s.turn u n lend = .stay s := by
  refine if_pos ?_
  have hb : (s.unitCycle u % (if u.sp then 8 else 16) != n) = true := bne_iff_ne.mpr h
  simp only [hb, Bool.or_true, Bool.true_or]

/-- A turn at its cycle, of a slot that only its tenant's strand may have. -/
theorem turn_of_held (hn : n < if u.sp then 8 else 16) (hc : s.unitCycle u % (if u.sp then 8 else 16) = n) (hlast : (s.unit u).lastTurn ≠ s.unitCycle u + 1)
    (hrun : Claims.Running s u) (h0 : s0 = s.modUnit u (fun k => { k with lastTurn := s.unitCycle u + 1 })) (hruns : s0.runsOn u n = none)
    (hten : s0.tenantOf u n = some tag) (hin : s0.inSlot u tag n = some x) (hsplit : s0.finishSplit x = s') (hpr : s'.present x = true)
    (hq : s'.quantumOver x = false) (hrq : s'.requantum x = s') : s.turn u n lend = s'.heldTurn u tag n x lend := by
  have hcond : (decide ((if u.sp then 8 else 16) ≤ n) || s.unitCycle u % (if u.sp then 8 else 16) != n || (s.unit u).lastTurn == s.unitCycle u + 1 ||
      !(s.island (islandOf u.die u.bay)).runs) = false := by
    simp only [hc, runs_iff.mpr hrun, bne_self_eq_false, beq_eq_false_iff_ne.mpr hlast, decide_eq_false (Nat.not_le.mpr hn), Bool.or_false, Bool.not_true]
  simp only [State.turn, hcond, ← h0, hruns, hten, hin, hsplit, hpr, hq, hrq]
  rfl

/-- Performing what is left of an access of the strand's own scratchpad (R34). -/
theorem finishSplit_of_none (h : (s.strand x).split = none) : s.finishSplit x = s := by
  rw [State.finishSplit, h]

theorem finishSplit_of_homeAccess (h : (s.strand x).split ≠ none) (he : exec (.homeAccess x) s = .next t) : s.finishSplit x = t := by
  have hh : s.homeAccess x = some (s.finishSplit x) := if_pos (Option.isSome_iff_ne_none.mpr h)
  have hx : exec (.homeAccess x) s = s.ifEnabled (s.homeAccess x) := rfl
  rw [hx, hh] at he
  exact Host.Outcome.next.inj he

theorem quantumOver_of_creel_empty (hp : (s.strand x).place = .slot u n) (ht : (s.strand x).tag = tag) (hc : s.creelOf u tag = []) :
    s.quantumOver x = false := by
  have hu : s.unitOf x = u := by rw [State.unitOf, hp]
  simp only [State.quantumOver, hu, ht, hc, List.isEmpty_nil, Bool.not_true, Bool.and_false, Bool.false_and]

theorem requantum_of_unyielded (hq : s.quantumOver x = false) (hy : (s.strand x).yielded = false) : s.requantum x = s := by
  simp only [State.requantum, hq, hy, Bool.false_and, Bool.false_eq_true, if_false]

/-- No strand of another tenant's spindle program has the slot (R325). -/
theorem runsOn_of_own_cards (hten : s.tenantOf u n = some tag)
    (h : ∀ e ∈ s.strands, e.2.place = .slot u n → e.2.card.isSome = true → e.2.tag = tag) : s.runsOn u n = none := by
  have hfind : s.strands.find? (fun e => e.2.place == .slot u n && e.2.card.isSome && some e.2.tag != some tag && e.2.status == .ready) = none := by
    refine List.find?_eq_none.mpr fun e he hb => ?_
    simp only [Bool.and_eq_true, beq_iff_eq, bne_iff_ne, ne_eq, Option.some.injEq] at hb
    obtain ⟨⟨⟨hp, hc⟩, ht⟩, -⟩ := hb
    exact ht (h e he hp hc)
  simp only [State.runsOn, hten, hfind, Option.map_none, ite_self]

theorem step_of_slotTurn (h : Claims.SlotTurn s u n x dt tag lend s') : step s = (s'.heldTurn u tag n x lend).outcome := by
  obtain ⟨s0, ⟨rest, s1, c, hag, hno, hs1, hc, hn, hcn, hlast, hrun, h0⟩, hsplit, hten, hin, hplace, htag, hy, hpr, hcreel, hcard⟩ := h
  subst hc
  have hfin : s0.finishSplit x = s' := by
    rcases hsplit with ⟨hnone, rfl⟩ | ⟨hsome, he⟩
    · exact finishSplit_of_none hnone
    · exact finishSplit_of_homeAccess hsome he
  have hq := quantumOver_of_creel_empty hplace htag hcreel
  rw [step_of_noTurnWithin hag hno, ← hs1]
  exact congrArg _ (turn_of_held hn hcn hlast hrun h0 (runsOn_of_own_cards hten hcard) hten hin hfin hpr hq (requantum_of_unyielded hq hy))

theorem heldTurn_of_done (h : (s.strand x).status = .stopped ∨ (s.strand x).status = .halted) : s.heldTurn u tag n x lend = .stay s := by
  rcases h with h | h <;> rw [State.heldTurn, h]

theorem heldTurn_of_ready (h : (s.strand x).status = .ready) (hb : ¬ Claims.BackNow s x) : s.heldTurn u tag n x lend = s.ownTurn x := by
  rw [State.heldTurn, h]
  exact if_neg (mt backNow_iff.mp hb)

theorem heldTurn_of_waiting (h : (s.strand x).status = .waiting ∨ (s.strand x).status = .parked ∨ ((s.strand x).status = .ready ∧ Claims.BackNow s x)) :
    s.heldTurn u tag n x lend = s.lendTurn u tag n lend := by
  rcases h with h | h | ⟨h, hb⟩
  · rw [State.heldTurn, h]
  · rw [State.heldTurn, h]
  · rw [State.heldTurn, h]
    exact if_pos (backNow_iff.mpr hb)

/-! The owner's own turn. -/

/-- The state in which the owner of a turn uses it. -/
def State.inTurn (s : State) (x : Nat) : State :=
  { s.setStrand x { s.strand x with borrowed := false, noBorrow := (s.strand x).noBorrow - 1 } with cur := x, lent := false }

theorem strand_inTurn : (s.inTurn x).strand x = { s.strand x with borrowed := false, noBorrow := (s.strand x).noBorrow - 1 } :=
  State.strand_setStrand ..

theorem ownTurn_of_trap (h : (s.strand x).pend.isSome = true ∨ (s.strand x).wait = .none ∧ (s.strand x).lost ≠ []) :
    s.ownTurn x = .event (.deferredTrap x) (s.inTurn x) := by
  by_cases hp : (s.strand x).pend.isSome = true
  · exact if_pos hp
  · obtain ⟨hw, hl⟩ := h.resolve_left hp
    have hlost : (!(s.strand x).lost.isEmpty) = true := by simpa using hl
    simp only [State.ownTurn, hp, hw, hlost]
    rfl

theorem ownTurn_of_wait (hp : (s.strand x).pend = none) (hw : (s.strand x).wait ≠ .none) : s.ownTurn x = .stay ((s.inTurn x).reissue x) := by
  have hwait : ((s.strand x).wait != .none) = true := bne_iff_ne.mpr hw
  simp only [State.ownTurn, hp, hwait]
  rfl

theorem ownTurn_of_word (hp : (s.strand x).pend = none) (hl : (s.strand x).lost = []) (hv : (s.strand x).leaving = none)
    (hw : (s.strand x).wait = .none) (hf : (s.inTurn x).fetch x = .word w s1) :
    s.ownTurn x = .issue (instrOf w) (if ordered (instrOf w) then s1.deliverAll x else s1) := by
  have hd : (s.strand x).departs = false := by rw [Strand.departs, hv]; rfl
  have hfetch : State.fetch { (s.modStrand x (fun t => { t with borrowed := false, noBorrow := t.noBorrow - 1 })) with cur := x, lent := false } x =
    .word w s1 := hf
  simp only [State.ownTurn, hp, hl, hw, hd, hfetch]
  rfl

/-- A withdrawn wait is issued again: the strand waits, and the time away does not count (R220). -/
def State.rewaiting (s : State) (x d : Nat) : State :=
  { s.setStrand x { s.strand x with status := .waiting, susp := none, since := (s.strand x).since + (s.clock - d), arr := s.nextId } with
    nextId := s.nextId + 1 }

theorem resumed_eq_rewaiting (hs : (s.strand x).susp = some d) :
    { s.modStrand x (fun t => { resumeWait t s.clock with status := .waiting, arr := s.nextId }) with nextId := s.nextId + 1 } = s.rewaiting x d := by
  simp only [State.modStrand, resumeWait, hs, State.rewaiting]

theorem reissue_of_mbx {k : Nat} {v : W128} (hs : (s.strand x).susp = some d) (hw : (s.strand x).wait = .mbx k v) : s.reissue x = s.rewaiting x d := by
  simp only [State.reissue, resumed_eq_rewaiting hs, hw]

theorem reissue_of_cwait {die inst p lim : Nat} (hs : (s.strand x).susp = some d) (hw : (s.strand x).wait = .cwait die inst p lim) :
    s.reissue x = match s.instCheck (s.strand x).tag (s.instDie (s.dieOf x) inst) inst (some true) with
      | some c => (s.rewaiting x d).raise c (.ofNat 64 inst)
      | none => (s.rewaiting x d).setWait x (.cwait (s.instDie (s.dieOf x) inst) inst p lim) := by
  simp only [State.reissue, resumed_eq_rewaiting hs, hw]
  rfl

theorem deliveryOf_iff {k : Msg} : k.deliveryOf x = true ↔ Claims.Delivers x k := by
  unfold Claims.Delivers
  cases k <;> simp [Msg.deliveryOf]

/-- The one delivery of a strand that is on its way is performed. -/
theorem deliverAll_of_one {pre post : List (Nat × Msg)} {k : Msg} (hm : s.msgs = pre ++ (id, k) :: post) (hk : Claims.Delivers x k)
    (hne : ∀ m ∈ pre ++ post, ¬ Claims.Delivers x m.2) (he : exec (.messageDelivery id) s = .next t) : s.deliverAll x = t := by
  have hnone : ∀ l : List (Nat × Msg), (∀ m ∈ l, m ∈ pre ++ post) → l.filter (fun m => m.2.deliveryOf x) = [] := fun l hl =>
    List.filter_eq_nil_iff.mpr fun m hmem hb => hne m (hl m hmem) (deliveryOf_iff.mp hb)
  have hhead : ((id, k) :: post).filter (fun m => m.2.deliveryOf x) = (id, k) :: post.filter (fun m => m.2.deliveryOf x) :=
    List.filter_cons_of_pos (deliveryOf_iff.mpr hk)
  have hfilter : s.msgs.filter (fun m => m.2.deliveryOf x) = [(id, k)] := by
    rw [hm, List.filter_append, hhead, hnone pre fun m h => List.mem_append_left _ h,
      hnone post fun m h => List.mem_append_right _ h, List.nil_append]
  have hdeliver : exec (.messageDelivery id) s = .next ((s.messageDelivery id).getD s) := rfl
  rw [State.deliverAll, hfilter]
  exact Host.Outcome.next.inj (hdeliver.symm.trans he)

/-- A fetch touches the translation caches only. -/
theorem paged_msgs (s : State) (u : UnitId) (tag : Nat) (va : W64) (a : AccKind) : (s.paged u tag va a).2.msgs = s.msgs := by
  unfold State.paged State.clusterPaged State.tlbInstall
  repeat' split
  all_goals rfl

theorem fetch_msgs (h : s.fetch x = .word w s1) : s1.msgs = s.msgs := by
  rw [← paged_msgs s (s.unitOf x) (s.strand x).tag (s.strand x).pc .fetch]
  simp only [State.fetch] at h
  split at h
  · cases h
  split at h
  · cases h
  split at h
  · cases h
  · cases h
  split at h
  all_goals
    split at h
    · cases h
    · cases h
      rfl

/-! The turn lent. -/

theorem lendTurn_of_not_lent (h : lend = false ∨ u.sp = true) : s.lendTurn u tag n lend = .stay s := by
  refine if_pos ?_
  rcases h with h | h <;> simp [h]

/-- The head, and a slot that nobody holds, borrow nothing (R127). -/
theorem borrower_eq_none {k : Nat} (h : k ≠ 0 → s.inSlot u tag k = none) : s.borrower u tag n k = none := by
  unfold State.borrower
  split
  · rfl
  · next y hy =>
    by_cases hk : k = 0
    · simp [hk]
    · rw [h hk] at hy
      cases hy

/-- The strand of a slot borrows the turn. -/
theorem borrower_eq_some (hm : m ≠ 0) (hin : s.inSlot u tag m = some y) (hr : (s.strand y).status = .ready) (hb : ¬ Claims.BackNow s y)
    (hpr : s.present y = true) (hp : (s.strand y).pend = none) (hl : (s.strand y).lost = []) (hv : (s.strand y).leaving = none)
    (hw : (s.strand y).wait = .none) (hf : s.fetch y = .word w s1) (hmay : mayBorrow (s.strand y) (instrOf w) s.clock ((m + 16 - n) % 16) = true) :
    s.borrower u tag n m = some (instrOf w, y, s1) := by
  have hsplit : s.finishSplit y = s := finishSplit_of_none (by rw [Strand.split, hr, hw])
  have hback : s.backNow y = false := Bool.eq_false_iff.mpr (mt backNow_iff.mp hb)
  simp only [State.borrower, hin, hsplit, hr, hback, hpr, hp, hl, hv, hw, hf, hmay, decide_eq_false hm]
  rfl

/-- The slots below the owner's in order: every other one, the nearer first (R127). -/
theorem offered_split (hn : n < 16) (hm : m < 16) (hne : m ≠ n) : ∃ pre post, offered n = pre ++ m :: post ∧
    ∀ k ∈ pre, k < 16 ∧ k ≠ n ∧ (n + 16 - k) % 16 < (n + 16 - m) % 16 := by
  have hrange : ∀ j < 15, List.range 15 = List.range j ++ j :: (List.range 15).drop (j + 1) := by decide
  obtain ⟨j, hj⟩ : ∃ j, j = (n + 15 - m) % 16 := ⟨_, rfl⟩
  have hj15 : j < 15 := by omega
  refine ⟨(List.range j).map (fun k => (n + 15 - k) % 16), ((List.range 15).drop (j + 1)).map (fun k => (n + 15 - k) % 16), ?_, fun k hk => ?_⟩
  · rw [offered, hrange j hj15, List.map_append, List.map_cons, ← hrange j hj15, show (n + 15 - j) % 16 = m by omega]
  · obtain ⟨i, hi, rfl⟩ := List.mem_map.mp hk
    have := List.mem_range.mp hi
    omega

theorem mem_offered {k : Nat} (h : k ∈ offered n) (hn : n < 16) : k < 16 ∧ k ≠ n := by
  obtain ⟨i, hi, rfl⟩ := List.mem_map.mp h
  have := List.mem_range.mp hi
  omega

theorem lendTurn_of_empty (hn : n < 16) (h : ∀ k < 16, k ≠ n → k ≠ 0 → s.inSlot u tag k = none) : s.lendTurn u tag n lend = .stay s := by
  have hnone : (offered n).findSome? (fun k => s.borrower u tag n k) = none := List.findSome?_eq_none_iff.mpr fun k hk =>
    have ⟨hk16, hkn⟩ := mem_offered hk hn
    borrower_eq_none (h k hk16 hkn)
  unfold State.lendTurn
  split
  · rfl
  · rw [hnone]

theorem lendTurn_of_borrower (hl : lend = true) (hsp : u.sp = false) (hn : n < 16) (hm : m < 16) (hne : m ≠ n)
    (hb : s.borrower u tag n m = some (i, y, s1))
    (hfirst : ∀ k < 16, k ≠ n → k ≠ 0 → (n + 16 - k) % 16 < (n + 16 - m) % 16 → s.inSlot u tag k = none) :
    s.lendTurn u tag n lend = .issue i { s1 with cur := y, lent := true } := by
  obtain ⟨pre, post, hoff, hpre⟩ := offered_split hn hm hne
  have hsome : (offered n).findSome? (fun k => s.borrower u tag n k) = some (i, y, s1) :=
    List.findSome?_eq_some_iff.mpr ⟨pre, m, post, hoff, hb, fun k hk =>
      have ⟨hk16, hkn, hlt⟩ := hpre k hk
      borrower_eq_none fun hk0 => hfirst k hk16 hkn hk0 hlt⟩
  rw [State.lendTurn, hl, hsp, hsome]
  rfl

end
end Sys2Proof.Machine
end

section
/-!
SUPPORT. O54. A step in the turn of a slot that a strand holds, case by case.
-/
namespace Sys2Proof.Machine

section
variable {s s' s0 s1 s2 s4 t : State} {u : UnitId} {n m x y tag dt id d : Nat} {lend : Bool} {w : W32} {i : Instr}

theorem slotTurn_lt (h : Claims.SlotTurn s u n x dt tag lend s') (hsp : u.sp = false) : n < 16 := by
  obtain ⟨s0, ⟨rest, s1, c, -, -, -, -, hn, -⟩, -⟩ := h
  rw [hsp] at hn
  exact hn

/-- With no choice listed, one is free. -/
theorem nextChoice_free (h : s.agenda = []) :
    s.nextChoice = State.nextChoice { s with agenda := [Config.choose s.freeCtr], freeCtr := s.freeCtr + 1 } := by
  rw [State.nextChoice, h]
  cases s
  cases h
  rfl

/-- A turn in which the strand issues: its delivery on the way is performed before an operation of the order (R66). -/
theorem ownTurn_after_delivery {pre post : List (Nat × Msg)} {k : Msg} (hp : (s.strand x).pend = none) (hl : (s.strand x).lost = [])
    (hv : (s.strand x).leaving = none) (hw : (s.strand x).wait = .none) (hm : s.msgs = pre ++ (id, k) :: post) (hk : Claims.Delivers x k)
    (hne : ∀ m ∈ pre ++ post, ¬ Claims.Delivers x m.2) (hf : (s.inTurn x).fetch x = .word w s1) (hd : decode w = .ok i) (hord : 2 ^ 31 ≤ w.toNat)
    (he : exec (.messageDelivery id) s1 = .next s2) : s.ownTurn x = .issue i s2 := by
  have hi : instrOf w = i := by rw [instrOf, hd]
  have hmsgs : s1.msgs = pre ++ (id, k) :: post := (fetch_msgs hf).trans hm
  rw [ownTurn_of_word hp hl hv hw hf, hi, if_pos (ordered_of_decode hd hord), deliverAll_of_one hmsgs hk hne he]

/-- A withdrawn wait on a mailbox, or on a phase, is issued again in its strand's turn (R120, R220). -/
theorem ownTurn_of_mbx {k : Nat} {v : W128} (hp : (s.strand x).pend = none) (hs : (s.strand x).susp = some d) (hw : (s.strand x).wait = .mbx k v) :
    s.ownTurn x = .stay ((s.inTurn x).rewaiting x d) := by
  rw [ownTurn_of_wait hp (by rw [hw]; nofun), reissue_of_mbx (by rw [strand_inTurn]; exact hs) (by rw [strand_inTurn]; exact hw)]

theorem ownTurn_of_cwait {die inst p lim : Nat} (hp : (s.strand x).pend = none) (hs : (s.strand x).susp = some d)
    (hw : (s.strand x).wait = .cwait die inst p lim) : s.ownTurn x = .stay (
      match s.instCheck (s.strand x).tag (s.instDie (s.dieOf x) inst) inst (some true) with
      | some c => ((s.inTurn x).rewaiting x d).raise c (.ofNat 64 inst)
      | none => ((s.inTurn x).rewaiting x d).setWait x (.cwait (s.instDie (s.dieOf x) inst) inst p lim)) := by
  have hdie : (s.inTurn x).dieOf x = s.dieOf x := congrArg UnitId.die
    (State.unitOf_congr (s := s.inTurn x) (t := s) (by rw [strand_inTurn]) rfl)
  have htag : ((s.inTurn x).strand x).tag = (s.strand x).tag := by rw [strand_inTurn]
  rw [ownTurn_of_wait hp (by rw [hw]; nofun),
    reissue_of_cwait (by rw [strand_inTurn]; exact hs) (by rw [strand_inTurn]; exact hw), hdie, htag]
  rfl

end
end Sys2Proof.Machine

namespace Sys2Proof
open Sys2Proof.Machine

/-- Settles O54, choice by choice: a step of the device, a turn that comes before the choice, a turn off its cycle, the turn of a slot that a strand
holds, and the free choice. -/
theorem stepTakesTheChoice : Obligations.StepTakesTheChoice := by
  intro s dt rest
  refine ⟨fun i hag => ⟨fun hn hi => ?_, fun hn hi => ?_⟩, fun a x u n k hag hx hp hr hb hpr hrun hk hlt hfirst => ?_,
    fun u n lend hag hn hc => ?_, fun u n x tag lend s' hturn => ⟨fun hdone => ?_, fun hr hb s0 hs0 => ⟨fun htrap => ?_, ?_, ?_⟩,
      fun hwait => ⟨fun hno => ?_, ?_⟩⟩, fun hag => ?_⟩
  · have hsp : spontaneous i = true := by rw [spontaneous_eq, hi]; rfl
    rw [step_of_noTurnWithin hag hn, Act.plan, if_pos hsp]
    rfl
  · have hsp : ¬ spontaneous i = true := by rw [spontaneous_eq, hi]; nofun
    rw [step_of_noTurnWithin hag hn, Act.plan, if_neg hsp]
    rfl
  · rw [step_of_due hag (dueTurn_of_first hp hk hfirst hx hr hb hpr hrun hlt)]
    exact (step_of_noTurnWithin (s := { s with agenda := ⟨k, .turn u n false⟩ :: ⟨dt - k, a⟩ :: rest }) rfl (noTurnWithin_of_first hp hk hfirst)).symm
  · rw [step_of_noTurnWithin hag hn, Act.plan, turn_off_cycle hc]
    rfl
  · rw [step_of_slotTurn hturn, heldTurn_of_done hdone]
    rfl
  · rw [step_of_slotTurn hturn, heldTurn_of_ready hr hb, ownTurn_of_trap htrap, hs0]
    rfl
  · intro d s1 hp hs hs1
    obtain rfl : s0 = s'.inTurn x := hs0
    obtain rfl : s1 = (s'.inTurn x).rewaiting x d := hs1
    rw [step_of_slotTurn hturn, heldTurn_of_ready hr hb]
    refine ⟨fun m w hw => ?_, fun die inst p lim dd hw hdd => ?_⟩
    · rw [ownTurn_of_mbx hp hs hw]
      rfl
    · obtain ⟨-, -, -, -, -, -, htag, -⟩ := hturn
      rw [ownTurn_of_cwait hp hs hw, htag, ← hdd]
      exact ⟨fun c hc => by rw [hc]; rfl, fun hc => by rw [hc]; rfl⟩
  · intro s1 s2 t w i pre post id k r v d p o a hp hl hv hw hm hne hf hd hord he ht
    obtain rfl : s0 = s'.inTurn x := hs0
    rw [step_of_slotTurn hturn, heldTurn_of_ready hr hb,
      ownTurn_after_delivery hp hl hv hw hm ⟨_, _, _, _, _, _, _, rfl⟩ (fun m hmem => (hne m hmem).2) hf hd hord he]
    exact outcome_issue_afterTurn ht
  · rw [step_of_slotTurn hturn, heldTurn_of_waiting hwait]
    have hstay : s'.lendTurn u tag n lend = .stay s' := by
      cases hsp : u.sp with
      | true => exact lendTurn_of_not_lent (.inr hsp)
      | false =>
        rcases hno with hl | h | hempty
        · exact lendTurn_of_not_lent (.inl hl)
        · exact lendTurn_of_not_lent (.inr h)
        · exact lendTurn_of_empty (slotTurn_lt hturn hsp) hempty
    rw [hstay]
    rfl
  · intro y m w i s4 t hlend hsp hm hmn hm0 hin hfirst hry hby hpry hpy hly hvy hwy hf hd hmay ht
    have hi : instrOf w = i := by rw [instrOf, hd]
    have hborrow : s'.borrower u tag n m = some (i, y, s4) := hi ▸ borrower_eq_some hm0 hin hry hby hpry hpy hly hvy hwy hf (hi ▸ hmay)
    rw [step_of_slotTurn hturn, heldTurn_of_waiting hwait, lendTurn_of_borrower hlend hsp (slotTurn_lt hturn hsp) hm hmn hborrow hfirst]
    exact outcome_issue_afterTurn ht
  · rw [step_eq_outcome, nextChoice_free hag]
    rfl

end Sys2Proof
end

section
/-!
SUPPORT. O43. The head that a launch packet starts, and the stop of the last strand of a launch.
-/
namespace Sys2Proof.Machine

section
variable {s : State} {id lid die bay : Nat} {l : Launch}

/-- The arrival of an order state changes nothing but the copies of the die's RDC (R81). -/
theorem State.arriveOrd_frame (s : State) (o : OrderState) (d e : Nat) : (s.arriveOrd o d e).2 = { s with rdc := (s.arriveOrd o d e).2.rdc } := by
  unfold State.arriveOrd
  split
  · rfl
  · exact State.applyStamp_frame ..

/-- What a list's die knows is applied to the copies of a head's die, and to nothing else (R81, R294). -/
theorem State.headOrd_frame (s : State) (l : Launch) (die : Nat) : (s.headOrd l die).2 = { s with rdc := (s.headOrd l die).2.rdc } := by
  unfold State.headOrd
  split
  · rfl
  · dsimp only
    rw [State.applyStamp_frame, State.arriveOrd_frame]

/-- A head on its list's die starts with the list's order state (R298). -/
theorem State.headOrd_home (h : die = l.die) : (s.headOrd l die).1 = l.ord := by
  rw [State.headOrd, if_pos h]

/-- A ready strand that has lost no slot is unchanged as it takes one. -/
theorem resumeSlot_ready {t : Strand} {now : Nat} (h : t.status = .ready) (hs : t.susp = none) : resumeSlot t now = t := by
  rw [resumeSlot, if_neg (by rw [h]; exact Bool.false_ne_true)]
  cases t
  subst hs
  simp

/-- A ready strand takes a slot: only its place, its name and its quantum change (Table 6-7). -/
theorem State.takeSlot_ready {x n : Nat} {u : UnitId} {t : Strand} (ht : s.strand x = t) (hr : t.status = .ready) (hs : t.susp = none) :
    ∃ q k gen c, (s.takeSlot x u n).strand x =
      { t with place := .slot u n, quantum := q, yielded := false, hangAt := c, nslot := k, gen := gen } := by
  subst ht
  have hx : (s.bumpGen u (s.strand x).tag n).2.strand x = s.strand x := rfl
  unfold State.takeSlot
  dsimp only
  rw [State.strand_modStrand, hx, resumeSlot_ready hr hs]
  exact ⟨_, _, _, _, rfl⟩

theorem State.strand_addStrand (s : State) (t : Strand) : (s.addStrand t).strand s.nextId = t := State.strand_setStrand s s.nextId t

theorem headStrand_regs (id : Nat) (l : Launch) (n : Nat) (o : OrderState) (i : Fin 24) : (headStrand id l n o).regs[i] =
    if i.val = 0 then .ofNat 128 n else if i.val = 1 then zext128 l.arg else if i.val = 2 then zext128 l.hdr else 0 := by
  have h : (headStrand id l n o).regs[i.val] = if 2 = i.val then zext128 l.hdr else if 1 = i.val then zext128 l.arg else
      if 0 = i.val then w128 n else (Vector.replicate 24 (0 : W128))[i.val] := by
    simp only [headStrand, Strand.init, Vector.getElem_set]
  rw [Fin.getElem_fin, h, Vector.getElem_replicate, w128]
  split
  · next h2 => simp [← h2]
  split
  · next h1 => simp [← h1]
  · next h2 h1 => simp [eq_comm (a := 0), Ne.symm h1, Ne.symm h2]

theorem launchPacket_waits (hm : Tbl.find s.msgs id = some (.launch lid die bay)) (hl : Tbl.find s.launches lid = some l)
    (h : s.inSlot (coreOf die bay) l.tag 0 ≠ none) : exec (.launchPacket id) s = .next s := by
  change s.ifEnabled (s.launchPacket id) = _
  rw [State.launchPacket, hm]
  dsimp only
  rw [hl]
  dsimp only
  rw [if_pos (by rw [Option.isSome_iff_ne_none.mpr h, Bool.or_true])]
  rfl

/-- A launch packet has started the head of its bay in slot 0 (R298, R130). -/
def State.headStarted (s : State) (id lid : Nat) (l : Launch) (die bay : Nat) : State :=
  (({ (s.headOrd l die).2 with
      msgs := Tbl.del s.msgs id
      launches := Tbl.set s.launches lid { l with toStart := setDel l.toStart (bayNo die bay) } } : State).addStrand
    (headStrand lid l (bayNo die bay) (s.headOrd l die).1)).takeSlot s.nextId (coreOf die bay) 0

theorem launchPacket_starts (hm : Tbl.find s.msgs id = some (.launch lid die bay)) (hl : Tbl.find s.launches lid = some l)
    (ht : s.tenantOf (coreOf die bay) 0 = some l.tag) (hs : s.inSlot (coreOf die bay) l.tag 0 = none) :
    exec (.launchPacket id) s = .next (s.headStarted id lid l die bay) := by
  have hf := s.headOrd_frame l die
  change s.ifEnabled (s.launchPacket id) = _
  rw [State.launchPacket, hm]
  dsimp only
  rw [hl]
  dsimp only
  rw [if_neg (by simp [ht, hs]), State.headStarted, hf]
  rfl

theorem State.headStarted_frame (s : State) (id lid : Nat) (l : Launch) (die bay : Nat) :
    (s.headStarted id lid l die bay).mem = s.mem ∧ (s.headStarted id lid l die bay).msgs = Tbl.del s.msgs id ∧
    (s.headStarted id lid l die bay).launches = Tbl.set s.launches lid { l with toStart := setDel l.toStart (bayNo die bay) } := by
  unfold State.headStarted
  rw [s.headOrd_frame l die]
  exact ⟨rfl, rfl, rfl⟩

/-- The head is in slot 0, and is otherwise as the launch describes it (R130). -/
theorem State.strand_headStarted (s : State) (id lid : Nat) (l : Launch) (die bay : Nat) : ∃ q n gen c,
    (s.headStarted id lid l die bay).strand s.nextId = { headStrand lid l (bayNo die bay) (s.headOrd l die).1 with
      place := .slot (coreOf die bay) 0, quantum := q, yielded := false, hangAt := c, nslot := n, gen := gen } := by
  refine State.takeSlot_ready ?_ rfl rfl
  rw [s.headOrd_frame l die]
  exact State.strand_addStrand _ _

end

section
variable {s : State} {x id : Nat} {l : Launch}

/-- Frees a listed strand if it has stopped. -/
def State.freeIfStopped (s : State) (e : Nat × Strand) : State := if e.2.status = .stopped then s.freeStrand e.1 else s

theorem State.freeStopped_single (s : State) (id n : Nat) :
    s.freeStopped id [n] = (s.launchOn id (n / 2048) (n % 2048)).foldl State.freeIfStopped s := rfl

theorem State.foldl_freeIfStopped_frame (es : List (Nat × Strand)) (s : State) :
    es.foldl State.freeIfStopped s = { s with strands := (es.foldl State.freeIfStopped s).strands } := by
  induction es generalizing s with
  | nil => rfl
  | cons e es ih =>
    rw [List.foldl_cons, ih]
    unfold State.freeIfStopped
    split <;> rfl

theorem State.find_freeIfStopped_none {e : Nat × Strand} (h : Tbl.find s.strands x = none) : Tbl.find (s.freeIfStopped e).strands x = none := by
  unfold State.freeIfStopped
  split
  · by_cases hx : x = e.1
    · subst hx; exact Tbl.find_del_same _ _
    · exact (Tbl.find_del_ne _ hx).trans h
  · exact h

theorem State.find_foldl_freeIfStopped_none (es : List (Nat × Strand)) (h : Tbl.find s.strands x = none) :
    Tbl.find (es.foldl State.freeIfStopped s).strands x = none := by
  induction es generalizing s with
  | nil => exact h
  | cons e es ih => exact ih (State.find_freeIfStopped_none h)

/-- A listed strand that has stopped is freed. -/
theorem State.find_foldl_freeIfStopped {es : List (Nat × Strand)} {t : Strand} (he : (x, t) ∈ es) (ht : t.status = .stopped) :
    Tbl.find (es.foldl State.freeIfStopped s).strands x = none := by
  induction es generalizing s with
  | nil => cases he
  | cons e es ih =>
    rcases List.mem_cons.mp he with rfl | he
    · refine State.find_foldl_freeIfStopped_none es ?_
      rw [State.freeIfStopped, if_pos ht]
      exact Tbl.find_del_same _ _
    · exact ih he

/-- A strand that stops leaves its stamps with its launch (R298), whose other fields stand. -/
theorem State.noteStop_of_find (h : Tbl.find s.launches id = some l) : ∃ a ds,
    s.noteStop x id = { s with launches := Tbl.set s.launches id { l with acc := a, dies := ds } } := by
  rw [State.noteStop, h]
  exact ⟨_, _, rfl⟩

theorem State.mem_launchOn {die bay : Nat} {e : Nat × Strand} : e ∈ s.launchOn id die bay ↔
    e ∈ s.strands ∧ e.2.launch = some id ∧ ∃ u n, e.2.place = .slot u n ∧ u.die = die ∧ u.bay = bay := by
  rw [State.launchOn, List.mem_filter, Bool.and_eq_true, beq_iff_eq]
  refine and_congr_right fun _ => and_congr_right fun _ => ?_
  cases e.2.place with
  | slot u n => simp
  | creel u | transit m | record u => simp

/-- The share of a launch's last bay is complete: its stopped strands are freed, and the launch ends (R298). -/
theorem State.shareCheck_last {die bay : Nat} (hb : bay < 2048) (hl : Tbl.find s.launches id = some l) (hu : l.upto = none) (hf : l.field = none)
    (hs : l.toStart = []) (hleft : l.left = [bayNo die bay]) (hall : ∀ e ∈ s.launchOn id die bay, e.2.status = .stopped) :
    s.shareCheck id die bay = ((s.launchOn id die bay).foldl State.freeIfStopped s).launchEnd id { l with left := [] } := by
  have hd : bayNo die bay / 2048 = die := by rw [bayNo]; omega
  have hm : bayNo die bay % 2048 = bay := by rw [bayNo]; omega
  have hdone : s.shareDone id l (bayNo die bay) = true := by
    rw [State.shareDone, hs, hd, hm]
    simpa using fun a b hab => hall (a, b) hab
  rw [State.shareCheck, hl]
  dsimp only
  rw [hu, hf, hdone, hleft, State.freeStopped_single, hd, hm]
  simp [setDel]

/-- The increment of a fence counter at a completion (R295). -/
theorem State.fcs_fcAdd (s : State) (tag fc : Nat) (n : W64) (stamp : V4) : Tbl.get FenceCtr.init ((s.fcAdd tag fc n stamp).part tag).fcs fc =
    ⟨(Tbl.get FenceCtr.init (s.part tag).fcs fc).v + n, (Tbl.get FenceCtr.init (s.part tag).fcs fc).stamps ++ [stamp]⟩ := by
  rw [State.fcAdd, State.part_modPart]
  exact Tbl.get_set_same _ _ _ _

/-- A launch without a field whose stores have drained completes: it is gone, and its fence counter has taken one more increment (R89, R298). -/
theorem State.launchEnd_drained (hd : ∀ d dom, s.drained d dom s.serial = true) (hf : l.field = none) :
    (s.launchEnd id l).mem = s.mem ∧ Tbl.find (s.launchEnd id l).launches id = none ∧ (s.launchEnd id l).strands = s.strands ∧
    ∀ fc, l.fc = some fc → ∃ cs, Tbl.get FenceCtr.init ((s.launchEnd id l).part l.tag).fcs fc =
      ⟨(Tbl.get FenceCtr.init (s.part l.tag).fcs fc).v + 1, (Tbl.get FenceCtr.init (s.part l.tag).fcs fc).stamps ++ [cs]⟩ := by
  have hdr : s.launchDrained l s.serial = true := List.all_eq_true.mpr fun d _ => hd d _
  rw [State.launchEnd, if_pos hdr, State.launchComplete, hf]
  cases l.fc with
  | none => exact ⟨rfl, Tbl.find_del_same _ _, rfl, nofun⟩
  | some fc =>
    refine ⟨rfl, Tbl.find_del_same _ _, rfl, ?_⟩
    rintro _ ⟨⟩
    exact ⟨_, State.fcs_fcAdd ..⟩

/-- The last share of a launch without a field, with its stores drained: the launch ends, and the strands of the share are freed (R298). -/
theorem State.shareCheck_ends {die bay : Nat} (hb : bay < 2048) (hl : Tbl.find s.launches id = some l) (hu : l.upto = none) (hf : l.field = none)
    (hs : l.toStart = []) (hleft : l.left = [bayNo die bay]) (hall : ∀ e ∈ s.launchOn id die bay, e.2.status = .stopped)
    (hd : ∀ d dom, s.drained d dom s.serial = true) : (s.shareCheck id die bay).mem = s.mem ∧ Tbl.find (s.shareCheck id die bay).launches id = none ∧
      (∀ e ∈ s.launchOn id die bay, Tbl.find (s.shareCheck id die bay).strands e.1 = none) ∧ ∀ fc, l.fc = some fc → ∃ cs,
      Tbl.get FenceCtr.init ((s.shareCheck id die bay).part l.tag).fcs fc =
        ⟨(Tbl.get FenceCtr.init (s.part l.tag).fcs fc).v + 1, (Tbl.get FenceCtr.init (s.part l.tag).fcs fc).stamps ++ [cs]⟩ := by
  have hfree : ∀ e ∈ s.launchOn id die bay, Tbl.find ((s.launchOn id die bay).foldl State.freeIfStopped s).strands e.1 = none :=
    fun e he => State.find_foldl_freeIfStopped he (hall e he)
  rw [State.shareCheck_last hb hl hu hf hs hleft hall, State.foldl_freeIfStopped_frame]
  generalize ((s.launchOn id die bay).foldl State.freeIfStopped s).strands = strands at hfree ⊢
  obtain ⟨hmem, hgone, hstrands, hfc⟩ := State.launchEnd_drained (s := { s with strands := strands }) (id := id) (l := { l with left := [] }) hd hf
  exact ⟨hmem, hgone, fun e he => by rw [hstrands]; exact hfree e he, hfc⟩

/-- A strand as it stops with an exit word (R247). -/
def Strand.stoppedWith (t : Strand) (w : W64) : Strand :=
  { t with status := .stopped, wait := .none, exitw := w, irv := false, orv := false, pend := none, leaving := none, sts := Claims.unprefixed t.sts }

/-- A stopped strand keeps its slot, with its bindings released and its cursor discarded (R247). -/
theorem State.stopBase_frame (s : State) (x : Nat) (w : W64) : ∃ tens, s.stopBase x w = { s with
    tens := tens, strands := Tbl.set s.strands x ((s.strand x).stoppedWith w) } := by
  unfold State.stopBase State.dropCursor
  split <;> exact ⟨_, rfl⟩

/-- STOP stops the issuing strand with the word that it reads (R247). -/
theorem exec_stop {s s' : State} {a : Src} {v : W128} {g : Guard} (hi : Claims.Issues s g) (hr : Claims.Reads s a v s') :
    exec (.stop a g) s = .next (s'.stopStrand s.cur (lo64 v)) := by
  change s.issue (.stop a g) .none .any g (fun s => s.src a (fun v s1 => s1.stopStrand s.cur (lo64 v))) = _
  rw [State.issue_any_of_issues hi, State.src_of_reads hr]

/-- The stop of a launch's last strand: the launch has ended, and the strand is freed (R298). -/
theorem State.stopStrand_last {die bay m : Nat} {w : W64} {p : State} (hlaunch : (s.strand x).launch = some id)
    (hplace : (s.strand x).place = .slot (coreOf die bay) m)
    (hp : p.strands = Tbl.set s.strands x ((s.strand x).stoppedWith w))
    (hl : Tbl.find s.launches id = some l) (hf : l.field = none) (hu : l.upto = none) (hs : l.toStart = []) (hleft : l.left = [bayNo die bay])
    (hb : bay < 2048)
    (hall : ∀ e ∈ p.strands, e.2.launch = some id → (∃ u n, e.2.place = .slot u n ∧ u.die = die ∧ u.bay = bay) → e.2.status = .stopped)
    (hd : ∀ d dom, s.drained d dom s.serial = true) : (s.stopStrand x w).mem = s.mem ∧ Tbl.find (s.stopStrand x w).launches id = none ∧
      Tbl.find (s.stopStrand x w).strands x = none ∧ ∀ fc, l.fc = some fc → ∃ cs, Tbl.get FenceCtr.init ((s.stopStrand x w).part l.tag).fcs fc =
        ⟨(Tbl.get FenceCtr.init (s.part l.tag).fcs fc).v + 1, (Tbl.get FenceCtr.init (s.part l.tag).fcs fc).stamps ++ [cs]⟩ := by
  obtain ⟨tens, hbase⟩ := s.stopBase_frame x w
  obtain ⟨a, ds, hnote⟩ := State.noteStop_of_find (s := s.stopBase x w) (x := x) (id := id) (l := l) (by rw [hbase]; exact hl)
  have hunit : s.unitOf x = coreOf die bay := by rw [State.unitOf, hplace]
  have hstop : s.stopStrand x w = ((s.stopBase x w).noteStop x id).shareCheck id die bay := by
    rw [State.stopStrand, hlaunch, hunit]
    rfl
  rw [hnote, hbase, ← hp] at hstop
  obtain ⟨hmem, hgone, hfree, hfc⟩ := State.shareCheck_ends (s := { s with
      tens := tens, strands := p.strands, launches := Tbl.set s.launches id { l with acc := a, dies := ds } }) (id := id) (die := die)
    hb (Tbl.find_set_same _ _ _) hu hf hs hleft (fun e he => by
      obtain ⟨hin, hof, hon⟩ := State.mem_launchOn.mp he
      exact hall e hin hof hon) hd
  rw [hstop]
  refine ⟨hmem, hgone, hfree (x, (s.strand x).stoppedWith w) (State.mem_launchOn.mpr ⟨?_, hlaunch, _, _, hplace, rfl, rfl⟩), hfc⟩
  change _ ∈ p.strands
  rw [hp]
  exact Tbl.mem_of_find (Tbl.find_set_same _ _ _)

end

end Sys2Proof.Machine

namespace Sys2Proof
open Sys2Proof.Machine

/-- Settles O43: the packet of a launch (`launchPacket_waits`, `launchPacket_starts`), and the last stop of a launch, whose bay's share is complete
(`State.shareCheck_ends`), so that the launch ends and the strand is freed. -/
theorem launchResult : Obligations.LaunchResult := by
  intro s id lid die bay r
  refine ⟨fun hm hl => ⟨launchPacket_waits hm hl, fun ht hs => ?_⟩, ?_⟩
  · obtain ⟨hmem, hmsgs, hlaunches⟩ := s.headStarted_frame id lid r die bay
    obtain ⟨q, n, gen, c, hy⟩ := s.strand_headStarted id lid r die bay
    refine ⟨_, _, launchPacket_starts hm hl ht hs, hmem, by rw [hmsgs]; exact Tbl.find_del_same _ _,
      by rw [hlaunches]; exact Tbl.find_set_same _ _ _, rfl, ?_⟩
    rw [hy]
    exact ⟨rfl, rfl, rfl, rfl, rfl, rfl, rfl, rfl, State.headOrd_home, fun i => headStrand_regs lid r (bayNo die bay) (s.headOrd r die).1 i⟩
  · intro s' p a v g m hi hr hcur hlaunch hplace hp hl hf hu hs hleft hb hall hd
    rw [exec_stop hi hr, ← hcur]
    exact ⟨_, rfl, State.stopStrand_last hlaunch hplace (congrArg State.strands hp) hl hf hu hs hleft hb hall hd⟩

end Sys2Proof
end

section
/-!
SUPPORT. O35. A card read from the issuing strand's scratchpad, its posting, and RDV, XID and XWAIT.
-/
namespace Sys2Proof.Machine

/- The reads of the card's line. -/

/-- A strand's order state once it has read a line (R67). -/
def OrderState.sawLine (o : OrderState) (n : LineOrder) : OrderState := { o with pts := max o.pts n.wts, pa := o.pa.vmax n.stamp }

/-- A line that has been read by a strand (R67). -/
def LineOrder.readAt (n : LineOrder) (o : OrderState) : LineOrder := { n with rts := max n.rts (max o.pts n.wts) }

/-- The issuing strand has read: the times of lines and its order state are all that has changed. -/
def State.hasRead (s : State) (lines : Tbl LineOrder) (o : OrderState) : State := ({ s with lines := lines } : State).setStrand s.cur { s.me with ord := o }

section
variable {s : State} {lines : Tbl LineOrder} {o : OrderState}

theorem V4.vmax_vmax_same (a b : V4) : (a.vmax b).vmax b = a.vmax b := by
  simp [V4.vmax]

theorem OrderState.sawLine_again (o p : OrderState) (n : LineOrder) : (o.sawLine n).sawLine (n.readAt p) = o.sawLine n := by
  simp [OrderState.sawLine, LineOrder.readAt, V4.vmax_vmax_same]

@[simp] theorem State.hasRead_me : (s.hasRead lines o).me = { s.me with ord := o } := State.strand_setStrand _ _ _

@[simp] theorem State.hasRead_unitOf : (s.hasRead lines o).unitOf s.cur = s.unitOf s.cur :=
  by
  have hp : (s.hasRead lines o).me.place = s.me.place := by rw [State.hasRead_me]
  exact State.unitOf_congr hp rfl

theorem State.hasRead_hasRead (l2 : Tbl LineOrder) (o2 : OrderState) : (s.hasRead lines o).hasRead l2 o2 = s.hasRead l2 o2 := by
  rw [State.hasRead, State.hasRead_me]
  exact State.setStrand_setStrand { s with lines := l2 } s.cur _ _

end

/-- A read of a scratchpad of the reader's die. -/
theorem State.homeRead_spad (s : State) (o : OrderState) (d tag b off z n : Nat) (w r sd : Bool) : s.homeRead o d tag ⟨.spad d b off, w, r, sd, z⟩ n =
    (⟨s.bytesAt tag (.spad d b off) n, s.badAt tag (.spad d b off) n, o.sawLine (s.lineAt (.spad d b off))⟩,
      { s with lines := Tbl.set s.lines (Loc.spad d b off).line ((s.lineAt (.spad d b off)).readAt o) }) := by
  have ht : s.readTimes o d (.spad d b off) = (o.sawLine (s.lineAt (.spad d b off)),
      { s with lines := Tbl.set s.lines (Loc.spad d b off).line ((s.lineAt (.spad d b off)).readAt o) }) := by
    rw [State.readTimes]
    exact if_pos rfl
  simp only [State.homeRead, ht]
  rfl

/-- One piece of a block of the issuing strand's scratchpad (R67, R280). -/
theorem State.ownBytes_succ (s : State) (off n : Nat) {l : Loc} (hl : l = .spad (Claims.here s).die (Claims.here s).bay off) {t : State}
    (ht : t = s.hasRead (Tbl.set s.lines l.line ((s.lineAt l).readAt s.me.ord)) (s.me.ord.sawLine (s.lineAt l))) :
    s.ownBytes off (n + 1) = (s.bytesAt s.me.tag l 64 ++ (t.ownBytes (off + 64) n).1, s.badAt s.me.tag l 64 || (t.ownBytes (off + 64) n).2.1,
      (t.ownBytes (off + 64) n).2.2) := by
  subst ht hl
  simp only [State.ownBytes, State.homeRead_spad]
  rfl

/-- Two pieces from the start of a line are that line, read twice. -/
theorem State.ownBytes_line (s : State) {off : Nat} (h : off % 128 = 0) {u : UnitId} (hu : u = Claims.here s) : ∃ lines, s.ownBytes off 2 =
    (s.bytesAt s.me.tag (.spad u.die u.bay off) 64 ++ s.bytesAt s.me.tag (.spad u.die u.bay (off + 64)) 64,
      s.badAt s.me.tag (.spad u.die u.bay off) 64 || s.badAt s.me.tag (.spad u.die u.bay (off + 64)) 64,
      s.hasRead lines (s.me.ord.sawLine (s.lineAt (.spad u.die u.bay off)))) := by
  have hline : (Loc.spad u.die u.bay (off + 64)).line = (Loc.spad u.die u.bay off).line := by
    simp only [Loc.line, spadKey, spadBase]
    omega
  generalize hl : Loc.spad u.die u.bay off = l at hline ⊢
  generalize ht : s.hasRead (Tbl.set s.lines l.line ((s.lineAt l).readAt s.me.ord)) (s.me.ord.sawLine (s.lineAt l)) = t
  have hfirst := s.ownBytes_succ off 1 (l := l) (by rw [← hl, hu]) ht.symm
  have hhere : Claims.here t = u := by rw [hu, ← ht]; exact State.hasRead_unitOf
  have hsecond := t.ownBytes_succ (off + 64) 0 (l := .spad u.die u.bay (off + 64)) (by rw [hhere]) rfl
  have hat : t.lineAt (.spad u.die u.bay (off + 64)) = (s.lineAt l).readAt s.me.ord := by
    rw [State.lineAt, hline, ← ht]
    exact Tbl.get_set_same _ _ _ _
  have hord : t.me.ord = s.me.ord.sawLine (s.lineAt l) := by rw [← ht, State.hasRead_me]
  have htag : t.me.tag = s.me.tag := by rw [← ht, State.hasRead_me]
  have hbytes : t.bytesAt s.me.tag (.spad u.die u.bay (off + 64)) 64 = s.bytesAt s.me.tag (.spad u.die u.bay (off + 64)) 64 := by rw [← ht]; rfl
  have hbad : t.badAt s.me.tag (.spad u.die u.bay (off + 64)) 64 = s.badAt s.me.tag (.spad u.die u.bay (off + 64)) 64 := by rw [← ht]; rfl
  rw [hfirst, hsecond, hat, hord, htag, OrderState.sawLine_again, hbytes, hbad, State.ownBytes, List.append_nil, Bool.or_false, ← ht, State.hasRead_hasRead]
  exact ⟨_, rfl⟩

theorem readBytes_add (m : Memory) (a i n : Nat) : m.readBytes a (i + n) = m.readBytes a i ++ m.readBytes (a + i) n := by
  induction i generalizing a with
  | zero => rw [Nat.zero_add]; rfl
  | succ i ih => rw [Nat.succ_add, Memory.readBytes, ih, Memory.readBytes, List.cons_append, Nat.add_assoc, Nat.add_comm 1 i]

/-- The words of bytes that are read are the words that are read. -/
theorem wordsOf_readBytes (m : Memory) (a n : Nat) :
    wordsOf n (m.readBytes a (8 * n)) = (List.range n).map (fun i => .ofNat 64 (leNat (m.readBytes (a + 8 * i) 8))) := by
  induction n generalizing a with
  | zero => rfl
  | succ n ih =>
    have hlen := readBytes_length m a 8
    rw [Nat.mul_succ, Nat.add_comm (8 * n) 8, readBytes_add, wordsOf, List.take_left' hlen, List.drop_left' hlen, ih, List.range_succ_eq_map,
      List.map_cons, List.map_map, Nat.mul_zero, Nat.add_zero, w64]
    refine List.cons_eq_cons.mpr ⟨rfl, List.map_congr_left fun i _ => ?_⟩
    rw [Function.comp_apply, Nat.mul_succ, Nat.add_comm (8 * i) 8, Nat.add_assoc]

theorem State.spadAt_add (s : State) (tag d b off i : Nat) : s.spadAt tag d b (off + i) = s.spadAt tag d b off + i := by
  unfold State.spadAt
  split
  · exact (Nat.add_assoc _ off i).symm
  · exact (Nat.add_assoc _ off i).symm

theorem State.spadAt_mod (s : State) (tag d b : Nat) {off : Nat} (h : off % 8 = 0) : s.spadAt tag d b off % 8 = 0 := by
  unfold State.spadAt savedKey spadKey spadBase
  split <;> omega

/-- A line without poison has none in either half. -/
theorem State.badAt_halves {s : State} {tag d b off : Nat} (h : off % 8 = 0) (hbad : s.badAt tag (.spad d b off) 128 = false) :
    s.badAt tag (.spad d b off) 64 = false ∧ s.badAt tag (.spad d b (off + 64)) 64 = false := by
  have hk := s.spadAt_mod tag d b h
  simp only [State.badAt, State.keyOf, s.spadAt_add, List.any_eq_false, mem_fromUp] at hbad ⊢
  generalize s.spadAt tag d b off = k at hk hbad ⊢
  exact ⟨fun w hw => hbad w (by omega), fun w hw => hbad w (by omega)⟩

/-- A block of one line whose words are sound is read as those words (R280, R318). -/
theorem State.ownBlock_of_words {s : State} {off : Nat} {ws : List W64} (h : off % 128 = 0) (hw : Claims.OwnWords s off 16 ws) : ∃ lines, ∀ k,
    s.ownBlock off 2 k = k ws (s.hasRead lines (s.me.ord.sawLine (s.lineAt (.spad (Claims.here s).die (Claims.here s).bay off)))) := by
  obtain ⟨hpart, hbad, rfl⟩ := hw
  obtain ⟨lines, hread⟩ := s.ownBytes_line h rfl
  obtain ⟨hlow, hhigh⟩ := State.badAt_halves (by omega) hbad
  have hwords : wordsOf (8 * 2) (s.bytesAt s.me.tag (.spad (Claims.here s).die (Claims.here s).bay off) 64 ++
      s.bytesAt s.me.tag (.spad (Claims.here s).die (Claims.here s).bay (off + 64)) 64) = (List.range 16).map (fun i =>
        .ofNat 64 (leNat (s.bytesAt s.me.tag (.spad (Claims.here s).die (Claims.here s).bay (off + 8 * i)) 8))) := by
    simp only [State.bytesAt, s.spadAt_add]
    rw [← readBytes_add]
    exact wordsOf_readBytes _ _ 16
  refine ⟨lines, fun k => ?_⟩
  change (if !inPart (s.spadPart s.me.tag (Claims.here s).die (Claims.here s).bay) off (8 * 16) then s.raise 0x0C (w64 off)
    else if (s.ownBytes off 2).2.1 then (s.ownBytes off 2).2.2.raise 0x40 (w64 off) else k (wordsOf (8 * 2) (s.ownBytes off 2).1) (s.ownBytes off 2).2.2) = _
  rw [hpart, hread, hlow, hhigh, hwords]
  rfl

/- The card's words (Table 15-5). -/

theorem bits_eq_cardBits (ws : List W64) (i hi lo : Nat) : bits (ws.getD i 0) hi lo = Claims.cardBits ws i lo (hi - lo + 1) := rfl

theorem bit_eq_cardBits (ws : List W64) (i k : Nat) : bit (ws.getD i 0) k = decide (Claims.cardBits ws i k 1 = 1) := by
  rw [bit, BitVec.getLsbD, Nat.testBit_eq_decide_div_mod_eq]
  rfl

theorem wid_eq_cardBits (ws : List W64) (i : Nat) : (ws.getD i 0).setWidth 36 = .ofNat 36 (Claims.cardBits ws i 0 36) := by
  rw [Claims.cardBits, Nat.pow_zero, Nat.div_one]
  exact BitVec.eq_of_toNat_eq (by simp)

theorem cardRegions_eq_tableCard (tag bay : Nat) (w1 : W128) (ws : List W64) : cardRegions ws = (Claims.tableCard tag bay w1 ws).regions := by
  unfold cardRegions Claims.tableCard
  simp only [nth_eq_getD, bits_eq_cardBits, bit_eq_cardBits, Nat.reduceSub, Nat.reduceAdd, Bool.decide_and, Bool.and_assoc]
  rfl

/-- The card of its words is the card that the table describes. -/
theorem cardOf_eq_tableCard (tag bay : Nat) (ws : List W64) : { cardOf tag ws with bay := bay } = Claims.tableCard tag bay 0 ws := by
  unfold cardOf
  dsimp only
  rw [cardRegions_eq_tableCard tag bay 0]
  simp only [nth_eq_getD, bits_eq_cardBits, bit_eq_cardBits, wid_eq_cardBits, Nat.reduceSub, Nat.reduceAdd]
  rfl

/-- FORK and JOB hand on the card that a block of the issuing strand's scratchpad describes (R299). -/
theorem State.ownCard_of_words {s : State} {a : W64} {off kind : Nat} {ws : List W64} (ha : a.toNat = off) (hline : off % 128 = 0) (hoff : off < 2 ^ 18)
    (hw : Claims.OwnWords s off 16 ws) (hok : cardOk ws = true) (hkind : Claims.cardBits ws 0 62 2 = kind)
    (hown : kind ≠ 0 → s.ownsBay s.me.tag (Claims.cardBits ws 0 53 2) (Claims.cardBits ws 6 37 11) = true) : ∃ lines, ∀ i k, s.ownCard i a kind k =
      k (Claims.tableCard s.me.tag (Claims.here s).bay 0 ws)
        (s.hasRead lines (s.me.ord.sawLine (s.lineAt (.spad (Claims.here s).die (Claims.here s).bay off)))) := by
  obtain ⟨lines, hblock⟩ := State.ownBlock_of_words hline hw
  have hhigh : bits a 63 18 = 0 := by rw [bits, ha]; omega
  have hlow : bits a 6 0 = 0 := by rw [bits, ha]; omega
  have hmid : bits a 17 7 * 128 = off := by rw [bits, ha]; omega
  have hk : bits (nth 0 ws 0) 63 62 = kind := by rw [nth_eq_getD]; exact hkind
  have hmine : (kind != 0 && !s.ownsBay s.me.tag (cardOf s.me.tag ws).die (cardOf s.me.tag ws).pbay) = false := by
    by_cases h0 : kind = 0
    · rw [h0]; rfl
    · have hc := cardOf_eq_tableCard s.me.tag 0 ws
      have hdie : (cardOf s.me.tag ws).die = Claims.cardBits ws 0 53 2 := congrArg Card.die hc
      have hpbay : (cardOf s.me.tag ws).pbay = Claims.cardBits ws 6 37 11 := congrArg Card.pbay hc
      rw [hdie, hpbay, hown h0, Bool.not_true, Bool.and_false]
  refine ⟨lines, fun i k => ?_⟩
  rw [State.ownCard, hhigh, hlow, hmid, hblock]
  dsimp only
  rw [hok, hk, hmine, ← cardOf_eq_tableCard]
  simp only [bne_self_eq_false, Bool.or_self, Bool.false_eq_true, if_false, Bool.not_true]
  rfl

/- The posting step (R86, R87, R300). -/

theorem wbForm_iff (n : Nat) : wbForm (w64 n) = true ↔ n / 2 ^ 48 % 2 ^ 16 = 0 ∧ n / 2 ^ 16 % 2 ^ 21 = 0 ∧ n % 2 ^ 4 = 0 := by
  simp only [wbForm, bits, w64, BitVec.toNat_ofNat, Bool.and_eq_true, beq_iff_eq]
  omega

theorem Region.apart_iff (a b : Region) : a.apart b = true ↔ Claims.Apart a b := by
  rw [Region.apart, Claims.Apart, Bool.and_eq_true, Bool.and_eq_true, wbForm_iff, Bool.not_eq_true', and_assoc, and_comm (a := _ ∧ _ ∧ _)]

theorem Region.clash_iff (a b : Region) : a.clash b = true ↔ Claims.Clash a b := by
  simp only [Region.clash, Claims.Clash, Bool.and_eq_true, Bool.or_eq_true, Bool.not_eq_true', ← Bool.not_eq_true,
    Region.apart_iff, decide_eq_true_eq, and_assoc]

theorem State.mem_edges {s : State} {tag die p : Nat} {rs : List Region} : p ∈ s.edges tag die rs ↔ ∃ q, (p, q) ∈ s.cards ∧ q.posted = true ∧
    q.tag = tag ∧ q.die = die ∧ q.cs = none ∧ ∃ a ∈ q.regions, ∃ b ∈ rs, Claims.Clash a b := by
  simp [State.edges, Region.clash_iff, and_assoc]

theorem State.arriveOrd_rs (s : State) (o : OrderState) (d e : Nat) : (s.arriveOrd o d e).1.rs = o.rs := by
  unfold State.arriveOrd
  split
  · rfl
  · exact (State.applyStamp_applied rfl s _ e _).1.1

theorem State.arriveOrd_same (s : State) (o : OrderState) (d : Nat) : s.arriveOrd o d d = (o, s) := if_pos rfl

/-- The posting step makes the card a posted one, and moves its channel's NEXT on (R86, R87, R300). -/
theorem State.postCard_posted {s t : State} {id d : Nat} {c : Card} {o : OrderState} (hc : Tbl.find t.cards id = some c)
    (hcards : ∀ p q, q.posted = true → ((p, q) ∈ t.cards ↔ (p, q) ∈ s.cards)) (hchans : t.chans = s.chans) :
    Claims.Posted s id c (t.arriveOrd o d c.die).1 (t.postCard id o d) := by
  have hf := t.arriveOrd_frame o d c.die
  have hchan : (t.arriveOrd o d c.die).2.chan c.channel = s.chan c.channel := by rw [hf, State.chan, hchans]; rfl
  have hmem (p : Nat) : p ∈ (t.arriveOrd o d c.die).2.edges c.tag c.die c.regions ↔ ∃ q, (p, q) ∈ s.cards ∧ q.posted = true ∧
      q.tag = c.tag ∧ q.die = c.die ∧ q.cs = none ∧ ∃ a ∈ q.regions, ∃ b ∈ c.regions, Claims.Clash a b := by
    rw [State.mem_edges, hf]
    exact exists_congr fun q => ⟨fun ⟨hq, hp, h⟩ => ⟨(hcards p q hp).mp hq, hp, h⟩, fun ⟨hq, hp, h⟩ => ⟨(hcards p q hp).mpr hq, hp, h⟩⟩
  rw [State.postCard, hc]
  dsimp only
  rw [hchan]
  generalize (t.arriveOrd o d c.die).2.edges c.tag c.die c.regions = ps at hmem
  by_cases hk : c.kind = .copy
  · rw [if_pos hk]
    refine ⟨ps, Tbl.find_set_same _ _ _, hmem, fun _ => (Tbl.get_set_same _ _ _ _).trans ?_⟩
    exact congrArg (fun h : Chan => { h with next := ((s.chan c.channel).next + 1) % 2 ^ 32 }) hchan
  · rw [if_neg hk]
    exact ⟨ps, Tbl.find_set_same _ _ _, hmem, fun h => absurd h hk⟩

/-- A posting step changes cards, channels and the copies of an RDC. -/
theorem State.postCard_frame (s : State) (id : Nat) (o : OrderState) (d : Nat) : s.postCard id o d = { s with
    rdc := (s.postCard id o d).rdc, cards := (s.postCard id o d).cards, chans := (s.postCard id o d).chans } := by
  unfold State.postCard
  split
  · rfl
  · next c _ =>
    dsimp only
    rw [s.arriveOrd_frame o d c.die]
    split <;> rfl

/- What a posting instruction leaves (R308, R309). -/

/-- The reply to a posting instruction: a copy's transfer word for its register, none for a program card. -/
def PostKind.reply (k : PostKind) (c : Card) : Reply :=
  match k with
  | .fork _ b => if c.kind = .copy then result (RegZ.dst b) (zext128 c.transfer) else nothing
  | .job a => result (RegZ.dst a) (zext128 c.transfer)
  | .asn _ => nothing

section
variable {s : State} {x id : Nat} {k : PostKind} {c : Card}

theorem State.bindHandle_frame (s : State) (x h id : Nat) : s.bindHandle x h id = { s with tens := (s.bindHandle x h id).tens } := by
  unfold State.bindHandle; dsimp only; split <;> rfl

theorem State.freeHandle_frame (s : State) (x h : Nat) : s.freeHandle x h = { s with tens := (s.freeHandle x h).tens } := by
  unfold State.freeHandle; dsimp only; split <;> rfl

/-- A bound handle names its job (R307). -/
theorem State.handleOf_bindHandle {u : UnitId} {n : Nat} (hp : (s.strand x).place = .slot u n) (h id : Nat) : (s.bindHandle x h id).handleOf x h = some id := by
  have hx : (s.bindHandle x h id).strand x = s.strand x := by rw [State.bindHandle_frame]; rfl
  rw [State.handleOf, hx, hp]
  dsimp only
  rw [State.handlesAt, State.bindHandle, hp]
  dsimp only
  rw [State.ten_modTen, Tbl.get_set_same, List.find?_cons_of_pos (by exact beq_self_eq_true h)]
  rfl

/-- A freed handle names no job (R310). -/
theorem State.handleOf_freeHandle (s : State) (x h : Nat) : (s.freeHandle x h).handleOf x h = none := by
  have hx : (s.freeHandle x h).strand x = s.strand x := by rw [State.freeHandle_frame]; rfl
  rw [State.handleOf, hx]
  split
  · next u n hp =>
    rw [State.handlesAt, State.freeHandle, hp]
    dsimp only
    rw [State.ten_modTen, Tbl.get_set_same, List.find?_eq_none.mpr]
    · rfl
    · intro e he
      simpa using (List.mem_filter.mp he).2
  · rfl

theorem State.handleOf_congr {t : State} {h : Nat} (hp : (t.strand x).place = (s.strand x).place) (ht : (t.strand x).tag = (s.strand x).tag)
    (hten : t.tens = s.tens) : t.handleOf x h = s.handleOf x h := by
  unfold State.handleOf State.handlesAt State.ten
  dsimp only
  rw [hp, ht, hten]

theorem State.posted_fork (hc : Tbl.find s.cards id = some c) {h : Nat} {b : RegZ} :
    s.posted x (.fork h b) id = (s.bindHandle x h id).answer x (PostKind.reply (.fork h b) c) := by
  simp only [State.posted, hc, PostKind.reply, beq_iff_eq]

theorem State.posted_job (hc : Tbl.find s.cards id = some c) {a : RegZ} : s.posted x (.job a) id = s.answer x (PostKind.reply (.job a) c) := by
  rw [State.posted, hc]
  rfl

/-- A posted card leaves its poster with a reply, and no other strand anything. -/
theorem State.posted_frame (hc : Tbl.find s.cards id = some c) : ∃ tens, s.posted x k id =
    ({ s with tens := tens } : State).setStrand x { s.strand x with wait := .reply (k.reply c) } := by
  cases k with
  | fork h b => rw [State.posted_fork hc, State.bindHandle_frame]; exact ⟨_, rfl⟩
  | job a => rw [State.posted_job hc]; exact ⟨s.tens, rfl⟩
  | asn h =>
    change ∃ tens, (s.bindHandle x h id).answer x nothing = _
    rw [State.bindHandle_frame]
    exact ⟨_, rfl⟩

theorem State.handleOf_posted (hc : Tbl.find s.cards id = some c) {u : UnitId} {n h : Nat} {b : RegZ} (hp : (s.strand x).place = .slot u n) :
    (s.posted x (.fork h b) id).handleOf x h = some id := by
  have hx := State.strand_answer (s.bindHandle x h id) x (PostKind.reply (.fork h b) c)
  have hh : ((s.bindHandle x h id).answer x (PostKind.reply (.fork h b) c)).handleOf x h = (s.bindHandle x h id).handleOf x h :=
    State.handleOf_congr (by rw [hx]) (by rw [hx]) rfl
  rw [State.posted_fork hc, hh]
  exact State.handleOf_bindHandle hp h id

/-- The issuing strand waits for its card to be posted (R87). -/
def State.posting (s : State) (k : PostKind) (c : Card) : State :=
  ({ s.setCard s.nextId c with nextId := s.nextId + 1 } : State).waitOn s.cur (.post k s.nextId s.serial)

theorem State.me_posting (s : State) (k : PostKind) (c : Card) : (s.posting k c).me = { s.me with
    status := .waiting, wait := .post k s.nextId s.serial, since := s.clock, arr := s.nextId + 1, hang := 0, hangAt := s.clock } :=
  State.strand_waitOn _ _ _

/-- A card for another die waits for the poster's release (R87). -/
theorem State.postBy_abroad (hd : c.die ≠ s.myDie) : s.postBy k c = s.posting k c := by
  rw [State.postBy, if_neg hd]
  rfl

/-- A card for the poster's own die is posted at once (R87). -/
theorem State.postBy_home (hd : c.die = s.myDie) :
    s.postBy k c = ((s.posting k c).postCard s.nextId s.me.ord s.myDie).posted s.cur k s.nextId := by
  rw [State.postBy, if_pos hd]
  rfl

theorem Tbl.mem_set_of_mem {α : Type} {t : Tbl α} {n : Nat} {v : α} {e : Nat × α} (h : e ∈ t) (hn : e.1 ≠ n) : e ∈ Tbl.set t n v := by
  induction t with
  | nil => cases h
  | cons f t ih =>
    obtain ⟨k, w⟩ := f
    simp only [Tbl.set]
    split
    · next hk =>
      rcases List.mem_cons.mp h with rfl | h
      · exact absurd hk hn
      · exact List.mem_cons_of_mem _ h
    · split
      · exact List.mem_cons_of_mem _ h
      · rcases List.mem_cons.mp h with rfl | h
        · exact List.mem_cons_self
        · exact List.mem_cons_of_mem _ (ih h)

/-- A card that is new to the table and not posted yet adds none to those that are posted. -/
theorem mem_set_posted {t : Tbl Card} {q : Card} {p : Nat} (hnew : Tbl.find t id = none) (hc : c.posted = false) (hq : q.posted = true) :
    (p, q) ∈ Tbl.set t id c ↔ (p, q) ∈ t := by
  refine ⟨fun h => ?_, fun h => Tbl.mem_set_of_mem h ?_⟩
  · rcases Tbl.mem_set h with he | h
    · obtain ⟨-, rfl⟩ := Prod.mk.inj he
      exact absurd (hq.symm.trans hc) (by decide)
    · exact h
  · rintro rfl
    exact Tbl.mem_keys.mp (List.mem_map_of_mem h) hnew

/-- What the posting of a card for the poster's own die leaves (R87, R308, R309). -/
theorem State.postBy_home_posted (hd : c.die = s.myDie) (hnew : Tbl.find s.cards s.nextId = none) (hc : c.posted = false) :
    (s.postBy k c).mem = s.mem ∧ Claims.Posted s s.nextId c s.me.ord (s.postBy k c) ∧ (s.postBy k c).me.status = .waiting ∧
    (s.postBy k c).me.wait = .reply (k.reply { c with xid := if c.kind = .copy then (s.chan c.channel).next else 0 }) ∧
    ∀ h b u n, k = .fork h b → s.me.place = .slot u n → (s.postBy k c).handleOf s.cur h = some s.nextId := by
  have hpost := State.postCard_posted (s := s) (o := s.me.ord) (d := s.myDie) (id := s.nextId) (t := s.posting k c) (c := c) (Tbl.find_set_same _ _ _)
    (fun p q hq => mem_set_posted hnew hc hq) rfl
  have hme := s.me_posting k c
  have hframe := (s.posting k c).postCard_frame s.nextId s.me.ord s.myDie
  rw [hd, State.arriveOrd_same] at hpost
  rw [State.postBy_home hd]
  generalize (s.posting k c).postCard s.nextId s.me.ord s.myDie = t at hpost hframe ⊢
  have hx : t.strand s.cur = (s.posting k c).me := by rw [hframe]; rfl
  obtain ⟨ps, hfind, hedges, hchan⟩ := hpost
  obtain ⟨tens, hposted⟩ := State.posted_frame (x := s.cur) (k := k) hfind
  have hmem : (t.posted s.cur k s.nextId).mem = s.mem := by rw [hposted, hframe]; rfl
  have hreply : (t.posted s.cur k s.nextId).me = { t.strand s.cur with
      wait := .reply (k.reply { c with xid := if c.kind = .copy then (s.chan c.channel).next else 0 }) } := by
    have hcur : (t.posted s.cur k s.nextId).cur = s.cur := by rw [hposted, hframe]; rfl
    rw [State.me, hcur, hposted, State.strand_setStrand]
    cases k <;> rfl
  refine ⟨hmem, ?_, by rw [hreply, hx, hme], by rw [hreply], ?_⟩
  · rw [hposted]
    exact ⟨ps, hfind, hedges, hchan⟩
  · rintro h b u n rfl hp
    exact State.handleOf_posted hfind (by rw [hx, hme]; exact hp)

section
variable {lines : Tbl LineOrder} {o : OrderState}

theorem State.myDie_hasRead : (s.hasRead lines o).myDie = (Claims.here s).die := congrArg UnitId.die State.hasRead_unitOf

/-- A card that has been read, for the poster's own die. -/
theorem State.read_postBy_home (hd : c.die = (Claims.here s).die) (hnew : Tbl.find s.cards s.nextId = none) (hc : c.posted = false) :
    ((s.hasRead lines o).postBy k c).mem = s.mem ∧ Claims.Posted s s.nextId c o ((s.hasRead lines o).postBy k c) ∧
    ((s.hasRead lines o).postBy k c).me.status = .waiting ∧ ((s.hasRead lines o).postBy k c).me.wait =
      .reply (k.reply { c with xid := if c.kind = .copy then (s.chan c.channel).next else 0 }) ∧
    ∀ h b u n, k = .fork h b → s.me.place = .slot u n → ((s.hasRead lines o).postBy k c).handleOf s.cur h = some s.nextId := by
  obtain ⟨hmem, hposted, hst, hwait, hhandle⟩ :=
    State.postBy_home_posted (s := s.hasRead lines o) (k := k) (hd.trans State.myDie_hasRead.symm) hnew hc
  rw [State.hasRead_me] at hposted hhandle
  exact ⟨hmem, hposted, hst, hwait, hhandle⟩

/-- A card that has been read, for another die. -/
theorem State.read_postBy_abroad (hd : c.die ≠ (Claims.here s).die) : ((s.hasRead lines o).postBy k c).mem = s.mem ∧
    Tbl.find ((s.hasRead lines o).postBy k c).cards s.nextId = some c ∧ ((s.hasRead lines o).postBy k c).me.ord = o ∧
    ((s.hasRead lines o).postBy k c).me.wait = .post k s.nextId s.serial := by
  rw [State.postBy_abroad (by rw [State.myDie_hasRead]; exact hd)]
  refine ⟨rfl, Tbl.find_set_same _ _ _, ?_⟩
  rw [State.me_posting, State.hasRead_me]
  exact ⟨rfl, rfl⟩

end

end

theorem pack_two (a b i j : Nat) : pack [(a, i), (b, j)] = .ofNat 64 (a * 2 ^ i + b * 2 ^ j) := by
  simp only [pack, List.foldl_cons, List.foldl_nil, Nat.zero_add]

/-- The transfer word of a posted copy (R309). -/
theorem transfer_eq_transferWord (s : State) (c : Card) : Card.transfer { c with xid := (s.chan c.channel).next } = Claims.transferWord s c := by
  have h : ((s.chan c.channel).next * 2 ^ 0 + c.channel * 2 ^ 32) =
      (s.chan c.channel).next + c.chan * 2 ^ 32 + c.eng * 2 ^ 35 + c.die * 2 ^ 39 := by
    generalize (s.chan c.channel).next = n
    rw [Card.channel, chanKey]
    omega
  rw [Claims.transferWord, ← h, ← pack_two]
  rfl

/- FORK and JOB (R308, R309). -/

section
variable {s : State} {a b : RegZ} {h : BitVec 5} {g : Guard} {i : Instr} {kind off : Nat} {ws : List W64} {c : Card} {o : OrderState}

theorem tableCard_copy_iff (tag bay : Nat) (w1 : W128) (ws : List W64) :
    (Claims.tableCard tag bay w1 ws).kind = .copy ↔ Claims.cardBits ws 0 62 2 = 0 := by
  unfold Claims.tableCard
  dsimp only
  split
  · simp [*]
  · split <;> simp [*]

/-- FORK of a free handle posts the card that it reads, a program's with w1 (R308). -/
theorem forkIssue_posts {t : State} (hi : Claims.Issues s g) (hsp : ¬ Claims.OnSpindle s) (hh : s.handleOf s.cur h.toNat = none)
    (hcard : ∀ i k, s.ownCard i (lo64 (regz s.me a)) kind k = k (Claims.tableCard s.me.tag (Claims.here s).bay 0 ws) t)
    (hc : c = Claims.tableCard s.me.tag (Claims.here s).bay (if kind = 0 then 0 else regz s.me b) ws) :
    forkIssue i kind a b h g s = .next (t.postBy (.fork h.toNat b) c) := by
  have hw : (if kind = 0 then Claims.tableCard s.me.tag (Claims.here s).bay 0 ws else
      { Claims.tableCard s.me.tag (Claims.here s).bay 0 ws with w1 := regz s.me b }) = c := by
    rw [hc]
    split <;> rfl
  rw [forkIssue, State.issue_any_of_issues hi, State.coreOnly_core (Bool.eq_false_iff.mpr hsp), hh, hcard, hw]
  rfl

theorem execJob_posts {t : State} (hi : Claims.Issues s g)
    (hcard : ∀ i k, s.ownCard i (lo64 (regz s.me a)) 0 k = k (Claims.tableCard s.me.tag (Claims.here s).bay 0 ws) t) :
    execJob a g s = .next (t.postBy (.job a) (Claims.tableCard s.me.tag (Claims.here s).bay 0 ws)) := by
  rw [execJob, State.issue_any_of_issues hi, hcard]

/-- FORK and JOB read a card that keeps Table 15-5, and post it (R299, R308, R309). -/
theorem exec_posts_card (hi : Claims.Issues s g)
    (hlist : (kind, i) ∈ [(1, Instr.forkLoad a b h g), (2, .forkStore a b h g), (0, .forkCopy a b h g), (0, .job a g)])
    (hfork : i ≠ .job a g → ¬ Claims.OnSpindle s ∧ s.handleOf s.cur h.toNat = none) (ha : (lo64 (regz s.me a)).toNat = off)
    (hline : off % 128 = 0) (hoff : off < 2 ^ 18) (hw : Claims.OwnWords s off 16 ws) (hok : cardOk ws = true)
    (hkind : Claims.cardBits ws 0 62 2 = kind)
    (hc : c = Claims.tableCard s.me.tag (Claims.here s).bay (if kind = 0 then 0 else regz s.me b) ws)
    (hown : kind ≠ 0 → s.ownsBay s.me.tag c.die c.pbay = true)
    (ho : o = s.me.ord.sawLine (s.lineAt (.spad (Claims.here s).die (Claims.here s).bay off))) : ∃ lines k,
      k = (if i = .job a g then .job a else .fork h.toNat b) ∧ exec i s = .next ((s.hasRead lines o).postBy k c) := by
  obtain ⟨lines, hcard⟩ := State.ownCard_of_words ha hline hoff hw hok hkind (fun h0 => by rw [hc] at hown; exact hown h0)
  rw [← ho] at hcard
  simp only [List.mem_cons, Prod.mk.injEq, List.not_mem_nil, or_false] at hlist
  have hforks (hi' : i ≠ .job a g) : forkIssue i kind a b h g s = .next ((s.hasRead lines o).postBy (.fork h.toNat b) c) :=
    forkIssue_posts hi (hfork hi').1 (hfork hi').2 hcard hc
  rcases hlist with ⟨rfl, rfl⟩ | ⟨rfl, rfl⟩ | ⟨rfl, rfl⟩ | ⟨rfl, rfl⟩
  · exact ⟨lines, _, (if_neg nofun).symm, hforks nofun⟩
  · exact ⟨lines, _, (if_neg nofun).symm, hforks nofun⟩
  · exact ⟨lines, _, (if_neg nofun).symm, hforks nofun⟩
  · refine ⟨lines, _, (if_pos rfl).symm, ?_⟩
    rw [hc, if_pos rfl]
    exact execJob_posts hi hcard

/-- The reply to FORK and JOB: a copy's transfer word (R308, R309). -/
theorem reply_of_posting {k : PostKind} (hk : k = if i = .job a g then .job a else .fork h.toNat b) (hcopy : c.kind = .copy ↔ kind = 0)
    (hjob : i = .job a g → kind = 0) : k.reply { c with xid := if c.kind = .copy then (s.chan c.channel).next else 0 } =
      if i = .job a g then .mk (RegZ.dst a) (zext128 (Claims.transferWord s c)) none 0 none
      else if kind = 0 then .mk (RegZ.dst b) (zext128 (Claims.transferWord s c)) none 0 none else Claims.noResult := by
  subst hk
  by_cases h0 : kind = 0
  · have hc := hcopy.mpr h0
    rw [if_pos hc, ← transfer_eq_transferWord, if_pos h0]
    split
    · rfl
    · exact if_pos hc
  · rw [if_neg fun hi => h0 (hjob hi), if_neg fun hi => h0 (hjob hi), if_neg h0]
    exact if_neg fun hc => h0 (hcopy.mp hc)

end

/- DEVICE_RELEASE of a posting (R74, R87). -/

section
variable {s : State} {x id upto d : Nat} {k : PostKind} {c : Card}

theorem exec_deviceRelease_post (h : (s.strand x).wait = .post k id upto) (hd : d = (s.unitOf x).die) :
    exec (.deviceRelease (.strand x)) s = .next (if s.drained d false upto then s.postRelease x k id else s) := by
  subst hd
  change s.ifEnabled (s.strandReleased x) = _
  rw [State.strandReleased, h]
  change s.ifEnabled (if s.drained (s.unitOf x).die false upto then some (s.postRelease x k id) else none) = _
  split <;> rfl

/-- A card is posted once its poster has released (R87). -/
theorem State.postRelease_posted (hc : Tbl.find s.cards id = some c) : ∃ o r, Claims.Posted s id c o (s.postRelease x k id) ∧
    (s.postRelease x k id).strand x = { s.strand x with ord := s.releaseBy (s.strand x).ord (s.unitOf x).die, wait := .reply r } ∧
    o.rs = (s.releaseBy (s.strand x).ord (s.unitOf x).die).rs := by
  have hrel : s.postRelease x k id = ((s.strandRelease x .dev).postCard id ((s.strandRelease x .dev).strand x).ord
      ((s.strandRelease x .dev).dieOf x)).posted x k id := rfl
  rw [State.strandRelease_wide rfl] at hrel
  generalize hs1 : s.setStrand x { s.strand x with ord := s.releaseBy (s.strand x).ord (s.unitOf x).die } = s1 at hrel
  have hx : s1.strand x = { s.strand x with ord := s.releaseBy (s.strand x).ord (s.unitOf x).die } := by rw [← hs1, State.strand_setStrand]
  have hpost := State.postCard_posted (s := s) (t := s1) (o := (s1.strand x).ord) (d := s1.dieOf x) (by rw [← hs1]; exact hc)
    (fun p q _ => by rw [← hs1]; rfl) (by rw [← hs1]; rfl)
  have hrs := s1.arriveOrd_rs (s1.strand x).ord (s1.dieOf x) c.die
  have hframe := s1.postCard_frame id (s1.strand x).ord (s1.dieOf x)
  generalize s1.postCard id (s1.strand x).ord (s1.dieOf x) = t at hpost hframe hrel
  have ht : t.strand x = s1.strand x := by rw [hframe]; rfl
  obtain ⟨ps, hfind, hedges, hchan⟩ := hpost
  obtain ⟨tens, hposted⟩ := State.posted_frame (x := x) (k := k) hfind
  rw [hrel, hposted, State.strand_setStrand, ht, hx]
  exact ⟨_, _, ⟨ps, hfind, hedges, hchan⟩, rfl, hrs.trans (by rw [hx])⟩

end

/- RDV (R310). -/

section
variable {s : State} {h : BitVec 5} {g : Guard} {id : Nat} {c : Card} {v : V4}

theorem exec_rdv_returns {t : State} (hi : Claims.Issues s g) (hsp : ¬ Claims.OnSpindle s) (ht : s.rdvTry s.cur h.toNat = some t) :
    exec (.rdv h g) s = .next (Claims.done t) := by
  change execRdv h g s = _
  rw [execRdv, State.issue_any_of_issues hi, State.coreOnly_core (Bool.eq_false_iff.mpr hsp), ht]
  exact congrArg Host.Outcome.next (State.retire_nothing t)

theorem exec_rdv_waits (hi : Claims.Issues s g) (hsp : ¬ Claims.OnSpindle s) (ht : s.rdvTry s.cur h.toNat = none) :
    exec (.rdv h g) s = .next (s.waitOn s.cur (.rdv h.toNat)) := by
  change execRdv h g s = _
  rw [execRdv, State.issue_any_of_issues hi, State.coreOnly_core (Bool.eq_false_iff.mpr hsp), ht]

theorem State.rdvTry_free {x k : Nat} (hh : s.handleOf x k = none) : s.rdvTry x k = some s := by rw [State.rdvTry, hh]

theorem State.rdvTry_running {x k : Nat} (hh : s.handleOf x k = some id) (hc : Tbl.find s.cards id = some c) (hcs : c.cs = none) : s.rdvTry x k = none := by
  simp only [State.rdvTry, hh, hc, hcs]

theorem State.rdvTry_completed {x k : Nat} (hh : s.handleOf x k = some id) (hc : Tbl.find s.cards id = some c) (hcs : c.cs = some v) (hk : c.kind ≠ .seq) :
    s.rdvTry x k = some ((s.strandApply x [v]).freeHandle x k) := by
  simp only [State.rdvTry, hh, hc, hcs, if_neg hk]

theorem State.strandApply_one (s : State) (x : Nat) (v : V4) : s.strandApply x [v] = (s.applyStamp (s.strand x).ord (s.unitOf x).die .dev v).2.setStrand x
    { s.strand x with ord := (s.applyStamp (s.strand x).ord (s.unitOf x).die .dev v).1 } := by
  have h : s.strandApply x [v] = (s.applyStamp (s.strand x).ord (s.unitOf x).die .dev v).2.modStrand x
    (fun t => { t with ord := (s.applyStamp (s.strand x).ord (s.unitOf x).die .dev v).1 }) := rfl
  rw [h, State.modStrand, State.strand_applyStamp]

/-- RDV of a completed job: its stamp is applied, and its handle is free (R310). -/
theorem rdv_applies (hi : Claims.Issues s g) (hsp : ¬ Claims.OnSpindle s) (hh : s.handleOf s.cur h.toNat = some id) (hc : Tbl.find s.cards id = some c)
    (hk : c.kind ≠ .seq) (hcs : c.cs = some v) : ∃ t o s1, exec (.rdv h g) s = .next t ∧ t.mem = s.mem ∧ t.handleOf s.cur h.toNat = none ∧
      Claims.Applied s s.me.ord (Claims.here s).die .dev v o s1 ∧ t.me = { Claims.next s.me with ord := o } := by
  have hexec := exec_rdv_returns hi hsp (State.rdvTry_completed hh hc hcs hk)
  have happ := State.applyStamp_applied (sc := .dev) rfl s s.me.ord (Claims.here s).die v
  have hframe := s.applyStamp_frame s.me.ord (Claims.here s).die .dev v
  have hone : s.strandApply s.cur [v] = (s.applyStamp s.me.ord (Claims.here s).die .dev v).2.setStrand s.cur
    { s.me with ord := (s.applyStamp s.me.ord (Claims.here s).die .dev v).1 } := s.strandApply_one s.cur v
  rw [hone] at hexec
  generalize s.applyStamp s.me.ord (Claims.here s).die .dev v = r at hexec happ hframe
  have hfree := State.handleOf_freeHandle (r.2.setStrand s.cur { s.me with ord := r.1 }) s.cur h.toNat
  have hfr := State.freeHandle_frame (r.2.setStrand s.cur { s.me with ord := r.1 }) s.cur h.toNat
  generalize (r.2.setStrand s.cur { s.me with ord := r.1 }).freeHandle s.cur h.toNat = t at hexec hfree hfr
  have hcur : t.cur = s.cur := by rw [hfr, hframe]; rfl
  have hme : t.me = { s.me with ord := r.1 } := by
    rw [State.me, hcur, hfr]
    exact State.strand_setStrand ..
  have hdone : (Claims.done t).strand s.cur = Claims.next t.me := by rw [← hcur]; exact State.me_done t
  have hplace : ((Claims.done t).strand s.cur).place = (t.strand s.cur).place := by rw [hdone, State.me, hcur]; rfl
  have htag : ((Claims.done t).strand s.cur).tag = (t.strand s.cur).tag := by rw [hdone, State.me, hcur]; rfl
  refine ⟨_, _, _, hexec, ?_, ?_, happ, ?_⟩
  · change t.mem = s.mem
    rw [hfr, hframe]
    rfl
  · rw [State.handleOf_congr hplace htag rfl]
    exact hfree
  · rw [State.me_done, hme]
    rfl

end

/- XID and XWAIT (R311, R312). -/

section
variable {s : State} {a b : RegZ} {g : Guard} {k x id lim : Nat}

theorem channel_word {w : W64} (hw : w.toNat = k * 2 ^ 32) (hk : k < 2 ^ 9) : bits w 63 41 = 0 ∧ bits w 31 0 = 0 ∧ bits w 40 32 = k := by
  simp only [bits, hw]
  omega

theorem xid_reads {c : Chan} (hi : Claims.Issues s g) (ha : (lo64 (regz s.me a)).toNat = k * 2 ^ 32) (hk : k < 2 ^ 9) (hc : c = s.chan k) :
    exec (.xid a b g) s = .next (Claims.replyDue s (RegZ.dst b)
      (mk128 (.ofNat 64 (c.errId + c.errCode * 2 ^ 32)) (.ofNat 64 (c.wm + c.next * 2 ^ 32))) none) := by
  obtain ⟨hhigh, hlow, hmid⟩ := channel_word ha hk
  change execXid a b g s = _
  rw [execXid, State.issue_any_of_issues hi]
  dsimp only
  rw [hhigh, hlow, hmid, ← hc, Chan.word, pack_two, pack_two]
  simp only [Nat.pow_zero, Nat.mul_one]
  rfl

theorem xwait_waits (hi : Claims.Issues s g) (ha : (lo64 (regz s.me a)).toNat = k * 2 ^ 32) (hk : k < 2 ^ 9) (hid : id < 2 ^ 32) (hlim : lim < 32)
    (hb : (lo64 (regz s.me b)).toNat = id + lim * 2 ^ 32) : exec (.xwait a b g) s = .next (s.waitOn s.cur (.xwait k id
      (if lim = 0 ∨ lim = 31 then 30 else if lim < 10 then 10 else lim))) := by
  obtain ⟨hhigh, hlow, hmid⟩ := channel_word ha hk
  have hres : bits (lo64 (regz s.me b)) 63 37 = 0 := bits_cwait_zero.mpr (by omega)
  obtain ⟨hfirst, hsecond⟩ := bits_cwait hb hid hlim
  change execXwait a b g s = _
  rw [execXwait, State.issue_any_of_issues hi]
  dsimp only
  rw [hhigh, hlow, hmid, hres, hfirst, hsecond, ← cwaitLim_eq]
  rfl

theorem Chan.complete_iff (c : Chan) (id : Nat) : c.complete id = true ↔ Claims.TransferDone c id := decide_eq_true_iff

/-- Stamps that are applied one after the other lower no time, and the state has seen each of them (R76, R90). -/
theorem State.applyStamps_bounds (vs : List V4) (s : State) (o : OrderState) (d : Nat) : o.pts ≤ (s.applyStamps o d vs).1.pts ∧
    (∀ e < 4, e ≠ d → o.vw.get e ≤ (s.applyStamps o d vs).1.vw.get e) ∧ ∀ v ∈ vs, v.get d ≤ (s.applyStamps o d vs).1.pts ∧
      ∀ e < 4, e ≠ d → v.get e ≤ (s.applyStamps o d vs).1.vw.get e := by
  induction vs generalizing s o with
  | nil => exact ⟨le_refl _, fun _ _ _ => le_refl _, nofun⟩
  | cons v vs ih =>
    obtain ⟨-, -, hpts, hvw⟩ := (State.applyStamp_applied (sc := .dev) rfl s o d v).1
    obtain ⟨ipts, ivw, iall⟩ := ih (s.applyStamp o d .dev v).2 (s.applyStamp o d .dev v).1
    have hview (e : Nat) (he : e < 4) (hd : e ≠ d) : max (o.vw.get e) (v.get e) ≤ (s.applyStamps o d (v :: vs)).1.vw.get e := by
      have := ivw e he hd
      rwa [hvw e he, if_neg hd] at this
    rw [hpts] at ipts
    refine ⟨(le_max_left _ _).trans ipts, fun e he hd => (le_max_left _ _).trans (hview e he hd), fun w hw => ?_⟩
    rcases List.mem_cons.mp hw with rfl | hw
    · exact ⟨(le_max_right _ _).trans ipts, fun e he hd => (le_max_right _ _).trans (hview e he hd)⟩
    · exact iall w hw

theorem State.xwaitTry_running (h : ¬ Claims.TransferDone (s.chan k) id) : s.xwaitTry x k id = none := by
  have hc : (s.chan k).complete id = false := by rw [← Bool.not_eq_true, Chan.complete_iff]; exact h
  rw [State.xwaitTry, hc]
  rfl

/-- A completed transfer's channel gives the strand every completion that it has not applied yet (R312). -/
theorem State.xwaitTry_done (h : Claims.TransferDone (s.chan k) id) : ∃ o ap t, s.xwaitTry x k id = some t ∧ t.mem = s.mem ∧
    t.strand x = { s.strand x with ord := o, applied := ap } ∧ ∀ cs ∈ (s.chan k).log.drop (Tbl.get 0 (s.strand x).applied k),
      cs.get (s.unitOf x).die ≤ o.pts ∧ ∀ d < 4, d ≠ (s.unitOf x).die → cs.get d ≤ o.vw.get d := by
  have hc : (s.chan k).complete id = true := (Chan.complete_iff _ _).mpr h
  generalize hvs : (s.chan k).log.drop (Tbl.get 0 (s.strand x).applied k) = vs
  obtain ⟨-, -, hall⟩ := s.applyStamps_bounds vs (s.strand x).ord (s.unitOf x).die
  have hframe := s.applyStamps_frame vs (s.strand x).ord (s.unitOf x).die
  have htry : s.xwaitTry x k id = some ((s.strandApply x vs).modStrand x
    (fun t => { t with applied := Tbl.set t.applied k (s.chan k).log.length })) := by
    rw [← hvs, State.xwaitTry, hc]
    rfl
  rw [State.strandApply] at htry
  generalize s.applyStamps (s.strand x).ord (s.unitOf x).die vs = r at hall hframe htry
  refine ⟨r.1, Tbl.set (s.strand x).applied k (s.chan k).log.length, _, htry, ?_, ?_, hall⟩
  · rw [State.modStrand_mem, State.modStrand_mem, hframe]
  · rw [State.strand_modStrand, State.strand_modStrand, hframe]
    rfl

/-- A strand that goes on with nothing to write (R126). -/
theorem State.strand_cameBack_doneOf (s : State) (x : Nat) :
    ((s.doneOf x).cameBack x).strand x = { retired (s.strand x) nothing with back := s.clock + 1 } := by
  rw [State.cameBack, State.strand_modStrand, State.doneOf, State.retireReg]
  exact congrArg (fun v : Strand => { v with back := s.clock + 1 }) (State.strand_modStrand ..)

variable (hw : (s.strand x).wait = .xwait k id lim)
include hw

/-- A transfer wait goes on once its transfer has completed (R312). -/
theorem xwait_returns (h : Claims.TransferDone (s.chan k) id) (hp : s.present x = true) (hst : (s.strand x).status = .waiting) :
    ∃ t, exec (.operationReply x) s = .next t ∧ t.mem = s.mem ∧ (t.strand x).status = .ready ∧ (t.strand x).pc = (s.strand x).pc + 4 ∧
      (t.strand x).regs = (s.strand x).regs ∧ ∀ cs ∈ (s.chan k).log.drop (Tbl.get 0 (s.strand x).applied k),
        cs.get (s.unitOf x).die ≤ (t.strand x).ord.pts ∧ ∀ d < 4, d ≠ (s.unitOf x).die → cs.get d ≤ (t.strand x).ord.vw.get d := by
  obtain ⟨o, ap, t, htry, hmem, hx, hall⟩ := State.xwaitTry_done (x := x) h
  have hor : s.operationReply x = some (t.doneOf x) := by
    rw [State.operationReply, if_neg (State.operationReply_guard hp hst), hw]
    dsimp only
    rw [htry]
    rfl
  refine ⟨_, operationReply_of_some hor, hmem, ?_⟩
  rw [State.strand_cameBack_doneOf, hx]
  exact ⟨rfl, rfl, rfl, hall⟩

theorem xwait_stays (h : ¬ Claims.TransferDone (s.chan k) id) : exec (.operationReply x) s = .next s := by
  refine operationReply_of_none ?_
  rw [State.operationReply]
  split
  · rfl
  · rw [hw]
    dsimp only
    rw [State.xwaitTry_running h]
    rfl

/-- A transfer wait past its limit traps (R312, Table 10-5). -/
theorem xwait_timesOut (h : ¬ Claims.TransferDone (s.chan k) id) (hout : Claims.WaitedOut s x (2 ^ lim)) :
    exec (.transferWaitTimeout x) s = .next (Claims.trapped s x 0x4D (.ofNat 64 (id + k * 2 ^ 32))) := by
  have hc : (s.chan k).complete id = false := by rw [← Bool.not_eq_true, Chan.complete_iff]; exact h
  change s.ifEnabled (s.transferTimeout x) = _
  rw [State.transferTimeout, hw]
  dsimp only
  rw [hc, State.expired_iff.mpr hout, pack_two, Nat.pow_zero, Nat.mul_one]
  exact congrArg Host.Outcome.next (s.defer_eq_trapped x 0x4D _)

end

end Sys2Proof.Machine

namespace Sys2Proof
open Sys2Proof.Machine

/-- Settles O35, instruction by instruction: the card that FORK and JOB read (`exec_posts_card`) and what its posting leaves, at once
(`State.postBy_home_posted`) or after the poster's release (`State.postRelease_posted`); RDV (`rdv_applies`); XID, XWAIT and the wait for a transfer. -/
theorem jobInstructionResult : Obligations.JobInstructionResult := by
  intro s a b h g n hi
  refine ⟨fun kind off i ws c o hlist hfork ha hline hoff hw hok hkind hc hown hnew ho => ?_, fun x id upto k c hwait hc hposted => ?_,
    fun hsp hplace => ⟨fun hh => exec_rdv_returns hi hsp (State.rdvTry_free hh), fun id c hh hc hk => ⟨fun hcs => ?_, fun cs hcs => ?_⟩⟩,
    fun k c ha hk hc => ⟨xid_reads hi ha hk hc, fun id lim hid hlim hb => xwait_waits hi ha hk hid hlim hb⟩,
    fun x k id lim hw hid => ⟨fun hdone hp hst => xwait_returns hw hdone hp hst, fun hrun => ⟨xwait_stays hw hrun, xwait_timesOut hw hrun⟩⟩⟩
  · obtain ⟨lines, k, hk, hexec⟩ := exec_posts_card hi hlist (fun hj => ⟨(hfork hj).1, (hfork hj).2.1⟩) ha hline hoff hw hok hkind hc hown ho
    have hcopy : c.kind = .copy ↔ kind = 0 := by rw [hc, tableCard_copy_iff, hkind]
    have hjob : i = .job a g → kind = 0 := by
      rintro rfl
      simpa using hlist
    refine ⟨fun hd => ?_, fun hd => ?_⟩
    · obtain ⟨hmem, hposted, hst, hwait, hhandle⟩ := State.read_postBy_home (lines := lines) (k := k) (o := o) hd hnew (by rw [hc]; rfl)
      rw [reply_of_posting hk hcopy hjob] at hwait
      exact ⟨_, hexec, hmem, hposted, hst, hwait, fun hj => hhandle _ b _ n (hk.trans (if_neg hj)) (hfork hj).2.2⟩
    · obtain ⟨hmem, hcard, hord, hwait⟩ := State.read_postBy_abroad (lines := lines) (k := k) (o := o) hd
      exact ⟨_, k, hexec, hmem, hcard, hord, hwait⟩
  · rw [exec_deviceRelease_post hwait rfl]
    refine ⟨fun hf => by rw [hf]; rfl, fun ht => ?_⟩
    obtain ⟨o, r, hpost, hx, hrs⟩ := State.postRelease_posted (x := x) (k := k) hc
    rw [ht, if_pos rfl]
    refine ⟨_, o, r, rfl, hpost, ?_⟩
    rw [hx]
    exact ⟨releasedOrd_releaseBy s _ _, hrs, rfl⟩
  · exact exec_rdv_waits hi hsp (State.rdvTry_running hh hc hcs)
  · exact rdv_applies hi hsp hh hc hk hcs

end Sys2Proof
end
